-- ==== Sys2Proof/Word.lean ====
section
/-! DEFINITION. The word types of the P960: bytes, 64-bit words, vectors of 2,048 bits (R119, R165), slot words and bundles (R34). -/

namespace Sys2Proof

/-- One byte of any store. -/
abbrev Byte := BitVec 8
/-- A scalar register, a system register or an 8-byte word. -/
abbrev W64 := BitVec 64
/-- A vector register (R165). -/
abbrev Vec := BitVec 2048
/-- One slot word of a bundle (R35). -/
abbrev SlotWord := BitVec 32
/-- One bundle of eight slot words, slot 0 in the low bits (R34). -/
abbrev Bundle := BitVec 256

end Sys2Proof
end

