-- ==== Sys2Proof/Syntax.lean ====
section
/-! DEFINITION. The instructions: one constructor for each row of spec/opcode_table.json. The first 181 rows are slot words of a
bundle (02_bundle.md R50, R51); an SB cell is the SA row with unit `b`. The other 87 rows are the device steps of
95_what_each_step_holds.md: they have no encoding, and their arguments name the unit in which the step happens. -/

namespace Sys2Proof

/-- The two scalar engines: slot 1 and slot 2 have the same cells (R51). -/
inductive SUnit where
  | a | b
  deriving DecidableEq, Repr

/-- The guard of a slot word: predicate number and NEG bit (R35, R39). -/
structure Guard where
  p : BitVec 4
  neg : Bool
  deriving DecidableEq, Repr

/-- The eight slots of a bundle (R8). -/
inductive Slot where
  | br | sa | sb | ld | vx | mx | dx | sq
  deriving DecidableEq, Repr

/-- Who writes a register window (18_host.md R394). -/
inductive Writer where
  | host | kernel | management | other
  deriving DecidableEq, Repr

/-- The kinds of access that the host port, a peer or a drive makes (R98, R399, R401). -/
inductive MemOp where
  | read | write | fetchAdd | swap | cas
  deriving DecidableEq, Repr

/-- One constructor for each row of the opcode table. -/
inductive Instr where
  | brNop
  | saNop
  | sbNop
  | ldNop
  | vxNop
  | mxNop
  | dxNop
  | sqNop
  | brJmp (g : Guard) (o : BitVec 21)
  | brCall (g : Guard) (o : BitVec 21)
  | brJmpr (g : Guard) (a : BitVec 6)
  | brRet (g : Guard)
  | brLoop (g : Guard) (l : BitVec 2) (o : BitVec 19)
  | brLset (g : Guard) (l : BitVec 2) (a : BitVec 6)
  | brDelay (n : BitVec 16)
  | brWaita (g : Guard) (a b : BitVec 6) (cd : BitVec 3)
  | brTokw (g : Guard) (k : BitVec 5)
  | brPload (g : Guard) (a : BitVec 6)
  | brEarly (g : Guard)
  | brExit (g : Guard)
  | brSys (g : Guard) (n : BitVec 15)
  | brTret (g : Guard)
  | brCrgnOpen (o : BitVec 21)
  | brCrgnClose
  | brBrk (g : Guard) (n : BitVec 15)
  | brBar (g : Guard) (a : BitVec 6)
  | brFevclr (g : Guard)
  | saAdd (u : SUnit) (g : Guard) (d a b : BitVec 6)
  | saSub (u : SUnit) (g : Guard) (d a b : BitVec 6)
  | saMul (u : SUnit) (g : Guard) (d a b : BitVec 6)
  | saMulh (u : SUnit) (g : Guard) (d a b : BitVec 6) (x : BitVec 3)
  | saDiv (u : SUnit) (g : Guard) (d a b : BitVec 6) (x : BitVec 3)
  | saRem (u : SUnit) (g : Guard) (d a b : BitVec 6) (x : BitVec 3)
  | saAnd (u : SUnit) (g : Guard) (d a b : BitVec 6)
  | saOr (u : SUnit) (g : Guard) (d a b : BitVec 6)
  | saXor (u : SUnit) (g : Guard) (d a b : BitVec 6)
  | saShl (u : SUnit) (g : Guard) (d a b : BitVec 6)
  | saShr (u : SUnit) (g : Guard) (d a b : BitVec 6)
  | saSra (u : SUnit) (g : Guard) (d a b : BitVec 6)
  | saMin (u : SUnit) (g : Guard) (d a b : BitVec 6) (x : BitVec 3)
  | saMax (u : SUnit) (g : Guard) (d a b : BitVec 6) (x : BitVec 3)
  | saCmp (u : SUnit) (g : Guard) (p : BitVec 4) (a b : BitVec 6) (cd : BitVec 3)
  | saPand (u : SUnit) (g : Guard) (d a b : BitVec 4)
  | saPor (u : SUnit) (g : Guard) (d a b : BitVec 4)
  | saPxor (u : SUnit) (g : Guard) (d a b : BitVec 4)
  | saMovi (u : SUnit) (g : Guard) (d : BitVec 6) (i : BitVec 15)
  | saMovh (u : SUnit) (g : Guard) (d : BitVec 6) (i : BitVec 15)
  | saAddi (u : SUnit) (g : Guard) (d : BitVec 6) (i : BitVec 15)
  | saLdB64 (u : SUnit) (g : Guard) (d a b : BitVec 6)
  | saLdB32 (u : SUnit) (g : Guard) (d a b : BitVec 6) (x : BitVec 3)
  | saLdB16 (u : SUnit) (g : Guard) (d a b : BitVec 6) (x : BitVec 3)
  | saLdB8 (u : SUnit) (g : Guard) (d a b : BitVec 6) (x : BitVec 3)
  | saStB64 (u : SUnit) (g : Guard) (d a b : BitVec 6)
  | saStB32 (u : SUnit) (g : Guard) (d a b : BitVec 6)
  | saStB16 (u : SUnit) (g : Guard) (d a b : BitVec 6)
  | saStB8 (u : SUnit) (g : Guard) (d a b : BitVec 6)
  | saFaddF64 (u : SUnit) (g : Guard) (d a b : BitVec 6)
  | saFsubF64 (u : SUnit) (g : Guard) (d a b : BitVec 6)
  | saFmulF64 (u : SUnit) (g : Guard) (d a b : BitVec 6)
  | saFdivF64 (u : SUnit) (g : Guard) (d a b : BitVec 6)
  | saFaddF32 (u : SUnit) (g : Guard) (d a b : BitVec 6)
  | saFsubF32 (u : SUnit) (g : Guard) (d a b : BitVec 6)
  | saFmulF32 (u : SUnit) (g : Guard) (d a b : BitVec 6)
  | saFdivF32 (u : SUnit) (g : Guard) (d a b : BitVec 6)
  | saFcvt (u : SUnit) (g : Guard) (d a : BitVec 6) (f t rn : BitVec 3)
  | saFcmpF64 (u : SUnit) (g : Guard) (p : BitVec 4) (a b : BitVec 6) (cd : BitVec 3)
  | saFcmpF32 (u : SUnit) (g : Guard) (p : BitVec 4) (a b : BitVec 6) (cd : BitVec 3)
  | saMfsr (u : SUnit) (g : Guard) (d : BitVec 6) (n : BitVec 12)
  | saMtsr (u : SUnit) (g : Guard) (a : BitVec 6) (n : BitVec 12)
  | saTshape (u : SUnit) (g : Guard) (t : BitVec 4) (a : BitVec 6)
  | ldW (g : Guard) (d b : BitVec 6) (m : BitVec 2) (o : BitVec 7)
  | stW (g : Guard) (d b : BitVec 6) (m : BitVec 2) (o : BitVec 7)
  | ldRow (g : Guard) (d b : BitVec 6) (m : BitVec 2) (o : BitVec 7)
  | stRow (g : Guard) (d b : BitVec 6) (m : BitVec 2) (o : BitVec 7)
  | ldCol (g : Guard) (d b : BitVec 6) (m : BitVec 2) (o : BitVec 7)
  | stCol (g : Guard) (d b : BitVec 6) (m : BitVec 2) (o : BitVec 7)
  | ldTile (g : Guard) (t : BitVec 4) (b : BitVec 6) (m : BitVec 2)
  | stTile (g : Guard) (t : BitVec 4) (b : BitVec 6) (m : BitVec 2)
  | ldAcc (g : Guard) (r b : BitVec 6) (m : BitVec 2) (n : BitVec 7)
  | stAcc (g : Guard) (r b : BitVec 6) (m : BitVec 2) (n : BitVec 7)
  | ldTagsetFull (g : Guard) (b n : BitVec 6)
  | ldTagsetEmpty (g : Guard) (b n : BitVec 6)
  | vxAdd (g : Guard) (d a b : BitVec 6) (t : BitVec 3)
  | vxSub (g : Guard) (d a b : BitVec 6) (t : BitVec 3)
  | vxMul (g : Guard) (d a b : BitVec 6) (t : BitVec 3)
  | vxMin (g : Guard) (d a b : BitVec 6) (t : BitVec 3)
  | vxMax (g : Guard) (d a b : BitVec 6) (t : BitVec 3)
  | vxFmaF32 (g : Guard) (d : BitVec 5) (a b : BitVec 6) (e : BitVec 4)
  | vxFmaF64 (g : Guard) (d : BitVec 5) (a b : BitVec 6) (e : BitVec 4)
  | vxFmaF16 (g : Guard) (d : BitVec 5) (a b : BitVec 6) (e : BitVec 4)
  | vxFmaBf16 (g : Guard) (d : BitVec 5) (a b : BitVec 6) (e : BitVec 4)
  | vxAbs (g : Guard) (d a : BitVec 6) (t : BitVec 3)
  | vxAnd (g : Guard) (d a b : BitVec 6)
  | vxOr (g : Guard) (d a b : BitVec 6)
  | vxXor (g : Guard) (d a b : BitVec 6)
  | vxShl (g : Guard) (d a b : BitVec 6) (t : BitVec 3)
  | vxShr (g : Guard) (d a b : BitVec 6) (t : BitVec 3)
  | vxCmp (g : Guard) (m : BitVec 3) (a b : BitVec 6) (cd t : BitVec 3)
  | vxSel (g : Guard) (d a b : BitVec 6) (m : BitVec 3)
  | vxPerm (g : Guard) (d a b : BitVec 6) (t : BitVec 3)
  | vxBcast (g : Guard) (d a : BitVec 6) (t : BitVec 3)
  | vxMovi (g : Guard) (d : BitVec 6) (i : BitVec 15)
  | vxRedsum (g : Guard) (d a b : BitVec 6) (t : BitVec 3)
  | vxRedmax (g : Guard) (d a b : BitVec 6) (t : BitVec 3)
  | vxExp (g : Guard) (d a : BitVec 6)
  | vxRcp (g : Guard) (d a : BitVec 6)
  | vxRsqrt (g : Guard) (d a : BitVec 6)
  | vxCvt (g : Guard) (d a : BitVec 6) (f t : BitVec 4)
  | vxCvts (g : Guard) (d a : BitVec 6) (f t : BitVec 4)
  | vxAmax (g : Guard) (d a b : BitVec 6) (t : BitVec 3)
  | vxScale (g : Guard) (d a b : BitVec 6) (t : BitVec 3)
  | vxPush (g : Guard) (v : BitVec 6) (q : BitVec 3)
  | vxPop (g : Guard) (v : BitVec 6) (q : BitVec 3)
  | vxRand (g : Guard) (d a b : BitVec 6) (t : BitVec 3)
  | vxAcs (g : Guard) (d a b : BitVec 6) (t : BitVec 3)
  | vxTval (g : Guard) (d a : BitVec 6) (t : BitVec 3)
  | vxMov (g : Guard) (d a : BitVec 6)
  | vxExt (g : Guard) (d a l : BitVec 6) (t : BitVec 3)
  | mxMma (g : Guard) (l : BitVec 2) (a : BitVec 4) (r : BitVec 6) (t : BitVec 3) (o : BitVec 2)
  | mxLatq (g : Guard) (l : BitVec 2) (q : BitVec 3)
  | mxLatt (g : Guard) (l : BitVec 2) (a : BitVec 4)
  | mxTtr (g : Guard) (d a : BitVec 4)
  | mxAccz (g : Guard) (r n : BitVec 6)
  | mxAccq (g : Guard) (r n : BitVec 6) (q : BitVec 3)
  | dxCpost (g : Guard) (a b : BitVec 6) (k : BitVec 5)
  | dxKdep (g : Guard) (a b e : BitVec 5)
  | dxAqpop (g : Guard) (d : BitVec 6)
  | dxQcfgCfg (g : Guard) (q : BitVec 3) (a : BitVec 6)
  | dxQcfgCal (g : Guard) (q : BitVec 3) (a : BitVec 6)
  | dxQcfgKey (g : Guard) (q : BitVec 3) (a : BitVec 6)
  | dxQcfgCtr (g : Guard) (q : BitVec 3) (a : BitVec 6)
  | dxQstep (g : Guard) (q : BitVec 3) (a : BitVec 6)
  | dxQstepWsat (g : Guard) (q : BitVec 3) (a : BitVec 6)
  | dxQstepFlush (g : Guard) (q : BitVec 3) (a : BitVec 6)
  | dxQrdCfg (g : Guard) (q : BitVec 3) (d : BitVec 6)
  | dxQrdCal (g : Guard) (q : BitVec 3) (d : BitVec 6)
  | dxQrdAmax (g : Guard) (q : BitVec 3) (d : BitVec 6)
  | dxQrdSat (g : Guard) (q : BitVec 3) (d : BitVec 6)
  | dxMdec (g : Guard) (b : BitVec 6) (t q : BitVec 3) (k : BitVec 5)
  | dxTdefWa (g : Guard) (t : BitVec 3) (a : BitVec 6)
  | dxTdefWb (g : Guard) (t : BitVec 3) (a : BitVec 6)
  | dxTdefRa (g : Guard) (t : BitVec 3) (a : BitVec 6)
  | dxTdefRb (g : Guard) (t : BitVec 3) (a : BitVec 6)
  | dxTload (g : Guard) (a b : BitVec 6) (k : BitVec 5)
  | sqSmerge (g : Guard) (v b m : BitVec 6)
  | sqSclr (g : Guard)
  | sqStemp (g : Guard) (a : BitVec 6)
  | sqStopk (g : Guard) (a : BitVec 6)
  | sqStopp (g : Guard) (a : BitVec 6)
  | sqSdraw (g : Guard) (a b : BitVec 6)
  | sqSdrawLin (g : Guard) (a b : BitVec 6)
  | sqSgetVal (g : Guard) (a : BitVec 6)
  | sqSgetIdx (g : Guard) (a : BitVec 6)
  | sqSgetProb (g : Guard) (a : BitVec 6)
  | sqSgetTprob (g : Guard) (a : BitVec 6)
  | sqSgetSum (g : Guard)
  | sqBalloc (g : Guard) (d a : BitVec 6)
  | sqBfree (g : Guard) (a : BitVec 6) (k : BitVec 5)
  | sqBfreeAcq (g : Guard) (a : BitVec 6) (k : BitVec 5)
  | sqKvapp (g : Guard) (a b : BitVec 6) (k : BitVec 5)
  | sqKvappList (g : Guard) (a b : BitVec 6) (k : BitVec 5)
  | sqKvfork (g : Guard) (a b : BitVec 6) (k : BitVec 5)
  | sqKvroll (g : Guard) (a : BitVec 6) (k : BitVec 5)
  | sqKvcommit (g : Guard) (a b : BitVec 6) (k : BitVec 5)
  | sqKvwinGet (g : Guard) (d a : BitVec 6)
  | sqKvwinSet (g : Guard) (d a b : BitVec 6)
  | sqSquash (g : Guard) (a b : BitVec 6) (k : BitVec 5)
  | sqGbind (g : Guard) (a b : BitVec 6) (k : BitVec 5)
  | sqGbindReset (g : Guard) (a b : BitVec 6) (k : BitVec 5)
  | sqGbindDrop (g : Guard) (a : BitVec 6) (k : BitVec 5)
  | sqGstep (g : Guard) (a b : BitVec 6) (k : BitVec 5)
  | sqGmask (g : Guard) (a b : BitVec 6) (k : BitVec 5)
  | sqGfork (g : Guard) (a b : BitVec 6) (k : BitVec 5)
  | sqGrollEnt (g : Guard) (a b : BitVec 6) (k : BitVec 5)
  | sqGrollPos (g : Guard) (a b : BitVec 6) (k : BitVec 5)
  | sqGcommit (g : Guard) (a b : BitVec 6) (k : BitVec 5)
  | sqItnext (g : Guard) (d a b : BitVec 6)
  | sqItdone (g : Guard) (a b : BitVec 6) (k : BitVec 5)
  | sqItyield (g : Guard) (a b : BitVec 6) (k : BitVec 5)
  | sqSchw (g : Guard) (a b : BitVec 6) (k : BitVec 5)
  | sqRpop (g : Guard) (d : BitVec 6)
  -- device steps
  | bundleSkip (g : Nat)
  | takeIssue (g : Nat)
  | exposedResultLand (c k : Nat)
  | dataWaitEvent (c : Nat)
  | trapEntry (c : Nat)
  | storePerformed (c : Nat)
  | ptsTick (g : Nat)
  | watchWake (c : Nat)
  | scratchpadWritePerformed (g k : Nat)
  | tileCommandDone (g k : Nat)
  | containmentUnwind (c : Nat) (addr : W64)
  | sealsub (die asid : Nat) (v : W64)
  | sealRequest (die : Nat)
  | sealrel (die : Nat) (v : W64)
  | maceCommandStart (g : Nat)
  | maceEntryPush (g : Nat)
  | maceCommandRetire (g : Nat)
  | maceCancel (g tid : Nat)
  | mmaRowLand (g k : Nat)
  | latqPop (g k : Nat)
  | tilePathDone (g k : Nat)
  | acczRowWrite (g k : Nat)
  | accqPush (g k : Nat)
  | windowCycleAdd (g k : Nat)
  | cqadd (die eng asid : Nat) (v : W64)
  | cqdel (die eng asid : Nat) (v : W64)
  | packetAccept (die eng k : Nat)
  | packetStart (die eng k : Nat)
  | packetWord (die eng k : Nat)
  | packetComplete (die eng k : Nat)
  | poolRegister (die pool : Nat)
  | poolDeregister (die pool : Nat)
  | aniseCommandTurn (die k : Nat)
  | quarantineExit (die k : Nat)
  | cloveCommandStart (g k : Nat)
  | samplerCommandComplete (g : Nat)
  | squashTurn (die k : Nat)
  | squashEvent (c : Nat)
  | squashTokenDone (k : Nat)
  | walkerCommandStart (cl k : Nat)
  | lqadd (die asid : Nat) (v : W64)
  | lqdel (die asid : Nat) (v : W64)
  | launchAccept (die k : Nat)
  | eligible (die k : Nat)
  | bind (die : Nat)
  | arm (die : Nat)
  | armedBind (die k : Nat)
  | preempt (die : Nat)
  | save (tid : Nat)
  | restore (die : Nat)
  | latchEntryLand (c k : Nat)
  | kill (die : Nat)
  | yield (die : Nat)
  | giveUpIssue (g : Nat)
  | cancel (die : Nat)
  | expiry (c : Nat)
  | taskCompletion (tid : Nat)
  | tlbi (die : Nat) (v : W64)
  | tlbiComplete (die : Nat)
  | pageWalk (die asid : Nat) (va : W64) (wr kl : Bool)
  | faultRecordWrite (die : Nat)
  | fresumeFilled (die fid : Nat)
  | fresumeError (die fid : Nat)
  | errorCorrected (die : Nat)
  | poisoning (die space unit word : Nat)
  | parityErrorKill (tid : Nat)
  | laneFail (link lane : Nat)
  | linkTrained (link : Nat)
  | flitReplay (link : Nat)
  | routeAdvertisement (port : Nat)
  | perstDeassert (die : Nat)
  | storagePortEnable (die : Nat) (on : Bool)
  | gftPortEnable (die port : Nat) (on : Bool)
  | trainingRetry (link : Nat)
  | bar2Access (die off : Nat) (op : MemOp) (size : Nat) (v cmp : W64)
  | peerRequest (die : Nat) (va : W64) (op : MemOp) (size : Nat) (v cmp : W64)
  | storageDma (die : Nat) (va : W64) (op : MemOp) (size : Nat) (v : W64)
  | driveMsix (die : Nat)
  | ltrMessage (die ns : Nat)
  | powerStateEntry
  | powerWake (ev : Nat)
  | boot (die : Nat)
  | kloadGo (die : Nat)
  | attestationRequest (die : Nat)
  | attestationDone (die : Nat)
  | registerWrite (die : Nat) (who : Writer) (off : Nat) (v : W64)
  | systemCoreInstruction (die hart : Nat)
  deriving DecidableEq, Repr

end Sys2Proof
end

