-- ==== Sys2Proof/WellFormed.lean ====
section
/-! DEFINITION. Which instructions a sealed image may hold: the checks of 02_bundle.md R55 that concern one slot word, kind by kind
(KIND 2 unassigned OPC, KIND 3 field range, KIND 4 guard, KIND 5 hold), and the unit numbers of the device steps (R4). -/

namespace Sys2Proof

/-- NEG with GRD 0 is guard misuse (R55, KIND 4). -/
def Guard.ok (g : Guard) : Bool := !(g.neg && g.p == 0)

/-- The guard field of an instruction; p0 for the instructions whose guard is fixed. -/
def Instr.guard : Instr → Guard
  | .brJmp g _ => g
  | .brCall g _ => g
  | .brJmpr g _ => g
  | .brRet g => g
  | .brLoop g _ _ => g
  | .brLset g _ _ => g
  | .brWaita g _ _ _ => g
  | .brTokw g _ => g
  | .brPload g _ => g
  | .brEarly g => g
  | .brExit g => g
  | .brSys g _ => g
  | .brTret g => g
  | .brBrk g _ => g
  | .brBar g _ => g
  | .brFevclr g => g
  | .saAdd _ g _ _ _ => g
  | .saSub _ g _ _ _ => g
  | .saMul _ g _ _ _ => g
  | .saMulh _ g _ _ _ _ => g
  | .saDiv _ g _ _ _ _ => g
  | .saRem _ g _ _ _ _ => g
  | .saAnd _ g _ _ _ => g
  | .saOr _ g _ _ _ => g
  | .saXor _ g _ _ _ => g
  | .saShl _ g _ _ _ => g
  | .saShr _ g _ _ _ => g
  | .saSra _ g _ _ _ => g
  | .saMin _ g _ _ _ _ => g
  | .saMax _ g _ _ _ _ => g
  | .saCmp _ g _ _ _ _ => g
  | .saPand _ g _ _ _ => g
  | .saPor _ g _ _ _ => g
  | .saPxor _ g _ _ _ => g
  | .saMovi _ g _ _ => g
  | .saMovh _ g _ _ => g
  | .saAddi _ g _ _ => g
  | .saLdB64 _ g _ _ _ => g
  | .saLdB32 _ g _ _ _ _ => g
  | .saLdB16 _ g _ _ _ _ => g
  | .saLdB8 _ g _ _ _ _ => g
  | .saStB64 _ g _ _ _ => g
  | .saStB32 _ g _ _ _ => g
  | .saStB16 _ g _ _ _ => g
  | .saStB8 _ g _ _ _ => g
  | .saFaddF64 _ g _ _ _ => g
  | .saFsubF64 _ g _ _ _ => g
  | .saFmulF64 _ g _ _ _ => g
  | .saFdivF64 _ g _ _ _ => g
  | .saFaddF32 _ g _ _ _ => g
  | .saFsubF32 _ g _ _ _ => g
  | .saFmulF32 _ g _ _ _ => g
  | .saFdivF32 _ g _ _ _ => g
  | .saFcvt _ g _ _ _ _ _ => g
  | .saFcmpF64 _ g _ _ _ _ => g
  | .saFcmpF32 _ g _ _ _ _ => g
  | .saMfsr _ g _ _ => g
  | .saMtsr _ g _ _ => g
  | .saTshape _ g _ _ => g
  | .ldW g _ _ _ _ => g
  | .stW g _ _ _ _ => g
  | .ldRow g _ _ _ _ => g
  | .stRow g _ _ _ _ => g
  | .ldCol g _ _ _ _ => g
  | .stCol g _ _ _ _ => g
  | .ldTile g _ _ _ => g
  | .stTile g _ _ _ => g
  | .ldAcc g _ _ _ _ => g
  | .stAcc g _ _ _ _ => g
  | .ldTagsetFull g _ _ => g
  | .ldTagsetEmpty g _ _ => g
  | .vxAdd g _ _ _ _ => g
  | .vxSub g _ _ _ _ => g
  | .vxMul g _ _ _ _ => g
  | .vxMin g _ _ _ _ => g
  | .vxMax g _ _ _ _ => g
  | .vxFmaF32 g _ _ _ _ => g
  | .vxFmaF64 g _ _ _ _ => g
  | .vxFmaF16 g _ _ _ _ => g
  | .vxFmaBf16 g _ _ _ _ => g
  | .vxAbs g _ _ _ => g
  | .vxAnd g _ _ _ => g
  | .vxOr g _ _ _ => g
  | .vxXor g _ _ _ => g
  | .vxShl g _ _ _ _ => g
  | .vxShr g _ _ _ _ => g
  | .vxCmp g _ _ _ _ _ => g
  | .vxSel g _ _ _ _ => g
  | .vxPerm g _ _ _ _ => g
  | .vxBcast g _ _ _ => g
  | .vxMovi g _ _ => g
  | .vxRedsum g _ _ _ _ => g
  | .vxRedmax g _ _ _ _ => g
  | .vxExp g _ _ => g
  | .vxRcp g _ _ => g
  | .vxRsqrt g _ _ => g
  | .vxCvt g _ _ _ _ => g
  | .vxCvts g _ _ _ _ => g
  | .vxAmax g _ _ _ _ => g
  | .vxScale g _ _ _ _ => g
  | .vxPush g _ _ => g
  | .vxPop g _ _ => g
  | .vxRand g _ _ _ _ => g
  | .vxAcs g _ _ _ _ => g
  | .vxTval g _ _ _ => g
  | .vxMov g _ _ => g
  | .vxExt g _ _ _ _ => g
  | .mxMma g _ _ _ _ _ => g
  | .mxLatq g _ _ => g
  | .mxLatt g _ _ => g
  | .mxTtr g _ _ => g
  | .mxAccz g _ _ => g
  | .mxAccq g _ _ _ => g
  | .dxCpost g _ _ _ => g
  | .dxKdep g _ _ _ => g
  | .dxAqpop g _ => g
  | .dxQcfgCfg g _ _ => g
  | .dxQcfgCal g _ _ => g
  | .dxQcfgKey g _ _ => g
  | .dxQcfgCtr g _ _ => g
  | .dxQstep g _ _ => g
  | .dxQstepWsat g _ _ => g
  | .dxQstepFlush g _ _ => g
  | .dxQrdCfg g _ _ => g
  | .dxQrdCal g _ _ => g
  | .dxQrdAmax g _ _ => g
  | .dxQrdSat g _ _ => g
  | .dxMdec g _ _ _ _ => g
  | .dxTdefWa g _ _ => g
  | .dxTdefWb g _ _ => g
  | .dxTdefRa g _ _ => g
  | .dxTdefRb g _ _ => g
  | .dxTload g _ _ _ => g
  | .sqSmerge g _ _ _ => g
  | .sqSclr g => g
  | .sqStemp g _ => g
  | .sqStopk g _ => g
  | .sqStopp g _ => g
  | .sqSdraw g _ _ => g
  | .sqSdrawLin g _ _ => g
  | .sqSgetVal g _ => g
  | .sqSgetIdx g _ => g
  | .sqSgetProb g _ => g
  | .sqSgetTprob g _ => g
  | .sqSgetSum g => g
  | .sqBalloc g _ _ => g
  | .sqBfree g _ _ => g
  | .sqBfreeAcq g _ _ => g
  | .sqKvapp g _ _ _ => g
  | .sqKvappList g _ _ _ => g
  | .sqKvfork g _ _ _ => g
  | .sqKvroll g _ _ => g
  | .sqKvcommit g _ _ _ => g
  | .sqKvwinGet g _ _ => g
  | .sqKvwinSet g _ _ _ => g
  | .sqSquash g _ _ _ => g
  | .sqGbind g _ _ _ => g
  | .sqGbindReset g _ _ _ => g
  | .sqGbindDrop g _ _ => g
  | .sqGstep g _ _ _ => g
  | .sqGmask g _ _ _ => g
  | .sqGfork g _ _ _ => g
  | .sqGrollEnt g _ _ _ => g
  | .sqGrollPos g _ _ _ => g
  | .sqGcommit g _ _ _ => g
  | .sqItnext g _ _ _ => g
  | .sqItdone g _ _ _ => g
  | .sqItyield g _ _ _ => g
  | .sqSchw g _ _ _ => g
  | .sqRpop g _ => g
  | _ => ⟨0, false⟩

/-- System registers of R120 that `mfsr` may name. -/
def sysReadable (n : Nat) : Bool :=
  n ≤ 0x006 || (0x008 ≤ n && n ≤ 0x00B) || (0x010 ≤ n && n ≤ 0x027) || n == 0x030 || n == 0x031 ||
  (0x038 ≤ n && n ≤ 0x03A) || (0x040 ≤ n && n ≤ 0x046) || (0x048 ≤ n && n ≤ 0x04A) || (0x04C ≤ n && n ≤ 0x04F)

/-- System registers of R120 that `mtsr` may name. -/
def sysWritable (n : Nat) : Bool :=
  n ≤ 0x003 || (0x008 ≤ n && n ≤ 0x00B) || (0x040 ≤ n && n ≤ 0x046)

/-- A vector field that may not carry a hold value (R48): 0 to 31. -/
def vPlain (v : BitVec 6) : Bool := v.toNat < 32

/-- The field values that the instruction entries list (R55, KIND 3). -/
def Instr.rangeOk : Instr → Bool
  | .saMulh _ _ _ _ _ x => x.toNat ≤ 2
  | .saDiv _ _ _ _ _ x => x.toNat ≤ 1
  | .saRem _ _ _ _ _ x => x.toNat ≤ 1
  | .saMin _ _ _ _ _ x => x.toNat ≤ 1
  | .saMax _ _ _ _ _ x => x.toNat ≤ 1
  | .saLdB32 _ _ _ _ _ x => x.toNat ≤ 1
  | .saLdB16 _ _ _ _ _ x => x.toNat ≤ 1
  | .saLdB8 _ _ _ _ _ x => x.toNat ≤ 1
  | .brDelay n => n != 0
  | .saFcvt _ _ _ _ _ _ rn => rn.toNat ≤ 5
  | .saMfsr _ _ _ n => sysReadable n.toNat
  | .saMtsr _ _ _ n => sysWritable n.toNat
  | .ldRow _ d _ _ _ => vPlain d
  | .stRow _ d _ _ _ => vPlain d
  | .ldCol _ d _ _ _ => vPlain d
  | .stCol _ d _ _ _ => vPlain d
  | .vxAdd _ d _ _ t => vPlain d && t.toNat ≤ 5
  | .vxSub _ d _ _ t => vPlain d && t.toNat ≤ 5
  | .vxMul _ d _ _ t => vPlain d && t.toNat ≤ 5
  | .vxMin _ d _ _ t => vPlain d && t.toNat ≤ 5
  | .vxMax _ d _ _ t => vPlain d && t.toNat ≤ 5
  | .vxAbs _ d _ t => vPlain d && t.toNat ≤ 5
  | .vxAnd _ d _ _ => vPlain d
  | .vxOr _ d _ _ => vPlain d
  | .vxXor _ d _ _ => vPlain d
  | .vxExp _ d _ => vPlain d
  | .vxRcp _ d _ => vPlain d
  | .vxRsqrt _ d _ => vPlain d
  | .vxMov _ d _ => vPlain d
  | .vxSel _ d _ _ _ => vPlain d
  | .vxCvt _ d _ f t => vPlain d && f.toNat ≤ 9 && t.toNat ≤ 9
  | .vxCvts _ d _ f t => vPlain d && f.toNat ≤ 9 && t.toNat ≤ 9
  | .vxMovi _ d _ => vPlain d
  | .vxBcast _ d _ _ => vPlain d
  | .vxTval _ d _ _ => vPlain d
  | .vxShl _ d _ _ t => vPlain d && (t == 4 || t == 5)
  | .vxShr _ d _ _ t => vPlain d && (t == 4 || t == 5)
  | .vxCmp _ _ _ _ _ t => t.toNat ≤ 5
  | .vxPerm _ d _ _ t => vPlain d && t.toNat ≤ 1
  | .vxRedsum _ d _ b t => vPlain d && (b.toNat ≤ 7 || 32 ≤ b.toNat) && t.toNat ≤ 5
  | .vxRedmax _ d _ b t => vPlain d && (b.toNat ≤ 7 || 32 ≤ b.toNat) && t.toNat ≤ 5
  | .vxAmax _ d _ _ t => vPlain d && t.toNat ≤ 3
  | .vxScale _ d _ _ t => vPlain d && (t == 0 || t == 3)
  | .vxPop _ v _ => vPlain v
  | .vxRand _ d _ _ t => vPlain d && (t == 0 || t == 1 || t == 4)
  | .vxAcs _ d _ _ t => vPlain d && 1 ≤ t.toNat && t.toNat ≤ 5
  | .vxExt _ _ _ l t => l.toNat < 32 || t != 1
  | .mxMma _ _ _ _ _ o => o.toNat ≤ 1
  | .sqSmerge _ v _ _ => vPlain v
  | _ => true

/-- A hold marking (R46). -/
def holdMark (v : BitVec 6) : Bool := 32 ≤ v.toNat && v.toNat < 63

/-- At most one marking in a slot, and no hold value in a mask field (R47, R178; KIND 5). -/
def Instr.holdOk : Instr → Bool
  | .vxAdd _ _ a b _ => !(holdMark a && holdMark b)
  | .vxSub _ _ a b _ => !(holdMark a && holdMark b)
  | .vxMul _ _ a b _ => !(holdMark a && holdMark b)
  | .vxMin _ _ a b _ => !(holdMark a && holdMark b)
  | .vxMax _ _ a b _ => !(holdMark a && holdMark b)
  | .vxFmaF32 _ _ a b _ => !(holdMark a && holdMark b)
  | .vxFmaF64 _ _ a b _ => !(holdMark a && holdMark b)
  | .vxFmaF16 _ _ a b _ => !(holdMark a && holdMark b)
  | .vxFmaBf16 _ _ a b _ => !(holdMark a && holdMark b)
  | .vxAnd _ _ a b => !(holdMark a && holdMark b)
  | .vxOr _ _ a b => !(holdMark a && holdMark b)
  | .vxXor _ _ a b => !(holdMark a && holdMark b)
  | .vxShl _ _ a b _ => !(holdMark a && holdMark b)
  | .vxShr _ _ a b _ => !(holdMark a && holdMark b)
  | .vxCmp _ _ a b _ _ => !(holdMark a && holdMark b)
  | .vxSel _ _ a b _ => !(holdMark a && holdMark b)
  | .vxPerm _ _ a b _ => !(holdMark a && holdMark b)
  | .vxRedsum _ _ _ b _ => b.toNat < 32
  | .vxRedmax _ _ _ b _ => b.toNat < 32
  | .vxAmax _ _ a b _ => !(holdMark a && holdMark b)
  | .vxScale _ _ a b _ => !(holdMark a && holdMark b)
  | .vxAcs _ _ a b _ => !(holdMark a && holdMark b)
  | _ => true

/-- The numbers under which the model names the clocks of the agents beside the compute cores (R101; DESIGN CHOICE, log entry 8): the copy
engines, the dispatch hardware, the walkers, the other units of a die, its system cores, the audit. -/
def agentOk (n : Nat) : Bool :=
  (400 ≤ n && n < 452) || (460 ≤ n && n < 512) || n == 600 || n == 601 || (1100 ≤ n && n < 1140) ||
  (1200 ≤ n && n < 1250 && n % 10 < 2) || (1300 ≤ n && n < 1320 && n % 10 < 9) || n == 1400

/-- The unit numbers that a device step may name (R4, R227). -/
def Instr.unitsOk : Instr → Bool
  | .bundleSkip g => g < 320
  | .takeIssue g => g < 320
  | .exposedResultLand c _ => c < 1280
  | .dataWaitEvent c => c < 1280
  | .trapEntry c => c < 1280
  | .storePerformed c => c < 1280
  | .ptsTick g => g < 320 || agentOk g
  | .watchWake c => c < 1280
  | .scratchpadWritePerformed g _ => g < 320
  | .tileCommandDone g _ => g < 320
  | .containmentUnwind c _ => c < 1280
  | .sealsub die asid _ => die < 2 && asid < 65536
  | .sealRequest die => die < 2
  | .sealrel die _ => die < 2
  | .maceCommandStart g => g < 320
  | .maceEntryPush g => g < 320
  | .maceCommandRetire g => g < 320
  | .maceCancel g tid => g < 320 && tid < 4096
  | .mmaRowLand g _ => g < 320
  | .latqPop g _ => g < 320
  | .tilePathDone g _ => g < 320
  | .acczRowWrite g _ => g < 320
  | .accqPush g _ => g < 320
  | .windowCycleAdd g _ => g < 320
  | .cqadd die eng asid _ => die < 2 && eng < 52 && asid < 65536
  | .cqdel die eng asid _ => die < 2 && eng < 52 && asid < 65536
  | .packetAccept die eng _ => die < 2 && eng < 52
  | .packetStart die eng _ => die < 2 && eng < 52
  | .packetWord die eng _ => die < 2 && eng < 52
  | .packetComplete die eng _ => die < 2 && eng < 52
  | .poolRegister die pool => die < 2 && pool < 16
  | .poolDeregister die pool => die < 2 && pool < 16
  | .aniseCommandTurn die _ => die < 2
  | .quarantineExit die _ => die < 2
  | .cloveCommandStart g _ => g < 320
  | .samplerCommandComplete g => g < 320
  | .squashTurn die _ => die < 2
  | .squashEvent c => c < 1280
  | .walkerCommandStart cl _ => cl < 40
  | .lqadd die asid _ => die < 2 && asid < 65536
  | .lqdel die asid _ => die < 2 && asid < 65536
  | .launchAccept die _ => die < 2
  | .eligible die _ => die < 2
  | .bind die => die < 2
  | .arm die => die < 2
  | .armedBind die _ => die < 2
  | .preempt die => die < 2
  | .save tid => tid < 4096
  | .restore die => die < 2
  | .latchEntryLand c _ => c < 1280
  | .kill die => die < 2
  | .yield die => die < 2
  | .giveUpIssue g => g < 320
  | .cancel die => die < 2
  | .expiry c => c < 1280
  | .taskCompletion tid => tid < 4096
  | .tlbi die _ => die < 2
  | .tlbiComplete die => die < 2
  | .pageWalk die asid _ _ _ => die < 2 && asid < 65536
  | .faultRecordWrite die => die < 2
  | .fresumeFilled die _ => die < 2
  | .fresumeError die _ => die < 2
  | .errorCorrected die => die < 2
  | .poisoning die _ _ _ => die < 2
  | .parityErrorKill tid => tid < 4096
  | .laneFail link _ => link < 64
  | .linkTrained link => link < 64
  | .flitReplay link => link < 64
  | .routeAdvertisement port => port < 12
  | .perstDeassert die => die < 2
  | .storagePortEnable die _ => die < 2
  | .gftPortEnable die port _ => die < 2 && port < 12
  | .trainingRetry link => link < 64
  | .bar2Access die _ _ _ _ _ => die < 2
  | .peerRequest die _ _ _ _ _ => die < 2
  | .storageDma die _ _ _ _ => die < 2
  | .driveMsix die => die < 2
  | .ltrMessage die _ => die < 2
  | .boot die => die < 2
  | .kloadGo die => die < 2
  | .attestationRequest die => die < 2
  | .attestationDone die => die < 2
  | .registerWrite die _ _ _ => die < 2
  | .systemCoreInstruction die hart => die < 2 && hart < 9
  | _ => true

/-- An instruction that the SB slot lacks, named with it: the system-register moves and the tile-shape write exist in SA alone, and their
OPC values are unassigned in SB (R51; R55, KIND 2). -/
def Instr.saOnly : Instr → Bool
  | .saMfsr u _ _ _ | .saMtsr u _ _ _ | .saTshape u _ _ _ => u == .b
  | _ => false

/-- A well-formed instruction: a slot word that no check of R55 refuses, or a device step of units that exist. -/
def Instr.wellFormed (i : Instr) : Bool := i.guard.ok && i.rangeOk && i.holdOk && i.unitsOk && !i.saOnly

end Sys2Proof
end

