-- ==== Sys2Proof/Decode.lean ====
section
/-! DEFINITION. The decoder: a slot word to its instruction or the KIND of R55 that refuses it, a bundle of 32 bytes to its eight
slots, and after it the encoder, written from the same format table (02_bundle.md R50). -/

namespace Sys2Proof

/-- The check kinds of R55 that concern a slot word. -/
inductive SealKind where
  | reserved | unassigned | range | guard | hold | composition
  deriving DecidableEq, Repr

/-- The KIND number of R55. -/
def SealKind.code : SealKind → Nat
  | .reserved => 1 | .unassigned => 2 | .range => 3 | .guard => 4 | .hold => 5 | .composition => 6

/-- Bits [lo+w-1 : lo] of a format field. -/
def fmtBits (f : BitVec 21) (lo w : Nat) : BitVec w := f.extractLsb' lo w

/-- A cell's candidate: refused as reserved when a 0 field of R50 is set, else the instruction. -/
def cell (resOk : Bool) (i : Except SealKind Instr) : Except SealKind Instr := if resOk then i else .error .reserved

/-- The cells of the BR slot (R51). -/
def decodeBr (g : Guard) (op : Nat) (f : BitVec 21) : Except SealKind Instr :=
  match op with
  | 1 => cell (true) (.ok (.brJmp g (fmtBits f 0 21)))
  | 2 => cell (true) (.ok (.brCall g (fmtBits f 0 21)))
  | 3 => cell (fmtBits f 0 15 == 0) (.ok (.brJmpr g (fmtBits f 15 6)))
  | 4 => cell (fmtBits f 0 21 == 0) (.ok (.brRet g))
  | 5 => cell (true) (.ok (.brLoop g (fmtBits f 19 2) (fmtBits f 0 19)))
  | 6 => cell (fmtBits f 0 13 == 0) (.ok (.brLset g (fmtBits f 19 2) (fmtBits f 13 6)))
  | 7 => cell (fmtBits f 16 5 == 0) (.ok (.brDelay (fmtBits f 0 16)))
  | 8 => cell (fmtBits f 0 6 == 0) (.ok (.brWaita g (fmtBits f 15 6) (fmtBits f 9 6) (fmtBits f 6 3)))
  | 9 => cell (fmtBits f 5 16 == 0) (.ok (.brTokw g (fmtBits f 0 5)))
  | 10 => cell (fmtBits f 0 15 == 0) (.ok (.brPload g (fmtBits f 15 6)))
  | 11 => cell (fmtBits f 0 21 == 0) (.ok (.brEarly g))
  | 12 => cell (fmtBits f 0 21 == 0) (.ok (.brExit g))
  | 13 => cell (fmtBits f 15 6 == 0) (.ok (.brSys g (fmtBits f 0 15)))
  | 14 => cell (fmtBits f 0 21 == 0) (.ok (.brTret g))
  | 15 => cell (true) (.ok (.brCrgnOpen (fmtBits f 0 21)))
  | 16 => cell (fmtBits f 0 21 == 0) (.ok (.brCrgnClose))
  | 17 => cell (fmtBits f 15 6 == 0) (.ok (.brBrk g (fmtBits f 0 15)))
  | 18 => cell (fmtBits f 0 15 == 0) (.ok (.brBar g (fmtBits f 15 6)))
  | 19 => cell (fmtBits f 0 21 == 0) (.ok (.brFevclr g))
  | _ => .error .unassigned

/-- The cells of the SA slot (R51). -/
def decodeSa (u : SUnit) (g : Guard) (op : Nat) (f : BitVec 21) : Except SealKind Instr :=
  match op with
  | 1 => cell (true) (if fmtBits f 0 3 == 0 then .ok (.saAdd u g (fmtBits f 15 6) (fmtBits f 9 6) (fmtBits f 3 6)) else .error .range)
  | 2 => cell (true) (if fmtBits f 0 3 == 0 then .ok (.saSub u g (fmtBits f 15 6) (fmtBits f 9 6) (fmtBits f 3 6)) else .error .range)
  | 3 => cell (true) (if fmtBits f 0 3 == 0 then .ok (.saMul u g (fmtBits f 15 6) (fmtBits f 9 6) (fmtBits f 3 6)) else .error .range)
  | 4 => cell (true) (.ok (.saMulh u g (fmtBits f 15 6) (fmtBits f 9 6) (fmtBits f 3 6) (fmtBits f 0 3)))
  | 5 => cell (true) (.ok (.saDiv u g (fmtBits f 15 6) (fmtBits f 9 6) (fmtBits f 3 6) (fmtBits f 0 3)))
  | 6 => cell (true) (.ok (.saRem u g (fmtBits f 15 6) (fmtBits f 9 6) (fmtBits f 3 6) (fmtBits f 0 3)))
  | 7 => cell (true) (if fmtBits f 0 3 == 0 then .ok (.saAnd u g (fmtBits f 15 6) (fmtBits f 9 6) (fmtBits f 3 6)) else .error .range)
  | 8 => cell (true) (if fmtBits f 0 3 == 0 then .ok (.saOr u g (fmtBits f 15 6) (fmtBits f 9 6) (fmtBits f 3 6)) else .error .range)
  | 9 => cell (true) (if fmtBits f 0 3 == 0 then .ok (.saXor u g (fmtBits f 15 6) (fmtBits f 9 6) (fmtBits f 3 6)) else .error .range)
  | 10 => cell (true) (if fmtBits f 0 3 == 0 then .ok (.saShl u g (fmtBits f 15 6) (fmtBits f 9 6) (fmtBits f 3 6)) else .error .range)
  | 11 => cell (true) (if fmtBits f 0 3 == 0 then .ok (.saShr u g (fmtBits f 15 6) (fmtBits f 9 6) (fmtBits f 3 6)) else .error .range)
  | 12 => cell (true) (if fmtBits f 0 3 == 0 then .ok (.saSra u g (fmtBits f 15 6) (fmtBits f 9 6) (fmtBits f 3 6)) else .error .range)
  | 13 => cell (true) (.ok (.saMin u g (fmtBits f 15 6) (fmtBits f 9 6) (fmtBits f 3 6) (fmtBits f 0 3)))
  | 14 => cell (true) (.ok (.saMax u g (fmtBits f 15 6) (fmtBits f 9 6) (fmtBits f 3 6) (fmtBits f 0 3)))
  | 15 => cell (fmtBits f 0 2 == 0) (.ok (.saCmp u g (fmtBits f 17 4) (fmtBits f 11 6) (fmtBits f 5 6) (fmtBits f 2 3)))
  | 16 => cell (fmtBits f 0 9 == 0) (.ok (.saPand u g (fmtBits f 17 4) (fmtBits f 13 4) (fmtBits f 9 4)))
  | 17 => cell (fmtBits f 0 9 == 0) (.ok (.saPor u g (fmtBits f 17 4) (fmtBits f 13 4) (fmtBits f 9 4)))
  | 18 => cell (fmtBits f 0 9 == 0) (.ok (.saPxor u g (fmtBits f 17 4) (fmtBits f 13 4) (fmtBits f 9 4)))
  | 19 => cell (true) (.ok (.saMovi u g (fmtBits f 15 6) (fmtBits f 0 15)))
  | 20 => cell (true) (.ok (.saMovh u g (fmtBits f 15 6) (fmtBits f 0 15)))
  | 21 => cell (true) (.ok (.saAddi u g (fmtBits f 15 6) (fmtBits f 0 15)))
  | 22 => cell (true) (if fmtBits f 0 3 == 0 then .ok (.saLdB64 u g (fmtBits f 15 6) (fmtBits f 9 6) (fmtBits f 3 6)) else .error .range)
  | 23 => cell (true) (.ok (.saLdB32 u g (fmtBits f 15 6) (fmtBits f 9 6) (fmtBits f 3 6) (fmtBits f 0 3)))
  | 24 => cell (true) (.ok (.saLdB16 u g (fmtBits f 15 6) (fmtBits f 9 6) (fmtBits f 3 6) (fmtBits f 0 3)))
  | 25 => cell (true) (.ok (.saLdB8 u g (fmtBits f 15 6) (fmtBits f 9 6) (fmtBits f 3 6) (fmtBits f 0 3)))
  | 26 => cell (true) (if fmtBits f 0 3 == 0 then .ok (.saStB64 u g (fmtBits f 15 6) (fmtBits f 9 6) (fmtBits f 3 6)) else .error .range)
  | 27 => cell (true) (if fmtBits f 0 3 == 0 then .ok (.saStB32 u g (fmtBits f 15 6) (fmtBits f 9 6) (fmtBits f 3 6)) else .error .range)
  | 28 => cell (true) (if fmtBits f 0 3 == 0 then .ok (.saStB16 u g (fmtBits f 15 6) (fmtBits f 9 6) (fmtBits f 3 6)) else .error .range)
  | 29 => cell (true) (if fmtBits f 0 3 == 0 then .ok (.saStB8 u g (fmtBits f 15 6) (fmtBits f 9 6) (fmtBits f 3 6)) else .error .range)
  | 30 => cell (true) (if fmtBits f 0 3 == 0 then .ok (.saFaddF64 u g (fmtBits f 15 6) (fmtBits f 9 6) (fmtBits f 3 6)) else .error .range)
  | 31 => cell (true) (if fmtBits f 0 3 == 0 then .ok (.saFsubF64 u g (fmtBits f 15 6) (fmtBits f 9 6) (fmtBits f 3 6)) else .error .range)
  | 32 => cell (true) (if fmtBits f 0 3 == 0 then .ok (.saFmulF64 u g (fmtBits f 15 6) (fmtBits f 9 6) (fmtBits f 3 6)) else .error .range)
  | 33 => cell (true) (if fmtBits f 0 3 == 0 then .ok (.saFdivF64 u g (fmtBits f 15 6) (fmtBits f 9 6) (fmtBits f 3 6)) else .error .range)
  | 34 => cell (true) (if fmtBits f 0 3 == 0 then .ok (.saFaddF32 u g (fmtBits f 15 6) (fmtBits f 9 6) (fmtBits f 3 6)) else .error .range)
  | 35 => cell (true) (if fmtBits f 0 3 == 0 then .ok (.saFsubF32 u g (fmtBits f 15 6) (fmtBits f 9 6) (fmtBits f 3 6)) else .error .range)
  | 36 => cell (true) (if fmtBits f 0 3 == 0 then .ok (.saFmulF32 u g (fmtBits f 15 6) (fmtBits f 9 6) (fmtBits f 3 6)) else .error .range)
  | 37 => cell (true) (if fmtBits f 0 3 == 0 then .ok (.saFdivF32 u g (fmtBits f 15 6) (fmtBits f 9 6) (fmtBits f 3 6)) else .error .range)
  | 38 => cell (true) (.ok (.saFcvt u g (fmtBits f 15 6) (fmtBits f 9 6) (fmtBits f 6 3) (fmtBits f 3 3) (fmtBits f 0 3)))
  | 39 => cell (fmtBits f 0 2 == 0) (.ok (.saFcmpF64 u g (fmtBits f 17 4) (fmtBits f 11 6) (fmtBits f 5 6) (fmtBits f 2 3)))
  | 40 => cell (fmtBits f 0 2 == 0) (.ok (.saFcmpF32 u g (fmtBits f 17 4) (fmtBits f 11 6) (fmtBits f 5 6) (fmtBits f 2 3)))
  | 41 => cell (fmtBits f 0 3 == 0) (.ok (.saMfsr u g (fmtBits f 15 6) (fmtBits f 3 12)))
  | 42 => cell (fmtBits f 0 3 == 0) (.ok (.saMtsr u g (fmtBits f 15 6) (fmtBits f 3 12)))
  | 43 => cell (fmtBits f 0 11 == 0) (.ok (.saTshape u g (fmtBits f 17 4) (fmtBits f 11 6)))
  | _ => .error .unassigned

/-- The cells of the LD slot (R51). -/
def decodeLd (g : Guard) (op : Nat) (f : BitVec 21) : Except SealKind Instr :=
  match op with
  | 1 => cell (true) (.ok (.ldW g (fmtBits f 15 6) (fmtBits f 9 6) (fmtBits f 7 2) (fmtBits f 0 7)))
  | 2 => cell (true) (.ok (.stW g (fmtBits f 15 6) (fmtBits f 9 6) (fmtBits f 7 2) (fmtBits f 0 7)))
  | 3 => cell (true) (.ok (.ldRow g (fmtBits f 15 6) (fmtBits f 9 6) (fmtBits f 7 2) (fmtBits f 0 7)))
  | 4 => cell (true) (.ok (.stRow g (fmtBits f 15 6) (fmtBits f 9 6) (fmtBits f 7 2) (fmtBits f 0 7)))
  | 5 => cell (true) (.ok (.ldCol g (fmtBits f 15 6) (fmtBits f 9 6) (fmtBits f 7 2) (fmtBits f 0 7)))
  | 6 => cell (true) (.ok (.stCol g (fmtBits f 15 6) (fmtBits f 9 6) (fmtBits f 7 2) (fmtBits f 0 7)))
  | 7 => cell (fmtBits f 0 9 == 0) (.ok (.ldTile g (fmtBits f 17 4) (fmtBits f 11 6) (fmtBits f 9 2)))
  | 8 => cell (fmtBits f 0 9 == 0) (.ok (.stTile g (fmtBits f 17 4) (fmtBits f 11 6) (fmtBits f 9 2)))
  | 9 => cell (true) (.ok (.ldAcc g (fmtBits f 15 6) (fmtBits f 9 6) (fmtBits f 7 2) (fmtBits f 0 7)))
  | 10 => cell (true) (.ok (.stAcc g (fmtBits f 15 6) (fmtBits f 9 6) (fmtBits f 7 2) (fmtBits f 0 7)))
  | 11 => cell (fmtBits f 0 8 == 0) (if fmtBits f 8 1 == 1 then .ok (.ldTagsetFull g (fmtBits f 15 6) (fmtBits f 9 6)) else if fmtBits f 8 1 == 0 then .ok (.ldTagsetEmpty g (fmtBits f 15 6) (fmtBits f 9 6)) else .error .range)
  | _ => .error .unassigned

/-- The cells of the VX slot (R51). -/
def decodeVx (g : Guard) (op : Nat) (f : BitVec 21) : Except SealKind Instr :=
  match op with
  | 1 => cell (true) (.ok (.vxAdd g (fmtBits f 15 6) (fmtBits f 9 6) (fmtBits f 3 6) (fmtBits f 0 3)))
  | 2 => cell (true) (.ok (.vxSub g (fmtBits f 15 6) (fmtBits f 9 6) (fmtBits f 3 6) (fmtBits f 0 3)))
  | 3 => cell (true) (.ok (.vxMul g (fmtBits f 15 6) (fmtBits f 9 6) (fmtBits f 3 6) (fmtBits f 0 3)))
  | 4 => cell (true) (.ok (.vxFmaF32 g (fmtBits f 16 5) (fmtBits f 10 6) (fmtBits f 4 6) (fmtBits f 0 4)))
  | 5 => cell (true) (.ok (.vxFmaF64 g (fmtBits f 16 5) (fmtBits f 10 6) (fmtBits f 4 6) (fmtBits f 0 4)))
  | 6 => cell (true) (.ok (.vxFmaF16 g (fmtBits f 16 5) (fmtBits f 10 6) (fmtBits f 4 6) (fmtBits f 0 4)))
  | 7 => cell (true) (.ok (.vxFmaBf16 g (fmtBits f 16 5) (fmtBits f 10 6) (fmtBits f 4 6) (fmtBits f 0 4)))
  | 8 => cell (true) (.ok (.vxMin g (fmtBits f 15 6) (fmtBits f 9 6) (fmtBits f 3 6) (fmtBits f 0 3)))
  | 9 => cell (true) (.ok (.vxMax g (fmtBits f 15 6) (fmtBits f 9 6) (fmtBits f 3 6) (fmtBits f 0 3)))
  | 10 => cell (true) (if fmtBits f 3 6 == 0 then .ok (.vxAbs g (fmtBits f 15 6) (fmtBits f 9 6) (fmtBits f 0 3)) else .error .range)
  | 11 => cell (true) (if fmtBits f 0 3 == 4 then .ok (.vxAnd g (fmtBits f 15 6) (fmtBits f 9 6) (fmtBits f 3 6)) else .error .range)
  | 12 => cell (true) (if fmtBits f 0 3 == 4 then .ok (.vxOr g (fmtBits f 15 6) (fmtBits f 9 6) (fmtBits f 3 6)) else .error .range)
  | 13 => cell (true) (if fmtBits f 0 3 == 4 then .ok (.vxXor g (fmtBits f 15 6) (fmtBits f 9 6) (fmtBits f 3 6)) else .error .range)
  | 14 => cell (true) (.ok (.vxShl g (fmtBits f 15 6) (fmtBits f 9 6) (fmtBits f 3 6) (fmtBits f 0 3)))
  | 15 => cell (true) (.ok (.vxShr g (fmtBits f 15 6) (fmtBits f 9 6) (fmtBits f 3 6) (fmtBits f 0 3)))
  | 16 => cell (true) (.ok (.vxCmp g (fmtBits f 18 3) (fmtBits f 12 6) (fmtBits f 6 6) (fmtBits f 3 3) (fmtBits f 0 3)))
  | 17 => cell (true) (.ok (.vxSel g (fmtBits f 15 6) (fmtBits f 9 6) (fmtBits f 3 6) (fmtBits f 0 3)))
  | 18 => cell (true) (.ok (.vxPerm g (fmtBits f 15 6) (fmtBits f 9 6) (fmtBits f 3 6) (fmtBits f 0 3)))
  | 19 => cell (fmtBits f 3 6 == 0) (.ok (.vxBcast g (fmtBits f 15 6) (fmtBits f 9 6) (fmtBits f 0 3)))
  | 20 => cell (true) (.ok (.vxMovi g (fmtBits f 15 6) (fmtBits f 0 15)))
  | 21 => cell (true) (.ok (.vxRedsum g (fmtBits f 15 6) (fmtBits f 9 6) (fmtBits f 3 6) (fmtBits f 0 3)))
  | 22 => cell (true) (.ok (.vxRedmax g (fmtBits f 15 6) (fmtBits f 9 6) (fmtBits f 3 6) (fmtBits f 0 3)))
  | 23 => cell (true) (if fmtBits f 3 6 == 0 && fmtBits f 0 3 == 0 then .ok (.vxExp g (fmtBits f 15 6) (fmtBits f 9 6)) else .error .range)
  | 24 => cell (true) (if fmtBits f 3 6 == 0 && fmtBits f 0 3 == 0 then .ok (.vxRcp g (fmtBits f 15 6) (fmtBits f 9 6)) else .error .range)
  | 25 => cell (true) (if fmtBits f 3 6 == 0 && fmtBits f 0 3 == 0 then .ok (.vxRsqrt g (fmtBits f 15 6) (fmtBits f 9 6)) else .error .range)
  | 26 => cell (fmtBits f 0 1 == 0) (.ok (.vxCvt g (fmtBits f 15 6) (fmtBits f 9 6) (fmtBits f 5 4) (fmtBits f 1 4)))
  | 27 => cell (fmtBits f 0 1 == 0) (.ok (.vxCvts g (fmtBits f 15 6) (fmtBits f 9 6) (fmtBits f 5 4) (fmtBits f 1 4)))
  | 28 => cell (true) (.ok (.vxAmax g (fmtBits f 15 6) (fmtBits f 9 6) (fmtBits f 3 6) (fmtBits f 0 3)))
  | 29 => cell (true) (.ok (.vxScale g (fmtBits f 15 6) (fmtBits f 9 6) (fmtBits f 3 6) (fmtBits f 0 3)))
  | 30 => cell (fmtBits f 0 12 == 0) (.ok (.vxPush g (fmtBits f 15 6) (fmtBits f 12 3)))
  | 31 => cell (fmtBits f 0 12 == 0) (.ok (.vxPop g (fmtBits f 15 6) (fmtBits f 12 3)))
  | 32 => cell (true) (.ok (.vxRand g (fmtBits f 15 6) (fmtBits f 9 6) (fmtBits f 3 6) (fmtBits f 0 3)))
  | 33 => cell (true) (.ok (.vxAcs g (fmtBits f 15 6) (fmtBits f 9 6) (fmtBits f 3 6) (fmtBits f 0 3)))
  | 34 => cell (true) (if fmtBits f 3 6 == 0 then .ok (.vxTval g (fmtBits f 15 6) (fmtBits f 9 6) (fmtBits f 0 3)) else .error .range)
  | 35 => cell (true) (if fmtBits f 3 6 == 0 && fmtBits f 0 3 == 0 then .ok (.vxMov g (fmtBits f 15 6) (fmtBits f 9 6)) else .error .range)
  | 36 => cell (true) (.ok (.vxExt g (fmtBits f 15 6) (fmtBits f 9 6) (fmtBits f 3 6) (fmtBits f 0 3)))
  | _ => .error .unassigned

/-- The cells of the MX slot (R51). -/
def decodeMx (g : Guard) (op : Nat) (f : BitVec 21) : Except SealKind Instr :=
  match op with
  | 1 => cell (fmtBits f 0 4 == 0) (.ok (.mxMma g (fmtBits f 19 2) (fmtBits f 15 4) (fmtBits f 9 6) (fmtBits f 6 3) (fmtBits f 4 2)))
  | 2 => cell (fmtBits f 0 16 == 0) (.ok (.mxLatq g (fmtBits f 19 2) (fmtBits f 16 3)))
  | 3 => cell (fmtBits f 19 2 == 0 && fmtBits f 0 13 == 0) (.ok (.mxLatt g (fmtBits f 17 2) (fmtBits f 13 4)))
  | 4 => cell (fmtBits f 0 13 == 0) (.ok (.mxTtr g (fmtBits f 17 4) (fmtBits f 13 4)))
  | 5 => cell (fmtBits f 0 6 == 0) (if fmtBits f 6 3 == 0 then .ok (.mxAccz g (fmtBits f 15 6) (fmtBits f 9 6)) else .error .range)
  | 6 => cell (fmtBits f 0 6 == 0) (.ok (.mxAccq g (fmtBits f 15 6) (fmtBits f 9 6) (fmtBits f 6 3)))
  | _ => .error .unassigned

/-- The cells of the DX slot (R51). -/
def decodeDx (g : Guard) (op : Nat) (f : BitVec 21) : Except SealKind Instr :=
  match op with
  | 1 => cell (fmtBits f 0 4 == 0) (.ok (.dxCpost g (fmtBits f 15 6) (fmtBits f 9 6) (fmtBits f 4 5)))
  | 2 => cell (fmtBits f 0 6 == 0) (.ok (.dxKdep g (fmtBits f 16 5) (fmtBits f 11 5) (fmtBits f 6 5)))
  | 3 => cell (fmtBits f 0 15 == 0) (.ok (.dxAqpop g (fmtBits f 15 6)))
  | 4 => cell (fmtBits f 0 10 == 0) (if fmtBits f 10 2 == 0 then .ok (.dxQcfgCfg g (fmtBits f 18 3) (fmtBits f 12 6)) else if fmtBits f 10 2 == 1 then .ok (.dxQcfgCal g (fmtBits f 18 3) (fmtBits f 12 6)) else if fmtBits f 10 2 == 2 then .ok (.dxQcfgKey g (fmtBits f 18 3) (fmtBits f 12 6)) else if fmtBits f 10 2 == 3 then .ok (.dxQcfgCtr g (fmtBits f 18 3) (fmtBits f 12 6)) else .error .range)
  | 5 => cell (fmtBits f 0 10 == 0) (if fmtBits f 10 2 == 0 then .ok (.dxQstep g (fmtBits f 18 3) (fmtBits f 12 6)) else if fmtBits f 10 2 == 1 then .ok (.dxQstepWsat g (fmtBits f 18 3) (fmtBits f 12 6)) else if fmtBits f 10 2 == 2 then .ok (.dxQstepFlush g (fmtBits f 18 3) (fmtBits f 12 6)) else .error .range)
  | 6 => cell (fmtBits f 0 10 == 0) (if fmtBits f 10 2 == 0 then .ok (.dxQrdCfg g (fmtBits f 18 3) (fmtBits f 12 6)) else if fmtBits f 10 2 == 1 then .ok (.dxQrdCal g (fmtBits f 18 3) (fmtBits f 12 6)) else if fmtBits f 10 2 == 2 then .ok (.dxQrdAmax g (fmtBits f 18 3) (fmtBits f 12 6)) else if fmtBits f 10 2 == 3 then .ok (.dxQrdSat g (fmtBits f 18 3) (fmtBits f 12 6)) else .error .range)
  | 7 => cell (fmtBits f 0 4 == 0) (.ok (.dxMdec g (fmtBits f 15 6) (fmtBits f 12 3) (fmtBits f 9 3) (fmtBits f 4 5)))
  | 8 => cell (fmtBits f 0 10 == 0) (if fmtBits f 10 2 == 0 then .ok (.dxTdefWa g (fmtBits f 18 3) (fmtBits f 12 6)) else if fmtBits f 10 2 == 1 then .ok (.dxTdefWb g (fmtBits f 18 3) (fmtBits f 12 6)) else if fmtBits f 10 2 == 2 then .ok (.dxTdefRa g (fmtBits f 18 3) (fmtBits f 12 6)) else if fmtBits f 10 2 == 3 then .ok (.dxTdefRb g (fmtBits f 18 3) (fmtBits f 12 6)) else .error .range)
  | 9 => cell (fmtBits f 0 4 == 0) (.ok (.dxTload g (fmtBits f 15 6) (fmtBits f 9 6) (fmtBits f 4 5)))
  | _ => .error .unassigned

/-- The cells of the SQ slot (R51). -/
def decodeSq (g : Guard) (op : Nat) (f : BitVec 21) : Except SealKind Instr :=
  match op with
  | 1 => cell (fmtBits f 0 3 == 0) (.ok (.sqSmerge g (fmtBits f 15 6) (fmtBits f 9 6) (fmtBits f 3 6)))
  | 2 => cell (fmtBits f 0 21 == 0) (.ok (.sqSclr g))
  | 3 => cell (true) (if fmtBits f 15 6 == 0 && fmtBits f 3 6 == 0 && fmtBits f 0 3 == 0 then .ok (.sqStemp g (fmtBits f 9 6)) else .error .range)
  | 4 => cell (true) (if fmtBits f 15 6 == 0 && fmtBits f 3 6 == 0 && fmtBits f 0 3 == 0 then .ok (.sqStopk g (fmtBits f 9 6)) else .error .range)
  | 5 => cell (true) (if fmtBits f 15 6 == 0 && fmtBits f 3 6 == 0 && fmtBits f 0 3 == 0 then .ok (.sqStopp g (fmtBits f 9 6)) else .error .range)
  | 6 => cell (true) (if fmtBits f 15 6 == 0 && fmtBits f 0 3 == 0 then .ok (.sqSdraw g (fmtBits f 9 6) (fmtBits f 3 6)) else if fmtBits f 15 6 == 0 && fmtBits f 0 3 == 1 then .ok (.sqSdrawLin g (fmtBits f 9 6) (fmtBits f 3 6)) else .error .range)
  | 7 => cell (true) (if fmtBits f 15 6 == 0 && fmtBits f 3 6 == 0 && fmtBits f 0 3 == 0 then .ok (.sqSgetVal g (fmtBits f 9 6)) else if fmtBits f 15 6 == 0 && fmtBits f 3 6 == 0 && fmtBits f 0 3 == 1 then .ok (.sqSgetIdx g (fmtBits f 9 6)) else if fmtBits f 15 6 == 0 && fmtBits f 3 6 == 0 && fmtBits f 0 3 == 2 then .ok (.sqSgetProb g (fmtBits f 9 6)) else if fmtBits f 15 6 == 0 && fmtBits f 3 6 == 0 && fmtBits f 0 3 == 3 then .ok (.sqSgetTprob g (fmtBits f 9 6)) else if fmtBits f 15 6 == 0 && fmtBits f 9 6 == 0 && fmtBits f 3 6 == 0 && fmtBits f 0 3 == 4 then .ok (.sqSgetSum g) else .error .range)
  | 8 => cell (true) (if fmtBits f 3 6 == 0 && fmtBits f 0 3 == 0 then .ok (.sqBalloc g (fmtBits f 15 6) (fmtBits f 9 6)) else .error .range)
  | 9 => cell (true) (if fmtBits f 9 6 == 0 && fmtBits f 0 4 == 0 then .ok (.sqBfree g (fmtBits f 15 6) (fmtBits f 4 5)) else if fmtBits f 9 6 == 0 && fmtBits f 0 4 == 1 then .ok (.sqBfreeAcq g (fmtBits f 15 6) (fmtBits f 4 5)) else .error .range)
  | 10 => cell (true) (if fmtBits f 0 4 == 0 then .ok (.sqKvapp g (fmtBits f 15 6) (fmtBits f 9 6) (fmtBits f 4 5)) else if fmtBits f 0 4 == 1 then .ok (.sqKvappList g (fmtBits f 15 6) (fmtBits f 9 6) (fmtBits f 4 5)) else .error .range)
  | 11 => cell (true) (if fmtBits f 0 4 == 0 then .ok (.sqKvfork g (fmtBits f 15 6) (fmtBits f 9 6) (fmtBits f 4 5)) else .error .range)
  | 12 => cell (true) (if fmtBits f 9 6 == 0 && fmtBits f 0 4 == 0 then .ok (.sqKvroll g (fmtBits f 15 6) (fmtBits f 4 5)) else .error .range)
  | 13 => cell (true) (if fmtBits f 0 4 == 0 then .ok (.sqKvcommit g (fmtBits f 15 6) (fmtBits f 9 6) (fmtBits f 4 5)) else .error .range)
  | 14 => cell (true) (if fmtBits f 3 6 == 0 && fmtBits f 0 3 == 0 then .ok (.sqKvwinGet g (fmtBits f 15 6) (fmtBits f 9 6)) else if fmtBits f 0 3 == 1 then .ok (.sqKvwinSet g (fmtBits f 15 6) (fmtBits f 9 6) (fmtBits f 3 6)) else .error .range)
  | 15 => cell (true) (if fmtBits f 0 4 == 0 then .ok (.sqSquash g (fmtBits f 15 6) (fmtBits f 9 6) (fmtBits f 4 5)) else .error .range)
  | 16 => cell (true) (if fmtBits f 0 4 == 0 then .ok (.sqGbind g (fmtBits f 15 6) (fmtBits f 9 6) (fmtBits f 4 5)) else if fmtBits f 0 4 == 1 then .ok (.sqGbindReset g (fmtBits f 15 6) (fmtBits f 9 6) (fmtBits f 4 5)) else if fmtBits f 9 6 == 0 && fmtBits f 0 4 == 2 then .ok (.sqGbindDrop g (fmtBits f 15 6) (fmtBits f 4 5)) else .error .range)
  | 17 => cell (true) (if fmtBits f 0 4 == 0 then .ok (.sqGstep g (fmtBits f 15 6) (fmtBits f 9 6) (fmtBits f 4 5)) else .error .range)
  | 18 => cell (true) (if fmtBits f 0 4 == 0 then .ok (.sqGmask g (fmtBits f 15 6) (fmtBits f 9 6) (fmtBits f 4 5)) else .error .range)
  | 19 => cell (true) (if fmtBits f 0 4 == 0 then .ok (.sqGfork g (fmtBits f 15 6) (fmtBits f 9 6) (fmtBits f 4 5)) else .error .range)
  | 20 => cell (true) (if fmtBits f 0 4 == 0 then .ok (.sqGrollEnt g (fmtBits f 15 6) (fmtBits f 9 6) (fmtBits f 4 5)) else if fmtBits f 0 4 == 1 then .ok (.sqGrollPos g (fmtBits f 15 6) (fmtBits f 9 6) (fmtBits f 4 5)) else .error .range)
  | 21 => cell (true) (if fmtBits f 0 4 == 0 then .ok (.sqGcommit g (fmtBits f 15 6) (fmtBits f 9 6) (fmtBits f 4 5)) else .error .range)
  | 22 => cell (true) (if fmtBits f 0 3 == 0 then .ok (.sqItnext g (fmtBits f 15 6) (fmtBits f 9 6) (fmtBits f 3 6)) else .error .range)
  | 23 => cell (true) (if fmtBits f 0 4 == 0 then .ok (.sqItdone g (fmtBits f 15 6) (fmtBits f 9 6) (fmtBits f 4 5)) else .error .range)
  | 24 => cell (true) (if fmtBits f 0 4 == 0 then .ok (.sqItyield g (fmtBits f 15 6) (fmtBits f 9 6) (fmtBits f 4 5)) else .error .range)
  | 25 => cell (true) (if fmtBits f 0 4 == 0 then .ok (.sqSchw g (fmtBits f 15 6) (fmtBits f 9 6) (fmtBits f 4 5)) else .error .range)
  | 26 => cell (true) (if fmtBits f 9 6 == 0 && fmtBits f 3 6 == 0 && fmtBits f 0 3 == 0 then .ok (.sqRpop g (fmtBits f 15 6)) else .error .range)
  | _ => .error .unassigned

/-- The NOP of each slot (R37). -/
def Slot.nop : Slot → Instr
  | .br => .brNop | .sa => .saNop | .sb => .sbNop | .ld => .ldNop | .vx => .vxNop | .mx => .mxNop | .dx => .dxNop | .sq => .sqNop

/-- The candidate of a slot word with a non-zero opcode. -/
def decodeCell (sl : Slot) (g : Guard) (op : Nat) (f : BitVec 21) : Except SealKind Instr :=
  match sl with
  | .br => decodeBr g op f | .sa => decodeSa .a g op f
  | .sb => if 41 ≤ op && op ≤ 43 then .error .unassigned else decodeSa .b g op f
  | .ld => decodeLd g op f | .vx => decodeVx g op f | .mx => decodeMx g op f | .dx => decodeDx g op f | .sq => decodeSq g op f

/-- A fixed guard: `br.delay` and the containment cells must be guarded by p0 (R38, R150). -/
def fixedGuard : Instr → Bool
  | .brDelay _ | .brCrgnOpen _ | .brCrgnClose => true
  | _ => false

/-- A slot word of slot `sl`: its instruction, or the lowest KIND of R55 that refuses it. -/
def decodeSlot (sl : Slot) (w : SlotWord) : Except SealKind Instr :=
  let g : Guard := ⟨w.extractLsb' 28 4, w.getLsbD 27⟩
  let op := (w.extractLsb' 21 6).toNat
  if op = 0 then (if w = 0 then .ok sl.nop else .error .reserved)
  else match decodeCell sl g op (w.extractLsb' 0 21) with
    | .error k => .error k
    | .ok i =>
      if !i.rangeOk then .error .range
      else if !g.ok || (fixedGuard i && g != ⟨0, false⟩) then .error .guard
      else if !i.holdOk then .error .hold
      else .ok i

/-- Slot number n of a bundle (R34). -/
def slotAt : Nat → Slot
  | 0 => .br | 1 => .sa | 2 => .sb | 3 => .ld | 4 => .vx | 5 => .mx | 6 => .dx | _ => .sq

/-- The word of slot n (R34). -/
def slotWord (b : Bundle) (n : Nat) : SlotWord := b.extractLsb' (32 * n) 32

/-- Slots n, n+1, ... of a bundle, `k` of them, in slot order. -/
def decodeFrom (b : Bundle) (n : Nat) : Nat → Except (Nat × SealKind) (List Instr)
  | 0 => .ok []
  | k + 1 =>
    match decodeSlot (slotAt n) (slotWord b n) with
    | .error e => .error (n, e)
    | .ok i => match decodeFrom b (n + 1) k with
      | .error e => .error e
      | .ok r => .ok (i :: r)

/-- The eight slots of a bundle, or the lowest slot that a check of R55 refuses. -/
def decodeBundle (b : Bundle) : Except (Nat × SealKind) (List Instr) := decodeFrom b 0 8

/-- Little-endian bytes to a number (R2). -/
def leNat : List Byte → Nat
  | [] => 0
  | b :: r => b.toNat + 256 * leNat r

/-- The decoder on bytes: the eight slots of the bundle in the first 32 bytes, and the bytes after it. -/
def decodeBytes (bs : List Byte) : Option (List Instr × List Byte) :=
  if bs.length < 32 then none
  else match decodeBundle (BitVec.ofNat 256 (leNat (bs.take 32))) with
    | .error _ => none
    | .ok is => some (is, bs.drop 32)

/-- Is this a NOP? -/
def Instr.isNop : Instr → Bool
  | .brNop | .saNop | .sbNop | .ldNop | .vxNop | .mxNop | .dxNop | .sqNop => true
  | _ => false

/-- The first slot, in slot order, in which a word is an instruction: the table's words carry no slot (DESIGN CHOICE, log entry 11). -/
def firstSlot (w : SlotWord) : Nat → Nat → Option (Nat × Instr)
  | _, 0 => none
  | n, k + 1 => match decodeSlot (slotAt n) w with
    | .ok i => some (n, i)
    | .error _ => firstSlot w (n + 1) k

/-- The bundle that stands for a table word: a word of at most 32 bits stands in the first slot whose map has it, a longer one is
the bundle itself (DESIGN CHOICE, log entry 11). -/
def tableBundle (nbits w : Nat) : Option Bundle :=
  let w := w % 2 ^ nbits
  if nbits ≤ 32 then
    match firstSlot (BitVec.ofNat 32 w) 0 8 with
    | some (n, _) => some (BitVec.ofNat 256 (w * 2 ^ (32 * n)))
    | none => none
  else if nbits ≤ 256 then some (BitVec.ofNat 256 w)
  else none

/-- The instruction the decoder reads from a table word: the one non-NOP slot of its bundle. -/
def decodeTableWord (nbits w : Nat) : Option Instr :=
  match tableBundle nbits w with
  | none => none
  | some b => match decodeBundle b with
    | .error _ => none
    | .ok is => match is.filter (fun i => !i.isNop) with
      | [] => some .brNop
      | [i] => some i
      | _ => none

/-- The header of a slot word: guard, opcode and format field (R35). -/
def header (g : Guard) (op : BitVec 6) (f : BitVec 21) : SlotWord := g.p ++ BitVec.ofBool g.neg ++ op ++ f

/-- The guard of the instructions whose guard is fixed. -/
def guardP0 : Guard := ⟨0, false⟩

/-- The encoder: the slot of an instruction and its word; none for a device step, which has no encoding. -/
def encode : Instr → Option (Slot × SlotWord)
  | .brNop => some (.br, 0) | .saNop => some (.sa, 0) | .sbNop => some (.sb, 0) | .ldNop => some (.ld, 0)
  | .vxNop => some (.vx, 0) | .mxNop => some (.mx, 0) | .dxNop => some (.dx, 0) | .sqNop => some (.sq, 0)
  | .brJmp g o => some (.br, header g 1 (o))
  | .brCall g o => some (.br, header g 2 (o))
  | .brJmpr g a => some (.br, header g 3 (a ++ (0 : BitVec 15)))
  | .brRet g => some (.br, header g 4 ((0 : BitVec 21)))
  | .brLoop g l o => some (.br, header g 5 (l ++ o))
  | .brLset g l a => some (.br, header g 6 (l ++ a ++ (0 : BitVec 13)))
  | .brDelay n => some (.br, header guardP0 7 ((0 : BitVec 5) ++ n))
  | .brWaita g a b cd => some (.br, header g 8 (a ++ b ++ cd ++ (0 : BitVec 6)))
  | .brTokw g k => some (.br, header g 9 ((0 : BitVec 16) ++ k))
  | .brPload g a => some (.br, header g 10 (a ++ (0 : BitVec 15)))
  | .brEarly g => some (.br, header g 11 ((0 : BitVec 21)))
  | .brExit g => some (.br, header g 12 ((0 : BitVec 21)))
  | .brSys g n => some (.br, header g 13 ((0 : BitVec 6) ++ n))
  | .brTret g => some (.br, header g 14 ((0 : BitVec 21)))
  | .brCrgnOpen o => some (.br, header guardP0 15 (o))
  | .brCrgnClose  => some (.br, header guardP0 16 ((0 : BitVec 21)))
  | .brBrk g n => some (.br, header g 17 ((0 : BitVec 6) ++ n))
  | .brBar g a => some (.br, header g 18 (a ++ (0 : BitVec 15)))
  | .brFevclr g => some (.br, header g 19 ((0 : BitVec 21)))
  | .saAdd u g d a b => some ((match u with | .a => Slot.sa | .b => Slot.sb), header g 1 (d ++ a ++ b ++ (0 : BitVec 3)))
  | .saSub u g d a b => some ((match u with | .a => Slot.sa | .b => Slot.sb), header g 2 (d ++ a ++ b ++ (0 : BitVec 3)))
  | .saMul u g d a b => some ((match u with | .a => Slot.sa | .b => Slot.sb), header g 3 (d ++ a ++ b ++ (0 : BitVec 3)))
  | .saMulh u g d a b x => some ((match u with | .a => Slot.sa | .b => Slot.sb), header g 4 (d ++ a ++ b ++ x))
  | .saDiv u g d a b x => some ((match u with | .a => Slot.sa | .b => Slot.sb), header g 5 (d ++ a ++ b ++ x))
  | .saRem u g d a b x => some ((match u with | .a => Slot.sa | .b => Slot.sb), header g 6 (d ++ a ++ b ++ x))
  | .saAnd u g d a b => some ((match u with | .a => Slot.sa | .b => Slot.sb), header g 7 (d ++ a ++ b ++ (0 : BitVec 3)))
  | .saOr u g d a b => some ((match u with | .a => Slot.sa | .b => Slot.sb), header g 8 (d ++ a ++ b ++ (0 : BitVec 3)))
  | .saXor u g d a b => some ((match u with | .a => Slot.sa | .b => Slot.sb), header g 9 (d ++ a ++ b ++ (0 : BitVec 3)))
  | .saShl u g d a b => some ((match u with | .a => Slot.sa | .b => Slot.sb), header g 10 (d ++ a ++ b ++ (0 : BitVec 3)))
  | .saShr u g d a b => some ((match u with | .a => Slot.sa | .b => Slot.sb), header g 11 (d ++ a ++ b ++ (0 : BitVec 3)))
  | .saSra u g d a b => some ((match u with | .a => Slot.sa | .b => Slot.sb), header g 12 (d ++ a ++ b ++ (0 : BitVec 3)))
  | .saMin u g d a b x => some ((match u with | .a => Slot.sa | .b => Slot.sb), header g 13 (d ++ a ++ b ++ x))
  | .saMax u g d a b x => some ((match u with | .a => Slot.sa | .b => Slot.sb), header g 14 (d ++ a ++ b ++ x))
  | .saCmp u g p a b cd => some ((match u with | .a => Slot.sa | .b => Slot.sb), header g 15 (p ++ a ++ b ++ cd ++ (0 : BitVec 2)))
  | .saPand u g d a b => some ((match u with | .a => Slot.sa | .b => Slot.sb), header g 16 (d ++ a ++ b ++ (0 : BitVec 9)))
  | .saPor u g d a b => some ((match u with | .a => Slot.sa | .b => Slot.sb), header g 17 (d ++ a ++ b ++ (0 : BitVec 9)))
  | .saPxor u g d a b => some ((match u with | .a => Slot.sa | .b => Slot.sb), header g 18 (d ++ a ++ b ++ (0 : BitVec 9)))
  | .saMovi u g d i => some ((match u with | .a => Slot.sa | .b => Slot.sb), header g 19 (d ++ i))
  | .saMovh u g d i => some ((match u with | .a => Slot.sa | .b => Slot.sb), header g 20 (d ++ i))
  | .saAddi u g d i => some ((match u with | .a => Slot.sa | .b => Slot.sb), header g 21 (d ++ i))
  | .saLdB64 u g d a b => some ((match u with | .a => Slot.sa | .b => Slot.sb), header g 22 (d ++ a ++ b ++ (0 : BitVec 3)))
  | .saLdB32 u g d a b x => some ((match u with | .a => Slot.sa | .b => Slot.sb), header g 23 (d ++ a ++ b ++ x))
  | .saLdB16 u g d a b x => some ((match u with | .a => Slot.sa | .b => Slot.sb), header g 24 (d ++ a ++ b ++ x))
  | .saLdB8 u g d a b x => some ((match u with | .a => Slot.sa | .b => Slot.sb), header g 25 (d ++ a ++ b ++ x))
  | .saStB64 u g d a b => some ((match u with | .a => Slot.sa | .b => Slot.sb), header g 26 (d ++ a ++ b ++ (0 : BitVec 3)))
  | .saStB32 u g d a b => some ((match u with | .a => Slot.sa | .b => Slot.sb), header g 27 (d ++ a ++ b ++ (0 : BitVec 3)))
  | .saStB16 u g d a b => some ((match u with | .a => Slot.sa | .b => Slot.sb), header g 28 (d ++ a ++ b ++ (0 : BitVec 3)))
  | .saStB8 u g d a b => some ((match u with | .a => Slot.sa | .b => Slot.sb), header g 29 (d ++ a ++ b ++ (0 : BitVec 3)))
  | .saFaddF64 u g d a b => some ((match u with | .a => Slot.sa | .b => Slot.sb), header g 30 (d ++ a ++ b ++ (0 : BitVec 3)))
  | .saFsubF64 u g d a b => some ((match u with | .a => Slot.sa | .b => Slot.sb), header g 31 (d ++ a ++ b ++ (0 : BitVec 3)))
  | .saFmulF64 u g d a b => some ((match u with | .a => Slot.sa | .b => Slot.sb), header g 32 (d ++ a ++ b ++ (0 : BitVec 3)))
  | .saFdivF64 u g d a b => some ((match u with | .a => Slot.sa | .b => Slot.sb), header g 33 (d ++ a ++ b ++ (0 : BitVec 3)))
  | .saFaddF32 u g d a b => some ((match u with | .a => Slot.sa | .b => Slot.sb), header g 34 (d ++ a ++ b ++ (0 : BitVec 3)))
  | .saFsubF32 u g d a b => some ((match u with | .a => Slot.sa | .b => Slot.sb), header g 35 (d ++ a ++ b ++ (0 : BitVec 3)))
  | .saFmulF32 u g d a b => some ((match u with | .a => Slot.sa | .b => Slot.sb), header g 36 (d ++ a ++ b ++ (0 : BitVec 3)))
  | .saFdivF32 u g d a b => some ((match u with | .a => Slot.sa | .b => Slot.sb), header g 37 (d ++ a ++ b ++ (0 : BitVec 3)))
  | .saFcvt u g d a f t rn => some ((match u with | .a => Slot.sa | .b => Slot.sb), header g 38 (d ++ a ++ f ++ t ++ rn))
  | .saFcmpF64 u g p a b cd => some ((match u with | .a => Slot.sa | .b => Slot.sb), header g 39 (p ++ a ++ b ++ cd ++ (0 : BitVec 2)))
  | .saFcmpF32 u g p a b cd => some ((match u with | .a => Slot.sa | .b => Slot.sb), header g 40 (p ++ a ++ b ++ cd ++ (0 : BitVec 2)))
  | .saMfsr u g d n => some ((match u with | .a => Slot.sa | .b => Slot.sb), header g 41 (d ++ n ++ (0 : BitVec 3)))
  | .saMtsr u g a n => some ((match u with | .a => Slot.sa | .b => Slot.sb), header g 42 (a ++ n ++ (0 : BitVec 3)))
  | .saTshape u g t a => some ((match u with | .a => Slot.sa | .b => Slot.sb), header g 43 (t ++ a ++ (0 : BitVec 11)))
  | .ldW g d b m o => some (.ld, header g 1 (d ++ b ++ m ++ o))
  | .stW g d b m o => some (.ld, header g 2 (d ++ b ++ m ++ o))
  | .ldRow g d b m o => some (.ld, header g 3 (d ++ b ++ m ++ o))
  | .stRow g d b m o => some (.ld, header g 4 (d ++ b ++ m ++ o))
  | .ldCol g d b m o => some (.ld, header g 5 (d ++ b ++ m ++ o))
  | .stCol g d b m o => some (.ld, header g 6 (d ++ b ++ m ++ o))
  | .ldTile g t b m => some (.ld, header g 7 (t ++ b ++ m ++ (0 : BitVec 9)))
  | .stTile g t b m => some (.ld, header g 8 (t ++ b ++ m ++ (0 : BitVec 9)))
  | .ldAcc g r b m n => some (.ld, header g 9 (r ++ b ++ m ++ n))
  | .stAcc g r b m n => some (.ld, header g 10 (r ++ b ++ m ++ n))
  | .ldTagsetFull g b n => some (.ld, header g 11 (b ++ n ++ (1 : BitVec 1) ++ (0 : BitVec 8)))
  | .ldTagsetEmpty g b n => some (.ld, header g 11 (b ++ n ++ (0 : BitVec 1) ++ (0 : BitVec 8)))
  | .vxAdd g d a b t => some (.vx, header g 1 (d ++ a ++ b ++ t))
  | .vxSub g d a b t => some (.vx, header g 2 (d ++ a ++ b ++ t))
  | .vxMul g d a b t => some (.vx, header g 3 (d ++ a ++ b ++ t))
  | .vxMin g d a b t => some (.vx, header g 8 (d ++ a ++ b ++ t))
  | .vxMax g d a b t => some (.vx, header g 9 (d ++ a ++ b ++ t))
  | .vxFmaF32 g d a b e => some (.vx, header g 4 (d ++ a ++ b ++ e))
  | .vxFmaF64 g d a b e => some (.vx, header g 5 (d ++ a ++ b ++ e))
  | .vxFmaF16 g d a b e => some (.vx, header g 6 (d ++ a ++ b ++ e))
  | .vxFmaBf16 g d a b e => some (.vx, header g 7 (d ++ a ++ b ++ e))
  | .vxAbs g d a t => some (.vx, header g 10 (d ++ a ++ (0 : BitVec 6) ++ t))
  | .vxAnd g d a b => some (.vx, header g 11 (d ++ a ++ b ++ (4 : BitVec 3)))
  | .vxOr g d a b => some (.vx, header g 12 (d ++ a ++ b ++ (4 : BitVec 3)))
  | .vxXor g d a b => some (.vx, header g 13 (d ++ a ++ b ++ (4 : BitVec 3)))
  | .vxShl g d a b t => some (.vx, header g 14 (d ++ a ++ b ++ t))
  | .vxShr g d a b t => some (.vx, header g 15 (d ++ a ++ b ++ t))
  | .vxCmp g m a b cd t => some (.vx, header g 16 (m ++ a ++ b ++ cd ++ t))
  | .vxSel g d a b m => some (.vx, header g 17 (d ++ a ++ b ++ m))
  | .vxPerm g d a b t => some (.vx, header g 18 (d ++ a ++ b ++ t))
  | .vxBcast g d a t => some (.vx, header g 19 (d ++ a ++ (0 : BitVec 6) ++ t))
  | .vxMovi g d i => some (.vx, header g 20 (d ++ i))
  | .vxRedsum g d a b t => some (.vx, header g 21 (d ++ a ++ b ++ t))
  | .vxRedmax g d a b t => some (.vx, header g 22 (d ++ a ++ b ++ t))
  | .vxExp g d a => some (.vx, header g 23 (d ++ a ++ (0 : BitVec 6) ++ (0 : BitVec 3)))
  | .vxRcp g d a => some (.vx, header g 24 (d ++ a ++ (0 : BitVec 6) ++ (0 : BitVec 3)))
  | .vxRsqrt g d a => some (.vx, header g 25 (d ++ a ++ (0 : BitVec 6) ++ (0 : BitVec 3)))
  | .vxCvt g d a f t => some (.vx, header g 26 (d ++ a ++ f ++ t ++ (0 : BitVec 1)))
  | .vxCvts g d a f t => some (.vx, header g 27 (d ++ a ++ f ++ t ++ (0 : BitVec 1)))
  | .vxAmax g d a b t => some (.vx, header g 28 (d ++ a ++ b ++ t))
  | .vxScale g d a b t => some (.vx, header g 29 (d ++ a ++ b ++ t))
  | .vxPush g v q => some (.vx, header g 30 (v ++ q ++ (0 : BitVec 12)))
  | .vxPop g v q => some (.vx, header g 31 (v ++ q ++ (0 : BitVec 12)))
  | .vxRand g d a b t => some (.vx, header g 32 (d ++ a ++ b ++ t))
  | .vxAcs g d a b t => some (.vx, header g 33 (d ++ a ++ b ++ t))
  | .vxTval g d a t => some (.vx, header g 34 (d ++ a ++ (0 : BitVec 6) ++ t))
  | .vxMov g d a => some (.vx, header g 35 (d ++ a ++ (0 : BitVec 6) ++ (0 : BitVec 3)))
  | .vxExt g d a l t => some (.vx, header g 36 (d ++ a ++ l ++ t))
  | .mxMma g l a r t o => some (.mx, header g 1 (l ++ a ++ r ++ t ++ o ++ (0 : BitVec 4)))
  | .mxLatq g l q => some (.mx, header g 2 (l ++ q ++ (0 : BitVec 16)))
  | .mxLatt g l a => some (.mx, header g 3 ((0 : BitVec 2) ++ l ++ a ++ (0 : BitVec 13)))
  | .mxTtr g d a => some (.mx, header g 4 (d ++ a ++ (0 : BitVec 13)))
  | .mxAccz g r n => some (.mx, header g 5 (r ++ n ++ (0 : BitVec 3) ++ (0 : BitVec 6)))
  | .mxAccq g r n q => some (.mx, header g 6 (r ++ n ++ q ++ (0 : BitVec 6)))
  | .dxCpost g a b k => some (.dx, header g 1 (a ++ b ++ k ++ (0 : BitVec 4)))
  | .dxKdep g a b e => some (.dx, header g 2 (a ++ b ++ e ++ (0 : BitVec 6)))
  | .dxAqpop g d => some (.dx, header g 3 (d ++ (0 : BitVec 15)))
  | .dxQcfgCfg g q a => some (.dx, header g 4 (q ++ a ++ (0 : BitVec 2) ++ (0 : BitVec 10)))
  | .dxQcfgCal g q a => some (.dx, header g 4 (q ++ a ++ (1 : BitVec 2) ++ (0 : BitVec 10)))
  | .dxQcfgKey g q a => some (.dx, header g 4 (q ++ a ++ (2 : BitVec 2) ++ (0 : BitVec 10)))
  | .dxQcfgCtr g q a => some (.dx, header g 4 (q ++ a ++ (3 : BitVec 2) ++ (0 : BitVec 10)))
  | .dxQstep g q a => some (.dx, header g 5 (q ++ a ++ (0 : BitVec 2) ++ (0 : BitVec 10)))
  | .dxQstepWsat g q a => some (.dx, header g 5 (q ++ a ++ (1 : BitVec 2) ++ (0 : BitVec 10)))
  | .dxQstepFlush g q a => some (.dx, header g 5 (q ++ a ++ (2 : BitVec 2) ++ (0 : BitVec 10)))
  | .dxQrdCfg g q d => some (.dx, header g 6 (q ++ d ++ (0 : BitVec 2) ++ (0 : BitVec 10)))
  | .dxQrdCal g q d => some (.dx, header g 6 (q ++ d ++ (1 : BitVec 2) ++ (0 : BitVec 10)))
  | .dxQrdAmax g q d => some (.dx, header g 6 (q ++ d ++ (2 : BitVec 2) ++ (0 : BitVec 10)))
  | .dxQrdSat g q d => some (.dx, header g 6 (q ++ d ++ (3 : BitVec 2) ++ (0 : BitVec 10)))
  | .dxMdec g b t q k => some (.dx, header g 7 (b ++ t ++ q ++ k ++ (0 : BitVec 4)))
  | .dxTdefWa g t a => some (.dx, header g 8 (t ++ a ++ (0 : BitVec 2) ++ (0 : BitVec 10)))
  | .dxTdefWb g t a => some (.dx, header g 8 (t ++ a ++ (1 : BitVec 2) ++ (0 : BitVec 10)))
  | .dxTdefRa g t a => some (.dx, header g 8 (t ++ a ++ (2 : BitVec 2) ++ (0 : BitVec 10)))
  | .dxTdefRb g t a => some (.dx, header g 8 (t ++ a ++ (3 : BitVec 2) ++ (0 : BitVec 10)))
  | .dxTload g a b k => some (.dx, header g 9 (a ++ b ++ k ++ (0 : BitVec 4)))
  | .sqSmerge g v b m => some (.sq, header g 1 (v ++ b ++ m ++ (0 : BitVec 3)))
  | .sqSclr g => some (.sq, header g 2 ((0 : BitVec 21)))
  | .sqStemp g a => some (.sq, header g 3 ((0 : BitVec 6) ++ a ++ (0 : BitVec 6) ++ (0 : BitVec 3)))
  | .sqStopk g a => some (.sq, header g 4 ((0 : BitVec 6) ++ a ++ (0 : BitVec 6) ++ (0 : BitVec 3)))
  | .sqStopp g a => some (.sq, header g 5 ((0 : BitVec 6) ++ a ++ (0 : BitVec 6) ++ (0 : BitVec 3)))
  | .sqSdraw g a b => some (.sq, header g 6 ((0 : BitVec 6) ++ a ++ b ++ (0 : BitVec 3)))
  | .sqSdrawLin g a b => some (.sq, header g 6 ((0 : BitVec 6) ++ a ++ b ++ (1 : BitVec 3)))
  | .sqSgetVal g a => some (.sq, header g 7 ((0 : BitVec 6) ++ a ++ (0 : BitVec 6) ++ (0 : BitVec 3)))
  | .sqSgetIdx g a => some (.sq, header g 7 ((0 : BitVec 6) ++ a ++ (0 : BitVec 6) ++ (1 : BitVec 3)))
  | .sqSgetProb g a => some (.sq, header g 7 ((0 : BitVec 6) ++ a ++ (0 : BitVec 6) ++ (2 : BitVec 3)))
  | .sqSgetTprob g a => some (.sq, header g 7 ((0 : BitVec 6) ++ a ++ (0 : BitVec 6) ++ (3 : BitVec 3)))
  | .sqSgetSum g => some (.sq, header g 7 ((0 : BitVec 6) ++ (0 : BitVec 6) ++ (0 : BitVec 6) ++ (4 : BitVec 3)))
  | .sqBalloc g d a => some (.sq, header g 8 (d ++ a ++ (0 : BitVec 6) ++ (0 : BitVec 3)))
  | .sqBfree g a k => some (.sq, header g 9 (a ++ (0 : BitVec 6) ++ k ++ (0 : BitVec 4)))
  | .sqBfreeAcq g a k => some (.sq, header g 9 (a ++ (0 : BitVec 6) ++ k ++ (1 : BitVec 4)))
  | .sqKvapp g a b k => some (.sq, header g 10 (a ++ b ++ k ++ (0 : BitVec 4)))
  | .sqKvappList g a b k => some (.sq, header g 10 (a ++ b ++ k ++ (1 : BitVec 4)))
  | .sqKvfork g a b k => some (.sq, header g 11 (a ++ b ++ k ++ (0 : BitVec 4)))
  | .sqKvroll g a k => some (.sq, header g 12 (a ++ (0 : BitVec 6) ++ k ++ (0 : BitVec 4)))
  | .sqKvcommit g a b k => some (.sq, header g 13 (a ++ b ++ k ++ (0 : BitVec 4)))
  | .sqKvwinGet g d a => some (.sq, header g 14 (d ++ a ++ (0 : BitVec 6) ++ (0 : BitVec 3)))
  | .sqKvwinSet g d a b => some (.sq, header g 14 (d ++ a ++ b ++ (1 : BitVec 3)))
  | .sqSquash g a b k => some (.sq, header g 15 (a ++ b ++ k ++ (0 : BitVec 4)))
  | .sqGbind g a b k => some (.sq, header g 16 (a ++ b ++ k ++ (0 : BitVec 4)))
  | .sqGbindReset g a b k => some (.sq, header g 16 (a ++ b ++ k ++ (1 : BitVec 4)))
  | .sqGbindDrop g a k => some (.sq, header g 16 (a ++ (0 : BitVec 6) ++ k ++ (2 : BitVec 4)))
  | .sqGstep g a b k => some (.sq, header g 17 (a ++ b ++ k ++ (0 : BitVec 4)))
  | .sqGmask g a b k => some (.sq, header g 18 (a ++ b ++ k ++ (0 : BitVec 4)))
  | .sqGfork g a b k => some (.sq, header g 19 (a ++ b ++ k ++ (0 : BitVec 4)))
  | .sqGrollEnt g a b k => some (.sq, header g 20 (a ++ b ++ k ++ (0 : BitVec 4)))
  | .sqGrollPos g a b k => some (.sq, header g 20 (a ++ b ++ k ++ (1 : BitVec 4)))
  | .sqGcommit g a b k => some (.sq, header g 21 (a ++ b ++ k ++ (0 : BitVec 4)))
  | .sqItnext g d a b => some (.sq, header g 22 (d ++ a ++ b ++ (0 : BitVec 3)))
  | .sqItdone g a b k => some (.sq, header g 23 (a ++ b ++ k ++ (0 : BitVec 4)))
  | .sqItyield g a b k => some (.sq, header g 24 (a ++ b ++ k ++ (0 : BitVec 4)))
  | .sqSchw g a b k => some (.sq, header g 25 (a ++ b ++ k ++ (0 : BitVec 4)))
  | .sqRpop g d => some (.sq, header g 26 (d ++ (0 : BitVec 6) ++ (0 : BitVec 6) ++ (0 : BitVec 3)))
  | _ => none

end Sys2Proof
end

