-- ==== Sys2Proof/Config.lean ====
section
/-! DEFINITION. What the manual leaves open: free values, as constants without a body (DESIGN CHOICE, log entries 5, 7, 9), and the identity values that
each implementation fixes. Nothing can be proved of any value of these functions. -/

namespace Sys2Proof.Config

/-- An unspecified value (00_scope.md R6): of the model's counter and of a code that tells apart the values taken in one step. -/
opaque freeValue : Nat → Nat → Nat

/-- The lease that the home L2 grants (04 R101), before it is brought into 1 to 256: of the counter. -/
opaque freeLease : Nat → Nat

/-- The error of `vx.exp`, in units in the last place (07 R179), before it is brought into -2 to 2: of the operand. -/
opaque expError : BitVec 32 → Nat

/-- Which of the allowed results `vx.rcp` gives (07 R179): of the operand. -/
opaque rcpChoice : BitVec 32 → Nat

/-- Which of the allowed results `vx.rsqrt` gives (07 R179): of the operand. -/
opaque rsqrtChoice : BitVec 32 → Nat

/-- The private exponent of the device's identity key, which never leaves the management core (18 R409, R410): of the die. -/
opaque identityExponent : Nat → Nat

/-- The public part of the device's identity key, from which IDHASH is taken (18 R409): of the die. -/
opaque identityKey : Nat → Nat

/-- Silicon stepping (18 R395). -/
opaque stepping : Nat

/-- The root key hash that the boot ROM holds (18 R406). -/
opaque rootKeyHash : Nat

end Sys2Proof.Config
end

