-- ==== Sys2Proof/Machine/Num.lean ====
section
/-! DEFINITION. Number formats, rounding, saturation, the counter generator and CK64 (03_numbers.md R59-R87). A finite value is exact:
sign, magnitude and power of two; every rounding goes through `roundMag`. -/

namespace Sys2Proof.Machine

/-- The element types of R49, codes 0 to 9. -/
inductive Fmt where
  | f32 | f64 | f16 | bf16 | i32 | i8 | e4m3 | e5m2 | e2m1 | i4
  deriving DecidableEq, Repr

/-- The type of a code of R49. -/
def Fmt.ofCode : Nat → Fmt
  | 0 => .f32 | 1 => .f64 | 2 => .f16 | 3 => .bf16 | 4 => .i32 | 5 => .i8 | 6 => .e4m3 | 7 => .e5m2 | 8 => .e2m1 | _ => .i4

/-- Width in bits (R59, R64). -/
def Fmt.width : Fmt → Nat
  | .f32 => 32 | .f64 => 64 | .f16 => 16 | .bf16 => 16 | .i32 => 32 | .i8 => 8 | .e4m3 => 8 | .e5m2 => 8 | .e2m1 => 4 | .i4 => 4

/-- Fraction width (R59). -/
def Fmt.mant : Fmt → Nat
  | .f32 => 23 | .f64 => 52 | .f16 => 10 | .bf16 => 7 | .e4m3 => 3 | .e5m2 => 2 | .e2m1 => 1 | _ => 0

/-- Exponent bias (R59). -/
def Fmt.bias : Fmt → Nat
  | .f32 => 127 | .f64 => 1023 | .f16 => 15 | .bf16 => 127 | .e4m3 => 7 | .e5m2 => 15 | .e2m1 => 1 | _ => 0

/-- An integer format (R64). -/
def Fmt.isInt : Fmt → Bool
  | .i32 | .i8 | .i4 => true
  | _ => false

/-- Does the format have infinities (R60-R62)? -/
def Fmt.hasInf : Fmt → Bool
  | .f32 | .f64 | .f16 | .bf16 | .e5m2 => true
  | _ => false

/-- The sign bit's weight. -/
def Fmt.signBit (f : Fmt) : Nat := 2 ^ (f.width - 1)

/-- The magnitude code of the largest finite value (R59). -/
def Fmt.maxCode : Fmt → Nat
  | .e4m3 => 0x7E
  | .e2m1 => 7
  | f => f.signBit - 2 ^ f.mant - 1

/-- The magnitude code of infinity. -/
def Fmt.infCode (f : Fmt) : Nat := f.signBit - 2 ^ f.mant

/-- The canonical NaN (R65). -/
def Fmt.nanCode : Fmt → Nat
  | .f64 => 0x7FF8000000000000 | .f32 => 0x7FC00000 | .f16 => 0x7E00 | .bf16 => 0x7FC0 | .e5m2 => 0x7E | .e4m3 => 0x7F
  | _ => 0

/-- The exponent of the smallest normal value. -/
def Fmt.emin (f : Fmt) : Int := 1 - (f.bias : Int)

/-- An exact value: NaN, an infinity, or (-1)^neg * m * 2^e. -/
inductive Num where
  | nan
  | inf (neg : Bool)
  | fin (neg : Bool) (m : Nat) (e : Int)
  deriving DecidableEq, Repr

/-- A two's complement value of `w` bits. -/
def signedOf (w c : Nat) : Int := if 2 ^ (w - 1) ≤ c % 2 ^ w then (c % 2 ^ w : Int) - 2 ^ w else (c % 2 ^ w : Int)

/-- An integer as an exact value. -/
def Num.ofInt (i : Int) : Num := .fin (decide (i < 0)) i.natAbs 0

/-- The value of a code (R59-R64). -/
def Fmt.decode (f : Fmt) (c : Nat) : Num :=
  if f.isInt then Num.ofInt (signedOf f.width c)
  else
    let neg := f.signBit ≤ c % 2 ^ f.width
    let mag := c % f.signBit
    let e := mag / 2 ^ f.mant
    let fr := mag % 2 ^ f.mant
    if f.hasInf && f.infCode ≤ mag then (if fr = 0 then .inf neg else .nan)
    else if f == .e4m3 && mag == 0x7F then .nan
    else if e = 0 then .fin neg fr (f.emin - f.mant)
    else .fin neg (2 ^ f.mant + fr) ((e : Int) - f.bias - f.mant)

/-- The value of an E3M5 block scale (R63). -/
def e3m5 (c : Nat) : Num :=
  let e := c / 32 % 8
  let fr := c % 32
  if c % 256 = 255 then .nan
  else if e = 0 then .fin false fr (-7)
  else .fin false (32 + fr) ((e : Int) - 8)

/-- First-event categories as a set of bits (R87). -/
abbrev Cats := BitVec 7
/-- NaN made from non-NaN inputs. -/
def catINV : Cats := 1
/-- Division by zero. -/
def catDZ : Cats := 2
/-- Overflow. -/
def catOVF : Cats := 4
/-- Tiny and inexact. -/
def catUNF : Cats := 8
/-- Saturated. -/
def catSAT : Cats := 16
/-- Integer wrap. -/
def catIOVF : Cats := 32
/-- Invalid F4B8 block. -/
def catBLK : Cats := 64

/-- The rounding modes of R69. -/
inductive RM where
  | rne | rtz | rup | rdn | sr
  deriving DecidableEq, Repr

/-- The mode of a code of R69; a code above 4 stores 0. -/
def RM.ofCode : Nat → RM
  | 1 => .rtz | 2 => .rup | 3 => .rdn | 4 => .sr | _ => .rne

/-- Whether a magnitude k + r/d, 0 < r < d, goes up to k + 1 (R71, R76); `dr` is the draw. -/
def roundUp (rm : RM) (neg : Bool) (dr : W64) (k r d : Nat) : Bool :=
  if r = 0 then false
  else match rm with
    | .rne => decide (d < 2 * r) || (2 * r == d && k % 2 == 1)
    | .rtz => false
    | .rup => !neg
    | .rdn => neg
    | .sr => decide (2 ^ 32 ≤ r * 2 ^ 32 / d + (dr >>> 32).toNat)

/-- The exponent of n/d * 2^e, n and d not 0. -/
def expOf (n d : Nat) (e : Int) : Int :=
  let a := Nat.log2 n
  let b := Nat.log2 d
  if d * 2 ^ a ≤ n * 2 ^ b then (a : Int) - b + e else (a : Int) - b + e - 1

/-- n/d * 2^e in units of 2^q: whole part, remainder and divisor. -/
def inUnits (n d : Nat) (e q : Int) : Nat × Nat × Nat :=
  let N := n * 2 ^ (e - q).toNat
  let D := d * 2 ^ (q - e).toNat
  (N / D, N % D, D)

/-- n/d * 2^e rounded to the grid of R71: the magnitude code, exponent unbounded above; inexact; tiny (R74). -/
def roundMag (f : Fmt) (rm : RM) (neg : Bool) (dr : W64) (n d : Nat) (e : Int) : Nat × Bool × Bool :=
  if n = 0 then (0, false, false)
  else
    let E := expOf n d e
    let q := max E f.emin - f.mant
    let (k, r, D) := inUnits n d e q
    let k' := if roundUp rm neg dr k r D then k + 1 else k
    let code := (q - (f.emin - f.mant)).toNat * 2 ^ f.mant + k'
    let tiny := decide (E < f.emin) &&
      (let (k2, r2, D2) := inUnits n d e (E - f.mant)
       !(decide (E = f.emin - 1) && (if roundUp rm neg dr k2 r2 D2 then k2 + 1 else k2) == 2 ^ (f.mant + 1)))
    (code, r != 0, tiny)

/-- Sign and magnitude code. -/
def Fmt.signed (f : Fmt) (neg : Bool) (mag : Nat) : Nat := if neg then f.signBit + mag else mag

/-- The IEEE result of an overflow is an infinity (R72). -/
def ovfInf (rm : RM) (neg : Bool) : Bool :=
  match rm with
  | .rne => true | .rtz => false | .rup => !neg | .rdn => neg | .sr => true

/-- A finite value n/d * 2^e into a floating format (R72, R74). -/
def packFloat (f : Fmt) (rm : RM) (sat : Bool) (dr : W64) (neg : Bool) (n d : Nat) (e : Int) : Nat × Cats :=
  let (code, inex, tiny) := roundMag f rm neg dr n d e
  if f.maxCode < code then
    if sat then (f.signed neg f.maxCode, catSAT)
    else if f.hasInf then (f.signed neg (if ovfInf rm neg then f.infCode else f.maxCode), catOVF)
    else if f == .e4m3 && ovfInf rm neg then (f.nanCode, catOVF)
    else (f.signed neg f.maxCode, catOVF)
  else (f.signed neg code, if tiny && inex then catUNF else 0)

/-- A finite value n/d * 2^e into an integer format (R73). -/
def packInt (f : Fmt) (rm : RM) (dr : W64) (neg : Bool) (n d : Nat) (e : Int) : Nat × Cats :=
  let (k, r, D) := inUnits n d e 0
  let k' := if roundUp rm neg dr k r D then k + 1 else k
  let lim := if neg then f.signBit else f.signBit - 1
  let k2 := min k' lim
  ((if neg then (2 ^ f.width - k2) % 2 ^ f.width else k2), if lim < k' then catSAT else 0)

/-- A value into a format (R72, R73); the value's own NaN records nothing but into E2M1 or an integer. -/
def Num.pack (f : Fmt) (rm : RM) (sat : Bool) (dr : W64) : Num → Nat × Cats
  | .nan => if f.isInt || f == .e2m1 then (0, catINV) else (f.nanCode, 0)
  | .inf neg =>
    if f.isInt then ((if neg then f.signBit else f.signBit - 1), catSAT)
    else if f == .e2m1 || sat then (f.signed neg f.maxCode, catSAT)
    else if f.hasInf then (f.signed neg f.infCode, 0)
    else (f.nanCode, catINV)
  | .fin neg m e => if f.isInt then packInt f rm dr neg m 1 e else packFloat f rm sat dr neg m 1 e

/-- Is the value a zero? -/
def Num.isZero : Num → Bool
  | .fin _ m _ => m == 0
  | _ => false

/-- The sign of a value. -/
def Num.isNeg : Num → Bool
  | .nan => false | .inf n => n | .fin n _ _ => n

/-- Is it a NaN? -/
def Num.isNan : Num → Bool
  | .nan => true
  | _ => false

/-- The opposite value. -/
def Num.neg : Num → Num
  | .nan => .nan | .inf n => .inf (!n) | .fin n m e => .fin (!n) m e

/-- The magnitude. -/
def Num.abs : Num → Num
  | .nan => .nan | .inf _ => .inf false | .fin _ m e => .fin false m e

/-- Exact product; the second part tells of infinity times 0 (R65). -/
def Num.mul (a b : Num) : Num × Bool :=
  match a, b with
  | .nan, _ => (.nan, false)
  | _, .nan => (.nan, false)
  | .inf s, .inf t => (.inf (s != t), false)
  | .inf s, .fin t m _ => if m = 0 then (.nan, true) else (.inf (s != t), false)
  | .fin t m _, .inf s => if m = 0 then (.nan, true) else (.inf (s != t), false)
  | .fin s m e, .fin t n g => (.fin (s != t) (m * n) (e + g), false)

/-- The signed mantissa of a finite value in units of 2^q, q at most its exponent. -/
def scaled (neg : Bool) (m : Nat) (e q : Int) : Int :=
  let k := (m * 2 ^ (e - q).toNat : Nat)
  if neg then -(k : Int) else k

/-- Exact sum; a zero sum of values not both negative is +0, or -0 under RDN (R66); infinities of both signs are invalid. -/
def Num.add (rm : RM) (a b : Num) : Num × Bool :=
  match a, b with
  | .nan, _ => (.nan, false)
  | _, .nan => (.nan, false)
  | .inf s, .inf t => if s == t then (.inf s, false) else (.nan, true)
  | .inf s, .fin _ _ _ => (.inf s, false)
  | .fin _ _ _, .inf s => (.inf s, false)
  | .fin s m e, .fin t n g =>
    let q := min e g
    let z := scaled s m e q + scaled t n g q
    if z = 0 then (.fin (if m = 0 ∧ n = 0 ∧ s = t then s else rm == .rdn) 0 q, false)
    else (.fin (decide (z < 0)) z.natAbs q, false)

/-- The category INV of a flag. -/
def invIf (b : Bool) : Cats := if b then catINV else 0

/-- Order of two values, neither of them NaN: less than, with equal zeros. -/
def Num.lt (a b : Num) : Bool :=
  match a, b with
  | .nan, _ => false
  | _, .nan => false
  | .inf s, .inf t => s && !t
  | .inf s, .fin _ _ _ => s
  | .fin _ _ _, .inf t => !t
  | .fin s m e, .fin t n g => let q := min e g; decide (scaled s m e q < scaled t n g q)

/-- Equal as numbers. -/
def Num.eq (a b : Num) : Bool := !a.isNan && !b.isNan && !Num.lt a b && !Num.lt b a

/-- round(a + b) (R66, R72). -/
def fadd (f : Fmt) (rm : RM) (dr : W64) (a b : Nat) : Nat × Cats :=
  let (x, i) := Num.add rm (f.decode a) (f.decode b)
  let (c, k) := x.pack f rm false dr
  (c, k ||| invIf i)

/-- round(a - b). -/
def fsub (f : Fmt) (rm : RM) (dr : W64) (a b : Nat) : Nat × Cats :=
  let (x, i) := Num.add rm (f.decode a) (f.decode b).neg
  let (c, k) := x.pack f rm false dr
  (c, k ||| invIf i)

/-- round(a * b). -/
def fmul (f : Fmt) (rm : RM) (dr : W64) (a b : Nat) : Nat × Cats :=
  let (x, i) := Num.mul (f.decode a) (f.decode b)
  let (c, k) := x.pack f rm false dr
  (c, k ||| invIf i)

/-- round(a * b + c), one rounding (R170). -/
def ffma (f : Fmt) (rm : RM) (dr : W64) (a b c : Nat) : Nat × Cats :=
  let (p, i) := Num.mul (f.decode a) (f.decode b)
  let (x, j) := Num.add rm p (f.decode c)
  let (r, k) := x.pack f rm false dr
  (r, k ||| invIf (i || j))

/-- round(a / b): infinity over infinity and 0 over 0 are invalid; finite non-zero over 0 records DZ (R87, R128). -/
def fdiv (f : Fmt) (rm : RM) (dr : W64) (a b : Nat) : Nat × Cats :=
  match f.decode a, f.decode b with
  | .nan, _ => (f.nanCode, 0)
  | _, .nan => (f.nanCode, 0)
  | .inf _, .inf _ => (f.nanCode, catINV)
  | .inf s, .fin t _ _ => (f.signed (s != t) f.infCode, 0)
  | .fin s _ _, .inf t => (f.signed (s != t) 0, 0)
  | .fin s m e, .fin t n g =>
    if n = 0 then (if m = 0 then (f.nanCode, catINV) else (f.signed (s != t) f.infCode, catDZ))
    else packFloat f rm false dr (s != t) m n (e - g)

/-- Smaller value; a single NaN gives the other operand, two give the canonical NaN; -0 is below +0 (R65). -/
def fminmax (isMin : Bool) (f : Fmt) (a b : Nat) : Nat :=
  let x := f.decode a
  let y := f.decode b
  if x.isNan then (if y.isNan then f.nanCode else b)
  else if y.isNan then a
  else
    let aLess := Num.lt x y || (Num.eq x y && x.isNeg && !y.isNeg)
    let bLess := Num.lt y x || (Num.eq x y && y.isNeg && !x.isNeg)
    if isMin then (if bLess then b else a) else (if aLess then b else a)

/-- A conversion between formats (R72, R73, R129); from = to keeps the source but for a NaN. -/
def fconvert (src dst : Fmt) (rm : RM) (sat : Bool) (dr : W64) (c : Nat) : Nat × Cats :=
  if src = dst then (if (src.decode c).isNan then (src.nanCode, 0) else (c % 2 ^ src.width, 0))
  else (src.decode c).pack dst rm sat dr

/-- The constant K1 of R75. -/
def K1 : W64 := 0x9A3F61C52E87D40B
/-- The constant K2 of R75. -/
def K2 : W64 := 0xF17C0D93B6A25E27

/-- The mixing function of R75. -/
def mix (x : W64) : W64 :=
  let y := x ^^^ (x >>> 29)
  let z := y * K2
  z ^^^ (z >>> 32)

/-- The counter generator of R75. -/
def draw (seed counter : W64) : W64 := mix (seed ^^^ (counter * K1))

/-- The term of word i in CK64 (R78). -/
def ckTerm (i : Nat) (w : W64) : W64 := mix (w ^^^ (BitVec.ofNat 64 i * K1))

/-- CK64 of a list of words, the first of index i (R78). -/
def ck64From (i : Nat) : List W64 → W64
  | [] => 0
  | w :: r => ckTerm i w + ck64From (i + 1) r

/-- CK64 of a content given as words (R78). -/
def ck64 (ws : List W64) : W64 := ck64From 0 ws

/-- Conditions of integer compares (R123). -/
def condInt (cond : Nat) (a b : W64) : Bool :=
  match cond with
  | 0 => a == b | 1 => a != b | 2 => a.slt b | 3 => !a.slt b
  | 4 => a.ult b | 5 => !a.ult b | 6 => !b.slt a | _ => !b.ult a

/-- Conditions of floating compares (R123). -/
def condFloat (f : Fmt) (cond : Nat) (a b : Nat) : Bool :=
  let x := f.decode a
  let y := f.decode b
  let un := x.isNan || y.isNan
  match cond with
  | 0 => Num.eq x y
  | 1 => un || !Num.eq x y
  | 2 => !un && Num.lt x y
  | 3 => !un && !Num.lt x y
  | 4 => !un && !Num.lt y x
  | 5 => !un && Num.lt y x
  | 6 => un
  | _ => !un

end Sys2Proof.Machine
end

