-- ==== Sys2Proof/Machine/State.lean ====
section
/-! DEFINITION. The machine's state, every piece that spec/ names, as plain data, the reasons a step can stop, and the state right after
reset. Fields that are the model's own (`moves`, `focus`, `free`, `lat`, `wait`) are named in DESIGN CHOICE, log entries 4, 5 and 13. -/

namespace Sys2Proof.Machine

/-- Why the machine stops with a fault. -/
inductive Fault where
  /-- Raised by a step of a core number above 319 (`moves` or `focus`): no such core exists (00_scope.md R4). Safe. -/
  | noCore
  /-- Raised by the fetch of a bundle that no sealed image can hold: a handle without a seal record, an offset outside the image, or a
  word that R55 refuses. A core never executes such a word (02_bundle.md R52, R57). Safe. -/
  | unsealed
  deriving DecidableEq, Repr

/-- Why the machine refuses an instruction. -/
inductive Refusal where
  /-- Raised by `exec` for an instruction without a meaning; its mnemonic in the opcode table. Safe. -/
  | notModelled (mnemonic : String)
  deriving DecidableEq, Repr


/-- A sparse table: pairs of key and value, keys strictly rising, no entry equal to what an unlisted key reads as. -/
abbrev SMap (α : Type) := List (Nat × α)

/-- The states of a context (01_organisation.md R19). -/
inductive CtxState where
  | unbound | ready | active | blocked | exited | saved
  deriving DecidableEq, Repr

/-- Why a context is BLOCKED (R20, R115, R195, R241, R281, R293). -/
inductive Block where
  | none
  | queueFull          -- a post to a full copy or launch queue; the watch of the context is on the descriptor's line
  | returnsFull        -- an amo with 16 return entries reserved
  | aqEmpty | rqEmpty
  | token (k : Nat)
  | address            -- a failed `br.waita` test; the watch is on the word's line
  | barrier
  | maceFull
  | samplerFull        -- the sampler's queue is full
  | returnsReserved    -- a valued sampler command with 8 return entries reserved, or a full queue as well
  | sequence (unit : Nat)   -- a command to a sequence engine that is busy for this context
  deriving DecidableEq, Repr

/-- A register that an exposed result lands in (02_bundle.md R43, R44). -/
inductive Dst where
  | s (n : Nat) | p (n : Nat) | v (n : Nat) | vm (n : Nat) | lc (n : Nat) | sys (n : Nat) | ts (n : Nat)
  deriving DecidableEq, Repr

/-- A pending exposed result: its register and value, its age in cycles and its latency bound, whether it has landed already or is
overtaken by a later write that has (R44), and its first-event categories with their place (03_numbers.md R89). -/
structure Pend where
  dst : Dst
  val : Nat
  bound : Nat
  ev : BitVec 7
  age : Nat
  landed : Bool
  dead : Bool
  order : Nat
  slot : Nat
  handle : Nat
  pc : Nat
  deriving DecidableEq, Repr

/-- What the BR slot of an issued bundle does after the whole bundle has issued (05_control.md R134, R143, R145, R148, R150, R152). -/
inductive Next where
  | seq
  | jump (pc bubbles : Nat)
  | ret (handle pc bubbles : Nat)
  | exit
  | trap (code : Nat) (info : W64)
  | delay (n : Nat)
  | openRegion (handler : W64)
  | closeRegion
  | clearLog
  deriving DecidableEq, Repr

/-- An issued store that is not yet performed (R131); a ring-slot store whose page is absent has no physical address (R369). -/
structure Store where
  pa : Option Nat
  va : Nat
  asid : Nat
  size : Nat
  val : Nat
  deriving DecidableEq, Repr

/-- A trap entry that waits for pending results (R147): cause, detail, and the resume bundle. -/
structure PendTrap where
  code : Nat
  info : W64
  handle : Nat
  pc : Nat
  deriving DecidableEq, Repr

/-- A reserved entry of the atomic return queue (10_copy.md R240). -/
structure AqEntry where
  line : Nat
  seq : Nat
  arrived : Bool
  val : W64
  deriving DecidableEq, Repr

/-- One candidate of the sampler's list (13_sampling.md R290): its value, its index and its place of insertion. -/
structure Cand where
  val : BitVec 32
  idx : BitVec 32
  deriving DecidableEq, Repr

/-- The candidate file of a context (13_sampling.md R290). -/
structure CandFile where
  beta : BitVec 32
  k : Nat
  topp : BitVec 32
  entries : List Cand
  deriving DecidableEq, Repr

/-- A request whose reply the bundle at a place waits for or has kept (11_kvblocks.md R263; 15_schedule.md R342, R348): the place, the
command's serial number, the reply, and the timestamp up to which the effects before it lie. -/
structure Ask where
  handle : Nat
  pc : Nat
  serial : Nat
  op : Nat
  reply : Option W64
  ts : Nat
  deriving DecidableEq, Repr

/-- What belongs to a bundle at which a trap is to resume (02_bundle.md R38, 05_control.md R140; DEDUCED, log entry 26): its place, the
cycles that its interrupted `br.delay` has left, the level of the barrier that it has passed, and of one at which it has arrived and that is not
complete. -/
structure Resume where
  handle : Nat
  pc : Nat
  delay : Option Nat
  bar : Option Nat
  barIn : Option Nat
  deriving DecidableEq, Repr

/-- The state of one context (05_control.md R119, R121; 07_vector.md R165; 14_dispatch.md R328). -/
structure Context where
  st : CtxState  -- UNBOUND to SAVED (R19)
  why : Block  -- why it is BLOCKED (R20)
  tid : Nat  -- the task bound to it (14_dispatch.md R319)
  rank : Nat  -- its rank in the task (01_organisation.md R10)
  handle : Nat  -- the image handle of the place (02_bundle.md R36)
  pc : Nat  -- PC, an offset in the image (R36)
  delay : Nat  -- cycles that a `delay` still holds issue (R38)
  bubble : Nat  -- bubbles left (05_control.md R136)
  sr : SMap W64  -- s1 to s63 (R119)
  pr : BitVec 16  -- p1 to p15 (R119)
  lc : SMap W64  -- lc0 to lc3 (R119)
  vr : SMap Vec  -- v0 to v31 (07_vector.md R165)
  vm : SMap W64  -- vm0 to vm7 (R165)
  sys : SMap W64  -- the system registers, by number (R120, R121)
  pend : List Pend  -- exposed results that are pending (02_bundle.md R43)
  settle : List (Dst × Nat)  -- when a predicate or counter was last written, in cycles (R41)
  order : Nat  -- bundles issued so far (03_numbers.md R89)
  evOrder : Nat  -- the issue order of the event in FEVA to FEVF (R89)
  evSlot : Nat  -- its slot (R89)
  tok : BitVec 32  -- the tokens that are pending (04_memory.md R112)
  att : List Nat  -- the attach set (10_copy.md R242)
  aq : List AqEntry  -- the atomic return queue (R240)
  rq : List AqEntry  -- the sampler's return queue (13_sampling.md R293)
  cand : CandFile  -- the candidate file (R290)
  watch : Option Nat  -- the line that its watch is on (05_control.md R138)
  stores : List Store  -- stores issued and not performed, oldest first (R131)
  asks : List Ask  -- replies asked for and kept (11_kvblocks.md R263)
  frz : Nat  -- cycles of the present data wait (01_organisation.md R23)
  spent : Nat  -- cycles already waited for bank conflicts (06_scratchpad.md R158)
  nxt : Next  -- what the BR slot of the bundle that issues does next; .seq between bundles
  trap : Option PendTrap  -- a trap entry that waits for pending results (05_control.md R147)
  squash : Option W64  -- a squash event that is posted (13_sampling.md R305)
  refused : Option Nat  -- the address of a ring slot whose page refuses its store (16_faults.md R369)
  posted : Nat  -- posted packets that have not retired (10_copy.md R247)
  quant : Nat  -- QUANT of the bind record (14_dispatch.md R323)
  quota : Nat  -- cycles counted toward QUANT (R323)
  crOrder : List Nat  -- the issue order of each open region's `crgn.open` (17_reliability.md R380)
  barPass : Option Nat  -- the level of the barrier that its present bundle has passed (05_control.md R140)
  srUsed : Nat  -- SR draws taken in this bundle (03_numbers.md R77)
  due : Option Nat  -- the cycles that the `br.delay` at its present place has left after an event (02_bundle.md R38)
  resumes : List Resume  -- bundles at which traps are to resume, the latest first (R38, R140; DEDUCED, log entry 26)
  test : Option Bool  -- the outcome of the `br.waita` test whose value is on its way (05_control.md R137)
  fevClr : Bool  -- a `br.fevclr` issued in this cycle (05_control.md R152)
  tokTs : SMap Nat  -- the timestamp that each token's producer ended with (04_memory.md R103, R112)
  halt : Bool  -- its task is being saved, and it is still to stop at the end of its core's cycle (14_dispatch.md R325, 16_faults.md R367)
  tokGen : SMap Nat  -- how often each token has been made pending, to tell its producers apart (R113)
  barIn : Option Nat  -- the level of the barrier at which its present bundle has arrived, until it completes (05_control.md R140)
  dwDue : Bool  -- a data-wait event that an unwind came before: it is taken at the next bundle boundary (17_reliability.md R381)
  trapOrder : Nat  -- the issue order at the entry of the handler that is active: regions opened from there on are the handler's own (17_reliability.md R381)
  exits : Bool  -- its `br.exit` has issued, and its ring-slot stores wait for their page (05_control.md R143, 16_faults.md R369)
  deriving DecidableEq, Repr

/-- A context to which no task is bound: its registers at their reset values (DESIGN CHOICE, log entry 1 for those the manual gives none). -/
def Context.init : Context :=
  { st := .unbound, why := .none, tid := 0, rank := 0, handle := 0, pc := 0, delay := 0, bubble := 0, sr := [], pr := 0, lc := [],
    vr := [], vm := [], sys := [], pend := [], settle := [], order := 0, evOrder := 0, evSlot := 0, tok := 0, att := [], aq := [],
    rq := [], cand := ⟨0x3F800000, 64, 0x3F800000, []⟩, watch := none, stores := [], asks := [], frz := 0, spent := 0, nxt := .seq,
    trap := none, squash := none, refused := none, posted := 0, quant := 0, quota := 0, crOrder := [], barPass := none, srUsed := 0, due := none,
    resumes := [], test := none, fevClr := false, tokTs := [], halt := false, tokGen := [], barIn := none, dwDue := false,
    trapOrder := 0, exits := false }

/-- A scratchpad write of the LD slot that is not yet performed (04_memory.md R107); one of a tagged form has bound 0, and the tag that it
leaves (R109). -/
structure SpWrite where
  word : Nat
  val : W64
  tag : Option Bool
  age : Nat
  bound : Nat
  deriving DecidableEq, Repr

/-- One entry of an inter-engine queue (07_vector.md R183): pushed in this cycle when `fresh`. An entry pushed by Mace tells how its lanes
are read (08_trellis.md R198): as F4B8, or as values of type code `out`. -/
structure QEntry where
  val : Vec
  side : Bool
  mace : Bool
  f4 : Bool
  out : Nat
  poison : Bool
  fresh : Bool
  deriving DecidableEq, Repr

/-- One inter-engine queue with its registers (R183, 10_copy.md R245, 03_numbers.md R82). -/
structure Queue where
  entries : List QEntry
  freed : Nat
  src : Nat
  sink : Nat
  rnd : Nat
  sat : Bool
  side : Bool
  rown : Nat
  rowLeft : Nat
  scale : BitVec 32
  scaleBad : Bool  -- the side value in force comes from a poisoned entry (17_reliability.md R377)
  cal : BitVec 8
  amax : BitVec 32
  nsat : BitVec 32
  key : W64
  ctr : W64
  deriving DecidableEq, Repr

/-- A queue at its reset values: empty, no side values, scale 1. -/
def Queue.init : Queue :=
  { entries := [], freed := 0, src := 0, sink := 0, rnd := 0, sat := false, side := false, rown := 0, rowLeft := 0,
    scale := 0x3F800000, scaleBad := false, cal := 0, amax := 0, nsat := 0, key := 0, ctr := 0 }

/-- The resources of the busy-bit scoreboard (09_matrix.md R212). -/
inductive Res where
  | tile (n : Nat) | latch (n : Nat) | row (n : Nat) | feed | path | pop | push
  deriving DecidableEq, Repr

/-- A busy bit that clears after `left` more cycles. -/
structure Busy where
  res : Res
  write : Bool
  left : Nat
  deriving DecidableEq, Repr

/-- Whose first-event log a matrix result goes to (R89). -/
structure EvPlace where
  tid : Nat
  rank : Nat
  order : Nat
  slot : Nat
  handle : Nat
  pc : Nat
  deriving DecidableEq, Repr

/-- A write into accumulator memory by `mma` or `accz`, `left` cycles ahead: the first FP32-view row (R208), the type code of its values,
added or overwritten, the values of consecutive columns, and which of them are poisoned (R217, R221). -/
structure RowWrite where
  left : Nat
  row : Nat
  fmt : Nat
  add : Bool
  vals : List Nat
  bad : List Bool
  ev : BitVec 7
  place : EvPlace
  deriving DecidableEq, Repr

/-- A `latt` or `ttr` on the tile path (R219): what it writes when `left` cycles have passed, the columns of a latch or the words of a tile,
and the poisoned places among them. -/
structure PathOp where
  left : Nat
  latch : Bool
  dest : Nat
  cols : List (List Nat)
  words : List W64
  bad : List Nat
  deriving DecidableEq, Repr

/-- Elements on their way from a queue to a latch (R218). -/
structure Flight where
  left : Nat
  first : Nat
  codes : List Nat
  bad : Bool
  ev : BitVec 7
  deriving DecidableEq, Repr

/-- A running `latq` (R218): how many elements it delivers in all, the next of them, and elements on their way. -/
structure LatqOp where
  lat : Nat
  q : Nat
  k : Nat
  need : Nat
  next : Nat
  flight : List Flight
  begun : Bool
  place : EvPlace
  did : Bool
  deriving DecidableEq, Repr

/-- A running `accq` (R222): the next row, the rows left, the cycles before the next push may take place. -/
structure AccqOp where
  q : Nat
  row : Nat
  left : Nat
  two : Bool
  wait : Nat
  tid : Nat
  did : Bool
  deriving DecidableEq, Repr

/-- A tile command that is moving its region (06_scratchpad.md R161-R163): the words left, each with the place in the tile or
accumulator, the cycles that the present chunk still takes, and how the command goes on. -/
structure TileCmd where
  load : Bool
  acc : Bool
  words : List (Nat × Nat)
  chunk : Nat
  banks : List Nat
  tid : Nat
  deriving DecidableEq, Repr

/-- A registered accumulator window (R215): cycles until it begins, its rows, the pairs already past, the type of its elements, the packet
whose data it takes, the rows of data that have reached the core, and whether a pair was not ready. -/
structure Window where
  start : Nat
  row : Nat
  rows : Nat
  next : Nat
  fmt : Nat
  tid : Nat
  rank : Nat
  seq : Nat
  desc : Nat
  ready : List (Nat × List Nat × List Bool)
  missed : Bool
  did : Bool
  deriving DecidableEq, Repr

/-- A command of the Mace queue with its progress (08_trellis.md R195-R202): the cycles before it may start and before its first push, the
segment, group or entry it is at, the position in the bit stream, the address, the lanes of the entry being filled, and the source words
that it has read and not yet finished with. -/
structure MaceCmd where
  load : Bool
  tid : Nat
  rank : Nat
  order : Nat
  tok : Nat
  deps : List Nat
  q : Nat
  cw : W64
  src : Nat
  tda : W64
  tdb : W64
  wait : Nat
  started : Bool
  lag : Nat
  unit : Nat
  elem : Nat
  pos : Nat
  lanes : List Nat
  bad : Bool
  words : List (W64 × Bool)
  deriving DecidableEq, Repr

/-- An L1 copy of a line (04_memory.md R101), with the bytes it was taken with, and the core whose load or store it was taken for (R103). -/
structure L1Line where
  core : Nat
  line : Nat
  wts : Nat
  rts : Nat
  data : List Byte
  bad : List Bool
  deriving DecidableEq, Repr

/-- A command of a sequence engine (11_kvblocks.md R261, 12_grammar.md R281, 15_schedule.md R350): its serial number in the model, SQ opcode
and x, where it was issued, its operands, its tokens, whether it replies to a register, the cycles before it may start, and whether it is
stopped at an absent page; `begun` tells that it has started, also where it is to start again (16_faults.md R373). `out` and `phase` serve a `sq.gmask` that is writing its mask (R284). -/
structure SqCmd where
  serial : Nat
  op : Nat
  x : Nat
  core : Nat
  tid : Nat
  rank : Nat
  ctx : Nat
  order : Nat
  asid : Nat
  k : Bool
  a : W64
  b : W64
  tok : Nat
  deps : List Nat
  wait : Nat
  stopped : Bool
  out : List (Nat × W64)
  phase : Nat
  place : Nat × Nat
  ts : Nat
  begun : Bool
  deriving DecidableEq, Repr

/-- A sampler command (13_sampling.md R293): its operands, the tokens that `sq.smerge` waits for, and the busy cycles that are left once it
has started; `keep` is what the mask words gave. -/
structure SampCmd where
  serial : Nat
  op : Nat
  x : Nat
  tid : Nat
  rank : Nat
  order : Nat
  v : Vec
  a : W64
  b : W64
  masked : Bool
  deps : List Nat
  fresh : Bool
  left : Option Nat
  keep : W64
  deriving DecidableEq, Repr

/-- A pool of Anise (11_kvblocks.md R252): its registers. -/
structure Pool where
  asid : Nat
  en : Bool
  bpos : Nat
  bsz : Nat
  base : Nat
  nblk : Nat
  pmeta : Nat
  htLog : Nat
  ht : Nat
  free : Nat
  quar : Nat
  code : Nat
  eaddr : Nat
  deriving DecidableEq, Repr

/-- A pool right after reset. -/
def Pool.init : Pool :=
  { asid := 0, en := false, bpos := 0, bsz := 12, base := 0, nblk := 0, pmeta := 0, htLog := 0, ht := 0, free := 0,
    quar := 0, code := 0, eaddr := 0 }

/-- A block in quarantine (R267): the packets accepted before its point that have not retired, by die, engine, descriptor and claim, and
whether it waits on a fault or stays for good. -/
structure Quar where
  serial : Nat
  pool : Nat
  addr : Nat
  waits : List (Nat × Nat × Nat × Nat)
  fault : Bool
  stuck : Bool
  deriving DecidableEq, Repr

/-- A registered copy queue (10_copy.md R229): descriptor address and the values read once at registration. -/
structure CopyQueue where
  desc : Nat
  line : Nat
  regAsid : Nat
  asid : Nat
  ring : Nat
  lsize : Nat
  deriving DecidableEq, Repr

/-- How far an accepted packet has come (R237-R239, R371). -/
inductive Phase where
  | waiting | payload | complete | stamp (code : Nat)
  deriving DecidableEq, Repr

/-- A frame-bound range of a packet's scratchpad destination (R372): the context of a saved task and the words of its window when the packet
was bound: core, first word, number of words. -/
structure Bound where
  tid : Nat
  rank : Nat
  core : Nat
  first : Nat
  words : Nat
  deriving DecidableEq, Repr

/-- An accepted packet that has not retired (R231-R239, R371): its claim and words, its poster, its progress: the payload bytes performed,
the bytes that it has read and not yet written with their poison, the bytes up to which the pages of its payload have been translated, the
checksum so far with the bytes of its unfinished word, the gather indices that it has read from its present row on, whether it read poison,
whether it is stopped in a fault slot, whether it has started, and its fault slot of the engine's eight. -/
structure Packet where
  serial : Nat
  desc : Nat
  line : Nat
  asid : Nat
  seq : Nat
  words : List W64
  cpost : Bool
  tid : Nat
  rank : Nat
  order : Nat
  deps : List Nat
  phase : Phase
  done : Nat
  buf : List (Nat × Bool)
  ahead : Nat
  row : List Nat
  rowBad : List Bool
  ck : W64
  ckIdx : Nat
  ckPart : List Nat
  gidx : List Nat
  bad : Bool
  badKill : Bool
  stopped : Bool
  fault : Bool
  slot : Nat
  bounds : List Bound
  old : W64
  cancelled : Bool
  retired : Bool
  noStamp : Bool
  deriving DecidableEq, Repr

/-- A claim that `dx.cpost` made and that is not yet accepted: the descriptor's line, the claim, the poster, its bundle's order,
its token and the tokens that it consumes, whether a kill, squash or unwind has cancelled it (R240, R241, R247, R248), and whether its token is done already (R380). -/
structure Claim where
  line : Nat
  seq : Nat
  tid : Nat
  rank : Nat
  order : Nat
  tok : Nat
  deps : List Nat
  cancelled : Bool
  retired : Bool
  deriving DecidableEq, Repr

/-- A slot that a squash could not read (R248): its line and claim, the squash's ASID, record and position, and the timestamp of its point. -/
structure Unread where
  line : Nat
  claim : Nat
  asid : Nat
  seq : Nat
  depth : Nat
  ts : Nat
  deriving DecidableEq, Repr

/-- One copy engine (R227, R229): its queues, CQSTAT.ERR, its accepted packets in order of acceptance, the slots that a squash has cancelled before
acceptance (R248), by line and claim, and those that a squash could not read. -/
structure Engine where
  queues : List CopyQueue
  err : Bool
  packets : List Packet
  cancels : List (Nat × Nat)
  unread : List Unread
  deriving DecidableEq, Repr

/-- An idle engine. -/
def Engine.init : Engine := { queues := [], err := false, packets := [], cancels := [], unread := [] }

/-- The agents that translate (16_faults.md R353). -/
inductive Agent where
  | core (g : Nat) | copy (die eng : Nat) | anise (die : Nat) | clove (g : Nat) | walker (cl : Nat) | dispatch (die : Nat)
  | seal (die : Nat) | host (die : Nat) | net (die : Nat) | stor (die : Nat) | hart (die h : Nat) | sumac
  deriving DecidableEq, Repr

/-- A translation that an agent holds (R360): the leaf, its level, and the physical address of its entry. -/
structure Tlb where
  agent : Agent
  asid : Nat
  vpn : Nat
  level : Nat
  pte : W64
  at_ : Nat
  deriving DecidableEq, Repr

/-- A fault that its agent waits on (R363-R365): its identifier (none while it is held for room), record fields, and what waits. -/
structure FaultRec where
  fid : Option Nat
  agent : Nat
  va : Nat
  asid : Nat
  acc : Nat
  k : Bool
  lvl : Nat
  tid : Nat
  who : Nat
  rank : Nat
  unit : Nat
  answered : Bool
  deriving DecidableEq, Repr

/-- A registered launch queue with its class words (14_dispatch.md R308, R309). -/
structure LaunchQueue where
  serial : Nat
  line : Nat
  stall : Bool
  failed : Bool
  desc : Nat
  regAsid : Nat
  asid : Nat
  ring : Nat
  lsize : Nat
  wlim : Nat
  pcap : Nat
  k : Bool
  dws : Bool
  tvb : W64
  alog : Nat
  abase : Nat
  num : Nat
  armed : Option Nat
  deriving DecidableEq, Repr

/-- How far an accepted launch record has come (R312, R316). -/
inductive RecState where
  | waiting | eligible | bound | finished
  deriving DecidableEq, Repr

/-- A launch queue's class as a replay finds it where no queue of its number is registered (17_reliability.md R386). -/
def LaunchQueue.init : LaunchQueue :=
  { serial := 0, line := 0, stall := false, failed := false, desc := 0, regAsid := 0, asid := 0, ring := 0, lsize := 0, wlim := 0, pcap := 0,
    k := false, dws := false, tvb := 0, alog := 0, abase := 0, num := 0, armed := none }

/-- An accepted launch record (R310-R317): its queue as it was registered, which stands for it also after a deregistration (R309), its claim,
sixteen words, the poster that `dx.cpost` gave it with PTOK and the tokens that it consumes, its state, the task that it is bound or being bound to,
and a squash event that its contexts are to receive at bind (R332). -/
structure Launch where
  serial : Nat
  die : Nat
  trig : Bool
  wait : Bool
  failed : Bool
  audit : Option Nat
  lq : LaunchQueue
  seq : Nat
  words : List W64
  cpost : Bool
  tid : Nat
  rank : Nat
  tok : Nat
  deps : List Nat
  state : RecState
  task : Nat
  squash : Option W64
  watch : Option Nat
  deriving DecidableEq, Repr

/-- What a write of the dispatch hardware that is not done waits for: the answer to its fault, its refusal, which is settled in the same step
(R362), or a home that cannot be reached (17_reliability.md R392). -/
inductive DWait where
  | fault | refused | link
  deriving DecidableEq, Repr

/-- What a write that waits is: one of the dispatch hardware to a virtual address, or to LASTERR at a physical one (R312); the end of a replay in the
audit ring (17_reliability.md R387); a notice for the fault ring (16_faults.md R362); or the addition of a trigger whose stores come first (01_organisation.md R31). -/
inductive DKind where
  | virt | phys
  | audit (serial status : Nat) (rsig : W64) (rcore : Nat)
  | notice (f : FaultRec)
  | trigger
  deriving DecidableEq, Repr

/-- An addition of 1 to a counter, or a stamp, that the dispatch hardware has still to write (R312, R324, R362): the die, ASID, address, the
stamp (none for an addition), the queue's number, the task, the record's serial number, what it waits for, and what kind of write it is. -/
structure DWrite where
  serial : Nat
  die : Nat
  asid : Nat
  va : Nat
  stamp : Option W64
  queue : Nat
  tid : Nat
  rec_ : Nat
  why : DWait
  kind : DKind
  deriving DecidableEq, Repr

/-- A replay that Sumac has sampled (17_reliability.md R386-R388): its place in the audit ring, the die that ran the original, the launch
record, the input checksums, the regions, and what the audit record holds. -/
structure Audit where
  serial : Nat
  place : Nat
  die : Nat
  words : List W64
  incks : List W64
  regions : List (Nat × Nat × Nat × Bool)
  tid : Nat
  ocore : Nat
  osig : W64
  seq : W64
  rcore : Nat
  deriving DecidableEq, Repr

/-- A dispatch command that waits (R318). -/
structure DCmd where
  op : Nat
  tid : Nat
  arg : Nat
  deriving DecidableEq, Repr

/-- A dispatch event that waits for the ring (R318): its two words. -/
structure DEvent where
  w0 : W64
  w1 : W64
  deriving DecidableEq, Repr

/-- A bind record of the slot table (R319): its eight words. -/
abbrev BindRec := List W64

/-- A segment placed at bind (R321): level, group, base address, bytes, scope, and for L1F the cluster. -/
structure Segment where
  level : Nat
  group : Nat
  base : Nat
  bytes : Nat
  scope : Nat
  cluster : Nat
  deriving DecidableEq, Repr

/-- One level-i group at a barrier (05_control.md R140): who has arrived at the present generation. -/
structure Barrier where
  level : Nat
  group : Nat
  arrived : List Nat
  deriving DecidableEq, Repr

/-- A task entry (R319) with what the hardware holds for its bound task. -/
structure Task where
  frb : Nat  -- FRB, the base of its frames (14_dispatch.md R319)
  fstr : Nat  -- FSTR, the stride of its frames
  segb : Nat  -- SEGB, where its segments begin (R321)
  state : Nat  -- STATE (R319)
  live : Nat  -- LIVE, contexts that have not exited
  die : Nat  -- the die of its launch queue
  q : Nat  -- its launch queue's number
  seq : Nat  -- its record's claim
  words : List W64  -- the record's sixteen words (R311)
  handle : Nat  -- the image of its record
  asid : Nat  -- its queue's ASID
  dws : Bool  -- DWS, what a data wait does (01_organisation.md R23)
  tvb : W64  -- TVB of its queue's class (R308)
  wlim : Nat  -- WLIM of the class
  k : Bool  -- the K bit of the class
  cpost : Bool  -- a `dx.cpost` posted its record
  ptid : Nat  -- that poster's task
  prank : Nat  -- that poster's rank
  gone : List Nat  -- the ranks that have exited (05_control.md R140)
  triggered : List Nat  -- the groups that have triggered (01_organisation.md R30)
  tDone : Bool  -- its trigger counter is written (14_dispatch.md R312)
  bars : List Barrier  -- barrier generations under way (R140)
  segs : List Segment  -- segments that its level table allocates (R321)
  faults : Nat  -- outstanding page faults (16_faults.md R367)
  errors : Nat  -- answers of kind ERROR (R367)
  kill : Option Nat  -- the code of a kill under way (R330)
  saving : Option Nat  -- a save under way and its reason (R326)
  replay : Option Nat  -- the audit it is the replay of (17_reliability.md R386)
  aud : Bool  -- its record is auditable (R384)
  inck : List W64  -- checksums of its inputs at bind (R384)
  regions : List (Nat × Nat × Nat × Bool)  -- its audited regions (R384)
  ocore : Nat  -- the core it ran on first (R386)
  rec_ : Nat  -- its record's serial number in the model
  wait : Bool  -- its completion waits for a page (R362)
  refused : Bool  -- the page of its counters was answered with ERROR (R362)
  released : Bool  -- it has met R29: its audit is decided (R386) and its cores are released (R324)
  saveAt : Nat  -- the cycle of its first context's core in which its save began (R332)
  ts : Nat  -- what its contexts and commands that are gone have done lies at or before this timestamp (01_organisation.md R29, R31)
  counted : Bool  -- the addition at CADDR is done or refused (R324 step 2)
  deriving DecidableEq, Repr

/-- A free task entry. -/
def Task.init : Task :=
  { frb := 0, fstr := 0, segb := 0, state := 0, live := 0, die := 0, q := 0, seq := 0, words := [], handle := 0, asid := 0,
    dws := false, tvb := 0, wlim := 0, k := false, cpost := false, ptid := 0, prank := 0, gone := [], triggered := [], tDone := false,
    bars := [], segs := [], faults := 0, errors := 0, kill := none, saving := none, replay := none, aud := false, inck := [],
    regions := [], ocore := 0, rec_ := 0, wait := false, refused := false, released := false, saveAt := 0, ts := 0, counted := false }

/-- A sealed image (02_bundle.md R57): its bundles, and whether SEALREL has named it. -/
structure Seal where
  code : List Bundle
  released : Bool
  deriving DecidableEq, Repr

/-- The state of one compute core. -/
structure Core where
  cycle : Nat  -- CYCLE (05_control.md R121)
  active : Option Nat  -- the ACTIVE context, by index (01_organisation.md R19)
  last : Nat  -- the context that was ACTIVE last (R21)
  barred : Option (Nat × Nat)  -- the context that blocked last and the cycle in which it did (R21)
  lat : List Nat  -- latencies of reads still to come; the model's own (DESIGN CHOICE, log entry 13)
  wait : Option Nat  -- cycles before the load that froze returns; the model's own (DESIGN CHOICE, log entry 13)
  yields : Bool  -- a YIELD is posted (14_dispatch.md R323)
  hold : Option Vec  -- the hold value of VX (02_bundle.md R46)
  sp : SMap W64  -- scratchpad words (06_scratchpad.md R153)
  tag : SMap Bool  -- scratchpad tags, full where true (04_memory.md R108)
  tagWas : Option (SMap Bool)  -- the tags as they stood before the present cycle's bundle, while Mace may test them (04_memory.md R109)
  used : List Nat  -- scratchpad banks that have served an access in the present cycle (06_scratchpad.md R157)
  diag : List (Nat × Nat)  -- SCDIAG flags of L1 and scratchpad (17_reliability.md R382)
  spw : List SpWrite  -- scratchpad writes not yet performed (04_memory.md R107)
  poison : SMap Bool  -- poisoned words of the local spaces, by place (17_reliability.md R376)
  tile : SMap W64  -- words of t0 to t15 (09_matrix.md R209)
  ts : SMap W64  -- ts0 to ts15 (05_control.md R133)
  latch : SMap (List Nat)  -- columns of lat0 to lat3 (R210)
  latTag : SMap Nat  -- the type that each latch is tagged with (R210)
  acc : SMap Nat  -- elements of accumulator memory (R208)
  owner : Option Nat  -- the matrix owner (01_organisation.md R26)
  xcl : Option Nat  -- the task that holds the core state (14_dispatch.md R320)
  busy : List Busy  -- busy bits with their cycles (R212)
  rows : List RowWrite  -- row writes under way (R217, R221)
  paths : List PathOp  -- operations on the tile path (R219)
  latqs : List LatqOp  -- latches being filled (R218)
  accqs : List AccqOp  -- rows being pushed (R222)
  tcmds : List TileCmd  -- tile commands under way (06_scratchpad.md R163)
  wins : List Window  -- accumulator windows (R215)
  queues : SMap Queue  -- q0 to q7 (07_vector.md R183)
  tda : SMap W64  -- TDA of td0 to td7 (08_trellis.md R189)
  tdb : SMap W64  -- TDB of td0 to td7 (R189)
  tab : SMap (BitVec 16)  -- the trellis table (R191)
  mace : List MaceCmd  -- the Mace queue (R195)
  l1 : List L1Line  -- L1 copies (04_memory.md R101)
  pts : Nat  -- the core's timestamp (R101)
  engDone : Bool
  pushes : Nat
  doneWins : List Window
  clove : List SqCmd
  gslots : SMap (List W64)
  samp : List SampCmd
  deriving DecidableEq, Repr

/-- A core right after reset: nothing bound, every store at 0 and every tag empty (DESIGN CHOICE, log entry 1), the queues and shapes at their reset
values. -/
def Core.init : Core :=
  { cycle := 0, active := none, last := 3, barred := none, lat := [], wait := none, yields := false, hold := none, sp := [], tag := [],
    tagWas := none, used := [], diag := [], spw := [], poison := [], tile := [], ts := [], latch := [], latTag := [], acc := [], owner := none, xcl := none,
    busy := [], rows := [], paths := [], latqs := [], accqs := [], tcmds := [], wins := [], queues := [], tda := [], tdb := [],
    tab := [], mace := [], l1 := [], pts := 0, engDone := false, pushes := 0, doneWins := [], clove := [], gslots := [], samp := []
    }

/-- The contents of a saved context's frame (14_dispatch.md R328) whose layout in memory the manual does not give: the context, the window's
place, for the matrix owner the core whose matrix and core state it keeps, and kept commands. The window's words and tags stand in memory
(log entry 14). -/
structure Frame where
  tid : Nat
  ctx : Context
  pts : Nat
  base : Nat
  lines : Nat
  dlines : Nat
  own : Bool
  core : Option Core
  clove : List SqCmd
  samp : List SampCmd
  deriving DecidableEq, Repr

/-- What the home L2 knows of a queue header's line (R229, R309): the registered queue. -/
structure QHead where
  launch : Bool
  die : Nat
  eng : Nat
  desc : Nat
  ring : Nat
  lsize : Nat
  asid : Nat
  deriving DecidableEq, Repr

/-- A squash whose token is not done (13_sampling.md R306): the command, the valid slots that it has cancelled and that no engine had accepted
(die, engine, line, claim), and the drafter contexts that received an event: the serial number of the task's launch record, task, rank, and
the bundle count at which it took the event. -/
structure Squash where
  cmd : SqCmd
  slots : List (Nat × Nat × Nat × Nat)
  waits : List (Nat × Nat × Nat × Option Nat)
  deriving DecidableEq, Repr

/-- A link or port (17_reliability.md R389-R392): STATE, REPLAY, WBASE, the lanes that have failed, whether the link is enabled, and the route
cost last advertised. Die-to-die links are numbered 0 to 47, GFT ports 48 to 59, host ports 60 and 61, storage ports 62 and 63. -/
structure Link where
  state : Nat
  replay : Nat
  wbase : Nat
  lost : List Nat
  advert : Nat
  deriving DecidableEq, Repr

/-- A link right after reset. -/
def Link.init : Link := { state := 3, replay := 0, wbase := 0x100000, lost := [], advert := 0xFFFF }

/-- A RISC-V hart (01_organisation.md R33): whether it runs, its mode (0 U, 1 S, 3 M), pc, registers, CSRs by number, and the line that an LR
reserved (04_memory.md R105). -/
structure Hart where
  runs : Bool
  mode : Nat
  pc : W64
  x : SMap W64
  f : SMap W64
  csr : SMap W64
  held : Option Nat
  deriving DecidableEq, Repr

/-- A hart right after reset (PRESUMED, log entry 6). -/
def Hart.init : Hart := { runs := false, mode := 3, pc := 0, x := [], f := [], csr := [], held := none }

/-- Which agent or event moves next (DESIGN CHOICE, log entry 4). -/
inductive Move where
  /-- one cycle of a compute core -/
  | core (g : Nat)
  /-- one device step -/
  | event (i : Instr)
  /-- an L1 drops its copy of a line (R96) -/
  | evictL1 (g line : Nat)
  /-- an agent drops its k-th held translation (R360) -/
  | evictTlb (k : Nat)
  deriving DecidableEq, Repr

/-- An access of the host that waits for the exit from PA3 (18_host.md R405): one through BAR2, or a write through BAR0. -/
inductive HostAccess where
  | bar2 (off : Nat) (op : MemOp) (size : Nat) (v cmp : W64)
  | reg (off : Nat) (v : W64)
  deriving DecidableEq, Repr

/-- The state of one die: sealing (02 R53), copy engines (10 R227), translation (16 R354), dispatch (14 R309), reliability (17 R382). -/
structure Die where
  sealQueue : List (Nat × Nat)  -- sealing requests, address and ASID (02_bundle.md R53)
  sealOvf : Bool  -- SEALSTAT.OVF (R53)
  engines : SMap Engine  -- copy engines 0 to 51 (10_copy.md R227)
  asidtb : W64  -- ASIDTB (16_faults.md R354)
  tlbi : List (W64 × Bool)  -- invalidations that wait (R361)
  tlbSeq : Nat  -- TLBSTAT.SEQ (R361)
  tlbTs : Nat  -- the timestamp that a load of the SEQ last raised lies after (R361)
  fring : W64  -- FRING (R354)
  fhead : Nat  -- FHEAD
  ftail : Nat  -- FTAIL
  /-- where the search for the next fault identifier begins (R366; DESIGN CHOICE, log entry 24) -/
  fidNext : Nat
  badr : Bool  -- FSTAT.BADR (R366)
  faults : List FaultRec  -- faults that agents wait on (R363)
  lqs : List LaunchQueue  -- registered launch queues (14_dispatch.md R309)
  lqLast : Nat  -- LQSTAT.LAST
  lqErr : Bool  -- LQSTAT.ERR
  recs : List Launch  -- accepted launch records (R312)
  dcmd : List DCmd  -- the DCMD queue (R318)
  dstat : W64  -- DSTAT
  devq : W64  -- DEVQ (R322)
  evIndex : Nat  -- the event ring's index (R322)
  events : List DEvent  -- events that wait for room (R322)
  slots : SMap BindRec  -- bind records, 640 a die (R319)
  ecntc : Nat  -- ECNTC (17_reliability.md R382)
  ecntu : Nat  -- ECNTU
  elast : W64  -- ELAST
  ecfg : Nat  -- ECFG.IRQ
  pools : SMap Pool
  quars : List Quar
  hcfg : W64
  hspeed : Nat
  hwidth : Nat
  hmsix : W64
  netcfg : W64
  storcfg : W64
  storIrq : Bool
  sspeed : Nat
  gften : Nat
  ltr : Option Nat
  perst : Bool
  bootCode : Nat
  bootStage : Nat
  bootNext : Nat
  bootStop : Bool
  kload : Bool
  signKey : Option Nat
  blocks : SMap (Nat × Nat)
  idhash : Nat
  attn : SMap W64
  attCopy : Option Nat
  attDone : Bool
  attbuf : SMap W64
  asleep : Bool  -- it has been in PA3, and boot has not come to stage 4 since (18_host.md R405)
  held : List HostAccess  -- accesses of the host that wait for the exit from PA3, oldest first (R405)
  deriving DecidableEq, Repr

/-- A die right after reset. -/
def Die.init : Die :=
  { sealQueue := [], sealOvf := false, engines := [], asidtb := 0, tlbi := [], tlbSeq := 0, tlbTs := 0, fring := 0, fhead := 0, ftail := 0, fidNext := 0,
    badr := false, faults := [], lqs := [], lqLast := 0, lqErr := false, recs := [], dcmd := [], dstat := 0, devq := 0, evIndex := 0,
    events := [], slots := [], ecntc := 0, ecntu := 0, elast := 0, ecfg := 0, pools := [], quars := [], hcfg := 0, hspeed := 0, hwidth := 0, hmsix := 0, netcfg := 1, storcfg := 0, storIrq := false, sspeed := 0, gften := 0, ltr := none, perst := false, bootCode := 0, bootStage := 0, bootNext := 1, bootStop := false, kload := false, signKey := none, blocks := [], idhash := 0, attn := [], attCopy := none, attDone := false, attbuf := [],
    asleep := false, held := []
    }

/-- The state of the package. -/
structure State where
  moves : List Move  -- which agent or event moves next (DESIGN CHOICE, log entry 4)
  focus : Nat  -- the core that runs when moves is empty (DESIGN CHOICE, log entry 4)
  free : Nat  -- the counter of free values (DESIGN CHOICE, log entry 5)
  mem : List Host.Cell  -- BMEM of both dies, by physical address (04_memory.md R91)
  memPoison : SMap Bool  -- poisoned 8-byte words of memory (17_reliability.md R376)
  lines : SMap (Nat × Nat)  -- WTS and RTS of memory's lines (04_memory.md R101)
  qheads : SMap QHead  -- lines that are marked as queue headers (10_copy.md R229)
  tlbs : List Tlb  -- translations that agents hold (16_faults.md R360)
  ctxs : SMap Context  -- contexts 0 to 1,279 (R4)
  frames : SMap Frame  -- contents of saved frames, by their address (14_dispatch.md R328; DEDUCED, log entry 14)
  cores : SMap Core  -- cores 0 to 319 (R4)
  dies : SMap Die  -- dies 0 and 1 (R4)
  tasks : SMap Task  -- the task table (14_dispatch.md R319)
  seals : SMap Seal  -- sealed images, by handle (02_bundle.md R57)
  claims : List Claim  -- `dx.cpost` claims not yet accepted (10_copy.md R241)
  posters : SMap Context  -- tokens of contexts that are gone and whose launch records are not finished (14_dispatch.md R313; DEDUCED, log entry 83)
  pts : SMap Nat
  serial : Nat
  anise : List SqCmd
  walks : List SqCmd
  dwrites : List DWrite
  fused : List Nat
  sumcfg : W64
  sumkey : W64
  sumring : W64
  sumhead : Nat
  sumtail : Nat
  sumseq : W64
  audits : List Audit
  unwinds : List (Nat × Nat × Nat)
  squashes : List Squash
  links : SMap Link
  harts : SMap Hart
  pstate : Nat
  hostP3 : Bool
  hold : Bool
  kernP3 : Bool
  flash : SMap (List Byte)
  floors : SMap Nat
  mismatch : Bool
  powerLimit : Nat  -- the package power limit of the configuration, in watts (18_host.md R406)
  gftAllowed : Nat  -- the GFT ports that the configuration allows, bit p for port p (R406)
  deriving DecidableEq, Repr

/-- The machine right after reset: no task bound, every register at its reset value, memory with nothing listed. Contexts, cores,
dies, tasks and seal records that are not listed are at their own reset values. -/
def State.reset : State :=
  { moves := [], focus := 0, free := 0, mem := [], memPoison := [], lines := [], qheads := [], tlbs := [], ctxs := [], frames := [],
    cores := [], dies := [], tasks := [], seals := [], claims := [], posters := [], pts := [], serial := 0, anise := [], walks := [], dwrites := [], fused := [], sumcfg := 0, sumkey := 0, sumring := 0, sumhead := 0, sumtail := 0, sumseq := 0, audits := [], unwinds := [], squashes := [], links := [], harts := [], pstate := 0, hostP3 := false, hold := false, kernP3 := false, flash := [], floors := [], mismatch := false,
    powerLimit := 3000, gftAllowed := 0xFFF
    }

end Sys2Proof.Machine
end

