-- ==== Sys2Proof/Machine/Ops.lean ====
section
/-! DEFINITION. The named operations over the state: sparse tables, the parts of the state, memory with timestamps (04_memory.md R91-R105),
translation (16_faults.md R353-R362), tokens (R112), stopping, saving and killing a task, taking a trap and returning from it
(05_control.md R147-R149). -/

namespace Sys2Proof.Machine

/-- What a sparse table holds at a key. -/
def SMap.get {α : Type} (d : α) : SMap α → Nat → α
  | [], _ => d
  | (j, v) :: r, k => if j = k then v else SMap.get d r k

/-- A table without a key. -/
def SMap.del {α : Type} : SMap α → Nat → SMap α
  | [], _ => []
  | (j, v) :: r, k => if j = k then SMap.del r k else (j, v) :: SMap.del r k

/-- Put an entry at its place among rising keys. -/
def SMap.put {α : Type} : SMap α → Nat → α → SMap α
  | [], k, v => [(k, v)]
  | (j, w) :: r, k, v => if k < j then (k, v) :: (j, w) :: r else (j, w) :: SMap.put r k v

/-- Write an entry; the value that an unlisted key reads as removes it. -/
def SMap.set {α : Type} [DecidableEq α] (d : α) (m : SMap α) (k : Nat) (v : α) : SMap α :=
  if v = d then SMap.del m k else SMap.put (SMap.del m k) k v

/-- The canonical form: keys strictly rising and above `lo`, no entry equal to the default. -/
def SMap.wfFrom {α : Type} [DecidableEq α] (d : α) : Option Nat → SMap α → Bool
  | _, [] => true
  | lo, (k, v) :: r => (match lo with | none => true | some j => decide (j < k)) && decide (v ≠ d) && SMap.wfFrom d (some k) r

/-- The canonical form of the memory: what an unlisted byte reads as is 0 (DESIGN CHOICE, log entry 2). -/
def Memory.wf (m : List Host.Cell) : Bool := SMap.wfFrom (0 : Byte) none m

/-! ### Parts of the state -/

/-- A context by its number (R4). -/
def State.ctx (s : State) (c : Nat) : Context := SMap.get Context.init s.ctxs c
/-- Replace a context. -/
def State.setCtx (s : State) (c : Nat) (x : Context) : State := { s with ctxs := SMap.set Context.init s.ctxs c x }
/-- Change a context. -/
def State.modCtx (s : State) (c : Nat) (f : Context → Context) : State := s.setCtx c (f (s.ctx c))
/-- A core by its number. -/
def State.core (s : State) (g : Nat) : Core := SMap.get Core.init s.cores g
/-- Replace a core. -/
def State.setCore (s : State) (g : Nat) (x : Core) : State := { s with cores := SMap.set Core.init s.cores g x }
/-- Change a core. -/
def State.modCore (s : State) (g : Nat) (f : Core → Core) : State := s.setCore g (f (s.core g))
/-- A die. -/
def State.die (s : State) (d : Nat) : Die := SMap.get Die.init s.dies d
/-- Replace a die. -/
def State.setDie (s : State) (d : Nat) (x : Die) : State := { s with dies := SMap.set Die.init s.dies d x }
/-- Change a die. -/
def State.modDie (s : State) (d : Nat) (f : Die → Die) : State := s.setDie d (f (s.die d))
/-- A task entry. -/
def State.task (s : State) (t : Nat) : Task := SMap.get Task.init s.tasks t
/-- Replace a task entry. -/
def State.setTask (s : State) (t : Nat) (x : Task) : State := { s with tasks := SMap.set Task.init s.tasks t x }
/-- Change a task entry. -/
def State.modTask (s : State) (t : Nat) (f : Task → Task) : State := s.setTask t (f (s.task t))
/-- An empty seal record. -/
def Seal.none : Seal := ⟨[], false⟩
/-- A sealed image. -/
def State.seal (s : State) (h : Nat) : Seal := SMap.get Seal.none s.seals h
/-- A copy engine. -/
def Die.engine (d : Die) (e : Nat) : Engine := SMap.get Engine.init d.engines e
/-- Replace a copy engine. -/
def Die.setEngine (d : Die) (e : Nat) (x : Engine) : Die := { d with engines := SMap.set Engine.init d.engines e x }

/-- The core of a context (R4). -/
def coreOf (c : Nat) : Nat := c / 4
/-- The die of a core (R4). -/
def dieOf (g : Nat) : Nat := g / 160
/-- The cluster of a core, 0 to 39 over the package (R4). -/
def clusterOf (g : Nat) : Nat := g / 8

/-- The bound contexts: numbers and states, in rising order. -/
def State.bound (s : State) : List (Nat × Context) := s.ctxs.filter (fun p => p.2.st != .unbound)

/-- Where a task's context of a rank stands now: its context number. -/
def State.whereIs (s : State) (tid rank : Nat) : Option Nat :=
  match s.bound.find? (fun p => p.2.tid == tid && p.2.rank == rank) with
  | some (c, _) => some c
  | none => none

/-- A link or port (R389): a die-to-die link has no send window. -/
def State.link (s : State) (n : Nat) : Link := SMap.get Link.init s.links n
/-- Change a link. -/
def State.modLink (s : State) (n : Nat) (f : Link → Link) : State := { s with links := SMap.set Link.init s.links n (f (s.link n)) }
/-- A hart: 0 to 8 of a die; hart 8 is the management core. -/
def State.hart (s : State) (n : Nat) : Hart := SMap.get Hart.init s.harts n
/-- Replace a hart. -/
def State.setHart (s : State) (n : Nat) (h : Hart) : State := { s with harts := SMap.set Hart.init s.harts n h }

/-- The key of a frame. -/
def frameKey (tid rank : Nat) : Nat := tid * 2048 + rank

/-- An empty frame. -/
def Frame.none : Frame :=
  { tid := 0, ctx := Context.init, pts := 0, base := 0, lines := 0, dlines := 0, own := false, core := .none, clove := [], samp := [] }

/-- A saved frame. -/
def State.frame (s : State) (tid rank : Nat) : Frame := SMap.get Frame.none s.frames (frameKey tid rank)

/-- Change the context of a task and rank wherever it is: bound, in its frame (R249: completions land in the frame), or gone with launch records
that are not finished (R313). -/
def State.modWho (s : State) (tid rank : Nat) (f : Context → Context) : State :=
  match s.whereIs tid rank with
  | some c => s.modCtx c f
  | none =>
    if s.frames.any (fun p => p.1 == frameKey tid rank) then
      { s with frames := s.frames.map (fun p => if p.1 = frameKey tid rank then (p.1, { p.2 with ctx := f p.2.ctx }) else p) }
    else { s with posters := s.posters.map (fun p => if p.1 = frameKey tid rank then (p.1, f p.2) else p) }

/-- The context of a task and rank, wherever it is. -/
def State.who (s : State) (tid rank : Nat) : Context :=
  match s.whereIs tid rank with
  | some c => s.ctx c
  | none => if tid < 4096 then (s.frame tid rank).ctx else SMap.get Context.init s.posters (frameKey tid rank)

/-- A fresh free value of the machine: of its counter and a code (DESIGN CHOICE, log entry 5). -/
def State.freeAt (s : State) (code : Nat) : Nat := Config.freeValue s.free code

/-- The next free value, and the counter moved on. -/
def State.drawFree (s : State) (code : Nat) : Nat × State := (Config.freeValue s.free code, { s with free := s.free + 1 })

/-! ### Memory -/

/-- Bytes of BMEM in the package: two dies of 192 GiB (R94, DEDUCED, log entry 3). -/
def memBytes : Nat := 2 * 192 * 2 ^ 30

/-- The die whose BMEM holds a physical address. -/
def homeDie (pa : Nat) : Nat := pa / (192 * 2 ^ 30)

/-- One byte of memory. -/
def State.byte (s : State) (pa : Nat) : Byte := SMap.get (0 : Byte) s.mem pa

/-- Write one byte of memory. -/
def State.setByte (s : State) (pa : Nat) (b : Byte) : State := { s with mem := SMap.set (0 : Byte) s.mem pa b }

/-- `n` bytes from an address, little-endian (R2). -/
def State.readN (s : State) (pa : Nat) : Nat → Nat
  | 0 => 0
  | n + 1 => (s.byte pa).toNat + 256 * s.readN (pa + 1) n

/-- Write the low `n` bytes of a value, little-endian. -/
def State.writeN (s : State) (pa : Nat) : Nat → Nat → State
  | 0, _ => s
  | n + 1, v => (s.setByte pa (BitVec.ofNat 8 v)).writeN (pa + 1) n (v / 256)

/-- An 8-byte word of physical memory. -/
def State.word (s : State) (pa : Nat) : W64 := BitVec.ofNat 64 (s.readN pa 8)

/-- Is any word that the bytes touch poisoned (17_reliability.md R376)? -/
def State.badAt (s : State) (pa n : Nat) : Bool :=
  (List.range ((pa + n - 1) / 8 + 1 - pa / 8)).any (fun i => SMap.get false s.memPoison (pa / 8 + i))

/-- Mark or clear the poison of the word that holds an address. -/
def State.setBad (s : State) (pa : Nat) (b : Bool) : State := { s with memPoison := SMap.set false s.memPoison (pa / 8) b }

/-- The code under which an agent's logical clock is kept (R101); the peers' requests of both dies share one, since a source's requests are performed
in their order whichever port carries them (18_host.md R401). -/
def Agent.code : Agent → Nat
  | .core g => g
  | .copy d e => 400 + 60 * d + e
  | .anise d => 600 + d
  | .clove g => 700 + g
  | .walker c => 1100 + c
  | .dispatch d => 1200 + d
  | .seal d => 1210 + d
  | .host d => 1220 + d
  | .net _ => 1230
  | .stor d => 1240 + d
  | .hart d h => 1300 + 10 * d + h
  | .sumac => 1400

/-- The codes of the agents other than the compute cores and their Clove units (R101). -/
def agentCodes : List Nat :=
  (List.range 2).flatMap (fun d => (List.range 52).map (fun e => 400 + 60 * d + e) ++ [600 + d, 1200 + d, 1210 + d, 1220 + d, 1240 + d] ++
    (List.range 9).map (fun h => 1300 + 10 * d + h)) ++ (List.range 40).map (fun c => 1100 + c) ++ [1230, 1400]

/-- A timestamp has 64 bits (R101; what a wrap does to the order is in log entry 8). -/
def tick64 (t : Nat) : Nat := t % 2 ^ 64

/-- An agent's logical clock (R101); a compute core's four contexts share one (R103), and so does its Clove unit (DESIGN CHOICE, log entry 63). -/
def State.ptsOf (s : State) (a : Agent) : Nat :=
  match a with
  | .core g => (s.core g).pts
  | .clove g => (s.core g).pts
  | a => SMap.get 0 s.pts a.code

/-- Set an agent's logical clock. -/
def State.setPts (s : State) (a : Agent) (t : Nat) : State :=
  match a with
  | .core g => s.modCore g (fun x => { x with pts := tick64 t })
  | .clove g => s.modCore g (fun x => { x with pts := tick64 t })
  | a => { s with pts := SMap.set 0 s.pts a.code (tick64 t) }

/-- An agent's later accesses follow, in the order of R99, what lies at or before a timestamp: its clock rises to it (19_ordering.md R411;
DEDUCED, log entry 17). -/
def State.raise (s : State) (a : Agent) (t : Nat) : State := if t ≤ s.ptsOf a then s else s.setPts a t

/-- WTS and RTS of a line at its home L2 (R101). -/
def State.lineTs (s : State) (line : Nat) : Nat × Nat := SMap.get (0, 0) s.lines line

/-- A store to a line wakes every watch on it (R138, R316) and ends reservations on it (R105). -/
def State.wake (s : State) (line : Nat) : State :=
  { s with
    ctxs := s.ctxs.map (fun p =>
      if p.2.watch = some line then (p.1, { p.2 with watch := none, st := if p.2.st = .blocked then .ready else p.2.st }) else p)
    dies := s.dies.map (fun p =>
      (p.1, { p.2 with recs := p.2.recs.map (fun r => if r.watch = some line then { r with watch := none } else r) }))
    harts := s.harts.map (fun p => (p.1, if p.2.held = some line then { p.2 with held := none } else p.2))
  }

/-- The timestamp part of a store, AMO or atomic performed at the home L2 (R101). -/
def State.stampStore (s : State) (a : Agent) (line : Nat) : State :=
  let t := tick64 (max (s.ptsOf a) ((s.lineTs line).2 + 1))
  ({ s with lines := SMap.set (0, 0) s.lines line (t, t) }).setPts a t

/-- Poison after a write: a write that covers a whole word clears it, a partial one leaves it (R376). -/
def State.clearBad (s : State) (pa n : Nat) : State :=
  (List.range ((pa + n - 1) / 8 + 1 - pa / 8)).foldl (fun s i =>
    let w := pa / 8 + i
    if pa ≤ 8 * w ∧ 8 * w + 8 ≤ pa + n then s.setBad (8 * w) false else s) s

/-- The bytes of a line. -/
def State.lineBytes (s : State) (line : Nat) : List Byte := (List.range 64).map (fun i => s.byte (64 * line + i))

/-- The poison of a line's words. -/
def State.lineBad (s : State) (line : Nat) : List Bool := (List.range 8).map (fun i => SMap.get false s.memPoison (8 * line + i))

/-- The core whose part of the L1 a core's copy of a line stands in: its own, or, in a fused cluster L1, the slice that bits [8:6] of the
physical address name (R96). -/
def State.l1Core (s : State) (g line : Nat) : Nat := if s.fused.contains (clusterOf g) then 8 * clusterOf g + line % 8 else g

/-- The storing core's L1 copy takes the store (R101). -/
def State.refreshL1 (s : State) (a : Agent) (line : Nat) : State :=
  match a with
  | .core me =>
    let g := s.l1Core me line
    if (s.core g).l1.any (fun x => x.line == line) then
      s.modCore g (fun x => { x with l1 := x.l1.map (fun y =>
        if y.line = line then ⟨me, line, (s.lineTs line).1, (s.lineTs line).2, s.lineBytes line, s.lineBad line⟩ else y) })
    else s
  | _ => s

/-- An ordinary store performed at the home L2 by an agent, `n` bytes (R95, R101). -/
def State.storePhys (s : State) (a : Agent) (pa n v : Nat) : State :=
  let s := (s.writeN pa n v).clearBad pa n
  let s := s.stampStore a (pa / 64)
  (s.refreshL1 a (pa / 64)).wake (pa / 64)

/-- A read-modify-write performed at the home L2, one point in the order (R101, R102): the old value is read at the timestamp of the store; an
AMO, an AtomicOp or a compare-and-swap that leaves the value as it is is performed as a store all the same. The old value, whether it is
poisoned, and the state. -/
def State.rmwPhys (s : State) (a : Agent) (pa n : Nat) (f : Nat → Nat) : Nat × Bool × State :=
  (s.readN pa n, s.badAt pa n, s.storePhys a pa n (f (s.readN pa n)))

/-- A load performed at the home L2 with a lease (R101): the agent's clock and the line's RTS rise. -/
def State.loadHome (s : State) (a : Agent) (pa lease : Nat) : State :=
  let (w, r) := s.lineTs (pa / 64)
  let t := max (s.ptsOf a) w
  ({ s with lines := SMap.set (0, 0) s.lines (pa / 64) (w, tick64 (max r (t + lease - 1))) }).setPts a t

/-- Bytes of a list, little-endian, as a number. -/
def bytesNat : List Byte → Nat
  | [] => 0
  | b :: r => b.toNat + 256 * bytesNat r

/-- An ordinary load of `n` aligned bytes (R101): value, poison, and the state. A cached load of a compute core uses its L1 copy while
its clock is within the lease; otherwise it takes a lease of 1 to 256 ticks, chosen by the hardware (DESIGN CHOICE, log entry 7). A copy taken at
ts serves loads up to ts + 255 at most, also where the line's RTS lies further, by another agent's lease, and, in a fused L1, those of another core
only while the clock of the core that it was taken for is within the lease too (R103; DEDUCED, log entry 7). Other
agents hold no copies (DESIGN CHOICE for the harts, log entry 62). -/
def State.loadPhys (s : State) (a : Agent) (pa n : Nat) (bypass : Bool) : Nat × Bool × State :=
  let line := pa / 64
  match a with
  | .core g =>
    let x := s.core g
    let sl := s.l1Core g line
    match (if bypass then none else (s.core sl).l1.find? (fun y => y.line == line && decide (x.pts ≤ y.rts) && decide ((s.core y.core).pts ≤ y.rts))) with
    | some y =>
      (bytesNat ((y.data.drop (pa % 64)).take n), (y.bad.getD (pa % 64 / 8) false), s.setPts a (max x.pts y.wts))
    | none =>
      if bypass then (s.readN pa n, s.badAt pa n, s.loadHome a pa 1)
      else
        let s' := { s.loadHome a pa (Config.freeLease s.free % 256 + 1) with free := s.free + 1 }
        let y : L1Line := ⟨g, line, (s'.lineTs line).1, min (s'.lineTs line).2 (s'.ptsOf a + 255), s'.lineBytes line, s'.lineBad line⟩
        (s.readN pa n, s.badAt pa n, s'.modCore sl (fun x => { x with l1 := y :: x.l1.filter (fun z => z.line != line) }))
  | _ => (s.readN pa n, s.badAt pa n, s.loadHome a pa 1)

/-! ### Translation -/

/-- Kinds of access at translation (R363, ACC). -/
inductive Acc where
  | read | write | rmw
  deriving DecidableEq, Repr

/-- The code of an access kind. -/
def Acc.code : Acc → Nat
  | .read => 0 | .write => 1 | .rmw => 2

/-- A virtual address is canonical when bits [63:48] equal bit 47 (R93). -/
def canonical (va : Nat) : Bool := va % 2 ^ 64 / 2 ^ 47 == 0 || va % 2 ^ 64 / 2 ^ 47 == 2 ^ 17 - 1

/-- Bit `i` of a page-table entry. -/
def pbit (p : W64) (i : Nat) : Bool := p.getLsbD i

/-- PPN of an entry (R356). -/
def pppn (p : W64) : Nat := (p.toNat / 2 ^ 10) % 2 ^ 44

/-- A 48-bit address field with bit 47 extended upward. -/
def sx48 (n : Nat) : Nat := if n / 2 ^ 47 % 2 = 1 then n % 2 ^ 48 + (2 ^ 64 - 2 ^ 48) else n % 2 ^ 48

/-- How a walk ends (R358): a leaf with its level and place, absent at a level, or refused. -/
inductive Walk where
  | leaf (pte : W64) (level at_ : Nat)
  | absent (level : Nat)
  | refused
  deriving DecidableEq, Repr

/-- Is the entry a leaf that R357 and R358 allow at its level? -/
def leafOk (p : W64) (level : Nat) : Bool :=
  !(pbit p 2 && !pbit p 1) && p.extractLsb' 56 7 == 0 &&
  (match level with
   | 0 => if pbit p 63 then pppn p % 16 == 8 else true
   | 1 => pppn p % 2 ^ 9 == 0 && !pbit p 63
   | 2 => pppn p % 2 ^ 18 == 0 && !pbit p 63
   | _ => false)

/-- The place of a table's entry for an address at a level (R357). -/
def pteAt (table level va : Nat) : Nat := table * 4096 + 8 * (va / 2 ^ (12 + 9 * level) % 512)

/-- The table entries of a walk from `level` down (R357); `kept` are the bits of a non-leaf entry, from bit 54 up, that the walker refuses. -/
def walkWith (kept : BitVec 10) (s : State) (va : Nat) : Nat → Nat → Walk
  | 0, _ => .refused
  | level + 1, table =>
    let pa := pteAt table level va
    if memBytes ≤ pa then .refused
    else
      let p := s.word pa
      if !pbit p 0 then .absent level
      else if pbit p 1 || pbit p 2 || pbit p 3 then (if leafOk p level then .leaf p level pa else .refused)
      else if level = 0 then .refused
      else if p.extractLsb' 54 10 &&& kept != 0 || pbit p 7 || pbit p 6 || pbit p 4 then .refused
      else walkWith kept s va level (pppn p)

/-- The walk of a device agent (R357): a non-leaf entry has BYP, CNT and every bit above them at 0. -/
def walkFrom (s : State) (va level table : Nat) : Walk := walkWith (BitVec.allOnes 10) s va level table

/-- The places that a walk from `level` down reads, in order (R357). -/
def walkReads (s : State) (va : Nat) : Nat → Nat → List Nat
  | 0, _ => []
  | level + 1, table =>
    let pa := pteAt table level va
    if memBytes ≤ pa then []
    else
      let p := s.word pa
      if !pbit p 0 || pbit p 1 || pbit p 2 || pbit p 3 || level = 0 then [pa] else pa :: walkReads s va level (pppn p)

/-- The reads of a walk are ordinary accesses of its agent (R359). -/
def State.readAll (s : State) (a : Agent) (l : List Nat) : State := l.foldl (fun s pa => s.loadHome a pa 1) s

/-- Do the permissions of a leaf allow the access (R358)? -/
def permOk (p : W64) (acc : Acc) (k : Bool) : Bool :=
  (match acc with | .read => pbit p 1 | .write => pbit p 2 | .rmw => pbit p 1 && pbit p 2) && (k || pbit p 4)

/-- The physical address under a leaf (R357). -/
def leafPa (p : W64) (level va : Nat) : Nat :=
  match level with
  | 0 => if pbit p 63 then (pppn p / 16) * 65536 + va % 65536 else pppn p * 4096 + va % 4096
  | 1 => pppn p * 4096 + va % 2 ^ 21
  | _ => pppn p * 4096 + va % 2 ^ 30

/-- The L1F segment that holds a virtual address of a space (R97), if any, and its task. -/
def State.l1fAt (s : State) (asid va : Nat) : Option (Nat × Segment) :=
  (s.tasks.filterMap (fun p =>
    if p.2.asid = asid then
      (p.2.segs.find? (fun g => g.scope == 1 && decide (g.base ≤ va) && decide (va < g.base + g.bytes))).map (fun g => (p.1, g))
    else none)).head?

/-- May the agent reach an address of an L1F segment (R97)? -/
def l1fOk (s : State) (a : Agent) (asid va : Nat) : Bool :=
  match s.l1fAt asid va with
  | none => true
  | some (_, x) => match a with
    | .core g => clusterOf g == x.cluster
    | _ => false

/-- Where the fused L1 keeps the byte at an offset of an L1F segment of a task (R97): the bytes are never written to L2, so these places lie above
all memory, one range a segment, and only the cores of the segment's cluster reach them (DEDUCED, log entry 41). -/
def l1fPlace (tid : Nat) (g : Segment) (off : Nat) : Nat := 2 ^ 50 * (16384 * tid + 2048 * g.level + g.group + 1) + off

/-- The place of an ordinary access of a space at a translated address: the owning slice's for an L1F segment (R97). -/
def State.placeOf (s : State) (asid va pa : Nat) : Nat :=
  match s.l1fAt asid va with
  | some (tid, g) => l1fPlace tid g (va - g.base)
  | none => pa

/-- Can an agent of a die reach the home of an address: its own die, or a die-to-die link that is up (17_reliability.md R392)? An owning slice of a
fused L1 is reached always. -/
def State.reach (s : State) (d pa : Nat) : Bool :=
  homeDie pa == d || decide (memBytes ≤ pa) || s.links.any (fun p => decide (p.1 < 48) && (p.2.state == 1 || p.2.state == 2))

/-- A translation: the physical address and leaf with the state in which A and D are set, an absent page or a refusal with the state after the
walk's reads, or a walk that waits for the home of a table (17_reliability.md R392). -/
inductive Tr where
  | ok (pa : Nat) (pte : W64) (s : State)
  | absent (level : Nat) (s : State)
  | refused (s : State)
  | wait

/-- The bits A and D after an access (R359). -/
def adBits (p : W64) (acc : Acc) : W64 := if acc = .read then p ||| 0x40 else p ||| 0xC0

/-- The places that a walk of an address reads: its entry of the ASID table of a die, then the tables (R355, R357). -/
def walkPlaces (s : State) (d asid va : Nat) : List Nat :=
  let ent := ((s.die d).asidtb.toNat % 2 ^ 48) + 16 * (asid % 65536)
  ent :: (if pbit (s.word ent) 63 then walkReads s (va % 2 ^ 48) 4 ((s.word ent).toNat % 2 ^ 44) else [])

/-- A walk from the ASID table of a die (R355-R359): its reads are performed, however it ends; a leaf has A, and D for a write, set in memory, and
is kept by the agent. -/
def walkTr (s : State) (d : Nat) (a : Agent) (asid va : Nat) (acc : Acc) (k : Bool) : Tr :=
  let ent := ((s.die d).asidtb.toNat % 2 ^ 48) + 16 * (asid % 65536)
  if memBytes ≤ ent then .refused s
  else if !(walkPlaces s d asid va).all (s.reach d) then .wait
  else
    let e := s.word ent
    let t := s.readAll a (walkPlaces s d asid va)
    if !pbit e 63 then .refused t
    else match walkFrom s (va % 2 ^ 48) 4 (e.toNat % 2 ^ 44) with
      | .absent l => .absent l t
      | .refused => .refused t
      | .leaf p level at_ =>
        let pa := leafPa p level (va % 2 ^ 48)
        if !permOk p acc k || decide (memBytes ≤ pa) then .refused t
        else
          let p' := adBits p acc
          let t := if p' = p then t else t.storePhys a at_ 8 p'.toNat
          let x : Tlb := ⟨a, asid, va % 2 ^ 48 / 4096, level, p', at_⟩
          .ok pa p' { t with tlbs := x :: t.tlbs.filter (fun y => !(y.agent = a && y.asid == asid && y.vpn == x.vpn)) }

/-- A translation by an agent of a die (R358-R360): a held translation that allows the access is used, else the walk decides. -/
def translate (s : State) (d : Nat) (a : Agent) (asid va : Nat) (acc : Acc) (k : Bool) : Tr :=
  if !canonical va || !l1fOk s a asid (va % 2 ^ 64) then .refused s
  else match s.tlbs.find? (fun x => x.agent = a && x.asid == asid && x.vpn == va % 2 ^ 48 / 4096) with
    | some t =>
      if permOk t.pte acc k && adBits t.pte acc == t.pte then .ok (leafPa t.pte t.level (va % 2 ^ 48)) t.pte s
      else walkTr s d a asid va acc k
    | none => walkTr s d a asid va acc k

/-- The cache policy of a leaf (R356): L1-bypass. -/
def pteBypass (p : W64) : Bool := pbit p 54
/-- Poison containment of a leaf (R356). -/
def pteContain (p : W64) : Bool := pbit p 55

/-! ### Tokens (R112-R115) -/

/-- Is a token pending? k0 never is (R48). -/
def Context.tokPending (x : Context) (k : Nat) : Bool := k != 0 && x.tok.getLsbD k

/-- Make a token pending. -/
def Context.tokPend (x : Context) (k : Nat) : Context :=
  if k = 0 then x else { x with tok := x.tok ||| (1#32 <<< k), tokGen := SMap.set 0 x.tokGen k (SMap.get 0 x.tokGen k + 1) }

/-- A consumed token with the producer that it stands for at present: k0 to k31 in the low 5 bits, how often it has been made pending
above them (R113: what was done at issue costs no wait, also when the token is produced again). -/
def Context.dep (x : Context) (k : Nat) : Nat := k % 32 + 32 * SMap.get 0 x.tokGen k

/-- The tokens that a command consumes: the attach set of now (10_copy.md R242). -/
def Context.deps (x : Context) : List Nat := x.att.map x.dep

/-- A command retires: its token is done, and its effects lie at or before the timestamp `t` (R112). -/
def Context.tokDone (x : Context) (k t : Nat) : Context :=
  { x with tok := x.tok &&& ~~~(1#32 <<< k), tokTs := if k = 0 then x.tokTs else SMap.set 0 x.tokTs k (max t (SMap.get 0 x.tokTs k)) }

/-- Is a consumed token done (R113): its producer at issue has retired? -/
def Context.depDone (x : Context) (d : Nat) : Bool := !x.tokPending (d % 32) || SMap.get 0 x.tokGen (d % 32) != d / 32

/-- Are the consumed tokens of a command done (R113)? -/
def State.depsDone (s : State) (tid rank : Nat) (deps : List Nat) : Bool :=
  let x := s.who tid rank
  deps.all x.depDone

/-- The timestamp up to which the effects of the producers of tokens lie (R113; DEDUCED, log entry 17). -/
def State.depTs (s : State) (tid rank : Nat) (deps : List Nat) : Nat :=
  let x := s.who tid rank
  deps.foldl (fun t d => max t (SMap.get 0 x.tokTs (d % 32))) 0

/-- The work of a task that is gone, up to a timestamp, is noted: its completion is ordered after it (01_organisation.md R29). -/
def State.noteTs (s : State) (tid t : Nat) : State := if tid < 4096 then s.modTask tid (fun k => { k with ts := max k.ts t }) else s

/-- A command retires (R112): its token is done and its task has done what lies at or before `t` (R29). -/
def State.retireTok (s : State) (tid rank k t : Nat) : State := (s.modWho tid rank (fun x => x.tokDone k t)).noteTs tid t

/-! ### System registers -/

/-- What an unwritten system register reads as: LVCNT0 to LVCNT7 reset to 1 (R17), the others to 0 (R121; DESIGN CHOICE, log entry 1). -/
def sysReset (n : Nat) : W64 := if 0x018 ≤ n ∧ n ≤ 0x01F then 1 else 0

/-- A system register of a context, as stored. -/
def Context.sysReg (x : Context) (n : Nat) : W64 := SMap.get (sysReset n) x.sys n

/-- Store a system register of a context. -/
def Context.setSys (x : Context) (n : Nat) (v : W64) : Context := { x with sys := SMap.set (sysReset n) x.sys n v }

/-- PRIV.K (R121): the level is K. -/
def Context.kLevel (x : Context) : Bool := (x.sysReg 0x03A).getLsbD 0

/-- A seal handle and an image offset in the layout of TPC, CRPC and FEVA (R121, R88). -/
def place (handle pc : Nat) : W64 := BitVec.ofNat 64 (handle % 4096 * 2 ^ 52 + pc % 2 ^ 24)

/-- Image length in bytes; 0 for a handle without a record. -/
def State.imageLen (s : State) (h : Nat) : Nat := 32 * (s.seal h).code.length

/-! ### Stopping a task: save and kill (14_dispatch.md R325, R330) -/

/-- A context of a rank leaves the barriers at which it has arrived: a saved one has not arrived (R140). -/
def Task.leaveRank (t : Task) (rank : Nat) : Task := { t with bars := t.bars.map (fun b => { b with arrived := b.arrived.erase rank }) }

/-- A context stops at its bundle boundary: it drops its watch and gives up issue (R325 step 1, R330 step 1); it has arrived at no barrier (R140), and
a data-wait event that is still to be taken has met the save (R332, R370). -/
def State.stopContext (s : State) (c : Nat) : State :=
  let s := s.modTask (s.ctx c).tid (fun t => t.leaveRank (s.ctx c).rank)
  let s := s.modCtx c (fun x =>
    { x with
      st := .saved, watch := none, why := .none, frz := 0, spent := 0, test := none, halt := false, dwDue := false, barIn := none
      resumes := x.resumes.map (fun r => { r with barIn := none }) })
  s.modCore (coreOf c) (fun g => if g.active = some c then { g with active := none, last := c % 4, hold := none, wait := none } else g)

/-- The contexts of a task stop. Where an event of context `me` is the cause, the ACTIVE contexts of other cores still do what falls into their
cores' present cycle (16_faults.md R367). -/
def State.stopTask (s : State) (tid : Nat) (me : Option Nat) : State :=
  (s.bound.filter (fun p => p.2.tid == tid && p.2.st != .exited)).foldl (fun s p =>
    if me.isSome && me != some p.1 && p.2.st == .active then s.modCtx p.1 (fun x => { x with halt := true }) else s.stopContext p.1) s

/-- Who has arrived at a barrier leaves it: a saved context has not arrived (R140). -/
def Task.leaveBars (t : Task) : Task := { t with bars := t.bars.map (fun b => { b with arrived := [] }) }

/-- The cycle of the core of a task's first context: by it the events that meet a task in one cycle are told (R332). -/
def State.taskCycle (s : State) (tid : Nat) : Nat :=
  match s.bound.find? (fun p => p.2.tid == tid) with
  | some (c, _) => (s.core (coreOf c)).cycle
  | none => 0

/-- A save of a bound task begins, with its cause (R318: 1 PREEMPT, 2 data wait, 3 page fault) and the context whose event it is, if any. A
further cause that meets it leaves one save, and the lowest cause is kept (R332); a task that is killed or not bound is not saved. -/
def State.beginSave (s : State) (tid cause : Nat) (me : Option Nat) : State :=
  let t := s.task tid
  if t.state = 2 then
    (s.stopTask tid me).modTask tid (fun t => { t.leaveBars with state := 3, saving := some cause, saveAt := s.taskCycle tid })
  else if t.state = 3 then
    (match me with | some c => s.stopContext c | none => s).modTask tid (fun t => { t with saving := some (min cause (t.saving.getD cause)) })
  else s

/-- A kill of a task begins, with the code of its error stamp (R330, R378): its contexts stop, their exposed results are discarded. -/
def State.beginKill (s : State) (tid code : Nat) : State :=
  let t := s.task tid
  if t.state = 2 ∨ t.state = 3 ∨ t.state = 4 then
    let s := s.stopTask tid none
    let s := (s.bound.filter (fun p => p.2.tid == tid)).foldl (fun s p =>
      s.modCtx p.1 (fun x => { x with pend := [], settle := [], trap := none, squash := none })) s
    s.modTask tid (fun t => { t with state := 5, saving := none, kill := some (t.kill.getD code) })
  else s

/-! ### Traps (05_control.md R147-R149) -/

/-- Trap entry after the drain (R147): TPC, TCAUSE, TINFO and TPRIV are written, the level becomes K, any hold ends, and the pc is the
vector. A trap while a handler is active, or whose vector stands in no image, is a double trap and kills the task (R149);
TPRIV.ACT is judged here, at entry (DEDUCED, log entry 69). -/
def enterTrap (s : State) (c : Nat) (t : PendTrap) : State :=
  let x := s.ctx c
  let tvb := x.sysReg 0x040
  let h := (tvb >>> 52).toNat
  let v := (tvb.extractLsb' 11 13).toNat * 2048 + 64 * t.code
  if (x.sysReg 0x044).getLsbD 1 || decide (s.imageLen h ≤ v) then
    (s.modCtx c (fun x => { x with trap := none })).beginKill x.tid 12
  else
    let x := x.setSys 0x041 (place t.handle t.pc)
    let x := x.setSys 0x042 (BitVec.ofNat 64 t.code)
    let x := x.setSys 0x043 t.info
    let x := x.setSys 0x044 (if x.kLevel then 3 else 2)
    let x := x.setSys 0x03A 1
    let s := s.setCtx c { x with handle := h, pc := v, trap := none, frz := 0, spent := 0, delay := 0, bubble := 0, watch := none, test := none,
                                 trapOrder := x.order, due := none, barPass := none, barIn := none }
    s.modCore (coreOf c) (fun g => { g with hold := none, wait := none })

/-- What belongs to the bundle at which a trap resumes is kept for its return: the cycles left of an interrupted delay, the barrier that it
has passed, or at which it has arrived and that may complete while the handler runs (02_bundle.md R38, R140; DEDUCED, log entry 26). -/
def Context.keepResume (x : Context) (handle pc : Nat) : Context :=
  if x.due.isSome || x.barPass.isSome || x.barIn.isSome || x.resumes.any (fun r => r.handle == handle && r.pc == pc) then
    { x with resumes := ⟨handle, pc, x.due, x.barPass, x.barIn⟩ :: x.resumes, due := none, barPass := none, barIn := none }
  else x

/-- A trap is taken: the handler is entered at once when nothing is pending, else after the drain (R45, R147). -/
def takeTrap (s : State) (c : Nat) (code : Nat) (info : W64) (handle pc : Nat) : State :=
  let t : PendTrap := ⟨code, info, handle, pc⟩
  let s := s.modCtx c (fun x => x.keepResume handle pc)
  if (s.ctx c).pend.all (fun p => p.landed) then enterTrap s c t
  else s.modCtx c (fun x => { x with trap := some t, frz := 0, spent := 0, delay := 0, bubble := 0, watch := none, test := none })

/-- Return from a trap at K level (R148): the level of TPRIV.PREV, no handler active; the pc is TPC, in its image. -/
def returnTrap (x : Context) : Context :=
  let prev := (x.sysReg 0x044).getLsbD 0
  (x.setSys 0x03A (if prev then 1 else 0)).setSys 0x044 (if prev then 1 else 0)

/-- The bundle at which a return resumes takes up what was kept for it when its trap was taken (R38, R140; DEDUCED, log entry 26). -/
def Context.takeResume (x : Context) (handle pc : Nat) : Context :=
  match x.resumes.find? (fun r => r.handle == handle && r.pc == pc) with
  | some r => { x with due := r.delay, barPass := r.bar, barIn := r.barIn, resumes := x.resumes.erase r }
  | none => { x with due := none, barPass := none, barIn := none }

/-- A barrier at which a context has arrived completes (R140): the bundle that arrived may pass it, also where a handler runs before it resumes. -/
def Context.passBar (x : Context) (level : Nat) : Context :=
  let x := { x with resumes := x.resumes.map (fun r => if r.barIn = some level then { r with bar := some level, barIn := none } else r) }
  if x.barIn = some level then { x with barPass := some level, barIn := none, st := if x.st = .blocked then .ready else x.st } else x

end Sys2Proof.Machine
end

