-- ==== Sys2Proof/Machine/Flags.lean ====
section
/-! DEFINITION. The first-event log (03_numbers.md R87-R90), rounding under FRM with the SR counter (R69, R77), and the flag
computations of the scalar engines (05_control.md R126). -/

namespace Sys2Proof.Machine

/-- The lowest category code of a set, 7 for the empty set. -/
def lowCat (e : Cats) : Nat :=
  if e.getLsbD 0 then 0 else if e.getLsbD 1 then 1 else if e.getLsbD 2 then 2 else if e.getLsbD 3 then 3
  else if e.getLsbD 4 then 4 else if e.getLsbD 5 then 5 else if e.getLsbD 6 then 6 else 7

/-- FEVS.V: FEVA and FEVS hold an event. -/
def Context.evValid (x : Context) : Bool := (x.sysReg 0x005).getLsbD 11

/-- Is the key of an event (issue order, slot, category) below the recorded one (R89)? -/
def keyLess (o s c o' s' c' : Nat) : Bool := o < o' || (o == o' && (s < s' || (s == s' && c < c')))

/-- An event lands (R89): its flags are set, and the event of the lowest key takes FEVA and FEVS. -/
def Context.record (x : Context) (ev : Cats) (order slot handle pc : Nat) : Context :=
  if ev = 0 then x
  else
    let x := x.setSys 0x006 (x.sysReg 0x006 ||| ev.setWidth 64)
    let cat := lowCat ev
    if !x.evValid || keyLess order slot cat x.evOrder x.evSlot ((x.sysReg 0x005).toNat % 8) then
      let x := (x.setSys 0x004 (place handle pc)).setSys 0x005 (BitVec.ofNat 64 (2 ^ 11 + slot % 8 * 256 + cat))
      { x with evOrder := order, evSlot := slot }
    else x

/-- `br.fevclr` (R152). -/
def Context.fevClear (x : Context) : Context := ((x.setSys 0x004 0).setSys 0x005 0).setSys 0x006 0

/-- A matrix result lands: its event goes to the context that issued it, wherever that is now (R89). -/
def State.recordAt (s : State) (p : EvPlace) (ev : Cats) : State :=
  if ev = 0 then s else s.modWho p.tid p.rank (fun x => x.record ev p.order p.slot p.handle p.pc)

/-- Signed overflow of a sum (R126). -/
def addOvf (a b : W64) : Bool := let r := a + b; (a.msb == b.msb) && (r.msb != a.msb)

/-- Signed overflow of a difference. -/
def subOvf (a b : W64) : Bool := let r := a - b; (a.msb != b.msb) && (r.msb != a.msb)

/-- The signed product lies outside 64 bits. -/
def mulOvf (a b : W64) : Bool := let p := a.toInt * b.toInt; decide (p < -(2 ^ 63)) || decide (2 ^ 63 - 1 < p)

/-- IOVF when a condition holds. -/
def iovfIf (b : Bool) : Cats := if b then catIOVF else 0

/-- The draws of an instruction under SR: the key and the counter at its start (R77). -/
structure Draws where
  key : W64
  ctr : W64

/-- Draw number j. -/
def Draws.get (d : Draws) (j : Nat) : W64 := draw d.key (d.ctr + BitVec.ofNat 64 j)

end Sys2Proof.Machine
end

