-- ==== Sys2Proof/Machine/Operands.lean ====
section
/-! DEFINITION. The operand forms of slot words: reading a register at issue under the exposed-latency rule (02_bundle.md R43), writing
an exposed result (R43, R44), its landing, system registers (05_control.md R120-R122), hold operands (02_bundle.md R46, R47), lanes of a
vector (07_vector.md R166). -/

namespace Sys2Proof.Machine

/-- Is a write to the register inside its window (R43)? -/
def Context.isOpen (x : Context) (d : Dst) : Bool := x.pend.any (fun p => p.dst = d && decide (0 < p.age) && decide (p.age < p.bound))

/-- A code for a register, to tell free values apart. -/
def Dst.code : Dst → Nat
  | .s n => n | .p n => 64 + n | .v n => 128 + n | .vm n => 192 + n | .lc n => 208 + n | .sys n => 256 + n | .ts n => 4352 + n

/-- The unspecified value that a read of context c's register takes inside a window (DESIGN CHOICE, log entry 5). -/
def State.openValue (s : State) (c : Nat) (d : Dst) : Nat := s.freeAt (c * 8192 + d.code)

/-- s[n] at issue; s0 reads 0 (R48). -/
def readS (s : State) (c n : Nat) : W64 :=
  if n = 0 then 0
  else if (s.ctx c).isOpen (.s n) then BitVec.ofNat 64 (s.openValue c (.s n))
  else SMap.get 0 (s.ctx c).sr n

/-- p[n] at issue; p0 reads true (R39). -/
def readP (s : State) (c n : Nat) : Bool :=
  if n = 0 then true
  else if (s.ctx c).isOpen (.p n) then s.openValue c (.p n) % 2 == 1
  else (s.ctx c).pr.getLsbD n

/-- The value of a guard (R39). -/
def readGuard (s : State) (c : Nat) (g : Guard) : Bool := readP s c g.p.toNat != g.neg

/-- v[n] at issue. -/
def readV (s : State) (c n : Nat) : Vec :=
  if (s.ctx c).isOpen (.v n) then BitVec.ofNat 2048 (s.openValue c (.v n)) else SMap.get 0 (s.ctx c).vr n

/-- vm[n] at issue; vm0 reads all ones (R48). -/
def readVm (s : State) (c n : Nat) : W64 :=
  if n = 0 then BitVec.allOnes 64
  else if (s.ctx c).isOpen (.vm n) then BitVec.ofNat 64 (s.openValue c (.vm n))
  else SMap.get 0 (s.ctx c).vm n

/-- lc[n] at issue. -/
def readLc (s : State) (c n : Nat) : BitVec 32 :=
  if (s.ctx c).isOpen (.lc n) then BitVec.ofNat 32 (s.openValue c (.lc n))
  else BitVec.ofNat 32 (SMap.get 0 (s.ctx c).lc n).toNat

/-- A system register at issue (R120, R122): CYCLE belongs to the core, CTXID is the context's number, after a restore onto another context
that of the new one (DEDUCED, log entry 68), LC0 to LC3 are the loop counters. -/
def readSys (s : State) (c n : Nat) : W64 :=
  if n = 0x038 then BitVec.ofNat 64 (s.core (coreOf c)).cycle
  else if n = 0x039 then BitVec.ofNat 64 c
  else if 0x008 ≤ n ∧ n ≤ 0x00B then (readLc s c (n - 8)).setWidth 64
  else if (s.ctx c).isOpen (.sys n) then BitVec.ofNat 64 (s.openValue c (.sys n))
  else (s.ctx c).sysReg n

/-- The rounding mode of FRM at issue (R69). -/
def readFrm (s : State) (c : Nat) : RM := RM.ofCode ((readSys s c 0x000).toNat % 8)

/-- The SR key and counter at issue (R77): several SR slots of one bundle take their counters in slot order. -/
def readDraws (s : State) (c : Nat) : Draws :=
  ⟨readSys s c 0x001, readSys s c 0x002 + BitVec.ofNat 64 (s.ctx c).srUsed⟩

/-- An exposed result of the bundle that is issuing (R43): it lands within `bound` cycles. -/
def expose (s : State) (c slot : Nat) (d : Dst) (val bound : Nat) (ev : Cats) : State :=
  s.modCtx c (fun x =>
    let q : Pend := ⟨d, val, bound, ev, 0, false, false, x.order, slot, x.handle, x.pc⟩
    let st := match d with | .p _ => x.settle ++ [(d, bound + 2)] | .lc _ => x.settle ++ [(d, bound + 2)] | _ => x.settle
    { x with pend := x.pend ++ [q], settle := st })

/-- An instruction that rounds `n` values under SR moves SRCNT on by `n`, with bound 1 (R77, R122); under another mode it does not. -/
def useDraws (s : State) (c slot n : Nat) (rm : RM) : State :=
  if rm = .sr then
    let d := readDraws s c
    let s := expose s c slot (.sys 0x002) (d.ctr + BitVec.ofNat 64 n).toNat 1 0
    s.modCtx c (fun x => { x with srUsed := x.srUsed + n })
  else s

/-- A scalar result. -/
def exposeS (s : State) (c slot n : Nat) (val : W64) (bound : Nat) (ev : Cats) : State := expose s c slot (.s n) val.toNat bound ev

/-- A vector result. -/
def exposeV (s : State) (c slot n : Nat) (val : Vec) (bound : Nat) (ev : Cats) : State := expose s c slot (.v n) val.toNat bound ev

/-- A predicate result. -/
def exposeP (s : State) (c slot n : Nat) (val : Bool) (bound : Nat) : State := expose s c slot (.p n) val.toNat bound 0

/-- The registers of a context with a result in place; s0, p0 and vm0 discard it (R48). -/
def Context.put (x : Context) (d : Dst) (val : Nat) : Context :=
  match d with
  | .s n => if n = 0 then x else { x with sr := SMap.set 0 x.sr n (BitVec.ofNat 64 val) }
  | .p n => if n = 0 then x else { x with pr := if val = 0 then x.pr &&& ~~~(1#16 <<< n) else x.pr ||| (1#16 <<< n) }
  | .v n => { x with vr := SMap.set 0 x.vr n (BitVec.ofNat 2048 val) }
  | .vm n => if n = 0 then x else { x with vm := SMap.set 0 x.vm n (BitVec.ofNat 64 val) }
  | .lc n => { x with lc := SMap.set 0 x.lc n (BitVec.ofNat 64 (val % 2 ^ 32)) }
  | .sys n => x.setSys n (BitVec.ofNat 64 val)
  | .ts _ => x

/-- The reset value of a tile shape: TYPE 0, RB 64, ROWS 32 (R133). -/
def tsReset : W64 := 0x4020

/-- One result lands: its register takes the value unless a later write has landed before (R44); its events are recorded (R89, R90);
the earlier writes of that register that have not landed are overtaken. -/
def landEntry (s : State) (c : Nat) (p : Pend) : State :=
  let s := if p.dead then s else
    match p.dst with
    | .ts n => s.modCore (coreOf c) (fun g => { g with ts := SMap.set tsReset g.ts n (BitVec.ofNat 64 p.val) })
    | d => s.modCtx c (fun x => x.put d p.val)
  s.modCtx c (fun x => x.record p.ev p.order p.slot p.handle p.pc)

/-- The pending results after the k-th of them has landed: earlier writes of its register are overtaken. -/
def overtake (l : List Pend) (k : Nat) (d : Dst) : List Pend :=
  (l.take k).map (fun p => if p.dst = d && !p.landed then { p with dead := true } else p)

/-- The k-th pending result lands inside its bound (R43). -/
def landAt (s : State) (c k : Nat) : State :=
  match (s.ctx c).pend[k]? with
  | none => s
  | some p =>
    if p.landed then s
    else
      let s := landEntry s c p
      s.modCtx c (fun x => { x with pend := overtake x.pend k p.dst ++ { p with landed := true } :: x.pend.drop (k + 1) })

/-- The results whose bound has passed land, in program order, and leave the list (R44). -/
def landDue (s : State) (c : Nat) : Nat → State
  | 0 => s
  | n + 1 =>
    let x := s.ctx c
    match x.pend.findIdx? (fun p => decide (p.bound ≤ p.age)) with
    | none => s
    | some k => landDue ((landAt s c k).modCtx c (fun x => { x with pend := x.pend.eraseIdx k })) c n

/-- Has a stopped context reached its capture cycle: at most 96 of its results are pending (14_dispatch.md R326)? -/
def Context.captured (x : Context) : Bool := x.st == .saved && decide ((x.pend.filter (fun p => !p.landed)).length ≤ 96)

/-- One cycle passes for a context's pending results (R42, R43); a captured context's stand still (14_dispatch.md R327). -/
def agePend (s : State) (c : Nat) : State :=
  let x := s.ctx c
  if (x.pend.isEmpty && x.settle.isEmpty) || x.captured then s
  else
    let s := s.modCtx c (fun x => { x with
      pend := x.pend.map (fun p => { p with age := p.age + 1 })
      settle := (x.settle.map (fun p => (p.1, p.2 - 1))).filter (fun p => p.2 != 0) })
    landDue s c x.pend.length

/-- Was the register settled two cycles ago (R41)? -/
def Context.settled (x : Context) (d : Dst) : Bool := d = .p 0 || !x.settle.any (fun p => p.1 = d)

/-! ### Hold operands (R46, R47) -/

/-- The vector operand of a field that may carry a hold value: the value, and the state in which a marking is latched. -/
def readHeld (s : State) (c : Nat) (f : BitVec 6) : Vec × State :=
  let n := f.toNat
  if n < 32 then (readV s c n, s)
  else if n < 63 then
    let v := readV s c (n - 32)
    (v, s.modCore (coreOf c) (fun g => { g with hold := some v }))
  else match (s.core (coreOf c)).hold with
    | some v => (v, s)
    | none => (BitVec.ofNat 2048 (s.freeAt (c * 8192 + 255)), s)

/-- Two hold fields of one slot: a held use takes the latest marking, a later field's included (R47). -/
def readHeld2 (s : State) (c : Nat) (fa fb : BitVec 6) : Vec × Vec × State :=
  let (b, s) := readHeld s c fb
  let (a, s) := readHeld s c fa
  if fb = 63 && decide (32 ≤ fa.toNat) && decide (fa.toNat < 63) then (a, a, s) else (a, b, s)

/-! ### Lanes (R166) -/

/-- The number of elements of a type in a vector. -/
def Fmt.lanes (f : Fmt) : Nat := if f = .f64 then 32 else 64

/-- The width of an element's lane. -/
def Fmt.lane (f : Fmt) : Nat := if f = .f64 then 64 else 32

/-- Element i of a vector: bits above the element's width in its lane are ignored. -/
def elem (f : Fmt) (v : Vec) (i : Nat) : Nat := (v.extractLsb' (f.lane * i) f.width).toNat

/-- The elements of a vector. -/
def elems (f : Fmt) (v : Vec) : List Nat := (List.range f.lanes).map (elem f v)

/-- Lanes of `w` bits to a number, the first lowest. -/
def packLanes (w : Nat) : List Nat → Nat
  | [] => 0
  | x :: r => x % 2 ^ w + 2 ^ w * packLanes w r

/-- A vector of elements in the lane layout; unwritten bits are 0. -/
def ofElems (f : Fmt) (l : List Nat) : Vec := BitVec.ofNat 2048 (packLanes f.lane l)

/-- A vector of 64 lanes of 32 bits. -/
def ofLanes (l : List Nat) : Vec := BitVec.ofNat 2048 (packLanes 32 l)

end Sys2Proof.Machine
end

