-- ==== Sys2Proof/Machine/Task.lean ====
section
/-! DEFINITION. The level table of a task, its groups, triggers and barriers (01_organisation.md R11, R12, R28-R32, R140), the issued
stores of a context (R131, R132), and the exit of a context. -/

namespace Sys2Proof.Machine

/-- Word i of a list of words. -/
def wordAt (l : List W64) (i : Nat) : W64 := l.getD i 0

/-- COUNT of level i of a launch record (R11). -/
def lvCount (ws : List W64) (i : Nat) : Nat := (wordAt ws (8 + i)).toNat % 2 ^ 32
/-- SCOPE of level i. -/
def lvScope (ws : List W64) (i : Nat) : Nat := (wordAt ws (8 + i)).toNat / 2 ^ 32 % 16
/-- DOM of level i. -/
def lvDom (ws : List W64) (i : Nat) : Nat := (wordAt ws (8 + i)).toNat / 2 ^ 36 % 16
/-- SEG of level i, in bytes. -/
def lvSeg (ws : List W64) (i : Nat) : Nat := (wordAt ws (8 + i)).toNat / 2 ^ 40 * 256

/-- The number of present levels, from level `i` on: a COUNT of 0 marks the level and all above it as absent (R11). -/
def levelsFrom (ws : List W64) (i : Nat) : Nat → Nat
  | 0 => 0
  | n + 1 => if lvCount ws i = 0 then 0 else 1 + levelsFrom ws (i + 1) n

/-- The number of present levels. -/
def levels (ws : List W64) : Nat := levelsFrom ws 0 8

/-- Product of the COUNTs of levels below `n`. -/
def sizeBelow (ws : List W64) : Nat → Nat
  | 0 => 1
  | n + 1 => sizeBelow ws n * max 1 (lvCount ws n)

/-- The level-i group of a rank (R12): the identifiers at the levels above i. -/
def groupOf (ws : List W64) (i rank : Nat) : Nat := rank / sizeBelow ws (i + 1)

/-- The identifier of a rank at a level (R319). -/
def idOf (ws : List W64) (i rank : Nat) : Nat := rank / sizeBelow ws i % max 1 (lvCount ws i)

/-- The number of contexts of a task. -/
def taskSize (ws : List W64) : Nat := sizeBelow ws (levels ws)

/-- The trigger level, if the record names one (R311). -/
def trigLevel (ws : List W64) : Option Nat :=
  if (wordAt ws 0).getLsbD 15 then some ((wordAt ws 0).toNat / 2 ^ 12 % 8) else none

/-! ### Issued stores (R131, R132) -/

/-- The oldest issued store of a context is performed at its home L2, or at the owning slice of an L1F segment (R97, R131); it waits while
its home is out of reach (R392). -/
def performStore (s : State) (c : Nat) : State :=
  match (s.ctx c).stores with
  | [] => s
  | st :: r => match st.pa with
    | some pa =>
      if !s.reach (dieOf (coreOf c)) pa then s
      else (s.modCtx c (fun x => { x with stores := r })).storePhys (.core (coreOf c)) pa st.size st.val
    | none => s

/-- The issued stores of a context are performed, oldest first, `n` of them at most. -/
def flushN (s : State) (c : Nat) : Nat → State
  | 0 => s
  | n + 1 => flushN (performStore s c) c n

/-- Does an issued store of a context wait for a home that is out of reach (17_reliability.md R392)? -/
def State.stuck (s : State) (c : Nat) : Bool :=
  (s.ctx c).stores.any (fun t => match t.pa with | some pa => !s.reach (dieOf (coreOf c)) pa | none => false)

/-- All issued stores of a context are performed: before a trigger, an exit, a barrier arrival or a command to a sequence engine, whose
ordering rules put them first (R31, R116, R132, R141). -/
def flushStores (s : State) (c : Nat) : State := flushN s c (s.ctx c).stores.length

/-! ### Triggers (R30-R32) -/

/-- A fault of the dispatch hardware (R362): a record DISPATCH is due; the waiting piece of work is named by its serial number. -/
def dispatchFault (s : State) (die asid va : Nat) (acc : Acc) (lvl queue tid serial : Nat) : State :=
  let f : FaultRec := ⟨none, 6, va % 2 ^ 48, asid, acc.code, false, lvl, tid, queue, 0, serial, false⟩
  s.modDie die (fun d => { d with faults := d.faults ++ [f] })

/-- A write that the dispatch hardware has not done is kept. -/
def keepWrite (s : State) (w : DWrite) (why : DWait) : State :=
  { s with serial := s.serial + 1, dwrites := s.dwrites ++ [{ w with serial := s.serial + 1, why := why }] }

/-- The kind of access of a write of the dispatch hardware. -/
def DWrite.acc (w : DWrite) : Acc := match w.stamp with | none => .rmw | some _ => .write

/-- A counter takes 1 more, or a word a stamp, by the dispatch hardware (R312, R324, R362): what cannot be reached yet waits (17_reliability.md R392); a refused stamp is left
out, and a refused addition refuses the record. -/
def dispatchWrite (s : State) (w : DWrite) : State :=
  if w.va = 0 then s
  else if w.kind = .phys then
    (if s.reach w.die w.va then s.storePhys (.dispatch w.die) w.va 8 (w.stamp.getD 0).toNat else keepWrite s w .link)
  else match translate s w.die (.dispatch w.die) w.asid (sx48 w.va) w.acc false with
    | .ok pa _ t =>
      if !s.reach w.die pa then keepWrite s w .link
      else match w.stamp with
        | none => (t.rmwPhys (.dispatch w.die) pa 8 (fun v => (v + 1) % 2 ^ 64)).2.2
        | some v => t.storePhys (.dispatch w.die) pa 8 v.toNat
    | .absent l s =>
      let s := keepWrite s w .fault
      dispatchFault s w.die w.asid (sx48 w.va) w.acc l w.queue w.tid s.serial
    | .refused s => if w.stamp.isNone then keepWrite s w .refused else s
    | .wait => keepWrite s w .link

/-- The clocks of a task: no ordinary access of its contexts, bound, in their frames or gone, and of its retired commands, lies later. -/
def State.taskTs (s : State) (tid : Nat) : Nat :=
  let bound := (s.bound.filter (fun p => p.2.tid == tid)).foldl (fun t p => max t (s.core (coreOf p.1)).pts) (s.task tid).ts
  s.frames.foldl (fun t p => if p.2.tid = tid then max t p.2.pts else t) bound

/-- Every group has triggered: the trigger counter of the task's record is raised (R324), after the stores of its contexts (R31), and its
record has triggered (R316). While a home of one of these stores is out of reach, the trigger waits for it (17_reliability.md R392). -/
def triggerAll (s : State) (tid : Nat) : State :=
  let t := s.task tid
  let w : DWrite := ⟨0, t.die, t.asid, (wordAt t.words 6).toNat % 2 ^ 48, none, t.q, tid, t.rec_, .link, .virt⟩
  if s.bound.any (fun p => p.2.tid == tid && s.stuck p.1) then keepWrite s { w with kind := .trigger } .link
  else
    let s := s.modDie t.die (fun d => { d with recs := d.recs.map (fun r => if r.serial = t.rec_ then { r with trig := true } else r) })
    dispatchWrite (s.raise (.dispatch t.die) (s.taskTs tid)) w

/-- A trigger that waited for stores goes on (R31, 17_reliability.md R392), unless its task is gone. -/
def resumeTrigger (s : State) (w : DWrite) : State :=
  if (s.task w.tid).rec_ ≠ w.rec_ ∨ (s.task w.tid).state = 0 then s
  else triggerAll ((s.bound.filter (fun p => p.2.tid == w.tid)).foldl (fun s p => flushStores s p.1) s) w.tid

/-- A group triggers, once; when every group has, the trigger counter is to be raised (R30, R324). -/
def triggerGroup (s : State) (tid g : Nat) : State :=
  let t := s.task tid
  match trigLevel t.words with
  | none => s
  | some lv =>
    if t.triggered.contains g then s
    else
      let tr := t.triggered ++ [g]
      let all := decide (taskSize t.words / sizeBelow t.words (lv + 1) ≤ tr.length)
      let s := s.setTask tid { t with triggered := tr, tDone := t.tDone || all }
      if all && !t.tDone then triggerAll s tid else s

/-- `br.early` of a context (R143): its group triggers, its earlier stores first (R31). -/
def earlyTrigger (s : State) (c : Nat) : State :=
  let s := flushStores s c
  let x := s.ctx c
  match trigLevel (s.task x.tid).words with
  | none => s
  | some lv => triggerGroup s x.tid (groupOf (s.task x.tid).words lv x.rank)

/-- Every group whose contexts have all gone triggers (R30). -/
def triggerGone (s : State) (tid : Nat) : State :=
  let t := s.task tid
  match trigLevel t.words with
  | none => s
  | some lv =>
    let n := sizeBelow t.words (lv + 1)
    (List.range (taskSize t.words / max 1 n)).foldl (fun s g =>
      if (List.range n).all (fun j => (s.task tid).gone.contains (g * n + j)) then triggerGroup s tid g else s) s

/-! ### Barriers (R140) -/

/-- The ranks of a level-i group. -/
def groupRanks (ws : List W64) (i g : Nat) : List Nat :=
  (List.range (sizeBelow ws (i + 1))).map (fun j => g * sizeBelow ws (i + 1) + j)

/-- A barrier whose members have all arrived or gone completes: its waiting members may pass, their later accesses
follow the earlier ones of all (R141), and a new generation begins. -/
def completeBar (s : State) (tid : Nat) (b : Barrier) : State :=
  let t := s.task tid
  if (groupRanks t.words b.level b.group).all (fun r => b.arrived.contains r || t.gone.contains r) && !b.arrived.isEmpty then
    let s := s.setTask tid { t with bars := t.bars.filter (fun x => !(x.level == b.level && x.group == b.group)) }
    let cs := b.arrived.filterMap (s.whereIs tid)
    let ts := cs.foldl (fun m c => max m (s.core (coreOf c)).pts) 0
    let s := b.arrived.foldl (fun s r => s.modWho tid r (fun x => x.passBar b.level)) s
    cs.foldl (fun s c => s.raise (.core (coreOf c)) ts) s
  else s

/-- Every barrier of a task that is complete completes. -/
def completeBars (s : State) (tid : Nat) : State := (s.task tid).bars.foldl (fun s b => completeBar s tid b) s

/-- The contexts that have arrived at the present generation of a barrier (R140). -/
def Task.arrived (t : Task) (i g : Nat) : List Nat :=
  match t.bars.find? (fun b => b.level == i && b.group == g) with | some b => b.arrived | none => []

/-- A context arrives at the barrier of its level-i group (R140), its stores before it (R141): while a home of one of them is out of reach it has
not arrived (17_reliability.md R392). A handler's own `br.bar` on a level at which the interrupted bundle has arrived is that same arrival (DEDUCED,
log entry 26). -/
def arriveBar (s : State) (c i : Nat) : State :=
  let s := (flushStores s c).modCtx c (fun y => { y with barIn := some i })
  if s.stuck c then s
  else
    let x := s.ctx c
    let t := s.task x.tid
    let g := groupOf t.words i x.rank
    let b : Barrier := ⟨i, g, if (t.arrived i g).contains x.rank then t.arrived i g else t.arrived i g ++ [x.rank]⟩
    completeBar (s.setTask x.tid { t with bars := t.bars.filter (fun y => !(y.level == i && y.group == g)) ++ [b] }) x.tid b

/-- A context that waits at a barrier at which its stores have kept it from arriving arrives once they can be performed (R141). -/
def lateArrival (s : State) (c : Nat) : State :=
  let x := s.ctx c
  match x.barIn with
  | some i =>
    if x.st == .blocked && x.why == .barrier && !((s.task x.tid).arrived i (groupOf (s.task x.tid).words i x.rank)).contains x.rank then arriveBar s c i
    else s
  | none => s

/-! ### Exit (R28, R143) -/

/-- A context gives up issue: any hold ends (R24, R47). -/
def dropIssue (s : State) (c : Nat) : State :=
  s.modCore (coreOf c) (fun g => if g.active = some c then { g with active := none, last := c % 4, hold := none, wait := none } else g)

/-- The ACTIVE context blocks: it gives up issue, and is not ACTIVE in the next cycle (R21). -/
def barIssue (s : State) (c : Nat) : State :=
  (dropIssue s c).modCore (coreOf c) (fun g => { g with barred := some (c, g.cycle) })

/-- A running `latq` or `accq` of the matrix owner stops at its entry boundary (R226). The elements that a stopped `latq` has not written keep their
old codes, which the latch's new tag reads (DESIGN CHOICE, log entry 73). -/
def stopQueueOps (s : State) (c : Nat) : State :=
  s.modCore (coreOf c) (fun g => if g.owner = some c then
    { g with latqs := g.latqs.map (fun o => { o with need := o.next }), accqs := [] } else g)

/-- `br.exit` (R28, R143): the context becomes EXITED; results that have not landed, open regions and any watch are discarded; its stores
are performed (R132), later where a home is out of reach; its groups may trigger and its barriers complete. Ring-slot stores whose page is absent are
performed before (16_faults.md R369): until then the exit waits. -/
def exitContext (s : State) (c : Nat) : State :=
  let s := flushStores s c
  let x := s.ctx c
  if x.stores.any (fun t => t.pa.isNone) then s.setCtx c { x with nxt := .seq, exits := true }
  else
  let s := s.setCtx c { (x.setSys 0x048 0) with st := .exited, pend := [], settle := [], watch := none, crOrder := [], nxt := .seq,
                                                frz := 0, spent := 0, test := none, due := none, barPass := none, barIn := none, resumes := [], exits := false,
                                                halt := false }
  let s := stopQueueOps (dropIssue s c) c
  let s := s.modTask x.tid (fun t => { t with live := t.live - 1, gone := t.gone ++ [x.rank], ts := max t.ts (s.core (coreOf c)).pts })
  completeBars (triggerGone s x.tid) x.tid

end Sys2Proof.Machine
end

