-- ==== Sys2Proof/Machine/Issue.lean ====
section
/-! DEFINITION. Issue of a bundle (01_organisation.md R9, R19-R25): what a slot answers, how the answers of a bundle's slots are settled
(05_control.md R147, 16_faults.md R368, 17_reliability.md R381), freezing, blocking, faults and unwinds, and the core's cycle around it. -/

namespace Sys2Proof.Machine

/-- What is registered, outside the bundle, when a bundle blocks. -/
inductive Patch where
  | none
  /-- a watch on a line -/
  | watch (line : Nat)
  /-- an arrival at a barrier -/
  | arrive (level : Nat)
  deriving DecidableEq, Repr

/-- What a slot of the next bundle answers in the present cycle. -/
inductive Verdict where
  /-- the slot can issue: its effect -/
  | issued (s : State)
  /-- the scratchpad engine waits for its banks or tags and freezes the core (R22); the bank cycles spent with this one (R158) -/
  | freeze (spent : Nat)
  /-- it waits for other data and freezes the core (R22) -/
  | stall
  /-- the test of a `br.waita` has been performed, with this state, and the core freezes until its value returns (R137) -/
  | testing (s : State)
  /-- it freezes the core until the reply of a command that is sent now (R263) -/
  | asking (q : SqCmd)
  /-- it blocks the context (R20) -/
  | block (why : Block) (p : Patch)
  /-- a trap cause that prevents issue (R146) -/
  | trap (code : Nat) (info : W64)
  /-- an absent page (R367): ASID, address, kind of access, level of the entry -/
  | absent (asid va : Nat) (acc : Acc) (lvl : Nat)
  /-- poison would be consumed (R377): its address, whether its page contains it, and the lease of the read of memory that found it -/
  | poison (info : W64) (contain : Bool) (lease : Option Nat := none)

/-- One slot of a bundle: its number, its guard, the virtual access of an ordinary load, store, test or claim in it (R367), and what it
does for a context. -/
structure SlotOp where
  slot : Nat
  guard : Guard
  mem : Nat → State → Option (Nat × Acc)
  run : Nat → State → Verdict

/-- No access of the virtual space. -/
def noAccess : Nat → State → Option (Nat × Acc) := fun _ _ => none

/-- The slots of a bundle in slot order on the evolving state (R9): the state, and the answers that prevent issue. Where two commands of one bundle
name the same produced token, the second finds it pending by the first, so that the bundle blocks, is ready again at once, and never issues (DESIGN
CHOICE, log entry 74). -/
def runSlots (c : Nat) : List SlotOp → State → State × List Verdict
  | [], s => (s, [])
  | o :: r, s =>
    if !readGuard s c o.guard then runSlots c r s
    else match o.run c s with
      | .issued s' => runSlots c r s'
      | v => let (s', vs) := runSlots c r s; (s', v :: vs)

/-- A page fault of a compute-core access at K or U level (R363, R367): a record, and the whole task is saved with cause 3. -/
def pageFault (s : State) (c asid va : Nat) (acc : Acc) (lvl : Nat) (k : Bool) : State :=
  let x := s.ctx c
  let f : FaultRec := ⟨none, 1, va % 2 ^ 48, asid, acc.code, k, lvl, x.tid, c, x.rank,
                      (s.task x.tid).rec_, false⟩
  let s := s.modDie (dieOf (coreOf c)) (fun d => { d with faults := d.faults ++ [f] })
  let s := s.modTask x.tid (fun t => { t with faults := t.faults + 1 })
  s.beginSave x.tid 3 (some c)

/-- The containment unwind's state (R151): the innermost region's handler, at the level at which the region was opened. -/
def enterUnwind (s : State) (c : Nat) (t : PendTrap) : State :=
  let x := s.ctx c
  let j := (x.sysReg 0x048).toNat - 1
  let h := x.sysReg (0x04C + j)
  let x := x.setSys 0x049 (place t.handle t.pc)
  let x := x.setSys 0x04A t.info
  let x := x.setSys 0x048 (BitVec.ofNat 64 j)
  let x := x.setSys 0x03A (if h.getLsbD 51 then 1 else 0)
  let s := s.setCtx c { x with handle := (h >>> 52).toNat, pc := h.toNat % 2 ^ 24, trap := none, att := [], crOrder := x.crOrder.take j,
                               frz := 0, spent := 0, delay := 0, bubble := 0, watch := none, test := none, due := none, barPass := none,
                               barIn := none }
  s.modCore (coreOf c) (fun g => { g with hold := none, wait := none })

/-- The code under which a pending unwind is kept beside the trap causes. -/
def unwindCode : Nat := 32

/-- The pending trap entry or unwind of a context takes place (R147, R151). -/
def enterPending (s : State) (c : Nat) : State :=
  match (s.ctx c).trap with
  | none => s
  | some t => if t.code = unwindCode then enterUnwind s c t else enterTrap s c t

/-- Does the present frozen cycle of a context bring its count to WLIM + 1 (R23)? -/
def waitOver (s : State) (c : Nat) : Bool :=
  let lim := ((s.ctx c).sysReg 0x003).toNat % 2 ^ 32
  lim != 0 && decide (lim + 1 ≤ (s.ctx c).frz + 1)

/-- An unwind to the innermost region begins (R380): the state of R151 is set after the drain; the commands to be cancelled at this
point are noted, and are cancelled in the same step (`settleUnwinds`). A data-wait event due in the cycle is taken at the next boundary (R381). -/
def beginUnwind (s : State) (c : Nat) (info : W64) : State :=
  let x := s.ctx c
  let j := (x.sysReg 0x048).toNat - 1
  let s := { stopQueueOps s c with unwinds := s.unwinds ++ [(x.tid, x.rank, x.crOrder.getD j 0)] }
  let s := s.modCtx c (fun y => { y with trap := some ⟨unwindCode, info, x.handle, x.pc⟩, frz := 0, spent := 0,
                                          watch := none, test := none, dwDue := y.dwDue || waitOver s c })
  if x.pend.all (fun p => p.landed) then enterPending s c else s

/-- Is the innermost containment region of a context one of its present level (R150, R378), and, while a handler is active, one that the handler has
opened (R381)? -/
def regionOpen (x : Context) : Bool :=
  let d := (x.sysReg 0x048).toNat
  d != 0 && (x.sysReg (0x04C + (d - 1))).getLsbD 51 == x.kLevel &&
    (!(x.sysReg 0x044).getLsbD 1 || decide (x.trapOrder < x.crOrder.getD (d - 1) 0))

/-- Poison consumed by a bundle (R378): fatal without containment, an unwind when the innermost region was opened at this level, else
the trap POISON. -/
def consume (s : State) (c : Nat) (info : W64) (contain : Bool) : State :=
  let x := s.ctx c
  if !contain then s.beginKill x.tid 8
  else if regionOpen x then beginUnwind s c info
  else takeTrap s c 13 info x.handle x.pc

/-- Where a trap taken at a boundary resumes: an interrupted `br.delay` goes on with what remains (R38). -/
def boundaryTrap (s : State) (c code : Nat) (info : W64) : State :=
  let x := s.ctx c
  if 0 < x.delay then
    takeTrap (s.modCtx c (fun y => { y with delay := 0, due := some x.delay })) c code info x.handle (x.pc - 32)
  else takeTrap s c code info x.handle x.pc

/-- Does a data-wait event of the context save its task: the Save action, or the Trap action while a handler is active (R23, R370)? -/
def waitSaves (s : State) (c : Nat) : Bool := (s.task (s.ctx c).tid).dws || ((s.ctx c).sysReg 0x044).getLsbD 1

/-- The data-wait event of the ACTIVE context (R23): the trap DWAIT, or the save of the task; the latter also while a handler is active
(R370). -/
def dataWait (s : State) (c : Nat) : State :=
  let x := s.ctx c
  if waitSaves s c then
    (s.modCtx c (fun y => { y with frz := 0, spent := 0 })).beginSave x.tid 2 (some c)
  else takeTrap s c 7 (x.sysReg 0x003) x.handle x.pc

/-- A frozen cycle (R22, R23). -/
def freezeCycle (s : State) (c spent : Nat) : State :=
  let timeUp := waitOver s c
  let s := s.modCtx c (fun y => { y with frz := y.frz + 1, spent := spent })
  if timeUp then dataWait s c else s

/-- The ACTIVE context becomes BLOCKED (R20, R21); a claim that finds its queue full has read the descriptor's line (R99, R241). -/
def blockContext (s : State) (c : Nat) (why : Block) (p : Patch) : State :=
  let s := s.modCtx c (fun x => { x with st := .blocked, why := why, frz := 0, spent := 0, test := none })
  let s := barIssue s c
  match p with
  | .none => s
  | .watch l => (s.modCtx c (fun x => { x with watch := some l })).loadHome (.core (coreOf c)) (64 * l) 1
  | .arrive i => arriveBar s c i

/-- A containment region opens at the end of its bundle (R150): CRHj holds its handler, CRDEP counts it. -/
def Context.openRegion (x : Context) (h : W64) : Context :=
  let j := (x.sysReg 0x048).toNat
  { (x.setSys (0x04C + j) h).setSys 0x048 (BitVec.ofNat 64 (j + 1)) with crOrder := x.crOrder.take j ++ [x.order] }

/-- The innermost region closes (R150). -/
def Context.closeRegion (x : Context) : Context :=
  let j := (x.sysReg 0x048).toNat
  { x.setSys 0x048 (BitVec.ofNat 64 (j - 1)) with crOrder := x.crOrder.take (j - 1) }

/-! ### Scratchpad writes (04_memory.md R107, R109) -/

/-- Keys of the poison table of a core: the space number of R379 and the place in it. -/
def poisonKey (space place : Nat) : Nat := space * 2 ^ 24 + place

/-- Mark or clear the poison of a place. -/
def Core.setBad (g : Core) (space place : Nat) (b : Bool) : Core := { g with poison := SMap.set false g.poison (poisonKey space place) b }

/-- Set the tags of words. -/
def Core.setTags (g : Core) (ws : List Nat) (full : Bool) : Core := { g with tag := ws.foldl (fun m w => SMap.set false m w full) g.tag }

/-- A scratchpad write is performed: its word takes the value, and a tagged form's tag changes with it (R107, R109). -/
def Core.performWrite (g : Core) (w : SpWrite) : Core :=
  let g := { g.setBad 1 w.word false with sp := SMap.set 0 g.sp w.word w.val }
  match w.tag with
  | none => g
  | some b => g.setTags [w.word] b

/-- The writes of a tagged form are performed as its bundle issues, its data and its tags in one step (R109): an earlier write of a word
counts as performed before them (R107). -/
def Core.performTagged (g : Core) : Core :=
  let due := g.spw.filter (fun w => w.bound == 0)
  if due.isEmpty then g
  else { due.foldl Core.performWrite g with spw := g.spw.filter (fun w => w.bound != 0 && !due.any (fun d => d.word == w.word)) }

/-- The tagged writes of a bundle of core g that issues. -/
def State.performTagged (s : State) (g : Nat) : State := if (s.core g).spw.isEmpty then s else s.modCore g Core.performTagged

/-- The effect after the whole bundle has issued (R134, R143, R145, R148, R150, R152): the bundle's own slots read what was there before
it (02_bundle.md R43). -/
def finishIssue (s : State) (c : Nat) : State :=
  let s := ({ s with free := s.free + 1 } : State).performTagged (coreOf c)
  let x := s.ctx c
  let y := { x with nxt := .seq, frz := 0, spent := 0, order := x.order + 1, srUsed := 0, test := none, due := none, barPass := none,
                    barIn := none }
  match x.nxt with
  | .seq => s.setCtx c { y with pc := x.pc + 32 }
  | .jump p b => s.setCtx c { y with pc := p, bubble := b }
  | .ret h p b => s.setCtx c ({ returnTrap y with handle := h, pc := p, bubble := b }.takeResume h p)
  | .exit => exitContext (s.setCtx c y) c
  | .trap code info => takeTrap (s.setCtx c { y with pc := x.pc + 32 }) c code info x.handle (x.pc + 32)
  | .delay n => s.setCtx c { y with pc := x.pc + 32, delay := n }
  | .openRegion h => s.setCtx c { y.openRegion h with pc := x.pc + 32 }
  | .closeRegion => s.setCtx c { y.closeRegion with pc := x.pc + 32 }
  | .clearLog => s.setCtx c { y.fevClear with pc := x.pc + 32, fevClr := true }

/-- The bank cycles spent (R158) of a bundle that freezes: what its LD slot answers, else those it had spent before. -/
def freezeSpent (spent : Nat) : List Verdict → Option Nat
  | [] => none
  | .freeze n :: _ => some n
  | .stall :: r => some ((freezeSpent spent r).getD spent)
  | .testing _ :: r => some ((freezeSpent spent r).getD spent)
  | .asking _ :: r => some ((freezeSpent spent r).getD spent)
  | _ :: r => freezeSpent spent r

/-- A command leaves for Anise, which it reaches at issue + 1 or later, or for a walker, which starts it at issue + 3 or later: how much later
is not fixed (11_kvblocks.md R261, 15_schedule.md R350; a free value, log entry 27). -/
def SqCmd.onWay (q : SqCmd) : SqCmd := { q with wait := (if 22 ≤ q.op then 3 else 1) + Config.freeValue q.serial 261 }

/-- A command with a reply is sent; its bundle waits for it (R263, R270, R348). -/
def sendAsk (s : State) (c : Nat) (q : SqCmd) : State :=
  let s := flushStores s c
  let s := { s with serial := s.serial + 1 }
  let q := { q with serial := s.serial, ts := s.ptsOf (.core (coreOf c)) }
  let s := s.modCtx c (fun x => { x with asks := ⟨x.handle, x.pc, q.serial, q.op, none, 0⟩ :: x.asks })
  if q.op = 22 then { s with walks := s.walks ++ [q.onWay] } else { s with anise := s.anise ++ [q.onWay] }

/-- The requests among the answers are sent (one slot only makes requests). -/
def sendAsks (s : State) (c : Nat) : List Verdict → State
  | [] => s
  | .asking q :: _ => sendAsk s c q
  | _ :: r => sendAsks s c r

/-- The state from which a frozen bundle goes on: that of a `br.waita` test that has been performed in this cycle (R137), the core's wait
for it begun anew. -/
def testedState (s : State) (c : Nat) : List Verdict → State
  | [] => s
  | .testing t :: _ => t.modCore (coreOf c) (fun g => { g with wait := none })
  | _ :: r => testedState s c r

/-- A walk of the bundle at issue has ended absent: its task is saved (R367), with cause 2 where a data-wait event under the Save action is due in
the same frozen cycle (R370). -/
def absentSave (s : State) (c asid va : Nat) (acc : Acc) (lvl : Nat) : State :=
  let t := pageFault s c asid va acc lvl (s.ctx c).kLevel
  if waitOver s c && waitSaves s c then t.beginSave (s.ctx c).tid 2 (some c) else t

/-- The lowest slot's answer of those that prevent issue (R147); a wait for data comes before a blocking condition (R22), also where its walk has
ended absent (R367). -/
def lowestOf : List Verdict → Option Verdict
  | [] => none
  | .block why p :: r => match lowestOf r with
    | some (.absent asid va acc lvl) => some (.absent asid va acc lvl)
    | _ => some (.block why p)
  | v :: _ => some v

/-- Is an answer a schedule violation (09_matrix.md R216)? -/
def Verdict.sched : Verdict → Bool
  | .trap code _ => code == 6
  | _ => false

/-- The answer that is taken of those that prevent issue (R147). A schedule violation is found only in the cycle in which the bundle would otherwise
issue (09_matrix.md R216): any other answer comes before it. -/
def takenOf (vs : List Verdict) : Option Verdict :=
  match lowestOf (vs.filter (fun v => !v.sched)) with
  | some v => some v
  | none => vs.head?

/-- The lowest slot whose walk has ended absent. -/
def absentOf : List Verdict → Option (Nat × Nat × Acc × Nat)
  | [] => none
  | .absent asid va acc lvl :: _ => some (asid, va, acc, lvl)
  | _ :: r => absentOf r

/-- The read of memory that found poison has been performed: after the context's earlier stores, with a timestamp of its own (04_memory.md R101,
R131). -/
def poisonRead (s : State) (c : Nat) (info : W64) (lease : Option Nat) : State :=
  match lease with
  | none => s
  | some l =>
    match translate s (dieOf (coreOf c)) (.core (coreOf c)) (s.task (s.ctx c).tid).asid (sx48 info.toNat) .read (s.ctx c).kLevel with
    | .ok pa pte t =>
      let t := flushStores t c
      let at_ := t.placeOf (t.task (t.ctx c).tid).asid (sx48 info.toNat) pa
      if l = 0 then t.loadHome (.core (coreOf c)) at_ 0
      else (t.loadPhys (.core (coreOf c)) at_ 1 (pteBypass pte || decide (memBytes ≤ at_))).2.2
    | _ => s

/-- The answers that prevent issue are settled: a wait for data comes first (R22, R223), unless a walk has ended absent, which ends the
freeze with a save (R370); else the answer that is taken. -/
def settle (s : State) (c : Nat) (vs : List Verdict) : State :=
  match freezeSpent (s.ctx c).spent vs with
  | some n => match absentOf vs with
    | some (asid, va, acc, lvl) => absentSave s c asid va acc lvl
    | none => freezeCycle (sendAsks (testedState s c vs) c vs) c n
  | none => match takenOf vs with
    | none => s
    | some v => match v with
      | .issued s' => s'
      | .freeze n => freezeCycle s c n
      | .stall => s
      | .testing _ => s
      | .asking _ => s
      | .block why p => blockContext s c why p
      | .trap code info => let x := s.ctx c; takeTrap s c code info x.handle x.pc
      | .absent asid va acc lvl => absentSave s c asid va acc lvl
      | .poison info b lease => consume (poisonRead s c info lease) c info b

/-- The translations of a bundle's accesses, in slot order (R367): what a walk has set in memory and what the core then holds stay also
where the bundle does not issue (R359). -/
def walkSlots (c : Nat) : List SlotOp → State → State
  | [], s => s
  | o :: r, s => walkSlots c r (match o.mem c s with
    | none => s
    | some (va, acc) =>
      if !readGuard s c o.guard || !canonical va then s
      else match translate s (dieOf (coreOf c)) (.core (coreOf c)) (s.task (s.ctx c).tid).asid va acc (s.ctx c).kLevel with
        | .ok _ _ t => t
        | .absent _ t => t
        | .refused t => t
        | .wait => s)

/-- A bundle of slots of context c in one cycle: its accesses are translated, and it issues whole or not at all (R9, R367). -/
def issueSlots (c : Nat) (ops : List SlotOp) (s : State) : State :=
  let s := walkSlots c ops s
  match runSlots c ops s with
  | (s', []) => finishIssue s' c
  | (_, vs) => settle s c vs

/-- The context that a slot instruction acts for: the ACTIVE context of the core in focus (DESIGN CHOICE, log entry 4). -/
def State.acting (s : State) : Option Nat := (s.core s.focus).active

/-- The guard that is always true. -/
def always : Guard := ⟨0, false⟩

end Sys2Proof.Machine
end

