-- ==== Sys2Proof/Machine/Scalar.lean ====
section
/-! DEFINITION. The scalar engines SA and SB (05_control.md R122-R133): integer and floating arithmetic, compares, predicates, immediates,
ordinary loads and stores, system-register moves and the tile-shape write. -/

namespace Sys2Proof.Machine

/-- The slot of a scalar unit (R8). -/
def SUnit.slot : SUnit → Nat
  | .a => 1 | .b => 2

/-- A scalar operation of two sources with a latency bound and an event (R126). -/
def scalar2 (u : SUnit) (d a b : BitVec 6) (bound : Nat) (f : W64 → W64 → W64 × Cats) (c : Nat) (s : State) : Verdict :=
  let (v, ev) := f (readS s c a.toNat) (readS s c b.toNat)
  .issued (exposeS s c (SUnit.slot u) d.toNat v bound ev)

/-- (a + b)[63:0], IOVF on signed overflow. -/
def opSaAdd (u : SUnit) (d a b : BitVec 6) := scalar2 u d a b 1 (fun x y => (x + y, iovfIf (addOvf x y)))
/-- (a - b)[63:0], IOVF on signed overflow. -/
def opSaSub (u : SUnit) (d a b : BitVec 6) := scalar2 u d a b 1 (fun x y => (x - y, iovfIf (subOvf x y)))
/-- (a * b)[63:0], IOVF when the signed product lies outside 64 bits. -/
def opSaMul (u : SUnit) (d a b : BitVec 6) := scalar2 u d a b 3 (fun x y => (x * y, iovfIf (mulOvf x y)))

/-- The high half of a product: signed, unsigned, or signed by unsigned. -/
def mulHigh (x : Nat) (a b : W64) : W64 :=
  let p : Int := match x with
    | 0 => a.toInt * b.toInt
    | 1 => (a.toNat : Int) * b.toNat
    | _ => a.toInt * b.toNat
  BitVec.ofInt 64 (p / 2 ^ 64)

/-- (a * b)[127:64]. -/
def opSaMulh (u : SUnit) (d a b : BitVec 6) (x : BitVec 3) := scalar2 u d a b 3 (fun y z => (mulHigh x.toNat y z, 0))

/-- Quotient truncated toward zero; a division by zero gives all ones and DZ, -2^63 / -1 gives -2^63 and IOVF (R126). -/
def divide (uns : Bool) (a b : W64) : W64 × Cats :=
  if b = 0 then (BitVec.allOnes 64, catDZ)
  else if uns then (a / b, 0)
  else (BitVec.ofInt 64 (a.toInt.tdiv b.toInt), iovfIf (a == BitVec.intMin 64 && b == BitVec.allOnes 64))

/-- Remainder with the sign of a; a division by zero gives a and DZ. -/
def remainder (uns : Bool) (a b : W64) : W64 × Cats :=
  if b = 0 then (a, catDZ)
  else if uns then (a % b, 0)
  else (BitVec.ofInt 64 (a.toInt.tmod b.toInt), 0)

/-- Quotient. -/
def opSaDiv (u : SUnit) (d a b : BitVec 6) (x : BitVec 3) := scalar2 u d a b 20 (divide (x == 1))
/-- Remainder. -/
def opSaRem (u : SUnit) (d a b : BitVec 6) (x : BitVec 3) := scalar2 u d a b 20 (remainder (x == 1))
/-- Bitwise and. -/
def opSaAnd (u : SUnit) (d a b : BitVec 6) := scalar2 u d a b 1 (fun x y => (x &&& y, 0))
/-- Bitwise or. -/
def opSaOr (u : SUnit) (d a b : BitVec 6) := scalar2 u d a b 1 (fun x y => (x ||| y, 0))
/-- Bitwise exclusive or. -/
def opSaXor (u : SUnit) (d a b : BitVec 6) := scalar2 u d a b 1 (fun x y => (x ^^^ y, 0))
/-- Shift left by b[5:0]. -/
def opSaShl (u : SUnit) (d a b : BitVec 6) := scalar2 u d a b 1 (fun x y => (x <<< (y.toNat % 64), 0))
/-- Logical shift right by b[5:0]. -/
def opSaShr (u : SUnit) (d a b : BitVec 6) := scalar2 u d a b 1 (fun x y => (x >>> (y.toNat % 64), 0))
/-- Arithmetic shift right by b[5:0]. -/
def opSaSra (u : SUnit) (d a b : BitVec 6) := scalar2 u d a b 1 (fun x y => (x.sshiftRight (y.toNat % 64), 0))
/-- Smaller value, signed or unsigned. -/
def opSaMin (u : SUnit) (d a b : BitVec 6) (x : BitVec 3) :=
  scalar2 u d a b 1 (fun y z => (if (if x == 1 then z.ult y else z.slt y) then z else y, 0))
/-- Larger value, signed or unsigned. -/
def opSaMax (u : SUnit) (d a b : BitVec 6) (x : BitVec 3) :=
  scalar2 u d a b 1 (fun y z => (if (if x == 1 then y.ult z else y.slt z) then z else y, 0))

/-- An integer compare (R124). -/
def opSaCmp (u : SUnit) (p : BitVec 4) (a b : BitVec 6) (cd : BitVec 3) (c : Nat) (s : State) : Verdict :=
  .issued (exposeP s c (SUnit.slot u) p.toNat (condInt cd.toNat (readS s c a.toNat) (readS s c b.toNat)) 1)
/-- A compare of FP64 registers. -/
def opSaFcmpF64 (u : SUnit) (p : BitVec 4) (a b : BitVec 6) (cd : BitVec 3) (c : Nat) (s : State) : Verdict :=
  .issued (exposeP s c (SUnit.slot u) p.toNat (condFloat .f64 cd.toNat (readS s c a.toNat).toNat (readS s c b.toNat).toNat) 1)
/-- A compare of bits [31:0] as FP32. -/
def opSaFcmpF32 (u : SUnit) (p : BitVec 4) (a b : BitVec 6) (cd : BitVec 3) (c : Nat) (s : State) : Verdict :=
  .issued (exposeP s c (SUnit.slot u) p.toNat
    (condFloat .f32 cd.toNat ((readS s c a.toNat).toNat % 2 ^ 32) ((readS s c b.toNat).toNat % 2 ^ 32)) 1)

/-- An operation on predicates (R125). -/
def pred2 (u : SUnit) (d a b : BitVec 4) (f : Bool → Bool → Bool) (c : Nat) (s : State) : Verdict :=
  .issued (exposeP s c (SUnit.slot u) d.toNat (f (readP s c a.toNat) (readP s c b.toNat)) 1)
/-- And. -/
def opSaPand (u : SUnit) (d a b : BitVec 4) := pred2 u d a b (fun x y => x && y)
/-- Or. -/
def opSaPor (u : SUnit) (d a b : BitVec 4) := pred2 u d a b (fun x y => x || y)
/-- Exclusive or. -/
def opSaPxor (u : SUnit) (d a b : BitVec 4) := pred2 u d a b (fun x y => x != y)

/-- s[d] := sext(imm15) (R127). -/
def opSaMovi (u : SUnit) (d : BitVec 6) (i : BitVec 15) (c : Nat) (s : State) : Verdict :=
  .issued (exposeS s c (SUnit.slot u) d.toNat (i.signExtend 64) 1 0)
/-- s[d] := s[d] << 15 | zext(imm15) (R127). -/
def opSaMovh (u : SUnit) (d : BitVec 6) (i : BitVec 15) (c : Nat) (s : State) : Verdict :=
  .issued (exposeS s c (SUnit.slot u) d.toNat ((readS s c d.toNat <<< 15) ||| i.setWidth 64) 1 0)
/-- s[d] := s[d] + sext(imm15), IOVF on signed overflow (R127). -/
def opSaAddi (u : SUnit) (d : BitVec 6) (i : BitVec 15) (c : Nat) (s : State) : Verdict :=
  let x := readS s c d.toNat
  .issued (exposeS s c (SUnit.slot u) d.toNat (x + i.signExtend 64) 1 (iovfIf (addOvf x (i.signExtend 64))))

/-! ### Ordinary loads and stores (R130, R131) -/

/-- What an access of a context comes to: a value, the line that it was read from, and the state; or what prevents issue. -/
inductive Got where
  | val (v : Nat) (line : Nat) (s : State)
  | stop (v : Verdict)

/-- The ASID of a context: that of its task's launch queue (R353). -/
def State.asidOf (s : State) (c : Nat) : Nat := (s.task (s.ctx c).tid).asid

/-- The address of a poison report for a virtual word (R379): its word, bit 63 clear. -/
def vaWord (va : Nat) : W64 := BitVec.ofNat 64 (va % 2 ^ 63 / 8 * 8)

/-- A load of `n` bytes at a virtual address by a context (R93, R130, R131): alignment first, then translation, then the earlier stores of
the context, then the access; `home` performs it at the home L2 with lease 0 (R137). An L1F segment is read at its owning slice, with a lease of 1 tick, of the 1 to 256
that R101 lets the hardware choose (DESIGN CHOICE, log entry 7). -/
def loadVirt (s : State) (c va n : Nat) (home : Bool) : Got :=
  let va := va % 2 ^ 64
  let g := coreOf c
  if !canonical va || va % n != 0 then .stop (.trap 10 (BitVec.ofNat 64 va))
  else match translate s (dieOf g) (.core g) (s.asidOf c) va .read (s.ctx c).kLevel with
    | .absent l _ => .stop (.absent (s.asidOf c) va .read l)
    | .refused _ => .stop (.trap 11 (BitVec.ofNat 64 va))
    | .wait => .stop .stall
    | .ok pa pte s =>
      let s := flushStores s c
      let at_ := s.placeOf (s.asidOf c) va pa
      if !(s.ctx c).stores.isEmpty || !s.reach (dieOf g) at_ then .stop (.stall)
      else
        let (v, bad, s) := if home then (s.readN at_ n, s.badAt at_ n, s.loadHome (.core g) at_ 0)
                           else s.loadPhys (.core g) at_ n (pteBypass pte || decide (memBytes ≤ at_))
        if bad then .stop (.poison (vaWord va) (pteContain pte) (some (if home then 0 else 1))) else .val v (at_ / 64) s

/-- A store of `n` bytes (R130, R131): translated before issue; it waits among the issued stores of the context, 16 at most. -/
def storeVirt (s : State) (c va n v : Nat) : Verdict :=
  let va := va % 2 ^ 64
  let g := coreOf c
  if !canonical va || va % n != 0 then .trap 10 (BitVec.ofNat 64 va)
  else match translate s (dieOf g) (.core g) (s.asidOf c) va .write (s.ctx c).kLevel with
    | .absent l _ => .absent (s.asidOf c) va .write l
    | .refused _ => .trap 11 (BitVec.ofNat 64 va)
    | .wait => .stall
    | .ok pa _ s =>
      if 16 ≤ (s.ctx c).stores.length then .stall
      else .issued (s.modCtx c (fun x => { x with stores := x.stores ++ [⟨some (s.placeOf (s.asidOf c) va pa), va, s.asidOf c, n, v⟩] }))

/-- The address of a scalar access: (s[a] + s[b])[63:0]. -/
def scalarAddr (s : State) (c : Nat) (a b : BitVec 6) : Nat := (readS s c a.toNat + readS s c b.toNat).toNat

/-- An access that takes place: canonical and naturally aligned (R93). -/
def ordAccess (va n : Nat) (acc : Acc) : Option (Nat × Acc) :=
  let va := va % 2 ^ 64
  if canonical va && va % n == 0 then some (va, acc) else none

/-- The access of a scalar load or store (R130, R367). -/
def scalarAccess (a b : BitVec 6) (n : Nat) (acc : Acc) (c : Nat) (s : State) : Option (Nat × Acc) := ordAccess (scalarAddr s c a b) n acc

/-- The access at the address in one register: a `br.waita` test, a `br.pload`, the descriptor claim of `dx.cpost` (R367). -/
def wordAccess (a : BitVec 6) (n : Nat) (acc : Acc) (c : Nat) (s : State) : Option (Nat × Acc) := ordAccess (readS s c a.toNat).toNat n acc

/-- A load of n bytes, zero- or sign-extended (R130); the bound is 2 from issue. -/
def scalarLoad (u : SUnit) (d a b : BitVec 6) (sx : Bool) (n : Nat) (c : Nat) (s : State) : Verdict :=
  match loadVirt s c (scalarAddr s c a b) n false with
  | .stop v => v
  | .val v _ s => .issued (exposeS s c (SUnit.slot u) d.toNat (if sx then BitVec.ofInt 64 (signedOf (8 * n) v) else BitVec.ofNat 64 v) 2 0)

/-- Load of 8 bytes. -/
def opSaLdB64 (u : SUnit) (d a b : BitVec 6) := scalarLoad u d a b false 8
/-- Load of 4 bytes. -/
def opSaLdB32 (u : SUnit) (d a b : BitVec 6) (x : BitVec 3) := scalarLoad u d a b (x == 1) 4
/-- Load of 2 bytes. -/
def opSaLdB16 (u : SUnit) (d a b : BitVec 6) (x : BitVec 3) := scalarLoad u d a b (x == 1) 2
/-- Load of 1 byte. -/
def opSaLdB8 (u : SUnit) (d a b : BitVec 6) (x : BitVec 3) := scalarLoad u d a b (x == 1) 1

/-- A store of the low n bytes of s[d]. -/
def scalarStore (d a b : BitVec 6) (n : Nat) (c : Nat) (s : State) : Verdict :=
  storeVirt s c (scalarAddr s c a b) n ((readS s c d.toNat).toNat % 2 ^ (8 * n))

/-- Store of 8 bytes. -/
def opSaStB64 (_u : SUnit) (d a b : BitVec 6) := scalarStore d a b 8
/-- Store of 4 bytes. -/
def opSaStB32 (_u : SUnit) (d a b : BitVec 6) := scalarStore d a b 4
/-- Store of 2 bytes. -/
def opSaStB16 (_u : SUnit) (d a b : BitVec 6) := scalarStore d a b 2
/-- Store of 1 byte. -/
def opSaStB8 (_u : SUnit) (d a b : BitVec 6) := scalarStore d a b 1

/-! ### Floating point (R128, R129) -/

/-- A floating operation under FRM; under SR it takes one draw (R77). -/
def float2 (u : SUnit) (f : Fmt) (op : Fmt → RM → W64 → Nat → Nat → Nat × Cats) (d a b : BitVec 6) (bound : Nat) (c : Nat) (s : State) :
    Verdict :=
  let rm := readFrm s c
  let (v, ev) := op f rm ((readDraws s c).get 0) ((readS s c a.toNat).toNat % 2 ^ f.width) ((readS s c b.toNat).toNat % 2 ^ f.width)
  .issued (exposeS (useDraws s c (SUnit.slot u) 1 rm) c (SUnit.slot u) d.toNat (BitVec.ofNat 64 v) bound ev)

/-- FP64 sum. -/
def opSaFaddF64 (u : SUnit) (d a b : BitVec 6) := float2 u .f64 fadd d a b 4
/-- FP64 difference. -/
def opSaFsubF64 (u : SUnit) (d a b : BitVec 6) := float2 u .f64 fsub d a b 4
/-- FP64 product. -/
def opSaFmulF64 (u : SUnit) (d a b : BitVec 6) := float2 u .f64 fmul d a b 4
/-- FP64 quotient. -/
def opSaFdivF64 (u : SUnit) (d a b : BitVec 6) := float2 u .f64 fdiv d a b 20
/-- FP32 sum. -/
def opSaFaddF32 (u : SUnit) (d a b : BitVec 6) := float2 u .f32 fadd d a b 4
/-- FP32 difference. -/
def opSaFsubF32 (u : SUnit) (d a b : BitVec 6) := float2 u .f32 fsub d a b 4
/-- FP32 product. -/
def opSaFmulF32 (u : SUnit) (d a b : BitVec 6) := float2 u .f32 fmul d a b 4
/-- FP32 quotient. -/
def opSaFdivF32 (u : SUnit) (d a b : BitVec 6) := float2 u .f32 fdiv d a b 12

/-- A conversion (R129); under SR it takes its draw always, also where it is exact (DESIGN CHOICE, log entry 64): integer results are sign-extended, floating results zero-extended. -/
def opSaFcvt (u : SUnit) (d a : BitVec 6) (f t rn : BitVec 3) (c : Nat) (s : State) : Verdict :=
  let src := Fmt.ofCode f.toNat
  let dst := Fmt.ofCode t.toNat
  let rm := if rn = 5 then readFrm s c else RM.ofCode rn.toNat
  let (v, ev) := fconvert src dst rm false ((readDraws s c).get 0) ((readS s c a.toNat).toNat % 2 ^ src.width)
  let r := if dst.isInt then BitVec.ofInt 64 (signedOf dst.width v) else BitVec.ofNat 64 v
  .issued (exposeS (useDraws s c (SUnit.slot u) 1 rm) c (SUnit.slot u) d.toNat r 3 ev)

/-! ### System registers (R120-R122) -/

/-- Registers that only K level may read. -/
def sysKRead (n : Nat) : Bool := decide (0x040 ≤ n) && decide (n ≤ 0x046)
/-- Registers that only K level may write. -/
def sysKWrite (n : Nat) : Bool := n == 0x003 || sysKRead n

/-- What a write of `v` to a register stores: reserved bits 0 (R121), and the correction of FRM (R69). -/
def sysStore (n : Nat) (v : W64) : W64 :=
  match n with
  | 0x000 => if 5 ≤ v.toNat % 8 then 0 else v &&& 7
  | 0x003 => v &&& 0xFFFFFFFF
  | 0x040 => v &&& 0xFFF0000000FFF800
  | 0x041 => v &&& 0xFFF0000000FFFFE0
  | 0x042 => v &&& 0x1F
  | 0x044 => v &&& 3
  | _ => v

/-- `mfsr` (R122). -/
def opSaMfsr (u : SUnit) (d : BitVec 6) (n : BitVec 12) (c : Nat) (s : State) : Verdict :=
  if sysKRead n.toNat && !(s.ctx c).kLevel then .trap 3 (n.setWidth 64)
  else .issued (exposeS s c (SUnit.slot u) d.toNat (readSys s c n.toNat) 1 0)

/-- `mtsr` (R122); in an auditable task a write of FRM is ignored (R384). -/
def opSaMtsr (u : SUnit) (a : BitVec 6) (n : BitVec 12) (c : Nat) (s : State) : Verdict :=
  let v := readS s c a.toNat
  if sysKWrite n.toNat && !(s.ctx c).kLevel then .trap 3 (n.setWidth 64)
  else if n.toNat = 0 ∧ (s.task (s.ctx c).tid).aud = true then .issued s
  else if 0x008 ≤ n.toNat ∧ n.toNat ≤ 0x00B then .issued (expose s c (SUnit.slot u) (.lc (n.toNat - 8)) (v.toNat % 2 ^ 32) 1 0)
  else .issued (expose s c (SUnit.slot u) (.sys n.toNat) (sysStore n.toNat v).toNat 1 0)

/-- Is the context the matrix owner of its core (R26)? -/
def isOwner (s : State) (c : Nat) : Bool := (s.core (coreOf c)).owner == some c

/-- TYPE of a tile shape (R133). -/
def tsType (v : W64) : Nat := v.toNat / 2 ^ 16 % 16
/-- RB of a tile shape. -/
def tsRb (v : W64) : Nat := v.toNat / 2 ^ 8 % 128
/-- ROWS of a tile shape. -/
def tsRows (v : W64) : Nat := v.toNat % 64

/-- A value that a tile shape may take (R133). -/
def shapeOk (v : W64) : Bool :=
  (v &&& 0xFFFFFFFFFFF080C0 == 0) && decide (tsType v ≤ 9) && decide (1 ≤ tsRb v) && decide (tsRb v ≤ 64) &&
  decide (1 ≤ tsRows v) && decide (tsRows v ≤ 32)

/-- The tile-shape write (R133); a context that is not the owner traps with NOTOWNER also where the value is illegal (DEDUCED, log entry 65). -/
def opSaTshape (u : SUnit) (t : BitVec 4) (a : BitVec 6) (c : Nat) (s : State) : Verdict :=
  let v := readS s c a.toNat
  if !isOwner s c then .trap 4 (BitVec.ofNat 64 (SUnit.slot u))
  else if !shapeOk v then .trap 5 v
  else .issued (expose s c (SUnit.slot u) (.ts t.toNat) v.toNat 1 0)

end Sys2Proof.Machine
end

