-- ==== Sys2Proof/Machine/Control.lean ====
section
/-! DEFINITION. The control engine BR (05_control.md R134-R152): branches, loops, waits, barriers, the predicate load, early trigger and
exit, system calls and trap return, containment regions, and the first-event clear; and the NOP of every slot (02_bundle.md R37). -/

namespace Sys2Proof.Machine

/-- A NOP has no effect (R37). -/
def opNop (_c : Nat) (s : State) : Verdict := .issued s

/-- What the bundle does after it has issued. -/
def setNext (s : State) (c : Nat) (n : Next) : State := s.modCtx c (fun x => { x with nxt := n })

/-- The target of a branch offset in bundles (R36, R134). -/
def branchTarget (pc : Nat) (o : Int) : Nat := ((pc : Int) + 32 * o).toNat

/-- Bubbles of a taken BT or BL branch (R136): none when its guard and lc were settled two cycles ago. -/
def branchBubbles (s : State) (c : Nat) (g : Guard) (lc : Option Nat) : Nat :=
  let x := s.ctx c
  if x.settled (.p g.p.toNat) && (match lc with | none => true | some l => x.settled (.lc l)) then 0 else 1

/-- A taken branch, or FETCH when its target lies at or beyond the image's end (R36). -/
def jumpTo (s : State) (c target bubbles : Nat) : Verdict :=
  if s.imageLen (s.ctx c).handle ≤ target then .trap 9 (BitVec.ofNat 64 target)
  else .issued (setNext s c (.jump target bubbles))

/-- `br.jmp` (R134). -/
def opBrJmp (g : Guard) (o : BitVec 21) (c : Nat) (s : State) : Verdict :=
  jumpTo s c (branchTarget (s.ctx c).pc o.toInt) (branchBubbles s c g none)

/-- `br.call` (R134): s62 := PC + 32, bound 1. -/
def opBrCall (g : Guard) (o : BitVec 21) (c : Nat) (s : State) : Verdict :=
  match jumpTo s c (branchTarget (s.ctx c).pc o.toInt) (branchBubbles s c g none) with
  | .issued s' => .issued (exposeS s' c 0 62 (BitVec.ofNat 64 ((s.ctx c).pc + 32)) 1 0)
  | v => v

/-- A register target: bits [23:0] with bits [4:0] cleared (R36, R134). -/
def regTarget (v : W64) : Nat := v.toNat % 2 ^ 24 / 32 * 32

/-- `br.jmpr` (R134): the next bundle issues two bubbles later (R136). -/
def opBrJmpr (a : BitVec 6) (c : Nat) (s : State) : Verdict := jumpTo s c (regTarget (readS s c a.toNat)) 2

/-- `br.ret` (R134). -/
def opBrRet (c : Nat) (s : State) : Verdict := jumpTo s c (regTarget (readS s c 62)) 2

/-- `br.lset` (R135). -/
def opBrLset (l : BitVec 2) (a : BitVec 6) (c : Nat) (s : State) : Verdict :=
  .issued (expose s c 0 (.lc l.toNat) ((readS s c a.toNat).toNat % 2 ^ 32) 1 0)

/-- `br.loop` (R135). -/
def opBrLoop (g : Guard) (l : BitVec 2) (o : BitVec 19) (c : Nat) (s : State) : Verdict :=
  let v := (readLc s c l.toNat).toNat
  if 1 < v then
    match jumpTo s c (branchTarget (s.ctx c).pc o.toInt) (branchBubbles s c g (some l.toNat)) with
    | .issued s => .issued (expose s c 0 (.lc l.toNat) (v - 1) 1 0)
    | w => w
  else .issued (expose s c 0 (.lc l.toNat) 0 1 0)

/-- `br.delay` (R38): the context holds issue for n cycles, this one included; an interrupted delay goes on with what remains. -/
def opBrDelay (n : BitVec 16) (c : Nat) (s : State) : Verdict :=
  .issued (setNext s c (.delay ((s.ctx c).due.getD n.toNat - 1)))

/-- `br.waita` (R137). The bundle freezes when it first reaches issue; the test is performed in a later cycle, at the home L2 or the owning
slice, and a failing one registers its watch at that point; in a later cycle still its value returns, and the bundle issues or blocks. Its registers
are read in the cycle of the test (DESIGN CHOICE, log entry 78). -/
def opBrWaita (a b : BitVec 6) (cd : BitVec 3) (c : Nat) (s : State) : Verdict :=
  match (s.ctx c).test with
  | some true => .issued s
  | some false => .block .address .none
  | none =>
    match loadVirt s c (readS s c a.toNat).toNat 8 true with
    | .stop v => v
    | .val w line s' =>
      if (s.ctx c).frz = 0 then .stall
      else
        let ok := condInt cd.toNat (BitVec.ofNat 64 w) (readS s c b.toNat)
        .testing (s'.modCtx c (fun x => { x with test := some ok, watch := if ok then x.watch else some line }))

/-- `br.tokw` (R139): later accesses follow the effects of the token's producer (04_memory.md R114). -/
def opBrTokw (k : BitVec 5) (c : Nat) (s : State) : Verdict :=
  if (s.ctx c).tokPending k.toNat then .block (.token k.toNat) .none
  else .issued (s.raise (.core (coreOf c)) (SMap.get 0 (s.ctx c).tokTs k.toNat))

/-- `br.bar` (R140): a group of one never waits; a member whose generation has completed passes. -/
def opBrBar (a : BitVec 6) (c : Nat) (s : State) : Verdict :=
  let v := readS s c a.toNat
  let x := s.ctx c
  let ws := (s.task x.tid).words
  let i := v.toNat
  if 7 < i || levels ws ≤ i || lvDom ws i == 5 then .trap 14 v
  else if x.barPass = some i then .issued (s.modCtx c (fun y => { y with barPass := none }))
  else if sizeBelow ws (i + 1) = 1 then .issued s
  else .block .barrier (.arrive i)

/-- `br.pload` (R142): p8 to p15 take the low byte of a word. -/
def opBrPload (a : BitVec 6) (c : Nat) (s : State) : Verdict :=
  match loadVirt s c (readS s c a.toNat).toNat 8 false with
  | .stop v => v
  | .val w _ s => .issued ((List.range 8).foldl (fun s j => exposeP s c 0 (8 + j) (w.testBit j) 2) s)

/-- `br.early` (R143); the context's stores come first (R31). -/
def opBrEarly (c : Nat) (s : State) : Verdict := .issued (earlyTrigger s c)

/-- `br.exit` (R143): the exit takes effect after the whole bundle has issued. -/
def opBrExit (c : Nat) (s : State) : Verdict := .issued (setNext s c .exit)

/-- `br.sys` (R145): the bundle issues, and the context then traps with cause SYS. -/
def opBrSys (n : BitVec 15) (c : Nat) (s : State) : Verdict := .issued (setNext s c (.trap 1 (n.setWidth 64)))

/-- `br.brk` (R145). -/
def opBrBrk (n : BitVec 15) (c : Nat) (s : State) : Verdict := .issued (setNext s c (.trap 2 (n.setWidth 64)))

/-- `br.tret` (R148): PRIV at U level, FETCH for a TPC outside its image. -/
def opBrTret (c : Nat) (s : State) : Verdict :=
  let x := s.ctx c
  let tpc := readSys s c 0x041
  let h := (tpc >>> 52).toNat
  let p := tpc.toNat % 2 ^ 24 / 32 * 32
  if !x.kLevel then .trap 3 0
  else if s.imageLen h ≤ p then .trap 9 (BitVec.ofNat 64 p)
  else .issued (setNext s c (.ret h p 2))

/-- `br.crgn.open` (R150): the handler is a place of this image, and keeps the level. -/
def opBrCrgnOpen (o : BitVec 21) (c : Nat) (s : State) : Verdict :=
  let x := s.ctx c
  if x.sysReg 0x048 = 4 then .trap 12 4
  else .issued (setNext s c (.openRegion (place x.handle (branchTarget x.pc o.toInt) ||| (if x.kLevel then (1#64 <<< 51) else 0))))

/-- `br.crgn.close` (R150). -/
def opBrCrgnClose (c : Nat) (s : State) : Verdict :=
  if (s.ctx c).sysReg 0x048 = 0 then .trap 12 0 else .issued (setNext s c .closeRegion)

/-- `br.fevclr` (R152). -/
def opBrFevclr (c : Nat) (s : State) : Verdict := .issued (setNext s c .clearLog)

end Sys2Proof.Machine
end

