-- ==== Sys2Proof/Machine/Scratch.lean ====
section
/-! DEFINITION. The scratchpad engine LD (06_scratchpad.md R153-R164) with the order of scratchpad accesses, tag modes and the tile bank lock
(04_memory.md R106-R111), and the busy-bit scoreboard that the tile forms share with the matrix engine (09_matrix.md R212-R216). -/

namespace Sys2Proof.Machine

/-- Words of a scratchpad (R153). -/
def spWords : Nat := 393216

/-- Is a place of a core's stores poisoned (R376)? -/
def Core.bad (g : Core) (space place : Nat) : Bool := SMap.get false g.poison (poisonKey space place)

/-- The address of a poison report that is not virtual (R379). -/
def localAddr (space core loc : Nat) : W64 := BitVec.ofNat 64 (2 ^ 63 + space * 2 ^ 60 + core * 2 ^ 32 + loc % 2 ^ 22)

/-- Is a line diagonal (R154)? -/
def Core.isDiag (g : Core) (line : Nat) : Bool := g.diag.any (fun p => decide (p.1 ≤ line) && decide (line < p.1 + p.2))

/-- The bank of a scratchpad word (R153). -/
def Core.bank (g : Core) (w : Nat) : Nat :=
  if g.isDiag (w / 96) then (w % 96 + 3 * (w / 96)) % 96 else w % 96

/-- SPWB.BASE (R155). -/
def Context.spBase (x : Context) : Nat := (x.sysReg 0x030).toNat % 2 ^ 22
/-- SPWS.LINES. -/
def Context.spLines (x : Context) : Nat := (x.sysReg 0x031).toNat % 2 ^ 13
/-- SPWS.DLINES. -/
def Context.spDlines (x : Context) : Nat := (x.sysReg 0x031).toNat / 2 ^ 16 % 2 ^ 13

/-- The word that a raw address names after the window wrap (R156); LINES is not 0. -/
def Context.wrapWord (x : Context) (a : Nat) : Nat :=
  (x.spBase + (((a / 8 * 8 : Nat) : Int) - (x.spBase : Int)).emod (768 * x.spLines)|>.toNat) / 8

/-- The largest number of words in one bank (R158). -/
def maxSame (l : List Nat) : Nat := l.foldl (fun m x => max m (l.count x)) 0

/-- The banks of words serve an access in the present cycle (R157). -/
def Core.use (g : Core) (ws : List Nat) : Core :=
  { g with used := ws.foldl (fun l w => if l.contains (g.bank w) then l else g.bank w :: l) g.used }

/-- Has the bank of one of the words served an agent that comes first in the present cycle (R157)? -/
def Core.taken (g : Core) (ws : List Nat) : Bool := ws.any (fun w => g.used.contains (g.bank w))

/-- The banks that tile commands hold locked (R111). -/
def Core.locked (g : Core) (banks : List Nat) : Bool := g.tcmds.any (fun t => banks.any (fun b => t.banks.contains b))

/-- Do the tags of the words meet a tag mode (R108)? -/
def Core.tagsMeet (g : Core) (mode : Nat) (ws : List Nat) : Bool :=
  match mode with
  | 0 => true
  | 3 => ws.all (fun w => !SMap.get false g.tag w)
  | _ => ws.all (fun w => SMap.get false g.tag w)

/-- The tag change of a mode (R108, R109). -/
def Core.tagAfter (g : Core) (mode : Nat) (ws : List Nat) : Core :=
  match mode with
  | 2 => g.setTags ws false
  | 3 => g.setTags ws true
  | _ => g

/-- What an access to words of the scratchpad waits for (R108, R111, R158): the bank cycles to spend before issue, none when it may go.
They begin when no bank is locked and the tags meet the mode, and both are tested again at the issue cycle. -/
def accessWait (g : Core) (mode spent extra : Nat) (ws : List Nat) : Option Nat :=
  if spent ≠ 0 ∧ spent < extra then some (spent + 1)
  else if g.locked (ws.map g.bank) || !g.tagsMeet mode ws then some 0
  else if spent < extra then some (spent + 1)
  else none

/-- The raw addresses of the words of an LA form (R160): base = s[sb] + unit * offset modulo 2^22, word j `step` bytes apart. -/
def laAddrs (s : State) (c : Nat) (b : BitVec 6) (o : BitVec 7) (unit step n : Nat) : List Nat :=
  let base := ((readS s c b.toNat).toNat + unit * o.toNat) % 2 ^ 22
  (List.range n).map (fun j => base + step * j)

/-- A scratchpad read of words: poison in any of them is consumed (R377), else the words' values. -/
def readWords (g : Core) (gn : Nat) (ws : List Nat) : Except W64 (List W64) :=
  match ws.find? (fun w => g.bad 1 w) with
  | some w => .error (localAddr 1 gn (8 * w))
  | none => .ok (ws.map (fun w => SMap.get 0 g.sp w))

/-- An LA load of `n` words (R160): `put` exposes the result. -/
def laLoad (addrs : List Nat) (m : BitVec 2) (c : Nat) (s : State) (put : State → List W64 → State) : Verdict :=
  let x := s.ctx c
  let g := s.core (coreOf c)
  if x.spLines = 0 then .issued (put s (addrs.map (fun _ => 0)))
  else
    let ws := addrs.map x.wrapWord
    match accessWait g m.toNat x.spent (maxSame (ws.map g.bank) - 1) ws with
    | some n => .freeze n
    | none => match readWords g (coreOf c) ws with
      | .error a => .poison a true
      | .ok vs => .issued (put (s.setCore (coreOf c) ((g.tagAfter m.toNat ws).use ws)) vs)

/-- The tag that a mode leaves (R108); none where it is unchanged. -/
def modeTag (mode : Nat) : Option Bool :=
  match mode with
  | 2 => some false
  | 3 => some true
  | _ => none

/-- An LA store of words (R160): a plain write is performed within 2 cycles, a tagged one with its tags as its bundle issues (R107, R109). -/
def laStore (addrs : List Nat) (vals : List W64) (m : BitVec 2) (c : Nat) (s : State) : Verdict :=
  let x := s.ctx c
  let g := s.core (coreOf c)
  if x.spLines = 0 then .issued s
  else
    let ws := addrs.map x.wrapWord
    match accessWait g m.toNat x.spent (maxSame (ws.map g.bank) - 1) ws with
    | some n => .freeze n
    | none =>
      let new := (ws.zip vals).map (fun p => (⟨p.1, p.2, modeTag m.toNat, 0, if m = 0 then 2 else 0⟩ : SpWrite))
      .issued (s.setCore (coreOf c) { g.use ws with spw := g.spw ++ new })

/-- Words of 64 bits to a vector, the first lowest (R160). -/
def wordsVec (l : List W64) : Vec := BitVec.ofNat 2048 (packLanes 64 (l.map (fun w => w.toNat)))
/-- The 32 words of a vector. -/
def vecWords (v : Vec) : List W64 := (List.range 32).map (fun j => v.extractLsb' (64 * j) 64)

/-- `ld.w` (R160). -/
def opLdW (d b : BitVec 6) (m : BitVec 2) (o : BitVec 7) (c : Nat) (s : State) : Verdict :=
  laLoad (laAddrs s c b o 8 8 1) m c s (fun s vs => exposeS s c 3 d.toNat (wordAt vs 0) 3 0)
/-- `st.w` (R160). -/
def opStW (d b : BitVec 6) (m : BitVec 2) (o : BitVec 7) (c : Nat) (s : State) : Verdict :=
  laStore (laAddrs s c b o 8 8 1) [readS s c d.toNat] m c s
/-- `ld.row` (R160). -/
def opLdRow (d b : BitVec 6) (m : BitVec 2) (o : BitVec 7) (c : Nat) (s : State) : Verdict :=
  laLoad (laAddrs s c b o 256 8 32) m c s (fun s vs => exposeV s c 3 d.toNat (wordsVec vs) 4 0)
/-- `st.row` (R160). -/
def opStRow (d b : BitVec 6) (m : BitVec 2) (o : BitVec 7) (c : Nat) (s : State) : Verdict :=
  laStore (laAddrs s c b o 256 8 32) (vecWords (readV s c d.toNat)) m c s
/-- `ld.col` (R160). -/
def opLdCol (d b : BitVec 6) (m : BitVec 2) (o : BitVec 7) (c : Nat) (s : State) : Verdict :=
  laLoad (laAddrs s c b o 8 768 32) m c s (fun s vs => exposeV s c 3 d.toNat (wordsVec vs) 4 0)
/-- `st.col` (R160). -/
def opStCol (d b : BitVec 6) (m : BitVec 2) (o : BitVec 7) (c : Nat) (s : State) : Verdict :=
  laStore (laAddrs s c b o 8 768 32) (vecWords (readV s c d.toNat)) m c s

/-- The k-th pending scratchpad write is performed now (R107). -/
def Core.performSp (g : Core) (k : Nat) : Core :=
  match g.spw[k]? with
  | none => g
  | some w => { g.performWrite w with spw := (g.spw.take k).filter (fun y => y.word != w.word) ++ g.spw.drop (k + 1) }

/-- Is a pending scratchpad write at its bound (R107)? -/
def SpWrite.due (w : SpWrite) : Bool := decide (w.bound ≤ w.age)

/-- The pending writes that are left after those at their bound: an earlier write of a word counts as performed before a later one. -/
def spRest : List SpWrite → List SpWrite
  | [] => []
  | w :: r => if w.due || r.any (fun y => y.due && y.word == w.word) then spRest r else { w with age := w.age + 1 } :: spRest r

/-- The end of a cycle for the pending scratchpad writes: those at their bound are performed, in issue order. -/
def Core.tickSp (g : Core) : Core :=
  let due := g.spw.filter SpWrite.due
  let rest := spRest g.spw
  if g.spw.isEmpty then g else { due.foldl Core.performWrite g with spw := rest }

/-! ### The busy-bit scoreboard and the accumulator write port (R212-R216) -/

/-- Is a resource write-busy? -/
def Core.writeBusy (g : Core) (r : Res) : Bool :=
  g.busy.any (fun b => b.res = r && b.write) || g.latqs.any (fun o => r = .latch o.lat) ||
  g.wins.any (fun w => match r with | .row n => decide (w.row ≤ n) && decide (n < w.row + w.rows) | _ => false)

/-- The FP32-view rows of an `accq` that are still to be read. -/
def AccqOp.covers (o : AccqOp) (n : Nat) : Bool :=
  if o.two then decide ((n / 2 + 2048 - o.row) % 2048 < o.left) else decide ((n + 4096 - o.row) % 4096 < o.left)

/-- Is a resource read-busy, or a port busy? -/
def Core.readBusy (g : Core) (r : Res) : Bool :=
  g.busy.any (fun b => b.res = r && !b.write) ||
  (match r with
   | .pop => !g.latqs.isEmpty
   | .push => !g.accqs.isEmpty
   | .row n => g.accqs.any (fun o => o.covers n)
   | _ => false)

/-- May an instruction with these sources, destinations and ports issue (R212)? -/
def Core.free (g : Core) (src dst ports : List Res) : Bool :=
  !src.any g.writeBusy && !dst.any (fun r => g.writeBusy r || g.readBusy r) && !ports.any g.readBusy

/-- Mark resources busy for `left` cycles. -/
def Core.mark (g : Core) (rs : List Res) (write : Bool) (left : Nat) : Core :=
  { g with busy := g.busy ++ rs.map (fun r => ⟨r, write, left⟩) }

/-- The cycles that a chunk of words takes: its largest number of words in one bank (R163). -/
def chunkCycles (g : Core) (ws : List Nat) : Nat := maxSame (ws.map g.bank)

/-- N of a region: the sum over its chunks of 32 words (R163), also where one that does not wrap crosses between diagonal and linear lines (DESIGN
CHOICE, log entry 81). -/
def regionCycles (g : Core) (ws : List Nat) : Nat → Nat
  | 0 => 0
  | n + 1 => if ws.isEmpty then 0 else chunkCycles g (ws.take 32) + regionCycles g (ws.drop 32) n

/-- The cycles ahead that `mma`, `accz` and `ld.acc` have claimed on the accumulator write port (R214). -/
def Core.claims (g : Core) : List Nat :=
  g.rows.map (fun r => r.left) ++ (g.tcmds.filter (fun t => t.load && t.acc)).flatMap (fun t =>
    List.range (t.chunk + regionCycles g ((t.words.drop 32).map Prod.snd) (t.words.length / 32 + 1)))

/-- The cycles ahead of a window's remaining cycles (R215). -/
def Window.cycles (w : Window) : List Nat :=
  if w.start = 0 then List.range ((w.rows + 1) / 2 + 1 - w.next) else (List.range ((w.rows + 1) / 2)).map (fun j => w.start + j)

/-- The first of the claimed cycles that meets a registered window: the window's index and the cycle (R216). The index is the window's place among
those still registered, the oldest first (DESIGN CHOICE, log entry 72). -/
def Core.meetsWindow (g : Core) (cs : List Nat) : Option (Nat × Nat) :=
  let hit := cs.filterMap (fun t => match g.wins.findIdx? (fun w => w.cycles.contains t) with | some i => some (i, t) | none => none)
  hit.foldl (fun best p => match best with | none => some p | some q => if p.2 < q.2 then some p else some q) none

/-- TINFO of SCHEDV (R216). -/
def schedInfo (kind win off : Nat) : W64 := BitVec.ofNat 64 (kind * 2 ^ 36 + win * 2 ^ 32 + off % 2 ^ 32)

/-- What the port claims of an instruction come to: a freeze while they meet claimed cycles, SCHEDV when they meet a window. -/
def portCheck (g : Core) (kind : Nat) (cs : List Nat) : Option Verdict :=
  if cs.any (fun t => g.claims.contains t) then some .stall
  else match g.meetsWindow cs with
    | some (i, t) => some (.trap 6 (schedInfo kind i t))
    | none => none

/-! ### Tile commands (R161-R163) -/

/-- A tile command over a region (R163): the region's raw base, the places in tile or accumulator, its resources. In a window of no lines
(R156) its words stand beyond the scratchpad's end: they lock no bank, read as 0 and are discarded, and it takes the time of a region that
does not wrap (DEDUCED, log entry 66). -/
def tileCmd (load acc : Bool) (base : Nat) (places : List Nat) (res : List Res) (m : BitVec 2) (c : Nat) (s : State) : Verdict :=
  let x := s.ctx c
  let gn := coreOf c
  let g := s.core gn
  if !isOwner s c then .trap 4 3
  else
    let ws := (List.range places.length).map (fun j => if x.spLines = 0 then spWords + j else x.wrapWord (base + 8 * j))
    let own := if x.spLines = 0 then [] else ws
    let banks := (own.map g.bank).eraseDups
    let N := regionCycles g ws (places.length / 32 + 1)
    if g.locked banks || !g.tagsMeet m.toNat own || !g.free [] res [] then .stall
    else match (if load && acc then portCheck g 3 ((List.range N).map (fun i => i + 1)) else none) with
      | some v => v
      | none =>
        let g := (g.tagAfter m.toNat own).mark res load (N + 2)
        .issued (s.setCore gn { g with tcmds := g.tcmds ++ [⟨load, acc, places.zip ws, chunkCycles g (ws.take 32) + 1, banks, x.tid⟩] })

/-- The places of a tile's shape in the tile registers: 64 words a row (R161, R209). -/
def tilePlaces (t : Nat) (shape : W64) : List Nat :=
  (List.range (tsRows shape)).flatMap (fun i => (List.range (tsRb shape)).map (fun k => t * 2048 + i * 64 + k))

/-- A tile shape as an instruction of the bundle copies it (R133). -/
def readTs (s : State) (c n : Nat) : W64 := SMap.get tsReset (s.core (coreOf c)).ts n

/-- `ld.tile` (R161). -/
def opLdTile (t : BitVec 4) (b : BitVec 6) (m : BitVec 2) (c : Nat) (s : State) : Verdict :=
  tileCmd true false (readS s c b.toNat).toNat (tilePlaces t.toNat (readTs s c t.toNat)) [.tile t.toNat] m c s
/-- `st.tile` (R161). -/
def opStTile (t : BitVec 4) (b : BitVec 6) (m : BitVec 2) (c : Nat) (s : State) : Verdict :=
  tileCmd false false (readS s c b.toNat).toNat (tilePlaces t.toNat (readTs s c t.toNat)) [.tile t.toNat] m c s

/-- The rows of an accumulator command, modulo 4,096 (R162). -/
def accRows (row n : Nat) : List Nat := (List.range n).map (fun i => (row + i) % 4096)
/-- Their 64-bit places: 16 a row. -/
def accPlaces (row n : Nat) : List Nat := (accRows row n).flatMap (fun r => (List.range 16).map (fun k => r * 16 + k))

/-- `ld.acc` (R162). -/
def opLdAcc (r b : BitVec 6) (m : BitVec 2) (n : BitVec 7) (c : Nat) (s : State) : Verdict :=
  let row := (readS s c r.toNat).toNat % 4096
  tileCmd true true (readS s c b.toNat).toNat (accPlaces row (n.toNat + 1)) ((accRows row (n.toNat + 1)).map .row) m c s
/-- `st.acc` (R162). -/
def opStAcc (r b : BitVec 6) (m : BitVec 2) (n : BitVec 7) (c : Nat) (s : State) : Verdict :=
  let row := (readS s c r.toNat).toNat % 4096
  tileCmd false true (readS s c b.toNat).toNat (accPlaces row (n.toNat + 1)) ((accRows row (n.toNat + 1)).map .row) m c s

/-- One word of a tile command is moved, with its poison (R161, R162, R377). -/
def Core.moveWord (g : Core) (t : TileCmd) (p : Nat × Nat) : Core :=
  if t.load then
    let v := if spWords ≤ p.2 then 0 else SMap.get 0 g.sp p.2
    let b := g.bad 1 p.2 && decide (p.2 < spWords)
    if t.acc then
      let g := (g.setBad 4 (2 * p.1) b).setBad 4 (2 * p.1 + 1) b
      { g with acc := SMap.set 0 (SMap.set 0 g.acc (2 * p.1) (v.toNat % 2 ^ 32)) (2 * p.1 + 1) (v.toNat / 2 ^ 32) }
    else { g.setBad 2 p.1 b with tile := SMap.set 0 g.tile p.1 v }
  else
    let v := if t.acc then BitVec.ofNat 64 (SMap.get 0 g.acc (2 * p.1) + 2 ^ 32 * SMap.get 0 g.acc (2 * p.1 + 1))
             else SMap.get 0 g.tile p.1
    let b := if t.acc then g.bad 4 (2 * p.1) || g.bad 4 (2 * p.1 + 1) else g.bad 2 p.1
    if spWords ≤ p.2 then g else { g.setBad 1 p.2 b with sp := SMap.set 0 g.sp p.2 v }

/-- A cycle of a tile command: its present chunk goes on, or is moved and the next begins; none when its last word is performed. All words of a chunk
are performed in its last cycle (DESIGN CHOICE, log entry 81). -/
def Core.stepTile (g : Core) (t : TileCmd) : Core × Option TileCmd :=
  if 1 < t.chunk then (g, some { t with chunk := t.chunk - 1 })
  else
    let g := (t.words.take 32).foldl (fun g p => g.moveWord t p) g
    let rest := t.words.drop 32
    if rest.isEmpty then (g, none) else (g, some { t with words := rest, chunk := chunkCycles g ((rest.take 32).map Prod.snd) })

/-- The end of a cycle for the tile commands. -/
def Core.tickTiles (g : Core) : Core :=
  if g.tcmds.isEmpty then g
  else
    let (g', ts) := g.tcmds.foldl (fun (p : Core × List TileCmd) t =>
      match p.1.stepTile t with | (h, some t') => (h, p.2 ++ [t']) | (h, none) => (h, p.2)) (g, [])
    { g' with tcmds := ts }

/-- The k-th tile command, in the last cycle of its last chunk, performs its last words, and its lock falls (R163). -/
def Core.finishTile (g : Core) (k : Nat) : Core :=
  match g.tcmds[k]? with
  | none => g
  | some t => if 1 < t.chunk ∨ 32 < t.words.length then g else { t.words.foldl (fun g p => g.moveWord t p) g with tcmds := g.tcmds.eraseIdx k }

/-! ### Tag set (R164) -/

/-- `ld.tagset` (R164). Its frozen cycles begin, like those of R158, when no bank of its words is locked, and begin again where a lock is met when it
would issue (DESIGN CHOICE, log entry 75). -/
def tagset (full : Bool) (b n : BitVec 6) (c : Nat) (s : State) : Verdict :=
  let x := s.ctx c
  let g := s.core (coreOf c)
  let k := min (readS s c n.toNat).toNat 4096
  let ws := if x.spLines = 0 then [] else (List.range k).map (fun j => x.wrapWord ((readS s c b.toNat).toNat + 8 * j))
  match accessWait g 0 x.spent ((k + 255) / 256 - 1) ws with
  | some m => .freeze m
  | none => .issued (s.setCore (coreOf c) (g.setTags ws full))

/-- `ld.tagset.full` (R164). -/
def opLdTagsetFull (b n : BitVec 6) := tagset true b n
/-- `ld.tagset.empty` (R164). -/
def opLdTagsetEmpty (b n : BitVec 6) := tagset false b n

end Sys2Proof.Machine
end

