-- ==== Sys2Proof/Machine/QueueOps.lean ====
section
/-! DEFINITION. The inter-engine queues (07_vector.md R183-R185, 03_numbers.md R67, R68, R79-R82, 08_trellis.md R198): push, pop with
conversion and calibration, side values. -/

namespace Sys2Proof.Machine

/-- A queue of a core. -/
def Core.queue (g : Core) (q : Nat) : Queue := SMap.get Queue.init g.queues q
/-- Replace a queue. -/
def Core.setQueue (g : Core) (q : Nat) (x : Queue) : Core := { g with queues := SMap.set Queue.init g.queues q x }

/-- NSIDE: the next push is a side entry (R183, R245). -/
def Queue.nside (q : Queue) : Bool := q.side && q.rowLeft == 0

/-- The queue has no room in this cycle: an entry popped now frees its slot for the next cycle (R185). -/
def Queue.full (q : Queue) : Bool := decide (16 ≤ q.entries.length + q.freed)

/-- Append an entry (R183, R184): a push that is due as a side entry is one; the row counter moves on. -/
def Queue.push (q : Queue) (v : Vec) (bad : Bool) : Queue :=
  { q with entries := q.entries ++ [⟨v, q.nside, false, false, 0, bad, true⟩]
           rowLeft := if q.side then (if q.rowLeft = 0 then q.rown else q.rowLeft - 1) else q.rowLeft }

/-- Append an entry that Mace pushes, always a data entry (R198). -/
def Queue.pushMace (q : Queue) (v : Vec) (f4 : Bool) (out : Nat) (bad : Bool) : Queue :=
  { q with entries := q.entries ++ [⟨v, false, true, f4, out, bad, true⟩]
           rowLeft := if q.side then q.rowLeft - 1 else q.rowLeft }

/-- The entries that a pop of this cycle sees: pushed in an earlier cycle (R185). -/
def Queue.seen (q : Queue) : List QEntry := q.entries.filter (fun e => !e.fresh)

/-- The oldest data entry, with the side entries before it: how many of those, the side value in force with its poison, and the entry. -/
def nextData : List QEntry → Nat → BitVec 32 × Bool → Option (Nat × (BitVec 32 × Bool) × QEntry)
  | [], _, _ => none
  | e :: r, n, sc => if e.side then nextData r (n + 1) (e.val.setWidth 32, e.poison) else some (n, sc, e)

/-- The oldest data entry that a pop of this cycle finds, and the side value in force for it. -/
def Queue.next (q : Queue) : Option (Nat × (BitVec 32 × Bool) × QEntry) := nextData q.seen 0 (q.scale, q.scaleBad)

/-- Is there a data entry to pop (R185)? -/
def Queue.hasData (q : Queue) : Bool := q.next.isSome

/-- QCAL's value 2^k (R82). -/
def Queue.calExp (q : Queue) : Int := q.cal.toInt

/-- One element on its way out of a queue: its exact value, the product of its own scales, whether its F4B8 block is invalid, and whether
that product met infinity times 0 (R68, R79). -/
structure Lane where
  x : Num
  sc : Num
  blk : Bool
  inv : Bool

/-- A lane that Mace pushed (R198). -/
def maceLane (w : Nat) (f4 : Bool) (out : Fmt) : Lane :=
  let hi := Fmt.decode .bf16 (w / 2 ^ 16)
  if f4 then
    let blk := w / 2 ^ 8 % 256
    let (p, i) := Num.mul (e3m5 blk) hi
    ⟨Fmt.decode .e2m1 (w % 16), p, blk == 255, i⟩
  else ⟨out.decode (w % 2 ^ 16), hi, false, false⟩

/-- What one element of a pop comes to: its code in the sink format, its categories, |u| in FP32 under RUP if u is no NaN, and whether its
conversion saturates or overflows (R79, R80). -/
structure Popped where
  code : Nat
  ev : Cats
  mag : Option Nat
  clip : Bool

/-- One element through the queue's arithmetic (R79): u := x * S, v := u * QCAL, converted once; an element of an invalid block is the
sink's NaN, or +0 (R68). S is formed first, from the entry's own scales and then the row's, and INV is recorded where a product of two of these steps
meets infinity and 0 (DESIGN CHOICE, log entry 79). -/
def popElem (q : Queue) (l : Lane) (dr : W64) : Popped :=
  let sink := Fmt.ofCode q.sink
  let row := if q.side then Fmt.decode .f32 q.scale.toNat else .fin false 1 0
  let (s1, i0) := Num.mul l.sc row
  let (u, i1) := Num.mul l.x s1
  let (v, i2) := Num.mul u (.fin false 1 q.calExp)
  let mag := match u with
    | .nan => none
    | u => some ((u.abs.pack .f32 .rup false 0).1)
  if l.blk then ⟨if sink.isInt || sink == .e2m1 then 0 else sink.nanCode, catBLK, none, false⟩
  else
    let (c, e) := v.pack sink (RM.ofCode q.rnd) q.sat dr
    ⟨c, e ||| invIf (l.inv || i0 || i1 || i2), mag, e &&& (catOVF ||| catSAT) != 0⟩

/-- The elements of an entry through the queue, element j with draw j under SR (R77). -/
def popList (q : Queue) (l : List Lane) (j : Nat) : List Popped :=
  match l with
  | [] => []
  | x :: r => popElem q x (draw q.key (q.ctr + BitVec.ofNat 64 j)) :: popList q r (j + 1)

/-- The elements that an entry delivers, in order (R183): 64, or 0 to 31 where FP64 is on exactly one side, or the sink of a Mace entry. -/
def entryElems (q : Queue) (e : QEntry) : List Lane :=
  let src := Fmt.ofCode q.src
  let sink := Fmt.ofCode q.sink
  if e.mace then
    let n := if sink = .f64 then 32 else 64
    (List.range n).map (fun i => maceLane (e.val.extractLsb' (32 * i) 32).toNat e.f4 (Fmt.ofCode e.out))
  else
    let n := if src = .f64 || sink = .f64 then 32 else 64
    (List.range n).map (fun i => ⟨src.decode (elem src e.val i), .fin false 1 0, false, false⟩)

/-- The larger of two FP32 magnitudes (R80). -/
def magMax (a : BitVec 32) (m : Option Nat) : BitVec 32 :=
  match m with
  | none => a
  | some x => if a.toNat < x then BitVec.ofNat 32 x else a

/-- Add 1 to QSAT, which stops at its end (R80). -/
def satInc (n : BitVec 32) (b : Bool) : BitVec 32 := if b && n != BitVec.allOnes 32 then n + 1 else n

/-- Remove the first `n` of the entries that this cycle's pops see. -/
def Queue.removeSeen (q : Queue) (n : Nat) : Queue := { q with entries := q.entries.drop n, freed := q.freed + n }

/-- Pop the oldest data entry (R79, R80, R183, R184): the popped elements, whether they are poisoned, by the entry or by the side value in force
(17_reliability.md R377), and the queue after it. -/
def Queue.pop (q : Queue) : Option (List Popped × Bool × Queue) :=
  match q.next with
  | none => none
  | some (n, sc, e) =>
    let q := { q with scale := sc.1, scaleBad := sc.2 }
    let ps := popList q (entryElems q e) 0
    let q := q.removeSeen (n + 1)
    let q := { q with
      amax := ps.foldl (fun a p => magMax a p.mag) q.amax
      nsat := ps.foldl (fun a p => satInc a p.clip) q.nsat
      ctr := if q.rnd = 4 then q.ctr + BitVec.ofNat 64 ps.length else q.ctr }
    some (ps, e.poison || (q.side && q.scaleBad), q)

/-- The categories of popped elements. -/
def poppedCats (ps : List Popped) : Cats := ps.foldl (fun a p => a ||| p.ev) 0

/-- Discard every entry (R244, R245): the next push is a side entry if the queue carries side values. -/
def Queue.flush (q : Queue) : Queue := { q with entries := [], rowLeft := 0, scale := 0x3F800000, scaleBad := false }

/-- QCFG as read (R245). -/
def Queue.cfg (q : Queue) : W64 :=
  BitVec.ofNat 64 (q.nside.toNat * 2 ^ 40 + q.entries.length * 2 ^ 32 + q.rown * 2 ^ 16 + q.side.toNat * 2 ^ 15 + q.sat.toNat * 2 ^ 14
    + q.rnd * 2 ^ 11 + q.sink * 2 ^ 4 + q.src)

/-- A write of QCFG with its corrections; a change of SIDE or ROWN flushes the queue (R245). -/
def Queue.setCfg (q : Queue) (v : W64) : Queue :=
  let n := v.toNat
  let src := n % 16
  let sink := n / 2 ^ 4 % 16
  let rnd := n / 2 ^ 11 % 8
  let side := v.getLsbD 15
  let rown := n / 2 ^ 16 % 256
  let rown' := if side && rown == 0 then 1 else rown
  let q' := { q with src := if 9 < src then 0 else src, sink := if 9 < sink then 0 else sink, rnd := if 4 < rnd then 0 else rnd,
                     sat := v.getLsbD 14, side := side, rown := rown' }
  if side != q.side || rown' != q.rown then q'.flush else q'

/-- A write of QCAL: -128 and -127 store -126 (R82). -/
def calStore (v : W64) : BitVec 8 :=
  let b := v.setWidth 8
  if b.toInt < -126 then BitVec.ofInt 8 (-126) else b

/-- The greatest k from -126 to 127 with m * 2^k at most `lim`, -126 if none; m and lim finite, m positive (R81, R182). -/
def greatestExp (m lim : Num) : Int :=
  let ks := (List.range 254).map (fun (i : Nat) => (i : Int) - 126)
  ks.foldl (fun best k => if Num.lt lim (Num.mul m (.fin false 1 k)).1 then best else k) (-126)

/-- The calibration step (R81): QCAL from QAMAX, when that is finite and not 0; QAMAX becomes 0. -/
def Queue.step (q : Queue) : Queue :=
  let sink := Fmt.ofCode q.sink
  let lim : Num := if sink.isInt then .fin false (sink.signBit - 1) 0 else sink.decode sink.maxCode
  if q.amax = 0 ∨ q.amax = 0x7F800000 then { q with amax := 0 }
  else { q with cal := BitVec.ofInt 8 (greatestExp (Fmt.decode .f32 q.amax.toNat) lim), amax := 0 }

/-- The end of a cycle: entries pushed in it are seen from the next, slots freed in it are free from the next (R185). -/
def Queue.tick (q : Queue) : Queue := { q with entries := q.entries.map (fun e => { e with fresh := false }), freed := 0 }

/-- The end of a cycle for the queues. -/
def Core.tickQueues (g : Core) : Core := { g with queues := g.queues.map (fun p => (p.1, p.2.tick)) }

end Sys2Proof.Machine
end

