-- ==== Sys2Proof/Machine/Vector.lean ====
section
/-! DEFINITION. The vector engine VX (07_vector.md R165-R188). -/

namespace Sys2Proof.Machine

/-- An element operation over two lists, with its index, and the categories it records. -/
def zipEv (f : Nat → Nat → Nat → Nat × Cats) : Nat → List Nat → List Nat → List Nat × Cats
  | i, x :: r, y :: t =>
    let (v, e) := f i x y
    let (vs, es) := zipEv f (i + 1) r t
    (v :: vs, e ||| es)
  | _, _, _ => ([], 0)

/-- An element operation over one list. -/
def mapEv (f : Nat → Nat → Nat × Cats) : Nat → List Nat → List Nat × Cats
  | i, x :: r =>
    let (v, e) := f i x
    let (vs, es) := mapEv f (i + 1) r
    (v :: vs, e ||| es)
  | _, [] => ([], 0)

/-- A wrapped integer result: IOVF outside the signed range of w bits (R169). -/
def intWrap (w : Nat) (v : Int) : Nat × Cats :=
  ((v.emod (2 ^ w)).toNat, iovfIf (decide (v < -(2 ^ (w - 1))) || decide (2 ^ (w - 1) - 1 < v)))

/-- Latency bound of an operation: 2 more for FP64 (R169). -/
def vBound (f : Fmt) (n : Nat) : Nat := if f = .f64 then n + 2 else n

/-- The shared operation of `add`, `sub`, `mul` (R169). -/
def vArith (fop : Fmt → RM → W64 → Nat → Nat → Nat × Cats) (iop : Int → Int → Int) (bound : Nat) (d a b : BitVec 6) (t : BitVec 3)
    (c : Nat) (s : State) : Verdict :=
  let f := Fmt.ofCode t.toNat
  let (va, vb, s) := readHeld2 s c a b
  let rm := readFrm s c
  let dr := readDraws s c
  let (vs, ev) := zipEv (fun i x y =>
    if f.isInt then intWrap f.width (iop (signedOf f.width x) (signedOf f.width y)) else fop f rm (dr.get i) x y) 0 (elems f va) (elems f vb)
  let s := if f.isInt then s else useDraws s c 4 f.lanes rm
  .issued (exposeV s c 4 d.toNat (ofElems f vs) (vBound f bound) ev)

/-- `vx.add`. -/
def opVxAdd (d a b : BitVec 6) (t : BitVec 3) := vArith fadd (fun x y => x + y) 2 d a b t
/-- `vx.sub`. -/
def opVxSub (d a b : BitVec 6) (t : BitVec 3) := vArith fsub (fun x y => x - y) 2 d a b t
/-- `vx.mul`. -/
def opVxMul (d a b : BitVec 6) (t : BitVec 3) := vArith fmul (fun x y => x * y) 3 d a b t

/-- Smaller or larger element (R65, R169). -/
def vMinMax (isMin : Bool) (d a b : BitVec 6) (t : BitVec 3) (c : Nat) (s : State) : Verdict :=
  let f := Fmt.ofCode t.toNat
  let (va, vb, s) := readHeld2 s c a b
  let (vs, _) := zipEv (fun _ x y => (
    if f.isInt then (if decide (signedOf f.width x < signedOf f.width y) == isMin then x else y) else fminmax isMin f x y, 0)) 0
      (elems f va) (elems f vb)
  .issued (exposeV s c 4 d.toNat (ofElems f vs) (vBound f 2) 0)

/-- `vx.min`. -/
def opVxMin (d a b : BitVec 6) (t : BitVec 3) := vMinMax true d a b t
/-- `vx.max`. -/
def opVxMax (d a b : BitVec 6) (t : BitVec 3) := vMinMax false d a b t

/-- The shared operation of the fused multiply-adds (R170). -/
def vFma (f : Fmt) (d : BitVec 5) (a b : BitVec 6) (e : BitVec 4) (c : Nat) (s : State) : Verdict :=
  let vc := readV s c e.toNat
  let (va, vb, s) := readHeld2 s c a b
  let rm := readFrm s c
  let dr := readDraws s c
  let (vs, ev) := zipEv (fun i x y => ffma f rm (dr.get i) x y (elem f vc i)) 0 (elems f va) (elems f vb)
  .issued (exposeV (useDraws s c 4 f.lanes rm) c 4 d.toNat (ofElems f vs) (vBound f 4) ev)

/-- `vx.fma.f32`. -/
def opVxFmaF32 (d : BitVec 5) (a b : BitVec 6) (e : BitVec 4) := vFma .f32 d a b e
/-- `vx.fma.f64`. -/
def opVxFmaF64 (d : BitVec 5) (a b : BitVec 6) (e : BitVec 4) := vFma .f64 d a b e
/-- `vx.fma.f16`. -/
def opVxFmaF16 (d : BitVec 5) (a b : BitVec 6) (e : BitVec 4) := vFma .f16 d a b e
/-- `vx.fma.bf16`. -/
def opVxFmaBf16 (d : BitVec 5) (a b : BitVec 6) (e : BitVec 4) := vFma .bf16 d a b e

/-- Magnitude of an element (R171). -/
def absElem (f : Fmt) (x : Nat) : Nat × Cats :=
  if f.isInt then
    if x % 2 ^ f.width = f.signBit then (f.signBit, catIOVF) else ((signedOf f.width x).natAbs, 0)
  else if (f.decode x).isNan then (f.nanCode, 0) else (x % f.signBit, 0)

/-- `vx.abs` (R171). -/
def opVxAbs (d a : BitVec 6) (t : BitVec 3) (c : Nat) (s : State) : Verdict :=
  let f := Fmt.ofCode t.toNat
  let (va, s) := readHeld s c a
  let (vs, ev) := mapEv (fun _ x => absElem f x) 0 (elems f va)
  .issued (exposeV s c 4 d.toNat (ofElems f vs) 2 ev)

/-- `vx.mov` (R171). -/
def opVxMov (d a : BitVec 6) (c : Nat) (s : State) : Verdict :=
  let (va, s) := readHeld s c a
  .issued (exposeV s c 4 d.toNat va 1 0)

/-- A bitwise operation on all 2,048 bits (R172). -/
def vBits (f : Vec → Vec → Vec) (d a b : BitVec 6) (c : Nat) (s : State) : Verdict :=
  let (va, vb, s) := readHeld2 s c a b
  .issued (exposeV s c 4 d.toNat (f va vb) 2 0)

/-- `vx.and`. -/
def opVxAnd (d a b : BitVec 6) := vBits (fun x y => x &&& y) d a b
/-- `vx.or`. -/
def opVxOr (d a b : BitVec 6) := vBits (fun x y => x ||| y) d a b
/-- `vx.xor`. -/
def opVxXor (d a b : BitVec 6) := vBits (fun x y => x ^^^ y) d a b

/-- A shift per element by bits [5:0]; 0 when the amount reaches the width (R172). -/
def vShift (left : Bool) (d a b : BitVec 6) (t : BitVec 3) (c : Nat) (s : State) : Verdict :=
  let f := Fmt.ofCode t.toNat
  let (va, vb, s) := readHeld2 s c a b
  let (vs, _) := zipEv (fun _ x y =>
    let n := y % 64
    (if f.width ≤ n then 0 else if left then x * 2 ^ n % 2 ^ f.width else x / 2 ^ n, 0)) 0 (elems f va) (elems f vb)
  .issued (exposeV s c 4 d.toNat (ofElems f vs) 2 0)

/-- `vx.shl`. -/
def opVxShl (d a b : BitVec 6) (t : BitVec 3) := vShift true d a b t
/-- `vx.shr`. -/
def opVxShr (d a b : BitVec 6) (t : BitVec 3) := vShift false d a b t

/-- `vx.movi` (R173). -/
def opVxMovi (d : BitVec 6) (i : BitVec 15) (c : Nat) (s : State) : Verdict :=
  .issued (exposeV s c 4 d.toNat (ofLanes (List.replicate 64 (i.signExtend 32).toNat)) 2 0)

/-- `vx.bcast` (R173). -/
def opVxBcast (d a : BitVec 6) (t : BitVec 3) (c : Nat) (s : State) : Verdict :=
  let f := Fmt.ofCode t.toNat
  .issued (exposeV s c 4 d.toNat (ofElems f (List.replicate f.lanes ((readS s c a.toNat).toNat % 2 ^ f.width))) 2 0)

/-- Bits of a mask from truth values, each repeated `k` times. -/
def maskOf (k : Nat) : List Bool → Nat
  | [] => 0
  | b :: r => (if b then 2 ^ k - 1 else 0) + 2 ^ k * maskOf k r

/-- `vx.cmp` (R174). -/
def opVxCmp (m : BitVec 3) (a b : BitVec 6) (cd t : BitVec 3) (c : Nat) (s : State) : Verdict :=
  let f := Fmt.ofCode t.toNat
  let (va, vb, s) := readHeld2 s c a b
  let one := fun x y => if f.isInt then condInt cd.toNat (BitVec.ofInt 64 (signedOf f.width x)) (BitVec.ofInt 64 (signedOf f.width y))
                        else condFloat f cd.toNat x y
  let bits := maskOf (if f = .f64 then 2 else 1) (((elems f va).zip (elems f vb)).map (fun p => one p.1 p.2))
  .issued (expose s c 4 (.vm m.toNat) bits 2 0)

/-- `vx.sel` (R175). -/
def opVxSel (d a b : BitVec 6) (m : BitVec 3) (c : Nat) (s : State) : Verdict :=
  let vm := readVm s c m.toNat
  let (va, vb, s) := readHeld2 s c a b
  let (vs, _) := zipEv (fun i x y => (if vm.getLsbD i then x else y, 0)) 0 (elems .i32 va) (elems .i32 vb)
  .issued (exposeV s c 4 d.toNat (ofLanes vs) 2 0)

/-- `vx.perm` (R176). -/
def opVxPerm (d a b : BitVec 6) (t : BitVec 3) (c : Nat) (s : State) : Verdict :=
  let (va, vb, s) := readHeld2 s c a b
  let v := if t = 1 then ofElems .f64 ((List.range 32).map (fun i => elem .f64 va (elem .i32 vb (2 * i) % 32)))
           else ofLanes ((List.range 64).map (fun i => elem .i32 va (elem .i32 vb i % 64)))
  .issued (exposeV s c 4 d.toNat v 3 0)

/-- `vx.ext` (R177). -/
def opVxExt (d a l : BitVec 6) (t : BitVec 3) (c : Nat) (s : State) : Verdict :=
  let f := Fmt.ofCode t.toNat
  let (va, s) := readHeld s c a
  let x := elem f va l.toNat
  .issued (exposeS s c 4 d.toNat (if f.isInt then BitVec.ofInt 64 (signedOf f.width x) else BitVec.ofNat 64 x) 3 0)

/-- One level of a reduction (R86): pairs 2i and 2i + 1; steps are numbered from `j`. -/
def treeLevel (op : Nat → Nat → Nat → Nat × Cats) : Nat → List Nat → List Nat × Cats
  | j, x :: y :: r =>
    let (v, e) := op j x y
    let (vs, es) := treeLevel op (j + 1) r
    (v :: vs, e ||| es)
  | _, l => (l, 0)

/-- A reduction level by level (R86). -/
def tree (op : Nat → Nat → Nat → Nat × Cats) (j : Nat) (l : List Nat) : Nat → Nat × Cats
  | 0 => (l.headD 0, 0)
  | n + 1 =>
    if l.length ≤ 1 then (l.headD 0, 0)
    else
      let (vs, e) := treeLevel op j l
      let (r, e2) := tree op (j + l.length / 2) vs n
      (r, e ||| e2)

/-- The elements of a vector under a mask: a disabled element is the identity (R178). -/
def masked (f : Fmt) (v : Vec) (vm : W64) (ident : Nat) : List Nat :=
  (List.range f.lanes).map (fun i => if vm.getLsbD (if f = .f64 then 2 * i else i) then elem f v i else ident)

/-- `vx.redsum` (R178). -/
def opVxRedsum (d a b : BitVec 6) (t : BitVec 3) (c : Nat) (s : State) : Verdict :=
  let f := Fmt.ofCode t.toNat
  let vm := readVm s c (b.toNat % 8)
  let (va, s) := readHeld s c a
  let rm := readFrm s c
  let dr := readDraws s c
  let (v, ev) := tree (fun j x y =>
    if f.isInt then intWrap f.width (signedOf f.width x + signedOf f.width y) else fadd f rm (dr.get j) x y) 0
      (masked f va vm (if f.isInt then 0 else f.signBit)) 6
  let s := if f.isInt then s else useDraws s c 4 (f.lanes - 1) rm
  .issued (exposeV s c 4 d.toNat (ofElems f [v]) (vBound f 8) ev)

/-- `vx.redmax` (R178). -/
def opVxRedmax (d a b : BitVec 6) (t : BitVec 3) (c : Nat) (s : State) : Verdict :=
  let f := Fmt.ofCode t.toNat
  let vm := readVm s c (b.toNat % 8)
  let (va, s) := readHeld s c a
  let (v, _) := tree (fun _ x y =>
    (if f.isInt then (if signedOf f.width x < signedOf f.width y then y else x) else fminmax false f x y, 0)) 0
      (masked f va vm (if f.isInt then f.signBit else f.signed true f.infCode)) 6
  .issued (exposeV s c 4 d.toNat (ofElems f [v]) (vBound f 8) 0)

/-! ### Function approximations (R179): the results within the stated error; which of them the hardware gives is open (DESIGN CHOICE, log entry 9) -/

/-- ln 2 in units of 2^-96. -/
def ln2 : Nat := 54916777467707473351141471128

/-- The Taylor sum of e^y, y and the sum in units of 2^-96: terms from k on. -/
def expTerms (y : Nat) (term k : Nat) : Nat → Nat
  | 0 => 0
  | n + 1 => term + expTerms y (term * y / 2 ^ 96 / k) (k + 1) n

/-- 2^(f/2^96) in units of 2^-96, f below 2^96. -/
def pow2Frac (f : Nat) : Nat := expTerms (f * ln2 / 2 ^ 96) (2 ^ 96) 1 40

/-- The FP32 magnitudes within `u` ulp of n/d * 2^e, an ulp being the step of the format at that value (DEDUCED, log entry 9). -/
def near (u n d : Nat) (e : Int) : List Nat :=
  let (code, _, _) := roundMag .f32 .rtz false 0 n d e
  let q := max (expOf n d e) Fmt.f32.emin - Fmt.f32.mant
  ((List.range 9).map (fun i => code + i - 4)).filter (fun c => decide (c ≤ Fmt.f32.maxCode) &&
    (match Fmt.decode .f32 c with
     | .fin _ m k =>
       let w := min k (min e q)
       let a := m * d * 2 ^ (k - w).toNat
       let b := n * 2 ^ (e - w).toNat
       decide (max a b - min a b ≤ u * d * 2 ^ (q - w).toNat)
     | _ => false))

/-- One of the results that the error bound allows: which of them is open (R179; DESIGN CHOICE, log entry 9). -/
def pick (l : List Nat) (choice : Nat) : Nat := l.getD (choice % l.length) 0

/-- 2^x of an FP32 element. -/
def expElem (x : Nat) : Nat × Cats :=
  match Fmt.decode .f32 x with
  | .nan => (Fmt.f32.nanCode, 0)
  | .inf neg => (if neg then 0 else Fmt.f32.infCode, 0)
  | .fin neg m e =>
    let v := scaled neg m e (min e (-96))
    let one : Int := 2 ^ (-(min e (-96))).toNat
    let k := v / one
    let r := (v - k * one).toNat
    let any := Config.expError (BitVec.ofNat 32 x)
    if 128 ≤ k then (Fmt.f32.infCode, catOVF)
    else if k < -200 then (any % 3, catUNF)
    else if r = 0 then
      if k < -149 then (pick (near 2 1 1 k) any, catUNF) else ((packFloat .f32 .rne false 0 false 1 1 k).1, 0)
    else (pick (near 2 (2 * pow2Frac (r * 2 ^ 96 / one.toNat) + 1) 1 (k - 97)) any, if k < -126 then catUNF else 0)

/-- 1/x of an FP32 element. -/
def rcpElem (x : Nat) : Nat × Cats :=
  match Fmt.decode .f32 x with
  | .nan => (Fmt.f32.nanCode, 0)
  | .inf neg => (Fmt.f32.signed neg 0, 0)
  | .fin neg m e =>
    if m = 0 then (Fmt.f32.signed neg Fmt.f32.infCode, catDZ)
    else
      let (code, inex, _) := roundMag .f32 .rtz neg 0 1 m (-e)
      if Fmt.f32.maxCode < code then (Fmt.f32.signed neg Fmt.f32.infCode, catOVF)
      else
        let r := pick (near 1 1 m (-e)) (Config.rcpChoice (BitVec.ofNat 32 x))
        (Fmt.f32.signed neg r, if r < 2 ^ 23 ∧ (inex = true ∨ r ≠ code) then catUNF else 0)

/-- Integer square root by bits from 2^n down. -/
def isqrt (v : Nat) : Nat → Nat → Nat
  | 0, r => r
  | n + 1, r => let t := r + 2 ^ n; isqrt v n (if t * t ≤ v then t else r)

/-- 1/sqrt(x) of an FP32 element. -/
def rsqrtElem (x : Nat) : Nat × Cats :=
  match Fmt.decode .f32 x with
  | .nan => (Fmt.f32.nanCode, 0)
  | .inf neg => if neg then (Fmt.f32.nanCode, catINV) else (0, 0)
  | .fin neg m e =>
    if m = 0 then (Fmt.f32.signed neg Fmt.f32.infCode, catDZ)
    else if neg then (Fmt.f32.nanCode, catINV)
    else
      let (m, e) := if e % 2 = 0 then (m, e) else (2 * m, e - 1)
      let big := 2 ^ 160 / m
      let q := isqrt big 81 0
      let exact := decide (q * q * m = 2 ^ 160)
      (pick (near 1 (if exact then 2 * q else 2 * q + 1) 1 (-81 - e / 2)) (Config.rsqrtChoice (BitVec.ofNat 32 x)), 0)

/-- An approximation over the 64 FP32 elements (R179). -/
def vApprox (f : Nat → Nat × Cats) (d a : BitVec 6) (c : Nat) (s : State) : Verdict :=
  let (va, s) := readHeld s c a
  let (vs, ev) := mapEv (fun _ x => f x) 0 (elems .f32 va)
  .issued (exposeV s c 4 d.toNat (ofLanes vs) 6 ev)

/-- `vx.exp`. -/
def opVxExp (d a : BitVec 6) := vApprox expElem d a
/-- `vx.rcp`. -/
def opVxRcp (d a : BitVec 6) := vApprox rcpElem d a
/-- `vx.rsqrt`. -/
def opVxRsqrt (d a : BitVec 6) := vApprox rsqrtElem d a

/-! ### Conversions and scales -/

/-- The shared operation of `cvt` and `cvts` (R180). -/
def vCvt (sat : Bool) (d a : BitVec 6) (f t : BitVec 4) (c : Nat) (s : State) : Verdict :=
  let src := Fmt.ofCode f.toNat
  let dst := Fmt.ofCode t.toNat
  let n := if src = .f64 || dst = .f64 then 32 else 64
  let (va, s) := readHeld s c a
  let rm := readFrm s c
  let dr := readDraws s c
  let (vs, ev) := mapEv (fun i x => fconvert src dst rm sat (dr.get i) x) 0 ((List.range n).map (elem src va))
  .issued (exposeV (useDraws s c 4 n rm) c 4 d.toNat (ofElems dst vs) 3 ev)

/-- `vx.cvt`. -/
def opVxCvt (d a : BitVec 6) (f t : BitVec 4) := vCvt false d a f t
/-- `vx.cvts`. -/
def opVxCvts (d a : BitVec 6) (f t : BitVec 4) := vCvt true d a f t

/-- `vx.amax` (R181). -/
def opVxAmax (d a b : BitVec 6) (t : BitVec 3) (c : Nat) (s : State) : Verdict :=
  let f := Fmt.ofCode t.toNat
  let (va, vb, s) := readHeld2 s c a b
  let m := (elems f va).foldl (fun m x =>
    let v := f.decode x
    if v.isNan then m else fminmax false .f32 m (v.abs.pack .f32 .rup false 0).1) (elem .f32 vb 0)
  .issued (exposeV s c 4 d.toNat (ofLanes [m]) 6 0)

/-- The scale of a row (R182), as an FP32 code. -/
def rowScale (p2 : Bool) (A M : Nat) : Nat :=
  match Fmt.decode .f32 A, Fmt.decode .f32 M with
  | .fin an am ae, .fin mn mm me =>
    if am = 0 || mm = 0 || mn then 0x3F800000
    else if p2 then ((greatestExp (.fin an am ae) (.fin mn mm me) + 127).toNat) * 2 ^ 23
    else
      let (q, _) := packFloat .bf16 .rdn false 0 an mm am (me - ae)
      if q % 2 ^ 15 = 0 then (Fmt.signed .bf16 an 1) * 2 ^ 16 else q * 2 ^ 16
  | _, _ => 0x3F800000

/-- `vx.scale` (R182). -/
def opVxScale (d a b : BitVec 6) (t : BitVec 3) (c : Nat) (s : State) : Verdict :=
  let (va, vb, s) := readHeld2 s c a b
  let sc := rowScale (t == 0) (elem .f32 va 0) (elem .f32 vb 0)
  .issued (exposeV s c 4 d.toNat (ofLanes [sc, (fdiv .f32 .rne 0 0x3F800000 sc).1]) 4 0)

/-! ### Queues, draws, trellis steps -/

/-- `vx.push` (R184): freezes while the queue holds 16 entries. -/
def opVxPush (v : BitVec 6) (q : BitVec 3) (c : Nat) (s : State) : Verdict :=
  let (x, s) := readHeld s c v
  let g := s.core (coreOf c)
  let qu := g.queue q.toNat
  if qu.full then .stall else .issued (s.setCore (coreOf c) (g.setQueue q.toNat (qu.push x false)))

/-- The place from the oldest of the entry whose poison a pop consumes (R377): the data entry, or the side entry before it. -/
def dataPlace (q : Queue) : Nat := match q.next with | some (n, _, e) => if e.poison then n else n - 1 | none => 0

/-- `vx.pop` (R184): freezes while there is no data entry; a poisoned entry, or side value, is consumed. -/
def opVxPop (v : BitVec 6) (q : BitVec 3) (c : Nat) (s : State) : Verdict :=
  let g := s.core (coreOf c)
  let qu := g.queue q.toNat
  match qu.pop with
  | none => .stall
  | some (ps, bad, qu') =>
    if bad then .poison (localAddr 5 (coreOf c) (16 * q.toNat + dataPlace qu)) true
    else
      let s := s.setCore (coreOf c) (g.setQueue q.toNat qu')
      .issued (exposeV s c 4 v.toNat (ofElems (Fmt.ofCode qu.sink) (ps.map (fun p => p.code))) 4 (poppedCats ps))

/-- An exact value below 1 as a code: n * 2^-k. -/
def fracCode (f : Fmt) (n k : Nat) : Nat := (packFloat f .rne false 0 false n 1 (-(k : Int))).1

/-- `vx.rand` (R186). -/
def opVxRand (d a b : BitVec 6) (t : BitVec 3) (c : Nat) (s : State) : Verdict :=
  let f := Fmt.ofCode t.toNat
  let seed := readS s c a.toNat
  let ctr := readS s c b.toNat
  let one := fun (x : W64) => match f with
    | .i32 => x.toNat / 2 ^ 32
    | .f64 => fracCode .f64 (x.toNat / 2 ^ 11) 53
    | _ => fracCode .f32 (x.toNat / 2 ^ 40) 24
  .issued (exposeV s c 4 d.toNat (ofElems f ((List.range f.lanes).map (fun i => one (draw seed (ctr + BitVec.ofNat 64 i))))) 4 0)

/-- One state of the add-compare-select step (R187): its cost, its decision, its events. -/
def acsState (va vb : Vec) (n t : Nat) : Nat × Nat × Cats :=
  let (c0, e0) := fadd .f32 .rne 0 (elem .f32 va (2 * t % n)) (elem .f32 vb (2 * t))
  let (c1, e1) := fadd .f32 .rne 0 (elem .f32 va ((2 * t + 1) % n)) (elem .f32 vb (2 * t + 1))
  let x0 := Fmt.decode .f32 c0
  let x1 := Fmt.decode .f32 c1
  if Num.lt x1 x0 || (x0.isNan && !x1.isNan) then (c1, 1, e0 ||| e1) else (c0, 0, e0 ||| e1)

/-- `vx.acs` (R187). -/
def opVxAcs (d a b : BitVec 6) (t : BitVec 3) (c : Nat) (s : State) : Verdict :=
  let n := 2 ^ t.toNat
  let (va, vb, s) := readHeld2 s c a b
  let rs := (List.range n).map (acsState va vb n)
  let pad := List.replicate (32 - n) 0
  .issued (exposeV s c 4 d.toNat (ofLanes (rs.map (fun r => r.1) ++ pad ++ rs.map (fun r => r.2.1))) 3
    (rs.foldl (fun e r => e ||| r.2.2) 0))

/-- The reset value of TDA (R191). -/
def tdaReset : W64 := 0x0000000200020003
/-- The reset value of TDB. -/
def tdbReset : W64 := 1
/-- TDA of a definition. -/
def Core.tdaOf (g : Core) (t : Nat) : W64 := SMap.get tdaReset g.tda t
/-- TDB of a definition. -/
def Core.tdbOf (g : Core) (t : Nat) : W64 := SMap.get tdbReset g.tdb t
/-- L of a definition (R189). -/
def tdL (a : W64) : Nat := a.toNat % 32
/-- MODE of a definition. -/
def tdMode (a : W64) : Nat := a.toNat / 2 ^ 8 % 4
/-- OUT of a definition. -/
def tdOut (a : W64) : Nat := a.toNat / 2 ^ 16 % 16
/-- S of a definition. -/
def tdS (a : W64) : Nat := a.toNat / 2 ^ 32 % 2 ^ 11
/-- CBASE of a definition. -/
def tdCbase (a : W64) : Nat := a.toNat / 2 ^ 52
/-- Step j of a definition (R189). -/
def tdStep (b : W64) (j : Nat) : Nat := b.toNat / 2 ^ (4 * j) % 16
/-- NSTEP of a definition. -/
def tdNstep (b : W64) : Nat := b.toNat / 2 ^ 32 % 8

/-- The table entry of a window (R189). -/
def tabPlace (a : W64) (w : Nat) : Nat := (tdCbase a + w) % 4096

/-- The value of a window in HASHED mode (R193), exact: (h[15:8] + h[7:0] - 255) / 128. -/
def hashVal (w : Nat) : Num :=
  let h := (w * 0x9E3B + 0x1A57) % 2 ^ 16
  let i : Int := (h / 256 : Nat) + (h % 256 : Nat) - 255
  .fin (decide (i < 0)) i.natAbs (-7)

end Sys2Proof.Machine
end

