-- ==== Sys2Proof/Machine/Matrix.lean ====
section
/-! DEFINITION. The matrix engine MX (09_matrix.md R205-R226, 03_numbers.md R83-R85): the array, latches, the tile path, accumulator memory,
its write port and registered windows, cycle by cycle. -/

namespace Sys2Proof.Machine

/-- The place of a bundle's events (R89). -/
def evPlace (s : State) (c slot : Nat) : EvPlace :=
  let x := s.ctx c
  ⟨x.tid, x.rank, x.order, slot, x.handle, x.pc⟩

/-- The operand format of mma's type code: 4 stands for FP4 E2M1 (R205). -/
def mmaFmt (t : Nat) : Fmt := if t = 4 then .e2m1 else Fmt.ofCode t

/-- Lanes of a PE (R206). -/
def lanesOf : Fmt → Nat
  | .f64 => 1 | .f32 => 4 | .f16 => 8 | .bf16 => 8 | .e2m1 => 32 | _ => 16

/-- The accumulator format (R206). -/
def accFmt : Fmt → Fmt
  | .f64 => .f64 | .i8 => .i32 | _ => .f32

/-- The operand class of a type code (R207). -/
def classOf : Fmt → Nat
  | .f32 => 0 | .f64 => 1 | .f16 => 2 | .bf16 => 2 | .i8 => 3 | .e4m3 => 4 | .e5m2 => 4 | .e2m1 => 5 | _ => 9

/-- The tag of a latch; unset is 15 (R210). -/
def Core.tagOf (g : Core) (l : Nat) : Nat := SMap.get 15 g.latTag l

/-- A column of a latch. -/
def Core.latCol (g : Core) (l n : Nat) : List Nat := SMap.get [] g.latch (l * 32 + n)

/-- Poison place of a latch element. -/
def latPlace (l n k : Nat) : Nat := l * 32768 + n * 1024 + k

/-- Bits of a tile row from a bit offset, `w` of them, inside one 8-byte word. -/
def tileBits (g : Core) (t m bit w : Nat) : Nat := (SMap.get 0 g.tile (t * 2048 + m * 64 + bit / 64)).toNat / 2 ^ (bit % 64) % 2 ^ w

/-- Element k of tile row m under a shape (R209): 0 outside the rows and bytes present. -/
def tileElem (g : Core) (t : Nat) (shape : W64) (w m k : Nat) : Nat :=
  if tsRows shape ≤ m then 0
  else if (if w = 4 then decide (k / 2 < 8 * tsRb shape) else decide ((k + 1) * w ≤ 64 * tsRb shape)) then tileBits g t m (k * w) w
  else 0

/-- Is that element's word poisoned? -/
def tileElemBad (g : Core) (t : Nat) (shape : W64) (w m k : Nat) : Bool :=
  decide (m < tsRows shape) && decide (k * w < 64 * tsRb shape) && g.bad 2 (t * 2048 + m * 64 + k * w / 64)

/-- One step of a PE (R83): one rounding of the exact sum of products with c_in; invalid cases and infinities of R83. -/
def peStep (acc : Fmt) (cin : Nat) (prods : List (Num × Bool)) : Nat × Cats :=
  let ts := acc.decode cin :: prods.map (fun p => p.1)
  let inv := prods.any (fun p => p.2) || (ts.contains (.inf true) && ts.contains (.inf false))
  if inv || ts.any (fun t => t.isNan) then (acc.nanCode, invIf inv)
  else
    let sum := (prods.map (fun p => p.1)).foldl (fun a t => (Num.add .rne a t).1) (acc.decode cin)
    sum.pack acc .rne false 0

/-- One step of a PE for INT8: exact, wrapping in 32 bits (R85). -/
def peInt (cin : Nat) (prods : List Int) : Nat × Cats := intWrap 32 (prods.foldl (fun a p => a + p) (signedOf 32 cin))

/-- A column result: the partial sum enters PE row 0 as +0 and passes the rows in increasing order (R84). -/
def column (fa fw acc : Fmt) (lanes : Nat) : Nat → List Nat → List Nat → Nat → Nat × Cats
  | 0, _, _, cin => (cin, 0)
  | n + 1, as, ws, cin =>
    let pairs := (as.take lanes).zip (ws.take lanes ++ List.replicate lanes 0)
    let (v, e) := if acc = .i32 then peInt cin (pairs.map (fun p => signedOf 8 p.1 * signedOf 8 p.2))
                  else peStep acc cin (pairs.map (fun p => Num.mul (fa.decode p.1) (fw.decode p.2)))
    let (r, e2) := column fa fw acc lanes n (as.drop lanes) (ws.drop lanes) v
    (r, e ||| e2)

/-- The 32 results of tile row m, their poison and their events (R217). -/
def mmaRow (g : Core) (t l : Nat) (shape : W64) (fa fw : Fmt) (m : Nat) : List Nat × List Bool × Cats :=
  let lanes := lanesOf fa
  let K := 32 * lanes
  let as := (List.range K).map (tileElem g t shape fa.width m)
  let rowBad := (List.range K).any (tileElemBad g t shape fa.width m)
  let rs := (List.range 32).map (fun n => column fa fw (accFmt fa) lanes 32 as (g.latCol l n) 0)
  let bad := (List.range 32).map (fun n => rowBad || (List.range K).any (fun k => g.bad 3 (latPlace l n k)))
  (rs.map (fun r => r.1), bad, rs.foldl (fun e r => e ||| r.2) 0)

/-- D of R217. -/
def mmaDelay (f : Fmt) : Nat := if f = .f64 then 48 else 40

/-- FP32-view rows of the i-th row of an instruction that starts at `row` (R208). -/
def viewRows (two : Bool) (row i : Nat) : List Nat :=
  if two then [2 * ((row + i) % 2048), 2 * ((row + i) % 2048) + 1] else [(row + i) % 4096]

/-- `mx.mma` (R217, R223). Of two shape faults the latch's tag comes first, and a shape fault is found without a wait for the write port of R214
(DESIGN CHOICE, log entry 82). -/
def opMxMma (l : BitVec 2) (a : BitVec 4) (r : BitVec 6) (t : BitVec 3) (o : BitVec 2) (c : Nat) (s : State) : Verdict :=
  let gn := coreOf c
  let g := s.core gn
  let fa := mmaFmt t.toNat
  let two := fa == .f64
  let shape := readTs s c a.toNat
  let M := tsRows shape
  let row := (readS s c r.toNat).toNat
  let tag := g.tagOf l.toNat
  let D := mmaDelay fa
  let rows := (List.range M).flatMap (fun i => (viewRows two row i).map Res.row)
  if !isOwner s c then .trap 4 5
  else if !g.free [.tile a.toNat, .latch l.toNat] rows [.feed] then .stall
  else if tag = 15 ∨ classOf (Fmt.ofCode tag) ≠ classOf fa then .trap 5 (BitVec.ofNat 64 (2 ^ 63 + tag * 256 + t.toNat))
  else if t = 1 ∧ 32 < tsRb shape then .trap 5 shape
  else match portCheck g 1 ((List.range M).map (fun m => D + m)) with
    | some v => v
    | none =>
      let pl := evPlace s c 5
      let new := (List.range M).map (fun m =>
        let (vs, bad, ev) := mmaRow g a.toNat l.toNat shape fa (Fmt.ofCode tag) m
        (⟨D + m, (viewRows two row m).headD 0, match accFmt fa with | .f64 => 1 | .i32 => 4 | _ => 0, o == 1, vs, bad, ev, pl⟩ : RowWrite))
      let g := (List.range M).foldl (fun g m => g.mark ((viewRows two row m).map Res.row) true (D + m + 1)) g
      let g := g.mark [.tile a.toNat, .latch l.toNat, .feed] false M
      .issued (s.setCore gn { g with rows := g.rows ++ new })

/-- K of a latch format (R206). -/
def depthOf (f : Fmt) : Nat := 32 * lanesOf f

/-- `mx.latq` (R218). -/
def opMxLatq (l : BitVec 2) (q : BitVec 3) (c : Nat) (s : State) : Verdict :=
  let gn := coreOf c
  let g := s.core gn
  let sink := (g.queue q.toNat).sink
  if !isOwner s c then .trap 4 5
  else if !g.free [] [.latch l.toNat] [.pop] then .stall
  else if sink = 4 ∨ sink = 9 then .trap 5 (BitVec.ofNat 64 (2 ^ 63 + sink * 256))
  else
    let K := depthOf (Fmt.ofCode sink)
    let g := { g with latTag := SMap.set 15 g.latTag l.toNat sink
                      latqs := g.latqs ++ [⟨l.toNat, q.toNat, K, 32 * K, 0, [], false, evPlace s c 5, false⟩] }
    .issued (s.setCore gn g)

/-- The columns that `latt` writes (R219). -/
def lattCols (g : Core) (t : Nat) (shape : W64) : List (List Nat) :=
  let f := Fmt.ofCode (tsType shape)
  (List.range 32).map (fun n => (List.range (depthOf f)).map (tileElem g t shape f.width n))

/-- `mx.latt` (R219, R223). -/
def opMxLatt (l : BitVec 2) (a : BitVec 4) (c : Nat) (s : State) : Verdict :=
  let gn := coreOf c
  let g := s.core gn
  let shape := readTs s c a.toNat
  let ty := tsType shape
  let f := Fmt.ofCode ty
  if !isOwner s c then .trap 4 5
  else if !g.free [.tile a.toNat] [.latch l.toNat] [.path] then .stall
  else if ty = 4 ∨ ty = 9 ∨ (ty = 1 ∧ 32 < tsRb shape) then .trap 5 shape
  else
    let bad := (List.range 32).flatMap (fun n => ((List.range (depthOf f)).filter (tileElemBad g a.toNat shape f.width n)).map (latPlace l.toNat n))
    let g := (g.mark [.latch l.toNat] true 33).mark [.tile a.toNat, .path] false 33
    .issued (s.setCore gn { g with latTag := SMap.set 15 g.latTag l.toNat ty
                                   paths := g.paths ++ [⟨33, true, l.toNat, lattCols g a.toNat shape, [], bad⟩] })

/-- The words of a transposed tile (R219): row i holds element i of the source's rows 0 to 31, and 0 beyond. -/
def ttrWords (g : Core) (t : Nat) (shape : W64) : List W64 :=
  let w := (Fmt.ofCode (tsType shape)).width
  (List.range 32).flatMap (fun i =>
    let v := packLanes w ((List.range 32).map (fun j => tileElem g t shape w j i))
    (List.range 64).map (fun k => BitVec.ofNat 64 (v / 2 ^ (64 * k))))

/-- `mx.ttr` (R219). -/
def opMxTtr (d a : BitVec 4) (c : Nat) (s : State) : Verdict :=
  let gn := coreOf c
  let g := s.core gn
  let shape := readTs s c a.toNat
  let w := (Fmt.ofCode (tsType shape)).width
  -- a tile may be its own destination: the source is read whole before any write
  let free := !(g.writeBusy (.tile a.toNat)) && !(g.writeBusy (.tile d.toNat)) && !(g.readBusy (.tile d.toNat)) && !(g.readBusy .path)
  if !isOwner s c then .trap 4 5
  else if !free then .stall
  else
    let bad := (List.range 32).flatMap (fun i => ((List.range 32).filter (fun j => tileElemBad g a.toNat shape w j i)).map
      (fun j => d.toNat * 2048 + i * 64 + j * w / 64))
    let g := (g.mark [.tile d.toNat] true 33).mark [.tile a.toNat, .path] false 33
    .issued (s.setCore gn { g with paths := g.paths ++ [⟨33, false, d.toNat, [], ttrWords g a.toNat shape, bad⟩] })

/-- COUNT and VIEW of the count register (R220). -/
def accCount (v : W64) : Bool × Nat :=
  let two := v.getLsbD 16
  (two, min (v.toNat % 2 ^ 13) (if two then 2048 else 4096))

/-- `mx.accz` (R221): two FP32-view rows a cycle, or one FP64-view row. -/
def opMxAccz (r n : BitVec 6) (c : Nat) (s : State) : Verdict :=
  let gn := coreOf c
  let g := s.core gn
  let (two, k) := accCount (readS s c n.toNat)
  let row := (readS s c r.toNat).toNat
  let rows := (List.range k).flatMap (viewRows two row)
  let cyc := if two then k else (k + 1) / 2
  if !isOwner s c then .trap 4 5
  else if !g.free [] (rows.map Res.row) [] then .stall
  else match portCheck g 2 ((List.range cyc).map (fun j => 1 + j)) with
    | some v => v
    | none =>
      let pl := evPlace s c 5
      let new := (List.range cyc).map (fun j =>
        let len := if two then 64 else if 2 * j + 1 < k then 64 else 32
        let first := if two then (viewRows true row j).headD 0 else (row + 2 * j) % 4096
        (⟨1 + j, first, 4, false, List.replicate len 0, List.replicate len false, 0, pl⟩ : RowWrite))
      let g := (List.range cyc).foldl (fun g j =>
        g.mark (((if two then viewRows true row j else if 2 * j + 1 < k then [(row + 2 * j) % 4096, (row + 2 * j + 1) % 4096]
                  else [(row + 2 * j) % 4096])).map Res.row) true (j + 2)) g
      .issued (s.setCore gn { g with rows := g.rows ++ new })

/-- `mx.accq` (R222). A count of 0 also waits for the push port, which R212 lists for it, and then pushes nothing (DESIGN CHOICE, log entry 73). -/
def opMxAccq (r n : BitVec 6) (q : BitVec 3) (c : Nat) (s : State) : Verdict :=
  let gn := coreOf c
  let g := s.core gn
  let (two, k) := accCount (readS s c n.toNat)
  let row := (readS s c r.toNat).toNat
  let rows := (List.range k).flatMap (viewRows two row)
  if !isOwner s c then .trap 4 5
  else if !g.free (rows.map Res.row) [] [.push] then .stall
  else if k = 0 then .issued s
  else .issued (s.setCore gn { g with accqs := g.accqs ++ [⟨q.toNat, row % (if two then 2048 else 4096), k, two, 2, (s.ctx c).tid, false⟩] })

/-! ### Cycle by cycle -/

/-- An accumulator cell: 32 bits of the FP32 view (R208). -/
def Core.cell (g : Core) (i : Nat) : Nat := SMap.get 0 g.acc (i % 131072)
/-- Write a cell. -/
def Core.setCell (g : Core) (i v : Nat) : Core := { g with acc := SMap.set 0 g.acc (i % 131072) (v % 2 ^ 32) }

/-- One value lands in accumulator memory: column n of a row (R208, R217): the state, and the events of the addition. -/
def Core.landValue (g : Core) (fmt row n v : Nat) (add bad : Bool) : Core × Cats :=
  if fmt = 1 then
    let i := row * 32 + 2 * n
    let old := g.cell i + 2 ^ 32 * g.cell (i + 1)
    let (r, e) := if add then fadd .f64 .rne 0 old v else (v, 0)
    let b := bad || (add && (g.bad 4 (i % 131072) || g.bad 4 ((i + 1) % 131072)))
    ((((g.setCell i r).setCell (i + 1) (r / 2 ^ 32)).setBad 4 (i % 131072) b).setBad 4 ((i + 1) % 131072) b, e)
  else
    let i := row * 32 + n
    let (r, e) := if !add then (v, 0)
      else if fmt = 4 then intWrap 32 (signedOf 32 (g.cell i) + signedOf 32 v)
      else fadd .f32 .rne 0 (g.cell i) v
    ((g.setCell i r).setBad 4 (i % 131072) (bad || (add && g.bad 4 (i % 131072))), e)

/-- Values from column n on. -/
def Core.landValues (g : Core) (fmt row : Nat) (add : Bool) : Nat → List Nat → List Bool → Core × Cats
  | n, v :: vs, bs =>
    let (g, e) := g.landValue fmt row n v add (bs.headD false)
    let (g, e2) := g.landValues fmt row add (n + 1) vs bs.tail
    (g, e ||| e2)
  | _, [], _ => (g, 0)

/-- A row lands (R217, R221): its values are written or added, and its events recorded. -/
def landRow (s : State) (gn : Nat) (w : RowWrite) : State :=
  let (g, e) := (s.core gn).landValues w.fmt w.row w.add 0 w.vals w.bad
  (s.setCore gn g).recordAt w.place (w.ev ||| e)

/-- The k-th row write lands when its cycle has come. -/
def rowLand (s : State) (gn k : Nat) : State :=
  match (s.core gn).rows[k]? with
  | none => s
  | some w =>
    if w.left ≤ 1 then landRow (s.modCore gn (fun g => { g with rows := g.rows.eraseIdx k })) gn w else s

/-- The end of a cycle for the row writes: those whose cycle comes next land. -/
def tickRows (s : State) (gn : Nat) : State :=
  let rs := (s.core gn).rows
  if rs.isEmpty then s
  else
    let s := s.modCore gn (fun g => { g with rows := (rs.filter (fun w => decide (1 < w.left))).map (fun w => { w with left := w.left - 1 }) })
    (rs.filter (fun w => decide (w.left ≤ 1))).foldl (fun s w => landRow s gn w) s

/-- A window cycle (R215): the next row pair is added when its data has reached the core, else the window has missed. -/
def Core.windowAdd (g : Core) (w : Window) : Core × Window :=
  let rows := [2 * w.next, 2 * w.next + 1].filter (fun r => decide (r < w.rows))
  let data := rows.filterMap (fun r => (w.ready.find? (fun p => p.1 == r)).map (fun p => p.2))
  let w' := { w with next := w.next + 1 }
  if data.length = rows.length then
    let cells := (data.map Prod.fst).flatten
    let bads := (data.map Prod.snd).flatten
    if w.fmt = 1 then
      let vals := (List.range 32).map (fun n => cells.getD (2 * n) 0 + 2 ^ 32 * cells.getD (2 * n + 1) 0)
      let bs := (List.range 32).map (fun n => bads.getD (2 * n) false || bads.getD (2 * n + 1) false)
      ((g.landValues 1 (w.row + 2 * w.next) true 0 vals bs).1, w')
    else ((g.landValues w.fmt (w.row + 2 * w.next) true 0 cells bads).1, w')
  else (g, { w' with missed := true })

/-- The end of a cycle for the windows; a window is dropped after its last cycle. -/
def Core.tickWins (g : Core) : Core :=
  if g.wins.isEmpty then g
  else
    let (g, ws) := g.wins.foldl (fun (p : Core × List Window) w =>
      if w.did then (p.1, p.2 ++ [{ w with did := false }])
      else if 1 < w.start then (p.1, p.2 ++ [{ w with start := w.start - 1 }])
      else if w.next < (w.rows + 1) / 2 then
        let (h, w) := p.1.windowAdd w
        (h, p.2 ++ [{ w with start := 0 }])
      else ({ p.1 with doneWins := p.1.doneWins ++ [w] }, p.2)) (g, [])
    { g with wins := ws }

/-- Forget the poison of the places `lo` to `hi - 1` of a space. -/
def Core.clearBadRange (g : Core) (space lo hi : Nat) : Core :=
  { g with poison := g.poison.filter (fun p => !(decide (poisonKey space lo ≤ p.1) && decide (p.1 < poisonKey space hi))) }

/-- A tile-path operation writes its result (R219). -/
def Core.landPath (g : Core) (p : PathOp) : Core :=
  if p.latch then
    let g := g.clearBadRange 3 (p.dest * 32768) ((p.dest + 1) * 32768)
    let g := p.bad.foldl (fun g k => g.setBad 3 k true) g
    { g with latch := (p.cols.zipIdx).foldl (fun m q => SMap.set [] m (p.dest * 32 + q.2) q.1) g.latch }
  else
    let g := g.clearBadRange 2 (p.dest * 2048) ((p.dest + 1) * 2048)
    let g := p.bad.foldl (fun g k => g.setBad 2 k true) g
    { g with tile := (p.words.zipIdx).foldl (fun m q => SMap.set 0 m (p.dest * 2048 + q.2) q.1) g.tile }

/-- The end of a cycle for the tile path. -/
def Core.tickPaths (g : Core) : Core :=
  if g.paths.isEmpty then g
  else
    let due := g.paths.filter (fun p => decide (p.left ≤ 1))
    let rest := (g.paths.filter (fun p => decide (1 < p.left))).map (fun p => { p with left := p.left - 1 })
    { due.foldl Core.landPath g with paths := rest }

/-- The k-th tile-path operation is done when its cycle has come. -/
def Core.pathDone (g : Core) (k : Nat) : Core :=
  match g.paths[k]? with
  | none => g
  | some p => if p.left ≤ 1 then { g.landPath p with paths := g.paths.eraseIdx k } else g

/-- Elements reach a latch (R218): element i of the command is latch element (i mod K, i div K). -/
def Core.landFlight (g : Core) (o : LatqOp) (f : Flight) : Core :=
  (f.codes.zipIdx f.first).foldl (fun g p =>
    let n := p.2 / o.k
    let k := p.2 % o.k
    let col := g.latCol o.lat n
    let col := (col ++ List.replicate (k + 1 - col.length) 0).set k p.1
    { g.setBad 3 (latPlace o.lat n k) f.bad with latch := SMap.set [] g.latch (o.lat * 32 + n) col }) g

/-- One pop of a `latq` (R218): surplus elements of the last entry are dropped. A `dx.qcfg` that changes QSINK while it runs changes how later entries
are converted, and neither the latch's tag nor K, which were copied at issue (DESIGN CHOICE, log entry 73). -/
def Core.latqPop (g : Core) (o : LatqOp) : Core × LatqOp :=
  if o.need ≤ o.next then (g, o)
  else match (g.queue o.q).pop with
    | none => (g, o)
    | some (ps, bad, q) =>
      let codes := (ps.map (fun p => p.code)).take (o.need - o.next)
      (g.setQueue o.q q, { o with next := o.next + codes.length, flight := o.flight ++ [⟨2, o.next, codes, bad, poppedCats ps⟩] })

/-- A cycle of a `latq`: elements popped two cycles ago are written, then at most two entries are popped. -/
def latqStep (s : State) (gn : Nat) (o : LatqOp) : State × Option LatqOp :=
  let due := o.flight.filter (fun f => decide (f.left ≤ 1))
  let s := due.foldl (fun s f => (s.modCore gn (fun g => g.landFlight o f)).recordAt o.place f.ev) s
  let o := { o with flight := (o.flight.filter (fun f => decide (1 < f.left))).map (fun f => { f with left := f.left - 1 }) }
  let g := s.core gn
  let (g, o) := if o.begun then (let (g, o) := g.latqPop o; g.latqPop o) else (g, { o with begun := true })
  (s.setCore gn g, if o.need ≤ o.next ∧ o.flight = [] then none else some o)

/-- The end of a cycle for the `latq` instructions, in issue order. -/
def tickLatqs (s : State) (gn : Nat) : State :=
  let os := (s.core gn).latqs
  if os.isEmpty then s
  else
    let (s, os) := os.foldl (fun (p : State × List LatqOp) o =>
      if o.did then (p.1, p.2 ++ [{ o with did := false }])
      else match latqStep p.1 gn o with | (s, some o) => (s, p.2 ++ [o]) | (s, none) => (s, p.2)) (s, [])
    s.modCore gn (fun g => { g with latqs := os })

/-- The entry that `accq` pushes for its next row (R222), and its poison. -/
def accqEntry (g : Core) (o : AccqOp) : Vec × Bool :=
  let first := if o.two then 2 * o.row * 32 else o.row * 32
  let n := if o.two then 64 else 32
  (ofLanes ((List.range n).map (fun i => g.cell (first + i))), (List.range n).any (fun i => g.bad 4 ((first + i) % 131072)))

/-- A cycle of an `accq` (R222). -/
def Core.accqStep (g : Core) (o : AccqOp) : Core × Option AccqOp :=
  if 0 < o.wait then (g, some { o with wait := o.wait - 1 })
  else
    let q := g.queue o.q
    if q.full || q.nside then (g, some o)
    else
      let (v, bad) := accqEntry g o
      (g.setQueue o.q (q.push v bad),
        if o.left ≤ 1 then none else some { o with row := (o.row + 1) % (if o.two then 2048 else 4096), left := o.left - 1 })

/-- The end of a cycle for the `accq` instructions. -/
def Core.tickAccqs (g : Core) : Core :=
  if g.accqs.isEmpty then g
  else
    let (g, os) := g.accqs.foldl (fun (p : Core × List AccqOp) o =>
      if o.did then (p.1, p.2 ++ [{ o with did := false }])
      else match p.1.accqStep o with | (g, some o) => (g, p.2 ++ [o]) | (g, none) => (g, p.2)) (g, [])
    { g with accqs := os }

/-- The end of a cycle for the busy bits (R212). -/
def Core.tickBusy (g : Core) : Core :=
  if g.busy.isEmpty then g
  else { g with busy := (g.busy.map (fun b => { b with left := b.left - 1 })).filter (fun b => b.left != 0) }

end Sys2Proof.Machine
end

