-- ==== Sys2Proof/Machine/Mace.lean ====
section
/-! DEFINITION. Mace, the trellis weight decoder (08_trellis.md R189-R202): the DX trellis cells and the engine's work of each cycle. -/

namespace Sys2Proof.Machine

/-- A write of TDA with its corrections (R190). -/
def tdaStore (v : W64) : W64 :=
  let l0 := tdL v
  let l1 := if l0 < 3 then 3 else if 16 < l0 then 16 else l0
  let mode := if tdMode v = 3 then 0 else tdMode v
  let l2 := if mode = 0 ∧ 12 < l1 then 12 else l1
  let out := if tdOut v = 2 ∨ tdOut v = 3 then tdOut v else 2
  let s0 := tdS v
  let s1 := if s0 < 2 then 2 else if 1024 < s0 then 1024 else s0 / 2 * 2
  BitVec.ofNat 64 (tdCbase v * 2 ^ 52 + s1 * 2 ^ 32 + out * 2 ^ 16 + mode * 2 ^ 8 + l2)

/-- A write of TDB with its corrections: every step field is from 1 to 4 (R190). -/
def tdbStore (v : W64) : W64 :=
  let steps := (List.range 8).map (fun j => let x := tdStep v j; if x = 0 then 1 else if 4 < x then 4 else x)
  BitVec.ofNat 64 (tdNstep v * 2 ^ 32 + packLanes 4 steps)

/-- `dx.tdef.wa` (R196). -/
def opDxTdefWa (t : BitVec 3) (a : BitVec 6) (c : Nat) (s : State) : Verdict :=
  .issued (s.modCore (coreOf c) (fun g => { g with tda := SMap.set tdaReset g.tda t.toNat (tdaStore (readS s c a.toNat)) }))
/-- `dx.tdef.wb` (R196). -/
def opDxTdefWb (t : BitVec 3) (a : BitVec 6) (c : Nat) (s : State) : Verdict :=
  .issued (s.modCore (coreOf c) (fun g => { g with tdb := SMap.set tdbReset g.tdb t.toNat (tdbStore (readS s c a.toNat)) }))
/-- `dx.tdef.ra` (R196). -/
def opDxTdefRa (t : BitVec 3) (a : BitVec 6) (c : Nat) (s : State) : Verdict :=
  .issued (exposeS s c 6 a.toNat ((s.core (coreOf c)).tdaOf t.toNat) 2 0)
/-- `dx.tdef.rb` (R196). -/
def opDxTdefRb (t : BitVec 3) (a : BitVec 6) (c : Nat) (s : State) : Verdict :=
  .issued (exposeS s c 6 a.toNat ((s.core (coreOf c)).tdbOf t.toNat) 2 0)

/-- A command takes the attach set and its token (R112, R115, R242): the tokens consumed, and the context after it. -/
def takeAttach (s : State) (c k : Nat) : List Nat × State :=
  ((s.ctx c).deps, s.modCtx c (fun x => { (x.tokPend k) with att := [] }))

/-- A Mace command enters the queue; a full queue blocks, and so does a pending token (R195, R115). The command that Mace is performing counts among
the 8 until it retires (DESIGN CHOICE, log entry 70). -/
def maceEnqueue (k : Nat) (c : Nat) (s : State) (mk : List Nat → MaceCmd) : Verdict :=
  let g := s.core (coreOf c)
  if (s.ctx c).tokPending k then .block (.token k) .none
  else if 8 ≤ g.mace.length then .block .maceFull .none
  else
    let (deps, s) := takeAttach s c k
    .issued (s.modCore (coreOf c) (fun g => { g with mace := g.mace ++ [mk deps] }))

/-- `dx.mdec` (R197): the command word and the definition are copied at issue. -/
def opDxMdec (b : BitVec 6) (t q : BitVec 3) (k : BitVec 5) (c : Nat) (s : State) : Verdict :=
  let g := s.core (coreOf c)
  let x := s.ctx c
  let cw := readS s c b.toNat
  maceEnqueue k.toNat c s (fun deps =>
    ⟨false, x.tid, x.rank, x.order, k.toNat, deps, q.toNat, cw, cw.toNat % 2 ^ 22 / 8, g.tdaOf t.toNat, g.tdbOf t.toNat, 3, false, 2,
      0, 0, 0, [], false, []⟩)

/-- `dx.tload` (R199). -/
def opDxTload (a b : BitVec 6) (k : BitVec 5) (c : Nat) (s : State) : Verdict :=
  let x := s.ctx c
  let cw := readS s c b.toNat
  maceEnqueue k.toNat c s (fun deps =>
    ⟨true, x.tid, x.rank, x.order, k.toNat, deps, 0, cw, (readS s c a.toNat).toNat % 2 ^ 22 / 8, 0, 0, 3, false, 0, 0, 0, 0, [], false, []⟩)

/-- The tag mode of a Mace command: 3 acts as 0 (R197). -/
def MaceCmd.mode (m : MaceCmd) : Nat :=
  let t := if m.load then m.cw.toNat / 2 ^ 30 % 4 else m.cw.toNat / 2 ^ 28 % 4
  if t = 3 then 0 else t

/-- A source word of Mace (R200): none while its bank is locked or serves an earlier agent of R157, or its tag is waited for, which Mace tests as it
stood before what the LD slot changes in the same cycle (R109); under mode 2 its tag becomes empty. -/
def Core.maceRead (g : Core) (mode w : Nat) : Option (W64 × Bool × Core) :=
  let w := w % spWords
  if g.locked [g.bank w] || g.taken [w] || (mode != 0 && !SMap.get false (g.tagWas.getD g.tag) w) then none
  else
    let h := g.use [w]
    some (SMap.get 0 g.sp w, g.bad 1 w, if mode = 2 then h.setTags [w] false else h)

/-- Bits of a list of words, the first lowest. -/
def wordsNat : List (W64 × Bool) → Nat
  | [] => 0
  | w :: r => w.1.toNat + 2 ^ 64 * wordsNat r

/-- Words of the unit being decoded are read until `n` of them are there (R200, R202); false while one must be waited for. A word is read in the
cycle in which the first lane that needs it is decoded, not before the cycle of the first push (DESIGN CHOICE, log entry 70). -/
def Core.maceFetch (g : Core) (m : MaceCmd) (n : Nat) : Nat → Core × MaceCmd × Bool
  | 0 => (g, m, decide (n ≤ m.words.length))
  | f + 1 =>
    if n ≤ m.words.length then (g, m, true)
    else match g.maceRead m.mode (m.src + m.words.length) with
      | none => (g, m, false)
      | some (v, b, g) => g.maceFetch { m with words := m.words ++ [(v, b)] } n f

/-- Words of a trellis segment up to bit position `pos` of weight (R192): SB of the segment when `pos` is pos(S - 1). -/
def segWords (pos : Nat) : Nat := (32 + pos + 63) / 64

/-- NSEG of a decode command (R197). -/
def MaceCmd.nseg (m : MaceCmd) : Nat := m.cw.toNat / 2 ^ 32 % 2 ^ 16

/-- The next lane of a decode command (R193, R197, R198): none while a source word must be waited for. -/
def maceDecode (g : Core) (m : MaceCmd) : Core × Option MaceCmd :=
  if tdMode m.tda = 2 then
    let (g, m, ok) := g.maceFetch m 5 5
    if !ok then (g, none)
    else
      let v := wordsNat m.words
      let i := m.elem
      let lane := m.cw.toNat / 2 ^ 48 * 2 ^ 16 + v / 2 ^ (8 * (32 + i / 8)) % 256 * 2 ^ 8 + v / 2 ^ (4 * i) % 16
      let bad := m.words.any (fun w => w.2)
      let m := { m with lanes := m.lanes ++ [lane], bad := m.bad || bad }
      if i = 63 then (g, some { m with unit := m.unit + 1, elem := 0, src := m.src + 5, words := [] })
      else (g, some { m with elem := i + 1 })
  else
    let (g, m, ok) := g.maceFetch m (max 1 ((31 + m.pos) / 64 + 1)) 64
    if !ok then (g, none)
    else
      let v := wordsNat m.words
      let L := tdL m.tda
      let out := Fmt.ofCode (tdOut m.tda)
      let w := (v % 2 ^ L + v / 2 ^ 32 * 2 ^ L) / 2 ^ m.pos % 2 ^ L
      let tp := tabPlace m.tda w
      let code := if tdMode m.tda = 1 then ((hashVal w).pack out .rne false 0).1
                  else (fconvert .f16 out .rne false 0 (SMap.get (0 : BitVec 16) g.tab tp).toNat).1
      let bad := (m.words.getD 0 (0, false)).2 || (m.words.getD ((32 + m.pos - L) / 64) (0, false)).2 || (m.words.getD ((31 + m.pos) / 64) (0, false)).2
        || (tdMode m.tda == 0 && g.bad 6 tp)
      let m' := { m with lanes := m.lanes ++ [v / 2 ^ 16 % 2 ^ 16 * 2 ^ 16 + code], bad := m.bad || bad }
      if m.elem + 1 = tdS m.tda then
        (g, some { m' with unit := m.unit + 1, elem := 0, pos := 0, src := m.src + segWords m.pos, words := [] })
      else (g, some { m' with elem := m.elem + 1, pos := m.pos + tdStep m.tdb (m.elem % (tdNstep m.tdb + 1)) })

/-- Has the command decoded all its units? -/
def MaceCmd.spent (m : MaceCmd) : Bool := decide (m.nseg ≤ m.unit)

/-- The entry of a decode command is pushed when the queue has room and a data entry is due (R198, R200). -/
def Core.macePush (g : Core) (m : MaceCmd) : Option (Core × MaceCmd) :=
  let q := g.queue m.q
  if q.full || q.nside then none
  else
    let v := ofLanes (m.lanes ++ List.replicate (64 - m.lanes.length) 0)
    some (g.setQueue m.q (q.pushMace v (tdMode m.tda == 2) (tdOut m.tda) m.bad), { m with lanes := [], bad := false })

/-- The number of the entry that a decode command is at (R200): its lanes so far, in whole entries. -/
def MaceCmd.entry (m : MaceCmd) : Nat :=
  (m.unit * (if tdMode m.tda = 2 then 64 else tdS m.tda) + m.elem - m.lanes.length) / 64

/-- The work of a decode command in one cycle: lanes are decoded, and at most `p` entries pushed. Entries leave in pairs, so that a lost cycle
delays every later entry too: none follows the second of a pair in its cycle (R200). -/
def maceWork (g : Core) (m : MaceCmd) (p : Nat) : Nat → Core × MaceCmd
  | 0 => (g, m)
  | f + 1 =>
    if m.lanes.length = 64 ∨ (m.spent = true ∧ m.lanes ≠ []) then
      if p = 0 then (g, m)
      else match g.macePush m with
        | none => (g, m)
        | some (g, n) => maceWork g n (if m.entry % 2 = 1 then 0 else p - 1) f
    else if m.spent then (g, m)
    else match maceDecode g m with
      | (g, none) => (g, m)
      | (g, some m) => maceWork g m p f

/-- COUNT of a table load (R199). -/
def MaceCmd.count (m : MaceCmd) : Nat := min (m.cw.toNat / 2 ^ 16 % 2 ^ 13) 4096

/-- Entries of a table load, four a word (R199); a locked bank or a waited-for tag stops it for this cycle. -/
def maceLoad (g : Core) (m : MaceCmd) : Nat → Core × MaceCmd
  | 0 => (g, m)
  | f + 1 =>
    if m.count ≤ m.elem then (g, m)
    else match g.maceRead m.mode (m.src + m.elem / 4) with
      | none => (g, m)
      | some (v, b, g) =>
        let n := min 4 (m.count - m.elem)
        let first := m.cw.toNat % 2 ^ 12
        let g := (List.range n).foldl (fun g j =>
          let e := (first + m.elem + j) % 4096
          { g.setBad 6 e b with tab := SMap.set (0 : BitVec 16) g.tab e (v.extractLsb' (16 * j) 16) }) g
        maceLoad g { m with elem := m.elem + n } f

/-- Does a `dx.tload` of the core hold its token (R188): queued or running? -/
def Core.tableLoads (g : Core) : Bool := g.mace.any (fun m => m.load)

/-- The trellis table as a `vx.tval` may find it in this cycle: with the entries that a `dx.tload` is writing (R201), and which entries these are. -/
def State.tableNext (s : State) (gn : Nat) : Core × (Nat → Bool) :=
  let g := s.core gn
  match g.mace with
  | m :: _ =>
    if m.load && (m.started || (m.wait == 0 && s.depsDone m.tid m.rank m.deps)) then
      let (h, n) := maceLoad g m 32
      (h, fun e => let k := (e + 4096 - m.cw.toNat % 2 ^ 12) % 4096; decide (m.elem ≤ k) && decide (k < n.elem))
    else (g, fun _ => false)
  | [] => (g, fun _ => false)

/-- `vx.tval` (R188): from the issue of a `dx.tload` until its token is done, each lane reads an unspecified FP32 value (a free value), but a lane
whose entry is written in this cycle sees it whole, old or new, which of them is open (R201; a free value, log entry 40); a poisoned entry is
consumed. -/
def opVxTval (d a : BitVec 6) (t : BitVec 3) (c : Nat) (s : State) : Verdict :=
  let g := s.core (coreOf c)
  let td := g.tdaOf t.toNat
  let (va, s) := readHeld s c a
  let ws := (elems .i32 va).map (fun x => x % 2 ^ tdL td)
  match tdMode td with
  | 1 => .issued (exposeV s c 4 d.toNat (ofLanes (ws.map (fun w => ((hashVal w).pack .f32 .rne false 0).1))) 4 0)
  | 2 => .issued (exposeV s c 4 d.toNat 0 4 0)
  | _ =>
    let (new, written) := s.tableNext (coreOf c)
    let any := s.freeAt (c * 8192 + 253)
    let seen := ws.zipIdx.map (fun p => (p.1, p.2, if (s.freeAt (c * 8192 + 254)).testBit p.2 then new else g))
    match seen.find? (fun p => p.2.2.bad 6 (tabPlace td p.1)) with
    | some p => .poison (localAddr 6 (coreOf c) (2 * tabPlace td p.1)) true
    | none =>
      let entry (h : Core) (w : Nat) : BitVec 16 := SMap.get 0 h.tab (tabPlace td w)
      .issued (exposeV s c 4 d.toNat (ofLanes (seen.map (fun p =>
        if g.tableLoads && !written (tabPlace td p.1) then any / 2 ^ (32 * p.2.1) % 2 ^ 32
        else (fconvert .f16 .f32 .rne false 0 (entry p.2.2 p.1).toNat).1))) 4 0)

/-- Is the work of a command done? -/
def MaceCmd.finished (m : MaceCmd) : Bool := if m.load then decide (m.count ≤ m.elem) else m.spent && m.lanes.isEmpty

/-- The queue without the commands that a test names: where the head goes, the next command starts a cycle later at the earliest (R195). -/
def maceWithout (out : MaceCmd → Bool) (l : List MaceCmd) : List MaceCmd :=
  let r := l.filter (fun m => !out m)
  if l.head?.any out then (match r with | n :: t => { n with wait := max n.wait 1 } :: t | [] => []) else r

/-- The head command retires, not in the cycle of its last push (R200): its token is done, and the next command starts a cycle later at the earliest (R195). -/
def maceRetire (s : State) (gn : Nat) : State :=
  match (s.core gn).mace with
  | [] => s
  | m :: r => if m.started && m.finished && (s.core gn).pushes == 0 then
      let next := match r with | n :: l => { n with wait := max n.wait 1 } :: l | [] => []
      (s.modCore gn (fun g => { g with mace := next })).retireTok m.tid m.rank m.tok (s.depTs m.tid m.rank m.deps) else s

/-- The head command starts when its cycle has come and its consumed tokens are done (R113, R195). -/
def maceStart (s : State) (gn : Nat) : State :=
  match (s.core gn).mace with
  | [] => s
  | m :: r =>
    if !m.started && m.wait == 0 && s.depsDone m.tid m.rank m.deps then
      s.modCore gn (fun g => { g with mace := { m with started := true } :: r })
    else s

/-- How many entries the head command may still push in the present cycle (R200): two in all, and none after the second of a pair. -/
def Core.macePushes (g : Core) : Nat :=
  match g.mace with
  | [] => 0
  | m :: _ => if g.pushes = 1 ∧ m.entry % 2 = 0 then 0 else 2 - g.pushes

/-- The started head command works for one cycle: it pushes at most `p` entries. -/
def macePushStep (s : State) (gn p : Nat) : State :=
  let g := s.core gn
  match g.mace with
  | [] => s
  | m :: r =>
    if !m.started then s
    else if 0 < m.lag then s.setCore gn { g with mace := { m with lag := m.lag - 1 } :: r }
    else
      let (g, m) := if m.load then maceLoad g m 32 else maceWork g m p 140
      s.setCore gn { g with mace := m :: r }

/-- The end of a cycle for Mace: a command without a unit to decode or an entry to load retires in the cycle of its start (R197, R199). -/
def tickMace (s : State) (gn : Nat) : State :=
  if (s.core gn).mace.isEmpty then s
  else
    let s := maceRetire (maceStart (maceRetire s gn) gn) gn
    let s := s.modCore gn (fun g => { g with mace := g.mace.map (fun m => { m with wait := m.wait - 1 }) })
    (macePushStep s gn (s.core gn).macePushes).modCore gn (fun g => { g with pushes := 0 })

/-- A task's Mace commands are cancelled at the next entry boundary, and their tokens are done (R202). An entry that is partly filled is neither
completed nor pushed: its lanes are dropped at once (DESIGN CHOICE, log entry 70). -/
def maceCancel (s : State) (gn tid : Nat) : State :=
  let ms := (s.core gn).mace
  let s := s.modCore gn (fun g => { g with mace := maceWithout (fun m => m.tid == tid) ms })
  (ms.filter (fun m => m.tid == tid)).foldl (fun s m => s.retireTok m.tid m.rank m.tok (s.depTs m.tid m.rank m.deps)) s

/-- The pops and pushes of the queue engines in a cycle: latq, then accq, then Mace (R185, R218, R222). -/
def queueEngines (s : State) (gn : Nat) : State :=
  if (s.core gn).engDone then s
  else
    let s := tickLatqs s gn
    let s := s.modCore gn Core.tickAccqs
    (tickMace s gn).modCore gn (fun g => { g with engDone := true })

end Sys2Proof.Machine
end

