-- ==== Sys2Proof/Machine/Exchange.lean ====
section
/-! DEFINITION. The DX cells of the copy engines, atomics and queue control (10_copy.md R240-R245, 14_dispatch.md R313). -/

namespace Sys2Proof.Machine

/-- `dx.kdep` (R242). -/
def opDxKdep (a b e : BitVec 5) (c : Nat) (s : State) : Verdict :=
  .issued (s.modCtx c (fun x => { x with att := [a.toNat, b.toNat, e.toNat] }))

/-- `dx.aqpop` (R243): blocks while the oldest reserved entry has no value yet. -/
def opDxAqpop (d : BitVec 6) (c : Nat) (s : State) : Verdict :=
  match (s.ctx c).aq with
  | [] => .block .aqEmpty .none
  | e :: r =>
    if !e.arrived then .block .aqEmpty .none
    else .issued (exposeS (s.modCtx c (fun x => { x with aq := r })) c 6 d.toNat e.val 2 0)

/-- A queue-control action: after the pops and pushes of its cycle by the queue engines (R244). -/
def qControl (q : BitVec 3) (f : Queue → Queue) (c : Nat) (s : State) : Verdict :=
  let s := queueEngines s (coreOf c)
  .issued (s.modCore (coreOf c) (fun g => g.setQueue q.toNat (f (g.queue q.toNat))))

/-- `dx.qcfg.cfg` (R244, R245). -/
def opDxQcfgCfg (q : BitVec 3) (a : BitVec 6) (c : Nat) (s : State) : Verdict := qControl q (fun x => x.setCfg (readS s c a.toNat)) c s
/-- `dx.qcfg.cal` (R244, R82). -/
def opDxQcfgCal (q : BitVec 3) (a : BitVec 6) (c : Nat) (s : State) : Verdict :=
  qControl q (fun x => { x with cal := calStore (readS s c a.toNat) }) c s
/-- `dx.qcfg.key` (R244). -/
def opDxQcfgKey (q : BitVec 3) (a : BitVec 6) (c : Nat) (s : State) : Verdict := qControl q (fun x => { x with key := readS s c a.toNat }) c s
/-- `dx.qcfg.ctr` (R244). -/
def opDxQcfgCtr (q : BitVec 3) (a : BitVec 6) (c : Nat) (s : State) : Verdict := qControl q (fun x => { x with ctr := readS s c a.toNat }) c s
/-- `dx.qstep` (R81, R244); its s field is not read. -/
def opDxQstep (q : BitVec 3) (_a : BitVec 6) (c : Nat) (s : State) : Verdict := qControl q Queue.step c s
/-- `dx.qstep.wsat` (R244). -/
def opDxQstepWsat (q : BitVec 3) (a : BitVec 6) (c : Nat) (s : State) : Verdict :=
  qControl q (fun x => { x with nsat := (readS s c a.toNat).setWidth 32 }) c s
/-- `dx.qstep.flush` (R244); its s field is not read. -/
def opDxQstepFlush (q : BitVec 3) (_a : BitVec 6) (c : Nat) (s : State) : Verdict := qControl q Queue.flush c s

/-- A queue register read (R244): it sees the pops and pushes of its own cycle. -/
def qRead (q : BitVec 3) (d : BitVec 6) (f : Queue → W64) (c : Nat) (s : State) : Verdict :=
  let s := queueEngines s (coreOf c)
  .issued (exposeS s c 6 d.toNat (f ((s.core (coreOf c)).queue q.toNat)) 2 0)

/-- `dx.qrd.cfg`. -/
def opDxQrdCfg (q : BitVec 3) (d : BitVec 6) := qRead q d Queue.cfg
/-- `dx.qrd.cal`. -/
def opDxQrdCal (q : BitVec 3) (d : BitVec 6) := qRead q d (fun x => x.cal.setWidth 64)
/-- `dx.qrd.amax`. -/
def opDxQrdAmax (q : BitVec 3) (d : BitVec 6) := qRead q d (fun x => x.amax.setWidth 64)
/-- `dx.qrd.sat`. -/
def opDxQrdSat (q : BitVec 3) (d : BitVec 6) := qRead q d (fun x => x.nsat.setWidth 64)

/-! ### `dx.cpost` (R241, R313) -/

/-- A field of a word. -/
def fieldOf (w : W64) (hi lo : Nat) : Nat := w.toNat / 2 ^ lo % 2 ^ (hi + 1 - lo)

/-- A word with a field replaced. -/
def setField (w : W64) (hi lo v : Nat) : W64 :=
  BitVec.ofNat 64 (w.toNat % 2 ^ lo + v % 2 ^ (hi + 1 - lo) * 2 ^ lo + w.toNat / 2 ^ (hi + 1) * 2 ^ (hi + 1))

/-- The scratchpad words of the image of a packet or record (R156, R241): none in a window of no lines. -/
def imageWords (s : State) (c : Nat) (b : BitVec 6) (n : Nat) : List Nat :=
  let x := s.ctx c
  let base := (readS s c b.toNat).toNat % 2 ^ 22
  if x.spLines = 0 then [] else (List.range n).map (fun i => x.wrapWord (base + 8 * i))

/-- The image of a packet or record: `n` scratchpad words, as `ld.w` would read them (R156, R241). -/
def readImage (s : State) (c : Nat) (b : BitVec 6) (n : Nat) : Except W64 (List W64) :=
  if (s.ctx c).spLines = 0 then .ok (List.replicate n 0)
  else readWords (s.core (coreOf c)) (coreOf c) (imageWords s c b n)

/-- The image as it is stored (R241, R313): SEQ, PTOK, the attach set, and for a packet PCTX. -/
def stampImage (ws : List W64) (launch : Bool) (seq k c : Nat) (att : List Nat) : List W64 :=
  match ws with
  | w0 :: r =>
    let w0 := setField w0 63 40 seq
    let w0 := setField w0 39 35 k
    let w0 := setField w0 34 30 (att.getD 0 0)
    let w0 := setField w0 29 25 (att.getD 1 0)
    let w0 := setField w0 24 20 (att.getD 2 0)
    w0 :: (if launch then r else r.zipIdx.map (fun p => if p.2 = 2 then setField p.1 54 44 c else p.1))
  | [] => []

/-- The window that an image with DSP 2 registers at issue (R215, R241): offset, first row, rows, type. The image is not checked before its
acceptance, so the window of a packet that is rejected then passes as well, on the core that posts it (DEDUCED, log entry 15). -/
def imageWindow (ws : List W64) : Option (Nat × Nat × Nat × Nat) :=
  let w0 := wordAt ws 0
  let dst := wordAt ws 2
  if fieldOf w0 4 3 = 2 then some (max 8 (fieldOf dst 57 48), fieldOf dst 11 0, fieldOf (wordAt ws 3) 43 32 + 1, fieldOf w0 15 12)
  else none

/-- SCHEDV of a windowed packet (R216). Of several violations, four windows are reported first, then a claimed cycle, then a window (DESIGN CHOICE,
log entry 72). -/
def windowClash (g : Core) (off rows : Nat) : Option W64 :=
  let cs := (List.range ((rows + 1) / 2)).map (fun j => off + j)
  if 4 ≤ g.wins.length then some (schedInfo 6 7 0)
  else match (cs.filter (fun t => g.claims.contains t)).head? with
    | some t => some (schedInfo 4 7 t)
    | none => match g.meetsWindow cs with
      | some (i, t) => some (schedInfo 5 i t)
      | none => none

/-- The stores of an image to its slot (R230, R241): words 1 and on, then word 0. -/
def slotStores (ws : List W64) (pa : Option Nat) (va asid : Nat) : List Store :=
  ((ws.zipIdx.drop 1) ++ ws.zipIdx.take 1).map (fun p => ⟨pa.map (fun a => a + 8 * p.2), va + 8 * p.2, asid, 8, p.1.toNat⟩)

/-- The claim and the post (R241): WIDX rises by one in one step at the home L2, the image is stored to the slot, the attach set is cleared,
the token is pending; an amo reserves a return entry; a windowed packet registers its window. A slot whose page is absent keeps its stores waiting,
one that is refused makes the context take ACCESS at its next bundle boundary (R369). -/
def postImage (s : State) (c line pa : Nat) (h : QHead) (ws : List W64) (k : Nat) : State :=
  let x := s.ctx c
  let gn := coreOf c
  let (seq, _, s) := s.rmwPhys (.core gn) pa 8 (fun v => (v + 1) % 2 ^ 64)
  let img := stampImage ws h.launch (seq % 2 ^ 24) k c x.att
  let va := h.ring + (if h.launch then 128 else 64) * (seq % 2 ^ h.lsize)
  let amo := !h.launch && fieldOf (wordAt ws 0) 19 16 == 8
  let s := match (if h.launch then none else imageWindow ws) with
    | none => s
    | some (off, row, rows, fmt) => s.modCore gn (fun g =>
        { g with wins := g.wins ++ [(⟨off, row, rows, 0, fmt, x.tid, x.rank, seq, line, [], false, false⟩ : Window)] })
  let s := { s with claims := s.claims ++ [(⟨line, seq, x.tid, x.rank, x.order, k, x.deps, false, false⟩ : Claim)] }
  let s := s.modCtx c (fun y => { (y.tokPend k) with
    att := []
    posted := if h.launch then y.posted else y.posted + 1
    aq := if amo then y.aq ++ [(⟨line, seq, false, 0⟩ : AqEntry)] else y.aq })
  match translate s (dieOf gn) (.core gn) h.asid va .write false with
  | .ok p _ s => s.modCtx c (fun y => { y with stores := y.stores ++ slotStores img (some p) va h.asid })
  | .absent _ s => s.modCtx c (fun y => { y with stores := y.stores ++ slotStores img none va h.asid })
  | .wait => s.modCtx c (fun y => { y with stores := y.stores ++ slotStores img none va h.asid })
  | .refused s => s.modCtx c (fun y => { y with refused := some va })

/-- The queue whose descriptor a `dx.cpost` names, with the state after its translation: physical address, leaf, header; none where the claim
traps or its page is absent (R241). -/
def namedQueue (s : State) (c va : Nat) : Option (Nat × W64 × QHead × State) :=
  if !canonical va || va % 64 != 0 then none
  else match translate s (dieOf (coreOf c)) (.core (coreOf c)) (s.asidOf c) va .rmw (s.ctx c).kLevel with
    | .ok pa pte s => match s.qheads.find? (fun p => p.1 == pa / 64) with
      | some (_, h) => some (pa, pte, h, s)
      | none => none
    | _ => none

/-- Words of an image: 16 of a launch record, 8 of a packet (R241, R313). -/
def QHead.words (h : QHead) : Nat := if h.launch then 16 else 8

/-- The claim of a `dx.cpost` whose queue is known: its earlier stores precede it (R99); a locked bank, a home out of reach and stores that
cannot be performed yet freeze the core (R22), then a pending token, a full queue or a full return queue blocks (R20). -/
def claimSlot (b : BitVec 6) (k : BitVec 5) (c va pa : Nat) (pte : W64) (h : QHead) (s : State) : Verdict :=
  let gn := coreOf c
  let s := flushStores s c
  let x := s.ctx c
  let g := s.core gn
  if g.locked ((imageWords s c b h.words).map g.bank) || !s.reach (dieOf gn) pa || !x.stores.isEmpty then .stall
  else if x.tokPending k.toNat then .block (.token k.toNat) .none
  else match readImage s c b h.words with
    | .error a => .poison a true
    | .ok ws =>
      if s.badAt pa 16 then .poison (vaWord va) (pteContain pte) (some 1)
      else if 2 ^ h.lsize ≤ ((s.word pa) - (s.word (pa + 8))).toNat then .block .queueFull (.watch (pa / 64))
      else if !h.launch && fieldOf (wordAt ws 0) 19 16 == 8 && decide (16 ≤ x.aq.length) then .block .returnsFull .none
      else match (if h.launch then none else imageWindow ws) with
        | some (off, _, rows, _) => match windowClash g off rows with
          | some info => .trap 6 info
          | none => .issued (postImage s c (pa / 64) pa h ws k.toNat)
        | none => .issued (postImage s c (pa / 64) pa h ws k.toNat)

/-- `dx.cpost` (R241, R313). A descriptor address that reaches no queue: the wait for its walk, or its absent page, comes before a blocking condition
(R22, R367). -/
def opDxCpost (a b : BitVec 6) (k : BitVec 5) (c : Nat) (s : State) : Verdict :=
  let va := (readS s c a.toNat).toNat
  match namedQueue s c va with
  | some (pa, pte, h, s) => claimSlot b k c va pa pte h s
  | none =>
    let wait (v : Verdict) : Verdict := if (s.ctx c).tokPending k.toNat then .block (.token k.toNat) .none else v
    if !canonical va || va % 64 != 0 then wait (.trap 10 (BitVec.ofNat 64 va))
    else match translate s (dieOf (coreOf c)) (.core (coreOf c)) (s.asidOf c) va .rmw (s.ctx c).kLevel with
      | .absent l _ => .absent (s.asidOf c) va .rmw l
      | .wait => .stall
      | _ => wait (.trap 11 (BitVec.ofNat 64 va))

end Sys2Proof.Machine
end

