-- ==== Sys2Proof/Machine/Engine.lean ====
section
/-! DEFINITION. What Anise, Clove and the schedule walkers share: ordinary accesses to the virtual space that may stop at an absent page
(16_faults.md R362, R373), failures with a code (11_kvblocks.md R258), the sending of a command from the SQ slot (R20, R115, R262, R281,
R350), its turn, and its retirement. -/

namespace Sys2Proof.Machine

/-- Why a command of an engine does not go through. -/
inductive Halt where
  /-- it fails with a code (R258, R279, R345) -/
  | fail (code : Nat)
  /-- a page is absent (R362): ASID, address, kind of access, level -/
  | absent (asid va : Nat) (acc : Acc) (lvl : Nat)
  /-- a poisoned word was read (R377), on a page whose CNT is 0 (true) or 1 -/
  | poison (kill : Bool)
  /-- the home of an address cannot be reached now (R392) -/
  | wait
  deriving DecidableEq, Repr

/-- A halt, with the node block that the command had allocated (R278): die, pool and address; and the state that the command saw when it came. -/
structure Stop where
  halt : Halt
  blk : Option (Nat × Nat × Nat)
  seen : State
  deriving DecidableEq, Repr

/-- The steps of a command: all of them take place, or none (R373). -/
abbrev Eng := StateT State (Except Stop)

/-- The command fails. -/
def efail {α : Type} (code : Nat) : Eng α := fun s => .error ⟨.fail code, none, s⟩

/-- The home of an address cannot be reached now, or a bank is locked. -/
def ewait {α : Type} : Eng α := fun s => .error ⟨.wait, none, s⟩

/-- The command has read poison (R377). -/
def epoison {α : Type} (kill : Bool) : Eng α := fun s => .error ⟨.poison kill, none, s⟩

/-- The command fails unless a condition holds. -/
def echeck (b : Bool) (code : Nat) : Eng Unit := fun s => if b then .ok ((), s) else .error ⟨.fail code, none, s⟩

/-- For whom an engine reaches memory: the agent, the die whose walkers serve it, the ASID and the level (R353, R358). -/
structure Via where
  agent : Agent
  die : Nat
  asid : Nat
  k : Bool
  deriving DecidableEq, Repr

/-- The translation of an access. -/
def eTrans (w : Via) (va : Nat) (acc : Acc) : Eng (Nat × W64) := fun s =>
  match translate s w.die w.agent w.asid va acc w.k with
  | .refused s => efail 10 s
  | .wait => ewait s
  | .absent l s => .error ⟨.absent w.asid va acc l, none, s⟩
  | .ok pa pte s => if s.reach w.die pa then .ok ((pa, pte), s) else ewait s

/-- The clocks of agents and the read leases on lines stand where a command that has halted has brought them (04_memory.md R101). -/
def State.keepLeases (s u : State) : State :=
  { s with pts := u.pts, lines := u.lines.foldl (fun m p => let (w, r) := SMap.get (0, 0) m p.1; SMap.set (0, 0) m p.1 (w, max r p.2.2)) s.lines }

/-- A command of an agent that has halted leaves only what its reads and walks have done: A and D that they set stay, so do the translations that
the agent holds (R359, R360), and its clock and the lines' leases stand where the reads have brought them (04_memory.md R101). -/
def State.after (s : State) (a : Agent) (e : Stop) : State :=
  (e.seen.tlbs.foldr (fun t s =>
    if s.tlbs.contains t then s
    else
      let s := if s.word t.at_ = t.pte then s else s.storePhys t.agent t.at_ 8 t.pte.toNat
      { s with tlbs := t :: s.tlbs.filter (fun x => !(x.agent = t.agent && x.asid == t.asid && x.vpn == t.vpn)) })
    ((s.keepLeases e.seen).raise a (e.seen.ptsOf a)))

/-- An ordinary read of `n` bytes (R98); poison ends the command (R377). -/
def eReadN (w : Via) (va n : Nat) : Eng Nat := fun s =>
  match eTrans w va .read s with
  | .error e => .error e
  | .ok ((pa, pte), s) =>
    let (v, bad, s) := s.loadPhys w.agent pa n true
    if bad then epoison (!pteContain pte) s else .ok (v, s)

/-- An ordinary 8-byte read. -/
def eRead (w : Via) (va : Nat) : Eng W64 := fun s =>
  match eReadN w va 8 s with
  | .error e => .error e
  | .ok (v, s) => .ok (BitVec.ofNat 64 v, s)

/-- An ordinary 8-byte write. -/
def eWrite (w : Via) (va : Nat) (v : W64) : Eng Unit := fun s =>
  match eTrans w va .write s with
  | .error e => .error e
  | .ok ((pa, _), s) => .ok ((), s.storePhys w.agent pa 8 v.toNat)

/-- One read-modify-write point (R102). -/
def eRmw (w : Via) (va : Nat) (f : W64 → W64) : Eng Unit := fun s =>
  match eTrans w va .rmw s with
  | .error e => .error e
  | .ok ((pa, pte), s) =>
    let (_, bad, t) := s.rmwPhys w.agent pa 8 (fun v => (f (BitVec.ofNat 64 v)).toNat)
    if bad then epoison (!pteContain pte) (s.loadHome w.agent pa 1) else .ok ((), t)

/-- Words one after another from an address. -/
def eReads (w : Via) (va : Nat) : Nat → Eng (List W64)
  | 0 => pure []
  | n + 1 => do
    let x ← eRead w va
    let r ← eReads w (va + 8) n
    pure (x :: r)

/-- Words written one after another. -/
def eWrites (w : Via) (va : Nat) : List W64 → Eng Unit
  | [] => pure ()
  | x :: r => do
    eWrite w va x
    eWrites w (va + 8) r

/-- A loop over a list. -/
def eFor {α : Type} (l : List α) (f : α → Eng Unit) : Eng Unit :=
  match l with
  | [] => pure ()
  | x :: r => do
    f x
    eFor r f

/-- ERR of a record or block takes a code (R258, R345): bits [63:56] of the word that holds it. -/
def putErr (w : Via) (va code : Nat) : Eng Unit := eRmw w va (fun v => setField v 63 56 code)

/-- The steps of a command on the state: its value and the new state, or why it stops. -/
def Eng.on {α : Type} (m : Eng α) (s : State) : Except Stop (α × State) := m s

/-- The code is written; a record that cannot be read or written receives none (R279). An absent page, or a home out of reach, halts. -/
def writeErr (w : Via) (va code : Nat) (s : State) : Except (Halt × State) State :=
  if !canonical va || va % 8 != 0 then .ok s
  else match putErr w va code s with
    | .ok (_, s) => .ok s
    | .error e => match e.halt with
      | .absent asid va acc lvl => .error (.absent asid va acc lvl, s.after w.agent e)
      | .wait => .error (.wait, s.after w.agent e)
      | _ => .ok (s.after w.agent e)

/-- The code is written where that is possible now. -/
def tryErr (w : Via) (va code : Nat) (s : State) : State :=
  match writeErr w va code s with
  | .ok s => s
  | .error e => e.2

/-! ### Sending a command from the SQ slot -/

/-- The commands of a context, by task and rank, among a list. -/
def heldBy (l : List SqCmd) (tid rank : Nat) : Nat := (l.filter (fun q => q.tid == tid && q.rank == rank)).length

/-- A command as its context issues it. -/
def mkCmd (s : State) (c op x : Nat) (a b : W64) (k : Nat) (deps : List Nat) : SqCmd :=
  let y := s.ctx c
  ⟨0, op, x, coreOf c, y.tid, y.rank, c, y.order, s.asidOf c, y.kLevel, a, b, k, deps, 3, false, [], 0, (y.handle, y.pc), 0, false⟩

/-- A QA command (R250): a pending token blocks (R115), so does a context that holds `lim` commands of the unit; the context's stores come
first (R116); the attach set is consumed where the cell does so (R242). -/
def sendCmd (unit lim op x : Nat) (a b : BitVec 6) (k : BitVec 5) (held : State → Nat → Nat → Nat) (put : State → SqCmd → State) (c : Nat)
    (s : State) : Verdict :=
  let y := s.ctx c
  if y.tokPending k.toNat then .block (.token k.toNat) .none
  else if lim ≤ held s y.tid y.rank then .block (.sequence unit) .none
  else if s.stuck c then .stall
  else
    let q := mkCmd s c op x (readS s c a.toNat) (readS s c b.toNat) k.toNat y.deps
    let (_, s) := takeAttach (flushStores s c) c k.toNat
    let s := { s with serial := s.serial + 1 }
    .issued (put s { q with serial := s.serial, ts := s.ptsOf (.core (coreOf c)) })

/-- A command whose reply lands in a register (R263, R270, R348): sent once, its reply kept until its bundle issues; the later accesses of the
core then follow what the command has written. -/
def askCmd (unit lim op x : Nat) (d a b : BitVec 6) (held : State → Nat → Nat → Nat) (c : Nat) (s : State) : Verdict :=
  let y := s.ctx c
  match y.asks.find? (fun r => r.handle == y.handle && r.pc == y.pc && r.op == op) with
  | some r => match r.reply with
    | none => .stall
    | some v => .issued (exposeS ((s.modCtx c (fun z => { z with asks := z.asks.filter (fun t => t.serial != r.serial) })).raise
        (.core (coreOf c)) r.ts) c 7 d.toNat v 2 0)
  | none =>
    if lim ≤ held s y.tid y.rank then .block (.sequence unit) .none
    else if s.stuck c then .stall
    else .asking (mkCmd s c op x (readS s c a.toNat) (readS s c b.toNat) 0 [])

/-- An agent takes up a command: its accesses follow the poster's stores before the post (R116) and the effects of the tokens that the
command consumes (R113). -/
def State.takeUp (s : State) (a : Agent) (q : SqCmd) : State := s.raise a (max q.ts (s.depTs q.tid q.rank q.deps))

/-- A command retires at an agent: its token is done (R112). -/
def retireCmd (s : State) (a : Agent) (q : SqCmd) : State := s.retireTok q.tid q.rank q.tok (s.ptsOf a)

/-- A reply of an agent reaches its bundle (R263), after the command's writes (R270, R348). -/
def giveReply (s : State) (a : Agent) (q : SqCmd) (v : W64) : State :=
  (s.modWho q.tid q.rank (fun y => { y with asks := y.asks.map (fun r =>
    if r.serial = q.serial then { r with reply := some v, ts := s.ptsOf a } else r) })).noteTs q.tid (s.ptsOf a)

/-- The reply of a failure (R263, R270, R342). -/
def failReply (code : Nat) : W64 := BitVec.ofNat 64 (0xFFFF000000000000 + code)

/-- Is the command of a replay, where Anise and Clove cells fail with STATE (R384)? -/
def State.inReplay (s : State) (tid : Nat) : Bool := (s.task tid).replay.isSome

/-- Is a task auditable or a replay (R384)? -/
def State.audited (s : State) (tid : Nat) : Bool := (s.task tid).aud || (s.task tid).replay.isSome

/-- A fault of a sequence engine's command (R362, R363): the record's agent code and WHO. -/
def cmdFault (s : State) (die agent who : Nat) (q : SqCmd) (asid va : Nat) (acc : Acc) (lvl : Nat) (k : Bool) : State :=
  let f : FaultRec := ⟨none, agent, va % 2 ^ 48, asid, acc.code, k, lvl, q.tid, who, q.rank, q.serial, false⟩
  s.modDie die (fun d => { d with faults := d.faults ++ [f] })

/-- The commands of a list, in order, that cannot go now and let others pass: those that stand for themselves, and those that an earlier one
of these holds back. -/
def heldBack (alone : SqCmd → Bool) (holds : SqCmd → SqCmd → Bool) (l : List SqCmd) : List SqCmd :=
  l.foldl (fun acc o => if alone o || acc.any (fun h => holds h o) then acc ++ [o] else acc) []

/-- Does an earlier command hold back a later one of a unit (R261, R350): one that waits for its tokens or is stopped, and conflicts with it? A
squash that waits for its tokens holds nothing back, and nothing that waits for tokens holds a squash back. -/
def SqCmd.holds (conflict : SqCmd → SqCmd → Bool) (h o : SqCmd) : Bool := conflict h o && (h.stopped || !(h.op == 15 || o.op == 15))

/-- Can a command not start yet: it is stopped, or its tokens are not done (R113)? -/
def State.cmdWaits (s : State) (q : SqCmd) : Bool := q.stopped || !s.depsDone q.tid q.rank q.deps

/-- A squash whose tokens were not done when it arrived takes the first turn of its unit after they are (R261). -/
def State.goesFirst (s : State) (l : List SqCmd) (conflict : SqCmd → SqCmd → Bool) (q : SqCmd) : Bool :=
  q.op == 15 && q.phase == 1 && q.wait == 0 && !s.cmdWaits q && !l.any (fun h => h.stopped && conflict h q)

/-- May the k-th command of a list, which is in order of arrival, take its turn at the unit whose commands `mine` tells (R261, R350)? They are
performed in that order; one that waits for its tokens or at an absent page, and those that it holds back, let the others pass. -/
def mayTurn (s : State) (l : List SqCmd) (k : Nat) (mine : SqCmd → Bool) (conflict : SqCmd → SqCmd → Bool) : Bool :=
  match l[k]? with
  | none => false
  | some q =>
    let before := (l.take k).filter (fun o => o.wait == 0 && mine o)
    let held := heldBack s.cmdWaits (SqCmd.holds conflict) before
    q.wait == 0 && mine q && !s.cmdWaits q && !held.any (fun h => h.holds conflict q) &&
    (if s.goesFirst l conflict q then !before.any (s.goesFirst l conflict)
     else before.all (fun o => held.any (fun h => h.serial == o.serial)) && !l.any (fun o => mine o && s.goesFirst l conflict o))

/-! ### Arrival (R261, R350) -/

/-- Put a command at its place among those that arrive in one cycle. -/
def arriveAt (less : SqCmd → SqCmd → Bool) (q : SqCmd) : List SqCmd → List SqCmd
  | [] => [q]
  | o :: r => if less q o then q :: o :: r else o :: arriveAt less q r

/-- A cycle of core g passes for the commands of a list on their way from it: those that have arrived stand first, in the order of their
arrival; commands of one context arrive in issue order, each in a cycle of its own, those of several in one cycle as `less` says; a squash is marked whose tokens are not done. -/
def arrivals (s : State) (g : Nat) (less : SqCmd → SqCmd → Bool) (l : List SqCmd) : List SqCmd :=
  let (old, new, way) := l.foldl (fun (p : List SqCmd × List SqCmd × List SqCmd) q =>
    if q.wait = 0 then (p.1 ++ [q], p.2.1, p.2.2)
    else
      let q := if q.core = g then { q with wait := q.wait - 1 } else q
      if q.wait = 0 && !(p.2.1 ++ p.2.2).any (fun o => o.tid == q.tid && o.rank == q.rank) then
        (p.1, arriveAt less { q with phase := if q.op == 15 && s.cmdWaits q then 1 else q.phase } p.2.1, p.2.2)
      else (p.1, p.2.1, p.2.2 ++ [{ q with wait := max 1 q.wait }])) ([], [], [])
  old ++ new ++ way

end Sys2Proof.Machine
end

