-- ==== Sys2Proof/Machine/Anise.lean ====
section
/-! DEFINITION. Anise, the block engine and KV tables (11_kvblocks.md R250-R271): its SQ cells, pools, blocks, the prefix table, record
commands as one step each, quarantine and the registration of a pool. -/

namespace Sys2Proof.Machine

/-! ### Pools and blocks (R252-R255) -/

/-- A pool of a die. -/
def Die.pool (d : Die) (p : Nat) : Pool := SMap.get Pool.init d.pools p
/-- Replace a pool. -/
def Die.setPool (d : Die) (p : Nat) (x : Pool) : Die := { d with pools := SMap.set Pool.init d.pools p x }

/-- The name of a pool in the package: its die and number; a selector's bit 4 names the die (R253). -/
structure PoolRef where
  die : Nat
  num : Nat
  deriving DecidableEq, Repr

/-- The pool that a selector names. -/
def selPool (sel : Nat) : PoolRef := ⟨sel % 32 / 16, sel % 16⟩

/-- A pool's registers. -/
def State.poolAt (s : State) (p : PoolRef) : Pool := (s.die p.die).pool p.num

/-- Change a pool. -/
def State.modPool (s : State) (p : PoolRef) (f : Pool → Pool) : State := s.modDie p.die (fun d => d.setPool p.num (f (d.pool p.num)))

/-- Positions per block of a KV pool (R252, BPOS). -/
def Pool.positions (p : Pool) : Nat := 16 * 2 ^ (p.bpos - 1)

/-- Is the pool a registered KV pool of an address space? -/
def Pool.isKv (p : Pool) (asid : Nat) : Bool := p.en && p.asid == asid && p.bpos != 0

/-- Is it a registered plain pool of an address space? -/
def Pool.isPlain (p : Pool) (asid : Nat) : Bool := p.en && p.asid == asid && p.bpos == 0

/-- Does the pool hold an address? -/
def Pool.holds (p : Pool) (a : Nat) : Bool := p.en && decide (p.base ≤ a) && decide (a < p.base + p.nblk * 2 ^ p.bsz)

/-- The start of the block that holds an address. -/
def Pool.blockOf (p : Pool) (a : Nat) : Nat := p.base + (a - p.base) / 2 ^ p.bsz * 2 ^ p.bsz

/-- The place of a block's metadata word (R254). -/
def Pool.metaAt (p : Pool) (a : Nat) : Nat := sx48 p.pmeta + 8 * ((a - p.base) / 2 ^ p.bsz)

/-- How Anise of the pool's die reaches the pool's metadata and prefix table, at a level. -/
def poolVia (p : PoolRef) (x : Pool) (k : Bool) : Via := ⟨.anise p.die, p.die, x.asid, k⟩

/-- The registers of a pool, in a command. -/
def ePool (p : PoolRef) : Eng Pool := fun s => .ok (s.poolAt p, s)

/-- The first block from number `i` on whose ST is 0. -/
def freeFrom (w : Via) (p : Pool) (i : Nat) : Nat → Eng (Option Nat)
  | 0 => pure none
  | n + 1 => do
    let m ← eRead w (sx48 p.pmeta + 8 * i)
    if fieldOf m 63 62 = 0 then pure (some (p.base + i * 2 ^ p.bsz)) else freeFrom w p (i + 1) n

/-- `allocate()` of R255: the free block of least address. -/
def allocate (r : PoolRef) (k : Bool) : Eng Nat := do
  let p ← ePool r
  echeck (p.free != 0) 3
  let w := poolVia r p k
  match ← freeFrom w p 0 p.nblk with
  | none => efail 3
  | some a =>
    eWrite w (p.metaAt a) (BitVec.ofNat 64 (2 ^ 62 + 1))
    fun s => .ok (a, s.modPool r (fun p => { p with free := p.free - 1 }))

/-- The packets that the copy engines of the package have accepted and not retired: what a block entering quarantine waits for (R267). -/
def State.acceptedPackets (s : State) : List (Nat × Nat × Nat × Nat) :=
  s.dies.flatMap (fun d => d.2.engines.flatMap (fun e => e.2.packets.map (fun p => (d.1, e.1, p.serial, p.seq))))

/-- A block enters quarantine (R255, R267). -/
def quarantine (r : PoolRef) (a : Nat) : Eng Unit := fun s =>
  let s := s.modPool r (fun p => { p with quar := p.quar + 1 })
  .ok ((), ({ s with serial := s.serial + 1 }).modDie r.die (fun d =>
    { d with quars := d.quars ++ [(⟨s.serial + 1, r.num, a, s.acceptedPackets, false, false⟩ : Quar)] }))

/-- The slots of the prefix table that a lookup of a key examines (R260). -/
def Pool.slots (p : Pool) (key : W64) : List Nat :=
  if p.htLog = 0 then [] else (List.range 8).map (fun i => sx48 p.ht + 32 * ((key.toNat % 2 ^ p.htLog + i) % 2 ^ p.htLog))

/-- The first of some slots that holds a key, not empty: its place, ST and ADDR. -/
def lookupIn (w : Via) (key : W64) : List Nat → Eng (Option (Nat × Nat × Nat))
  | [] => pure none
  | t :: r => do
    let st ← eRead w (t + 8)
    if fieldOf st 63 62 = 0 then lookupIn w key r
    else
      let x ← eRead w t
      if x = key then pure (some (t, fieldOf st 63 62, st.toNat % 2 ^ 48)) else lookupIn w key r

/-- A lookup (R260). -/
def lookup (r : PoolRef) (k : Bool) (key : W64) : Eng (Option (Nat × Nat × Nat)) := do
  let p ← ePool r
  lookupIn (poolVia r p k) key (p.slots key)

/-- The slot that holds a key and names a block. -/
def entryIn (w : Via) (key : W64) (a : Nat) : List Nat → Eng (Option Nat)
  | [] => pure none
  | t :: r => do
    let st ← eRead w (t + 8)
    let x ← eRead w t
    if fieldOf st 63 62 != 0 && x == key && st.toNat % 2 ^ 48 == a % 2 ^ 48 then pure (some t) else entryIn w key a r

/-- The slot of a key that a record inserted: the one that names its block, or, where the window has released that block, the record (R260,
R269). -/
def ownIn (w : Via) (key : W64) (a owner : Nat) : List Nat → Eng (Option (Nat × W64))
  | [] => pure none
  | t :: r => do
    let st ← eRead w (t + 8)
    let x ← eRead w t
    let o ← eRead w (t + 16)
    if fieldOf st 63 62 != 0 && x == key && (if a = 0 then o.toNat == owner else st.toNat % 2 ^ 48 == a % 2 ^ 48) then pure (some (t, st))
    else ownIn w key a owner r

/-- The first empty slot. -/
def emptyIn (w : Via) : List Nat → Eng (Option Nat)
  | [] => pure none
  | t :: r => do
    let st ← eRead w (t + 8)
    if fieldOf st 63 62 = 0 then pure (some t) else emptyIn w r

/-- An insertion of an absent key (R260): false when the block stays private. -/
def insertKey (r : PoolRef) (k : Bool) (key : W64) (a st owner : Nat) : Eng Bool := do
  let p ← ePool r
  let w := poolVia r p k
  match ← lookupIn w key (p.slots key) with
  | some _ => pure false
  | none =>
    match ← emptyIn w (p.slots key) with
    | none => pure false
    | some t =>
      eWrites w t [key, BitVec.ofNat 64 (st * 2 ^ 62 + a % 2 ^ 48), BitVec.ofNat 64 owner, 0]
      pure true

/-- `release(a, key)` of R255. -/
def release (r : PoolRef) (k : Bool) (a : Nat) (key : W64) : Eng Unit := do
  let p ← ePool r
  if !p.holds a then pure ()
  else
    let w := poolVia r p k
    let m ← eRead w (p.metaAt a)
    let ref := (m.toNat + 2 ^ 32 - 1) % 2 ^ 32
    if ref ≠ 0 then eWrite w (p.metaAt a) (setField m 31 0 ref)
    else
      eWrite w (p.metaAt a) (BitVec.ofNat 64 (2 ^ 63))
      match ← entryIn w key a (p.slots key) with
      | none => pure ()
      | some t => eWrites w t [0, 0, 0, 0]
      quarantine r a

/-- REF of a block. -/
def refOf (r : PoolRef) (k : Bool) (a : Nat) : Eng Nat := do
  let p ← ePool r
  if !p.holds a then pure 1
  else
    let m ← eRead (poolVia r p k) (p.metaAt a)
    pure (m.toNat % 2 ^ 32)

/-- REF(a) := REF(a) + 1. -/
def addRef (r : PoolRef) (k : Bool) (a : Nat) : Eng Unit := do
  let p ← ePool r
  if !p.holds a then pure ()
  else
    let w := poolVia r p k
    let m ← eRead w (p.metaAt a)
    eWrite w (p.metaAt a) (setField m 31 0 (m.toNat + 1))

/-! ### Sequence records (R256-R259) -/

/-- A sequence record as a command reads it, with its pool. -/
structure SeqRec where
  at_ : Nat
  clen : Nat
  tlen : Nat
  sel : Nat
  wstart : Nat
  btab : Nat
  nblk : Nat
  btcap : Nat
  kseed : W64
  via : Via
  pr : PoolRef
  per : Nat
  bsz : Nat

/-- ceil(n / b). -/
def ceilDiv (n b : Nat) : Nat := (n + b - 1) / b

/-- The record of a command (R256-R258): ALIGN, then RECORD. -/
def readRec (die : Nat) (asid : Nat) (k : Bool) (a : W64) : Eng SeqRec := do
  echeck (canonical a.toNat && a.toNat % 256 == 0) 1
  let ws ← eReads ⟨.anise die, die, asid, k⟩ a.toNat 6
  let sel := fieldOf (wordAt ws 1) 36 32
  let pr := selPool sel
  let p ← ePool pr
  echeck (p.isKv asid) 2
  let r : SeqRec := { at_ := a.toNat, clen := fieldOf (wordAt ws 0) 31 0, tlen := fieldOf (wordAt ws 0) 63 32, sel := sel,
                      wstart := fieldOf (wordAt ws 1) 31 0, btab := sx48 (fieldOf (wordAt ws 2) 47 0), nblk := fieldOf (wordAt ws 3) 63 32,
                      btcap := fieldOf (wordAt ws 3) 31 0, kseed := wordAt ws 4, via := ⟨.anise die, die, asid, k⟩, pr := pr,
                      per := p.positions, bsz := p.bsz }
  echeck (decide (r.clen ≤ r.tlen) && decide (r.tlen - r.clen ≤ 16) && r.nblk == ceilDiv r.tlen r.per && decide (r.nblk ≤ r.btcap) &&
    decide (r.wstart ≤ r.clen) && r.btab % 64 == 0) 2
  pure r

/-- A block-table entry (R257): KEY and the second word. -/
def SeqRec.entry (r : SeqRec) (j : Nat) : Eng (W64 × W64) := do
  let k ← eRead r.via (r.btab + 16 * j)
  let x ← eRead r.via (r.btab + 16 * j + 8)
  pure (k, x)

/-- Write a block-table entry. -/
def SeqRec.setEntry (r : SeqRec) (j : Nat) (key x : W64) : Eng Unit := eWrites r.via (r.btab + 16 * j) [key, x]

/-- ADDR of an entry's second word. -/
def entAddr (x : W64) : Nat := x.toNat % 2 ^ 48
/-- FILL. -/
def entFill (x : W64) : Nat := fieldOf x 63 56
/-- The second word of an entry from its fields. -/
def entWord (fill : Nat) (h w : Bool) (addr : Nat) : W64 :=
  BitVec.ofNat 64 (fill * 2 ^ 56 + h.toNat * 2 ^ 55 + w.toNat * 2 ^ 54 + addr % 2 ^ 48)

/-- CLEN and TLEN of a record are written. -/
def SeqRec.setLens (r : SeqRec) (clen tlen : Nat) : Eng Unit := eWrite r.via r.at_ (BitVec.ofNat 64 (tlen * 2 ^ 32 + clen))
/-- NBLK is written beside BTCAP. -/
def SeqRec.setNblk (r : SeqRec) (n : Nat) : Eng Unit := eWrite r.via (r.at_ + 24) (BitVec.ofNat 64 (n * 2 ^ 32 + r.btcap))

/-- The sixteen TOK values of a record. -/
def SeqRec.toks (r : SeqRec) : Eng (List Nat) := do
  let ws ← eReads r.via (r.at_ + 128) 8
  pure (ws.flatMap (fun w => [w.toNat % 2 ^ 32, w.toNat / 2 ^ 32]))

/-- Write the sixteen TOK values. -/
def SeqRec.setToks (r : SeqRec) (l : List Nat) : Eng Unit :=
  eWrites r.via (r.at_ + 128) ((List.range 8).map (fun i => BitVec.ofNat 64 (l.getD (2 * i) 0 + 2 ^ 32 * l.getD (2 * i + 1) 0)))

/-- `fold` of R259. -/
def fold (k : W64) (t : Nat) : W64 := mix (k ^^^ (BitVec.ofNat 64 t * K1))

/-- The chain value before block j: KEY of the entry before, or KSEED (R259, R269). -/
def SeqRec.keyBefore (r : SeqRec) (j : Nat) : Eng W64 :=
  match j with
  | 0 => pure r.kseed
  | j + 1 => eRead r.via (r.btab + 16 * j)

/-- Copy on write (R268): slots before position p move to a new block, and the entry names it. -/
def SeqRec.copyBlock (r : SeqRec) (j p : Nat) (key x : W64) : Eng W64 := do
  let a ← allocate r.pr r.via.k
  let ws ← eReads r.via (sx48 (entAddr x)) (p % r.per * (2 ^ r.bsz / r.per) / 8)
  eWrites r.via a ws
  let x' := setField x 47 0 a
  r.setEntry j key x'
  release r.pr r.via.k (entAddr x) 0
  pure x'

/-! ### The record commands -/

/-- `kvapp` of one token (R265). -/
def kvApp (r : SeqRec) (t : Nat) : Eng Unit := do
  let p := r.tlen
  let j := p / r.per
  echeck (p - r.clen != 16) 5
  if p % r.per = 0 then
    echeck (j != r.btcap) 4
    let a ← allocate r.pr r.via.k
    r.setEntry j 0 (entWord 0 false false a)
    r.setNblk (j + 1)
  else
    let (key, x) ← r.entry j
    let n ← refOf r.pr r.via.k (entAddr x)
    if 1 < n then
      let _ ← r.copyBlock j p key x
      pure ()
    else pure ()
  let l ← r.toks
  r.setToks (l.set (p - r.clen) t)
  r.setLens r.clen (p + 1)

/-- Tokens of a list, from an array of 32-bit values (R265). -/
def readToks (w : Via) (a : Nat) : Nat → Eng (List Nat)
  | 0 => pure []
  | n + 1 => do
    let x ← eReadN w a 4
    let r ← readToks w (a + 4) n
    pure (x :: r)

/-- The entries that a list append completes or begins, from position p on (R265): fuel, position, tokens left, chain value before the
present block and that block's entry if it is a tail. -/
def listBlocks (r : SeqRec) : Nat → Nat → List Nat → W64 → Option (W64 × W64) → Eng Unit
  | 0, _, _, _, _ => pure ()
  | n + 1, p, ts, prev, tail =>
    if ts.isEmpty then pure ()
    else do
      let j := p / r.per
      let here := ts.take (r.per - p % r.per)
      let rest := ts.drop (r.per - p % r.per)
      let (key0, x0) := match tail with | some (k, x) => (if entFill x = 0 then prev else k, some x) | none => (prev, none)
      let key := here.foldl fold key0
      let fill := p % r.per + here.length
      let full := fill == r.per
      match x0 with
      | some x =>
        let ins ← if full then insertKey r.pr r.via.k key (entAddr x) 1 r.at_ else pure false
        r.setEntry j key (entWord fill (x.getLsbD 55) (x.getLsbD 54 || ins) (entAddr x))
      | none =>
        let hit ← if full then lookup r.pr r.via.k key else pure none
        match hit with
        | some (_, 2, a) =>
          addRef r.pr r.via.k a
          r.setEntry j key (entWord r.per true false a)
        | _ =>
          let a ← allocate r.pr r.via.k
          let ins ← if full then insertKey r.pr r.via.k key a 1 r.at_ else pure false
          r.setEntry j key (entWord fill false ins a)
      listBlocks r n (p + here.length) rest key none

/-- `kvapp.list` (R265). -/
def kvAppList (r : SeqRec) (d : W64) : Eng Unit := do
  let n := fieldOf d 63 48
  let a := sx48 (d.toNat % 2 ^ 48)
  echeck (a % 4 == 0) 1
  echeck (n != 0 && r.tlen == r.clen) 6
  let e := r.clen + n
  echeck (decide (ceilDiv e r.per ≤ r.btcap)) 4
  let j := r.clen / r.per
  let mid := r.clen % r.per != 0
  let (key, x) ← if mid then r.entry j else pure (0, 0)
  let ref ← if mid then refOf r.pr r.via.k (entAddr x) else pure 1
  let p ← ePool r.pr
  echeck (decide (ceilDiv e r.per - r.nblk + (if 1 < ref then 1 else 0) ≤ p.free)) 3
  let ts ← readToks r.via a n
  let prev ← r.keyBefore j
  let x ← if 1 < ref then r.copyBlock j r.clen key x else pure x
  listBlocks r (n + 1) r.clen ts prev (if mid then some (key, x) else none)
  r.setLens e e
  r.setNblk (ceilDiv e r.per)

/-- `kvfork` (R266): the parent's record is `r`, the child's address `c`. -/
def kvFork (r : SeqRec) (c : W64) : Eng Unit := do
  let w := r.via
  let cs ← eReads w c.toNat 7
  echeck (c.toNat != r.at_ && fieldOf (wordAt cs 0) 63 32 == 0 && fieldOf (wordAt cs 3) 63 32 == 0) 6
  let ents ← (List.range r.nblk).foldlM (fun l j => do let e ← r.entry j; pure (l ++ [e])) []
  let refs ← ents.foldlM (fun l e => do let n ← refOf r.pr w.k (entAddr e.2); pure (l ++ [n])) []
  echeck (refs.all (fun n => n != 2 ^ 32 - 1)) 6
  echeck (decide (r.nblk ≤ fieldOf (wordAt cs 3) 31 0)) 4
  let bt := sx48 (fieldOf (wordAt cs 2) 47 0)
  echeck (bt % 64 == 0) 2
  let pw6 ← eRead w (r.at_ + 48)
  let l ← r.toks
  eWrites w c.toNat [BitVec.ofNat 64 (r.tlen * 2 ^ 32 + r.clen), BitVec.ofNat 64 (r.sel * 2 ^ 32 + r.wstart)]
  eWrite w (c.toNat + 24) (setField (wordAt cs 3) 63 32 r.nblk)
  eWrite w (c.toNat + 32) r.kseed
  eWrite w (c.toNat + 40) (BitVec.ofNat 64 (r.at_ % 2 ^ 48))
  eWrite w (c.toNat + 48) (setField (wordAt cs 6) 7 0 pw6.toNat)
  let child : SeqRec := { r with at_ := c.toNat, btab := bt }
  child.setToks l
  eFor ents.zipIdx (fun e => do
    child.setEntry e.2 e.1.1 (setField e.1.2 54 54 0)
    if entAddr e.1.2 = 0 then pure () else addRef r.pr w.k (entAddr e.1.2))

/-- `kvroll` (R269). -/
def kvRoll (r : SeqRec) : Eng Unit := do
  let first := ceilDiv r.clen r.per
  eFor (List.range (r.nblk - first)) (fun i => do
    let (key, x) ← r.entry (first + i)
    release r.pr r.via.k (entAddr x) key
    r.setEntry (first + i) 0 0)
  r.setLens r.clen r.clen
  r.setNblk first
  r.setToks []

/-- `kvcommit` (R269). -/
def kvCommit (r : SeqRec) (m : W64) : Eng Unit := do
  echeck (decide (m.toNat ≤ r.tlen - r.clen)) 6
  let n := m.toNat
  let l ← r.toks
  eFor (List.range n) (fun i => do
    let p := r.clen + i
    let (key, x) ← r.entry (p / r.per)
    let key ← if entFill x = 0 then r.keyBefore (p / r.per) else pure key
    let key := fold key (l.getD i 0)
    r.setEntry (p / r.per) key (setField x 63 56 (entFill x + 1))
    if entFill x + 1 = r.per then
      let _ ← insertKey r.pr r.via.k key (entAddr x) 2 r.at_
      pure ()
    else pure ())
  r.setToks (l.drop n)
  r.setLens (r.clen + n) r.tlen
  let p ← ePool r.pr
  eFor (List.range r.nblk) (fun j => do
    let (key, x) ← r.entry j
    if x.getLsbD 54 then
      match ← ownIn (poolVia r.pr p r.via.k) key (entAddr x) r.at_ (p.slots key) with
      | some (t, st) => eWrite (poolVia r.pr p r.via.k) (t + 8) (setField st 63 62 2)
      | none => pure ()
      r.setEntry j key (setField x 54 54 0)
    else pure ())

/-- `kvwin.set` (R270): the new window start. -/
def kvWinSet (r : SeqRec) (v : W64) : Eng W64 := do
  let w := min (max (v.toNat % 2 ^ 32) r.wstart) r.clen
  eWrite r.via (r.at_ + 8) (BitVec.ofNat 64 (r.sel * 2 ^ 32 + w))
  eFor (List.range (min r.nblk (w / r.per))) (fun j => do
    let (key, x) ← r.entry j
    if entAddr x = 0 then pure ()
    else
      release r.pr r.via.k (entAddr x) key
      r.setEntry j key (setField x 47 0 0))
  pure (BitVec.ofNat 64 w)

/-- The pool that holds an address for a context's space: one of that ASID first, else any (R258, R261, R264). -/
def State.poolHolding (s : State) (asid a : Nat) : Option PoolRef :=
  let l := (List.range 2).flatMap (fun d => (List.range 16).map (fun p => (⟨d, p⟩ : PoolRef)))
  match l.find? (fun r => (s.poolAt r).holds a && (s.poolAt r).asid == asid) with
  | some r => some r
  | none => l.find? (fun r => (s.poolAt r).holds a)

/-- `bfree` and `bfree.acq` (R264). -/
def bFree (pr : Option PoolRef) (asid : Nat) (k acq : Bool) (a : Nat) : Eng Unit := do
  echeck (canonical a) 1
  match pr with
  | none => efail 7
  | some r =>
    let p ← ePool r
    echeck (p.asid == asid && p.blockOf a == a) 7
    let m ← eRead (poolVia r p k) (p.metaAt a)
    echeck (fieldOf m 63 62 == 1 && !(acq && m.toNat % 2 ^ 32 == 2 ^ 32 - 1)) 7
    if acq then addRef r k a else release r k a 0

/-- `balloc` (R263). -/
def bAlloc (r : PoolRef) (asid : Nat) (k : Bool) : Eng W64 := do
  let p ← ePool r
  echeck (p.en && p.asid == asid) 2
  let a ← allocate r k
  pure (BitVec.ofNat 64 a)

/-! ### Turns (R261) -/

/-- The Anise that a record command goes to: the die of the POOL in its record, the issuing die where that cannot be read. -/
def recDie (s : State) (q : SqCmd) (a : W64) : Nat :=
  let d := dieOf q.core
  if !canonical a.toNat || a.toNat % 256 != 0 then d
  else match (eRead ⟨.anise d, d, q.asid, q.k⟩ (a.toNat + 8)).on s with
    | .ok (w, _) => fieldOf w 36 36
    | .error _ => d

/-- The Anise that a command is routed to (R261, R302). -/
def aniseDie (s : State) (q : SqCmd) : Nat :=
  match q.op with
  | 8 => (selPool q.a.toNat).die
  | 9 => match s.poolHolding q.asid q.a.toNat with | some r => r.die | none => dieOf q.core
  | 11 => recDie s q q.b
  | _ => recDie s q q.a

/-- Is the command one on records? -/
def SqCmd.onRecord (q : SqCmd) : Bool := q.op != 8 && q.op != 9

/-- The records of a command. -/
def SqCmd.recs (q : SqCmd) : List Nat := if q.op = 11 then [q.a.toNat, q.b.toNat] else [q.a.toNat]

/-- Do two commands of an Anise keep their order while the first one waits (R261): the same record, or the same pool for balloc and
bfree? -/
def aniseConflict (s : State) (o q : SqCmd) : Bool :=
  if o.onRecord && q.onRecord then o.asid == q.asid && o.recs.any (fun a => q.recs.contains a)
  else if !o.onRecord && !q.onRecord then
    let pool (x : SqCmd) : Option PoolRef := if x.op = 8 then some (selPool x.a.toNat) else s.poolHolding x.asid x.a.toNat
    pool o == pool q
  else false

/-- What a command does at its turn; the value is the reply of `balloc` and `kvwin` (R263-R270). -/
def aniseRun (s : State) (q : SqCmd) (die : Nat) : Eng (Option W64) := do
  echeck (!s.inReplay q.tid) 6
  match q.op with
  | 8 =>
    let v ← bAlloc (selPool q.a.toNat) q.asid q.k
    pure (some v)
  | 9 =>
    bFree (s.poolHolding q.asid q.a.toNat) q.asid q.k (q.x == 1) q.a.toNat
    pure none
  | 11 =>
    echeck (canonical q.a.toNat && q.a.toNat % 256 == 0) 1
    let r ← readRec die q.asid q.k q.b
    kvFork r q.a
    pure none
  | op => do
    let r ← readRec die q.asid q.k q.a
    match op with
    | 10 => if q.x = 0 then kvApp r (q.b.toNat % 2 ^ 32) else kvAppList r q.b
            pure none
    | 12 => kvRoll r
            pure none
    | 13 => kvCommit r q.b
            pure none
    | _ => if q.x = 0 then pure (some (BitVec.ofNat 64 r.wstart)) else do
            let v ← kvWinSet r q.b
            pure (some v)

/-- Where the code of a failed command goes (R258): ERR of the record, or PERR of a pool. A record whose ERR cannot be reached at all has
none; its page absent, or its home out of reach, halts the command (R271). -/
def aniseFail (s : State) (q : SqCmd) (die code : Nat) : Except (Halt × State) State :=
  let perr (r : PoolRef) := Except.ok (s.modPool r (fun p => { p with code := code, eaddr := q.a.toNat % 2 ^ 48 }))
  match q.op with
  | 8 => perr (selPool q.a.toNat)
  | 9 => perr ((s.poolHolding q.asid q.a.toNat).getD ⟨dieOf q.core, 0⟩)
  | _ => writeErr ⟨.anise die, die, q.asid, q.k⟩ (q.a.toNat + 48) code s

/-- Does the command return a reply in a register? -/
def SqCmd.replies (q : SqCmd) : Bool := q.op == 8 || q.op == 14 || q.op == 22

/-- A command of Anise leaves the list. -/
def State.dropAnise (s : State) (q : SqCmd) : State := { s with anise := s.anise.filter (fun x => x.serial != q.serial) }

/-- A command of Anise stops at an absent page (R271): a fault record ANISE is due, and it starts again from its beginning at FILLED. -/
def aniseStop (s : State) (q : SqCmd) (die asid va : Nat) (acc : Acc) (lvl : Nat) : State :=
  cmdFault { s with anise := s.anise.map (fun x => if x.serial = q.serial then { x with stopped := true, begun := true } else x) } die 3 die q
    asid va acc lvl q.k

/-- A command of Anise that has failed retires, with its reply if it has one (R112, R258, R263). -/
def aniseLeave (s : State) (q : SqCmd) (die code : Nat) : State :=
  let s := s.dropAnise q
  if q.replies then giveReply s (.anise die) q (failReply code) else retireCmd s (.anise die) q

/-- A command of Anise fails with a code and retires (R258, R112). -/
def aniseEnd (s : State) (q : SqCmd) (die code : Nat) : State :=
  match aniseFail s q die code with
  | .ok s => aniseLeave s q die code
  | .error (.absent asid va acc lvl, s) => aniseStop s q die asid va acc lvl
  | .error (_, s) => s

/-- A command of Anise that is cancelled, or whose fault is answered with ERROR, retires at once (R365, R380): a record that its code cannot be
written to now receives none (DEDUCED from R279, log entry 76). -/
def aniseQuit (s : State) (q : SqCmd) (die code : Nat) : State :=
  match aniseFail s q die code with
  | .ok s => aniseLeave s q die code
  | .error (_, s) => aniseLeave s q die code

/-- A halt of a command of Anise: a failure, a stop at an absent page, a poisoned word (R258, R271, R377, R378). -/
def aniseHalt (s : State) (q : SqCmd) (die : Nat) (h : Halt) : State :=
  match h with
  | .fail code => aniseEnd s q die code
  | .poison kill => let s := aniseEnd s q die 19
                    if kill then s.beginKill q.tid 8 else s
  | .wait => s
  | .absent asid va acc lvl => aniseStop s q die asid va acc lvl

/-- The outcome of a command's turn: its effect, or a halt. -/
def aniseTurn (s : State) (q : SqCmd) (die : Nat) : State :=
  match (aniseRun s q die).on s with
  | .ok (v, s) =>
    let s := s.dropAnise q
    match v with
    | some v => giveReply s (.anise die) q v
    | none => retireCmd s (.anise die) q
  | .error e => aniseHalt (s.after (.anise die) e) q die e.halt

/-! ### Quarantine and registration (R253, R267) -/

/-- A block leaves quarantine when no packet accepted before its point is left (R267): its metadata word becomes free at K level. -/
def quarExit (s : State) (die k : Nat) : State :=
  match (s.die die).quars[k]? with
  | none => s
  | some z =>
    if z.fault || z.stuck || z.waits.any (fun w => s.acceptedPackets.contains w) then s
    else
      let r : PoolRef := ⟨die, z.pool⟩
      let p := s.poolAt r
      match (eWrite (poolVia r p true) (p.metaAt z.addr) 0).on s with
      | .ok (_, s) => (s.modPool r (fun p => { p with free := p.free + 1, quar := p.quar - 1 })).modDie die (fun d =>
          { d with quars := d.quars.eraseIdx k })
      | .error e => let s := s.after (.anise die) e
        match e.halt with
        | .absent asid va acc lvl =>
          let f : FaultRec := ⟨none, 3, va % 2 ^ 48, asid, acc.code, true, lvl, 0xFFF, die, 0, z.serial, false⟩
          s.modDie die (fun d => { d with faults := d.faults ++ [f], quars := d.quars.set k { z with fault := true } })
        | .wait => s
        | _ => s.modDie die (fun d => { d with quars := d.quars.set k { z with stuck := true } })

/-- The pages that a range of an address space spans. -/
def pagesOf (a n : Nat) : List Nat := if n = 0 then [] else (List.range ((a + n - 1) / 4096 + 1 - a / 4096)).map (fun i => (a / 4096 + i) * 4096)

/-- Pages translated by Anise at K level, one after another: the state after the walks, and whether all were present (R253, R359); no answer while
a walk waits (17_reliability.md R392). -/
def presentAll (die asid : Nat) : List Nat → State → Option Bool × State
  | [], s => (some true, s)
  | v :: r, s => match translate s die (.anise die) asid (sx48 v) .read true with
    | .ok _ _ s => presentAll die asid r s
    | .wait => (none, s)
    | .absent _ s => (some false, s)
    | .refused s => (some false, s)

/-- May the pool be registered, its pages apart (R253)? -/
def poolOk (s : State) (r : PoolRef) : Bool :=
  let p := s.poolAt r
  let others := (List.range 2).flatMap (fun d => (List.range 16).map (fun n => (⟨d, n⟩ : PoolRef)))
  let clash (o : PoolRef) : Bool := let x := s.poolAt o
    x.en && x.asid == p.asid && decide (p.base < x.base + x.nblk * 2 ^ x.bsz) && decide (x.base < p.base + p.nblk * 2 ^ p.bsz)
  decide (p.bpos ≤ 4) && decide (12 ≤ p.bsz) && decide (p.bsz ≤ 21) && p.base % 2 ^ p.bsz == 0 && decide (1 ≤ p.nblk) &&
    decide (p.base + p.nblk * 2 ^ p.bsz ≤ 2 ^ 47) && p.pmeta % 8 == 0 && p.ht % 32 == 0 &&
    (p.htLog == 0 || (decide (4 ≤ p.htLog) && decide (p.htLog ≤ 28))) && !others.any clash

/-- The pages that a pool's metadata and prefix table span (R253). -/
def Pool.pages (p : Pool) : List Nat := pagesOf p.pmeta (8 * p.nblk) ++ (if p.htLog = 0 then [] else pagesOf p.ht (32 * 2 ^ p.htLog))

/-- A write of 1 to PCFG.EN registers the pool or is refused (R253). -/
def poolRegister (s : State) (r : PoolRef) : State :=
  if (s.poolAt r).en then s
  else
    let (ok, s) := if poolOk s r then presentAll r.die (s.poolAt r).asid (s.poolAt r).pages s else (some false, s)
    match ok with
    | some true => s.modPool r (fun p => { p with en := true, free := p.nblk, quar := 0 })
    | some false => s.modPool r (fun p => { p with code := 9, eaddr := 0 })
    | none => s

/-- Does a write of 1 to PCFG.EN have to wait for a table out of reach (17_reliability.md R392)? -/
def poolWaits (s : State) (r : PoolRef) : Bool :=
  !(s.poolAt r).en && poolOk s r && (presentAll r.die (s.poolAt r).asid (s.poolAt r).pages s).1.isNone

/-- A write of 0 to PCFG.EN takes effect only when every block is free (R253). -/
def poolDeregister (s : State) (r : PoolRef) : State :=
  let p := s.poolAt r
  if !p.en then s
  else if p.free = p.nblk then s.modPool r (fun p => { p with en := false })
  else s.modPool r (fun p => { p with code := 9, eaddr := 0 })

/-! ### The SQ cells -/

/-- Anise commands of a context that have not retired. -/
def heldAnise (s : State) (tid rank : Nat) : Nat := heldBy s.anise tid rank + heldBy (s.squashes.map (fun q => q.cmd)) tid rank

/-- A token-producing Anise command (R262). -/
def sendAnise (op x : Nat) (a b : BitVec 6) (k : BitVec 5) :=
  sendCmd 0 8 op x a b k heldAnise (fun s q => { s with anise := s.anise ++ [q.onWay] })

/-- `sq.balloc` (R263). -/
def opSqBalloc (d a : BitVec 6) := askCmd 0 8 8 0 d a 0 heldAnise
/-- `sq.bfree` (R264). -/
def opSqBfree (a : BitVec 6) (k : BitVec 5) := sendAnise 9 0 a 0 k
/-- `sq.bfree.acq` (R264). -/
def opSqBfreeAcq (a : BitVec 6) (k : BitVec 5) := sendAnise 9 1 a 0 k
/-- `sq.kvapp` (R265). -/
def opSqKvapp (a b : BitVec 6) (k : BitVec 5) := sendAnise 10 0 a b k
/-- `sq.kvapp.list` (R265). -/
def opSqKvappList (a b : BitVec 6) (k : BitVec 5) := sendAnise 10 1 a b k
/-- `sq.kvfork` (R266). -/
def opSqKvfork (a b : BitVec 6) (k : BitVec 5) := sendAnise 11 0 a b k
/-- `sq.kvroll` (R269). -/
def opSqKvroll (a : BitVec 6) (k : BitVec 5) := sendAnise 12 0 a 0 k
/-- `sq.kvcommit` (R269). -/
def opSqKvcommit (a b : BitVec 6) (k : BitVec 5) := sendAnise 13 0 a b k
/-- `sq.kvwin.get` (R270). -/
def opSqKvwinGet (d a : BitVec 6) := askCmd 0 8 14 0 d a 0 heldAnise
/-- `sq.kvwin.set` (R270). -/
def opSqKvwinSet (d a b : BitVec 6) := askCmd 0 8 14 1 d a b heldAnise
/-- `sq.squash` (R302): a command of Anise. -/
def opSqSquash (a b : BitVec 6) (k : BitVec 5) := sendAnise 15 0 a b k

end Sys2Proof.Machine
end

