-- ==== Sys2Proof/Machine/Clove.lean ====
section
/-! DEFINITION. Clove, the grammar engine (12_grammar.md R272-R288): the image, a record's journal and stack, the six cells as one step
each, the writing of a mask, and the unit's order. -/

namespace Sys2Proof.Machine

/-! ### The image (R273, R274) -/

/-- A copy of an image header, taken at bind. -/
structure Image where
  nstate : Nat
  start : Nat
  voc : Nat
  eos : Nat
  nsym : Nat
  nbmap : Nat
  stab : Nat
  tran : Nat
  exc : Nat
  symt : Nat
  tcls : Nat
  bmap : Nat

/-- The header from its eight words. -/
def Image.ofWords (ws : List W64) : Image :=
  { nstate := fieldOf (wordAt ws 0) 63 48, start := fieldOf (wordAt ws 0) 47 32, voc := fieldOf (wordAt ws 0) 18 0,
    eos := fieldOf (wordAt ws 1) 63 32, nsym := fieldOf (wordAt ws 1) 31 16, nbmap := fieldOf (wordAt ws 1) 15 0,
    stab := sx48 (fieldOf (wordAt ws 2) 47 0), tran := sx48 (fieldOf (wordAt ws 3) 47 0), exc := sx48 (fieldOf (wordAt ws 4) 47 0),
    symt := sx48 (fieldOf (wordAt ws 5) 47 0), tcls := sx48 (fieldOf (wordAt ws 6) 47 0), bmap := sx48 (fieldOf (wordAt ws 7) 47 0) }

/-- EOS for none. -/
def noEos : Nat := 0xFFFFFFFF

/-- Does the header meet R273? -/
def Image.ok (m : Image) : Bool :=
  decide (1 ≤ m.nstate) && decide (m.start < m.nstate) && decide (1 ≤ m.voc) && decide (m.voc ≤ 262144) &&
  (m.eos == noEos || decide (m.eos < m.voc)) && decide (1 ≤ m.nsym) && decide (m.nsym ≤ 16384) && m.stab % 8 == 0 && m.tran % 8 == 0 &&
  m.exc % 8 == 0 && m.symt % 2 == 0 && m.tcls % 2 == 0 && m.bmap % 8 == 0

/-- Words of a bitmap. -/
def Image.mw (m : Image) : Nat := ceilDiv m.voc 64

/-! ### The record's state (R275-R277) -/

/-- A bound record with its Clove state. -/
structure Gram where
  at_ : Nat
  img : Image
  gimg : Nat
  npool : Nat
  head : Nat
  tail : Nat
  jlog : Nat
  cur : Nat
  nblka : Nat
  nidx : Nat
  jrnl : Nat
  via : Via

/-- The Clove state of a record, with an image header. -/
def readGram (w : Via) (a : Nat) (img : Image) : Eng Gram := do
  let ws ← eReads w (a + 64) 5
  let j ← eRead w (a + 56)
  pure { at_ := a, img := img, gimg := fieldOf (wordAt ws 0) 47 0, npool := fieldOf (wordAt ws 0) 52 48, head := fieldOf (wordAt ws 1) 31 0,
         tail := fieldOf (wordAt ws 1) 63 32, jlog := fieldOf (wordAt ws 2) 36 32, cur := fieldOf (wordAt ws 2) 31 0,
         nblka := fieldOf (wordAt ws 3) 47 0, nidx := fieldOf (wordAt ws 4) 31 0, jrnl := sx48 (fieldOf j 47 0), via := w }

/-- Differences of entry indices are modulo 2^32 (R275). -/
def idx32 (a b : Nat) : Nat := (a + 2 ^ 32 - b % 2 ^ 32) % 2 ^ 32

/-- Entries in the journal. -/
def Gram.held (g : Gram) : Nat := idx32 g.tail g.head

/-- Is an entry in the journal? -/
def Gram.has (g : Gram) (i : Nat) : Bool := decide (idx32 i g.head < g.held)

/-- The indices of the journal. -/
def Gram.indices (g : Gram) : List Nat := (List.range (min g.held (2 ^ g.jlog))).map (fun n => (g.head + n) % 2 ^ 32)

/-- The place of an entry. -/
def Gram.place (g : Gram) (i : Nat) : Nat := g.jrnl + 16 * (i % 2 ^ g.jlog)

/-- An entry's fields (R276). -/
structure Jent where
  state : Nat
  node : Nat
  pos : Nat
  live : Bool
  done : Bool
  parent : Nat

/-- Read an entry. -/
def Gram.entry (g : Gram) (i : Nat) : Eng Jent := do
  let a ← eRead g.via (g.place i)
  let b ← eRead g.via (g.place i + 8)
  pure ⟨fieldOf a 63 48, fieldOf a 47 0, fieldOf b 63 32, b.getLsbD 31, b.getLsbD 30, fieldOf b 23 0⟩

/-- PARENT for none. -/
def noParent : Nat := 0xFFFFFF

/-- Write an entry. -/
def Gram.setEntry (g : Gram) (i : Nat) (e : Jent) : Eng Unit :=
  eWrites g.via (g.place i) [BitVec.ofNat 64 (e.state * 2 ^ 48 + e.node % 2 ^ 48),
    BitVec.ofNat 64 (e.pos % 2 ^ 32 * 2 ^ 32 + e.live.toNat * 2 ^ 31 + e.done.toNat * 2 ^ 30 + e.parent % 2 ^ 24)]

/-- L of an entry becomes 0. -/
def Gram.kill (g : Gram) (i : Nat) : Eng Unit := do
  let b ← eRead g.via (g.place i + 8)
  eWrite g.via (g.place i + 8) (setField b 31 31 0)

/-- A live entry of the journal, or ENTRY. -/
def Gram.liveEntry (g : Gram) (i : Nat) : Eng Jent := do
  echeck (g.has i) 15
  let e ← g.entry i
  echeck e.live 15
  pure e

/-- The index that an operand names: 0xFFFF_FFFF stands for CUR. -/
def Gram.named (g : Gram) (i : Nat) : Nat := if i = 0xFFFFFFFF then g.cur else i

/-- The index of a parent: the one entry of the journal with those 24 bits (R276). -/
def Gram.parentOf (g : Gram) (e : Jent) : Option Nat :=
  if e.parent = noParent then none
  else
    let i := (g.head + (e.parent + 2 ^ 24 - g.head % 2 ^ 24) % 2 ^ 24) % 2 ^ 32
    if g.has i then some i else none

/-- TAIL and HEAD are written. -/
def Gram.setEnds (g : Gram) (head tail : Nat) : Eng Unit := eWrite g.via (g.at_ + 72) (BitVec.ofNat 64 (tail % 2 ^ 32 * 2 ^ 32 + head % 2 ^ 32))
/-- CUR is written beside JLOG. -/
def Gram.setCur (g : Gram) (i : Nat) : Eng Unit := eWrite g.via (g.at_ + 80) (BitVec.ofNat 64 (g.jlog * 2 ^ 32 + i % 2 ^ 32))
/-- NBLKA and NIDX are written. -/
def Gram.setNodes (g : Gram) (blk idx : Nat) : Eng Unit := do
  eWrite g.via (g.at_ + 88) (BitVec.ofNat 64 (blk % 2 ^ 48))
  eWrite g.via (g.at_ + 96) (BitVec.ofNat 64 idx)

/-! ### Nodes (R277, R278) -/

/-- The node pool, which is to be a registered plain pool of the context's space. -/
def Gram.pool (g : Gram) : Eng Pool := do
  let p ← ePool (selPool g.npool)
  echeck (p.isPlain g.via.asid) 2
  pure p

/-- The top of an entry: SYM of its node, or symbol 0. -/
def Gram.top (g : Gram) (node : Nat) : Eng Nat :=
  if node = 0 then pure 0
  else do
    let w ← eRead g.via (sx48 node + 8)
    pure (fieldOf w 13 0)

/-- NEXT of a node. -/
def Gram.below (g : Gram) (node : Nat) : Eng Nat := do
  let w ← eRead g.via (sx48 node)
  pure (fieldOf w 47 0)

/-- REF(n) := REF(n) + 1, for a node. -/
def Gram.ref (g : Gram) (node : Nat) : Eng Unit :=
  if node = 0 then pure () else eRmw g.via (sx48 node + 8) (fun v => setField v 63 32 (fieldOf v 63 32 + 1))

/-- A halt after a node block was allocated gives the block back (R278). -/
def owing {α : Type} (r : PoolRef) (a : Nat) (m : Eng α) : Eng α := fun s =>
  match m s with
  | .error e => .error { e with blk := some (r.die, r.num, a) }
  | .ok x => .ok x

/-- A node with its header's count, in the block from which the record allocates. -/
def Gram.putNode (g : Gram) (blk idx sym next : Nat) : Eng Nat := do
  let n := blk + 16 * idx
  eRmw g.via (sx48 blk) (fun v => setField v 31 0 (fieldOf v 31 0 + 1))
  eWrites g.via (sx48 n) [BitVec.ofNat 64 (next % 2 ^ 48), BitVec.ofNat 64 (2 ^ 32 + sym)]
  g.ref next
  g.setNodes blk (idx + 1)
  pure n

/-- A page that the command will touch is translated (R278, R288). -/
def eTouch (w : Via) (va : Nat) (acc : Acc) : Eng Unit := do
  let _ ← eTrans w va acc
  pure ()

/-- The pages of a release of a block (R255): its metadata's, and, where its last reference ends, the slots of the prefix table that are searched and
the one that is emptied. -/
def touchRelease (r : PoolRef) (k : Bool) (a : Nat) (key : W64) : Eng Unit := do
  let p ← ePool r
  if !p.holds a then pure ()
  else
    let w := poolVia r p k
    eTouch w (p.metaAt a) .write
    let m ← eRead w (p.metaAt a)
    if m.toNat % 2 ^ 32 ≠ 1 then pure ()
    else match ← entryIn w key a (p.slots key) with
      | none => pure ()
      | some t => eTouch w t .write

/-- The pages that a command knows before it allocates a node block (R278): the record's, its next entry's, the header of the block that it
leaves with those of that block's release if it is released, and the node that the new one names. -/
def Gram.knownPages (g : Gram) (next : Nat) : Eng Unit := do
  eTouch g.via (g.at_ + 88) .write
  eTouch g.via (g.place g.tail) .write
  eTouch g.via (g.place g.tail + 8) .write
  if g.nblka ≠ 0 then
    eTouch g.via (sx48 g.nblka) .rmw
    let h ← eRead g.via (sx48 g.nblka)
    if fieldOf h 31 0 = 0 then touchRelease (selPool g.npool) g.via.k g.nblka 0 else pure ()
  else pure ()
  if next ≠ 0 then eTouch g.via (sx48 next + 8) .rmw else pure ()

/-- `newnode` of R278. -/
def Gram.newNode (g : Gram) (sym next : Nat) : Eng Nat := do
  let p ← g.pool
  let r := selPool g.npool
  if g.nblka ≠ 0 ∧ g.nidx ≠ 2 ^ (p.bsz - 4) then g.putNode g.nblka g.nidx sym next
  else
    g.knownPages next
    let a ← allocate r g.via.k
    owing r a (do
      if g.nblka ≠ 0 then
        eRmw g.via (sx48 g.nblka) (fun v => setField v 63 63 0)
        let h ← eRead g.via (sx48 g.nblka)
        if fieldOf h 31 0 = 0 then release r g.via.k g.nblka 0 else pure ()
      else pure ()
      eWrite g.via (sx48 a) (BitVec.ofNat 64 (2 ^ 63))
      g.putNode a 1 sym next)

/-- The pool whose block holds a node: a node that a fork has shared may lie in another record's NPOOL (R278, R285). -/
def Gram.poolOf (g : Gram) (n : Nat) : Eng PoolRef := fun s => .ok ((s.poolHolding g.via.asid n).getD (selPool g.npool), s)

/-- `unref` of R278: down the list while references end. -/
def Gram.unref (g : Gram) : Nat → Nat → Eng Unit
  | 0, _ => pure ()
  | f + 1, n =>
    if n = 0 then pure ()
    else do
      let pr ← g.poolOf n
      let p ← ePool pr
      eRmw g.via (sx48 n + 8) (fun v => setField v 63 32 (fieldOf v 63 32 + 2 ^ 32 - 1))
      let w ← eRead g.via (sx48 n + 8)
      if fieldOf w 63 32 ≠ 0 then pure ()
      else
        let b := p.blockOf n
        eRmw g.via (sx48 b) (fun v => setField v 31 0 (fieldOf v 31 0 + 2 ^ 32 - 1))
        let h ← eRead g.via (sx48 b)
        if fieldOf h 31 0 = 0 ∧ h.getLsbD 63 = false then release pr g.via.k b 0 else pure ()
        let nx ← g.below n
        g.unref f nx

/-- A bound on the length of a stack. -/
def stackFuel : Nat := 2 ^ 32

/-! ### The cells (R282-R287) -/

/-- Slots of the unit (R280): which slot holds a record. -/
def Core.slotOf (g : Core) (a : Nat) : Option (Nat × List W64) :=
  g.gslots.find? (fun p => (wordAt p.2 0).toNat == a)

/-- A slot of the unit takes a record and a header, or is emptied. -/
def eSlot (gn slot : Nat) (v : List W64) : Eng Unit := fun s =>
  .ok ((), s.modCore gn (fun g => { g with gslots := SMap.set [] g.gslots slot v }))

/-- The record in a slot of this core, or UNBOUND. -/
def boundRec (gn : Nat) (w : Via) (a : W64) : Eng Gram := do
  echeck (canonical a.toNat && a.toNat % 256 == 0) 1
  let slot : Option (Nat × List W64) ← (fun s => .ok ((s.core gn).slotOf a.toNat, s))
  match slot with
  | none => efail 13
  | some (_, ws) => readGram w a.toNat (Image.ofWords (ws.drop 1))

/-- `gbind` and `gbind.reset` (R282). -/
def gBind (gn : Nat) (w : Via) (reset : Bool) (a b : W64) : Eng Unit := do
  echeck (canonical a.toNat && a.toNat % 256 == 0) 1
  let g0 ← readGram w a.toNat (Image.ofWords [])
  echeck (sx48 g0.gimg % 8 == 0) 14
  let hs ← eReads w (sx48 g0.gimg) 8
  let m := Image.ofWords hs
  echeck m.ok 14
  let p ← ePool (selPool g0.npool)
  echeck (decide (4 ≤ g0.jlog) && decide (g0.jlog ≤ 20) && p.isPlain w.asid) 2
  let slot := b.toNat % 8
  let other : Option (Nat × List W64) ← (fun s => .ok ((s.core gn).slotOf a.toNat, s))
  echeck (match other with | some (n, _) => n == slot | none => true) 6
  let g := { g0 with img := m }
  if reset then
    echeck (g.head == g.tail) 6
    let c ← eRead w a.toNat
    g.setEntry g.tail ⟨m.start, 0, fieldOf c 31 0, true, false, noParent⟩
    g.setEnds g.tail (g.tail + 1)
    g.setCur g.tail
  else pure ()
  eSlot gn slot (a :: hs)

/-- `gbind.drop` (R282). -/
def gDrop (gn : Nat) (w : Via) (a : W64) : Eng Unit := do
  let g ← boundRec gn w a
  eFor g.indices (fun i => do
    let e ← g.entry i
    if e.live then
      g.unref stackFuel e.node
      g.kill i
    else pure ())
  g.setEnds g.tail g.tail
  g.setCur g.tail
  if g.nblka ≠ 0 then
    eRmw w (sx48 g.nblka) (fun v => setField v 63 63 0)
    let h ← eRead w (sx48 g.nblka)
    if fieldOf h 31 0 = 0 then release (selPool g.npool) w.k g.nblka 0 else pure ()
  else pure ()
  g.setNodes 0 0
  let slot : Option (Nat × List W64) ← (fun s => .ok ((s.core gn).slotOf a.toNat, s))
  match slot with
  | some (n, _) => eSlot gn n []
  | none => pure ()

/-- A state's two words; its index must be below NSTATE (R274). -/
def Gram.stateWords (g : Gram) (st : Nat) : Eng (W64 × W64) := do
  echeck (decide (st < g.img.nstate)) 14
  let a ← eRead g.via (g.img.stab + 16 * st)
  let b ← eRead g.via (g.img.stab + 16 * st + 8)
  pure (a, b)

/-- The first transition for a class and a top, among `n` from an index (R283). -/
def Gram.findTran (g : Gram) (cls top i : Nat) : Nat → Eng (Option W64)
  | 0 => pure none
  | n + 1 => do
    let t ← eRead g.via (g.img.tran + 8 * i)
    if fieldOf t 63 48 = cls ∧ (fieldOf t 47 32 = top ∨ fieldOf t 47 32 = 0xFFFF) then pure (some t)
    else g.findTran cls top (i + 1) n

/-- An entry takes the next index: CUR and TAIL follow. -/
def Gram.append (g : Gram) (e : Jent) : Eng Unit := do
  g.setEntry g.tail e
  g.setCur g.tail
  g.setEnds g.head (g.tail + 1)

/-- `gstep` (R283). -/
def gStep (g : Gram) (b : W64) : Eng Unit := do
  let t := b.toNat % 2 ^ 32
  let pi := g.named (b.toNat / 2 ^ 32)
  let e ← g.liveEntry pi
  echeck (g.held != 2 ^ g.jlog) 12
  echeck (!e.done && decide (t < g.img.voc)) 11
  let (s0, s1) ← g.stateWords e.state
  let ent (st node : Nat) (d : Bool) : Jent := ⟨st, node, e.pos + 1, true, d, pi % 2 ^ 24⟩
  if t = g.img.eos then
    echeck (s1.getLsbD 0 && e.node == 0) 11
    g.append (ent e.state e.node true)
  else
    let cls ← eReadN g.via (g.img.tcls + 2 * t) 2
    let y ← g.top e.node
    echeck (cls != 0xFFFF) 11
    echeck (decide (fieldOf s0 63 32 + fieldOf s0 31 16 ≤ 2 ^ 32)) 14
    match ← g.findTran cls y (fieldOf s0 63 32) (fieldOf s0 31 16) with
    | none => efail 11
    | some tr =>
      let nx := fieldOf tr 31 16
      let sym := fieldOf tr 13 0
      echeck (decide (nx < g.img.nstate)) 14
      match fieldOf tr 15 14 with
      | 0 =>
        g.ref e.node
        g.append (ent nx e.node false)
      | 1 =>
        echeck (decide (sym < g.img.nsym)) 14
        let n ← g.newNode sym e.node
        g.append (ent nx n false)
      | 2 =>
        echeck (e.node != 0) 11
        let n ← g.below e.node
        g.ref n
        g.append (ent nx n false)
      | _ =>
        echeck (e.node != 0) 11
        echeck (decide (sym < g.img.nsym)) 14
        let n0 ← g.below e.node
        let n ← g.newNode sym n0
        g.append (ent nx n false)

/-- The words of a bitmap; index 0xFFFF is all ones (R273). -/
def Gram.bitmap (g : Gram) (b : Nat) : Eng (List W64) :=
  if b = 0xFFFF then pure (List.replicate g.img.mw (BitVec.allOnes 64))
  else do
    echeck (decide (b < g.img.nbmap)) 14
    eReads g.via (g.img.bmap + 8 * g.img.mw * b) g.img.mw

/-- Bit t of a mask. -/
def setBit (l : List W64) (t : Nat) (v : Bool) : List W64 :=
  l.modify (t / 64) (fun w => if v then w ||| (1#64 <<< (t % 64)) else w &&& ~~~(1#64 <<< (t % 64)))

/-- The exceptions of a state over a mask (R284). -/
def Gram.except (g : Gram) (y i : Nat) : Nat → List W64 → Eng (List W64)
  | 0, m => pure m
  | n + 1, m => do
    let x ← eRead g.via (g.img.exc + 8 * i)
    let t := fieldOf x 31 0
    let hit := (fieldOf x 47 32 == y || fieldOf x 47 32 == 0xFFFF) && decide (t < g.img.voc)
    g.except y (i + 1) n (if hit then setBit m t (x.getLsbD 48) else m)

/-- The mask of an entry (R284). -/
def gMask (g : Gram) (b : W64) : Eng (List W64) := do
  let e ← g.liveEntry (g.named (b.toNat / 2 ^ 32))
  let y ← g.top e.node
  let (s0, s1) ← g.stateWords e.state
  echeck (decide (y < g.img.nsym)) 14
  let yb ← eReadN g.via (g.img.symt + 2 * y) 2
  let ms ← g.bitmap (fieldOf s0 15 0)
  let my ← g.bitmap yb
  let m := (ms.zip my).map (fun p => p.1 &&& p.2)
  echeck (decide (fieldOf s1 63 32 + fieldOf s1 31 16 ≤ 2 ^ 32)) 14
  let m ← g.except y (fieldOf s1 63 32) (fieldOf s1 31 16) m
  let m := if g.img.eos = noEos then m else setBit m g.img.eos (s1.getLsbD 0 && e.node == 0)
  let m := if e.done then m.map (fun _ => 0) else m
  pure (m.zipIdx.map (fun p => if p.2 + 1 = g.img.mw ∧ g.img.voc % 64 ≠ 0 then p.1 &&& BitVec.ofNat 64 (2 ^ (g.img.voc % 64) - 1) else p.1))

/-- `gfork` (R285): child and parent. -/
def gFork (c p : Gram) : Eng Unit := do
  let e ← p.liveEntry p.cur
  echeck (c.at_ != p.at_ && c.head == c.tail && c.gimg == p.gimg) 6
  if e.node ≠ 0 then
    let w ← eRead p.via (sx48 e.node + 8)
    echeck (fieldOf w 63 32 != 2 ^ 32 - 1) 12
  else pure ()
  c.setEntry c.tail ⟨e.state, e.node, e.pos, true, e.done, noParent⟩
  p.ref e.node
  c.setEnds c.tail (c.tail + 1)
  c.setCur c.tail

/-- The walk of `groll.pos` (R286): the entry on the parent chain with a position. -/
def Gram.findPos (g : Gram) (p : Nat) : Nat → Nat → Eng Nat
  | 0, _ => efail 15
  | f + 1, i => do
    echeck (g.has i) 15
    let e ← g.entry i
    if e.pos = p then pure i
    else match g.parentOf e with
      | none => efail 15
      | some j => g.findPos p f j

/-- The chain from an entry up to E (R287); STATE when E is not on it. -/
def Gram.chainTo (g : Gram) (e : Nat) : Nat → Nat → List Nat → Eng (List Nat)
  | 0, _, _ => efail 6
  | f + 1, i, l =>
    if i = e then pure (l ++ [i])
    else if !g.has i then efail 6
    else do
      let x ← g.entry i
      match g.parentOf x with
      | none => efail 6
      | some j => g.chainTo e f j (l ++ [i])

/-- `gcommit` (R287). -/
def gCommit (g : Gram) (b : W64) : Eng Unit := do
  let e := g.named (b.toNat % 2 ^ 32)
  let _ ← g.liveEntry e
  let keep ← g.chainTo e (2 ^ g.jlog + 1) g.cur []
  eFor g.indices (fun i => do
    if keep.contains i then pure ()
    else
      let x ← g.entry i
      if x.live then
        g.unref stackFuel x.node
        g.kill i
      else pure ())
  g.setEnds e g.tail

/-- What a command does; a mask is returned, to be written to scratchpad. -/
def cloveRun (s : State) (q : SqCmd) (gn : Nat) : Eng (List W64) := do
  echeck (!s.inReplay q.tid) 6
  let w : Via := ⟨.clove gn, dieOf gn, q.asid, q.k⟩
  match q.op with
  | 16 =>
    if q.x = 2 then gDrop gn w q.a else gBind gn w (q.x == 1) q.a q.b
    pure []
  | 19 =>
    let c ← boundRec gn w q.a
    let p ← boundRec gn w q.b
    gFork c p
    pure []
  | op => do
    let g ← boundRec gn w q.a
    match op with
    | 17 => gStep g q.b
            pure []
    | 18 => gMask g q.b
    | 20 => if q.x = 0 then do
              let _ ← g.liveEntry (q.b.toNat % 2 ^ 32)
              g.setCur (q.b.toNat % 2 ^ 32)
            else do
              let i ← g.findPos (q.b.toNat % 2 ^ 32) (2 ^ g.jlog + 1) g.cur
              g.setCur i
            pure []
    | _ => gCommit g q.b
           pure []

/-! ### The unit's order (R281, R288) -/

/-- A command of Clove leaves its unit. -/
def State.dropClove (s : State) (gn : Nat) (q : SqCmd) : State :=
  s.modCore gn (fun g => { g with clove := g.clove.filter (fun x => x.serial != q.serial) })

/-- A node block that a halted command had allocated is released (R278). -/
def giveBack (s : State) (q : SqCmd) (b : Option (Nat × Nat × Nat)) : State :=
  match b with
  | none => s
  | some (d, n, a) =>
    let r : PoolRef := ⟨d, n⟩
    let p := s.poolAt r
    match (do eWrite (poolVia r p q.k) (p.metaAt a) (BitVec.ofNat 64 (2 ^ 63)); quarantine r a : Eng Unit).on s with
    | .ok (_, s) => s.modPool r (fun p => { p with free := p.free - 1 })
    | .error e => s.after (.anise d) e

/-- A command of Clove fails with a code and retires (R279). -/
def cloveEnd (s : State) (gn : Nat) (q : SqCmd) (code : Nat) : State :=
  retireCmd ((tryErr ⟨.clove gn, dieOf gn, q.asid, q.k⟩ (q.a.toNat + 48) code s).dropClove gn q) (.clove gn) q

/-- The scratchpad words of a mask (R284): word w at (M + 8w) mod 0x30_0000; of words that meet, the higher w is kept. -/
def maskWords (m : Nat) (l : List W64) : List (Nat × W64) :=
  l.zipIdx.map (fun p => ((m % 2 ^ 22 / 8 * 8 + 8 * p.2) % 0x300000 / 8, p.1))

/-- A command of Clove stops at an absent page (R288): a fault record CLOVE is due, and it starts again from its beginning at FILLED. -/
def cloveStop (s : State) (gn : Nat) (q : SqCmd) (asid va : Nat) (acc : Acc) (lvl : Nat) : State :=
  cmdFault (s.modCore gn (fun g => { g with clove := g.clove.map (fun x => if x.serial = q.serial then { x with stopped := true, begun := true } else x) }))
    (dieOf gn) 4 gn q asid va acc lvl q.k

/-- A halt of a command: a failure, whose code goes to ERR and whose page may be absent too, a stop, a poisoned word (R279, R288, R377). -/
def cloveHalt (s : State) (gn : Nat) (q : SqCmd) (h : Halt) : State :=
  match h with
  | .fail code => match writeErr ⟨.clove gn, dieOf gn, q.asid, q.k⟩ (q.a.toNat + 48) code s with
    | .ok s => retireCmd (s.dropClove gn q) (.clove gn) q
    | .error (.absent asid va acc lvl, s) => cloveStop s gn q asid va acc lvl
    | .error (_, s) => s
  | .poison kill => let s := cloveEnd s gn q 19
                    if kill then s.beginKill q.tid 8 else s
  | .wait => s
  | .absent asid va acc lvl => cloveStop s gn q asid va acc lvl

/-- The outcome of a command: its effect, a mask to write, a failure, a stop (R279, R284, R288, R377). -/
def cloveStart (s : State) (gn : Nat) (q : SqCmd) : State :=
  match (cloveRun s q gn).on s with
  | .ok (l, s) =>
    if q.op = 18 then
      let ws := maskWords q.b.toNat l
      s.modCore gn (fun g => { g with clove := g.clove.map (fun x => if x.serial = q.serial then { x with out := ws, phase := 1, place := (ws.length, 0) } else x) })
    else retireCmd (s.dropClove gn q) (.clove gn) q
  | .error e => cloveHalt (giveBack (s.after (.clove gn) e) q e.blk) gn q e.halt

/-- The records of a Clove command. -/
def SqCmd.grams (q : SqCmd) : List Nat := if q.op = 19 then [q.a.toNat, q.b.toNat] else [q.a.toNat]

/-- Does a command keep another of its records waiting? -/
def SqCmd.sameGram (h o : SqCmd) : Bool := h.grams.any (fun a => o.grams.contains a)

/-- Commands of a unit keep arrival order; one that is stopped at an absent page holds back those of its own records only (R281, R288). -/
def cloveMay (s : State) (gn k : Nat) : Bool :=
  let l := (s.core gn).clove
  match l[k]? with
  | none => false
  | some q =>
    let held := heldBack (fun o => o.stopped) SqCmd.sameGram (l.take k)
    q.wait == 0 && !q.stopped && q.phase == 0 && s.depsDone q.tid q.rank q.deps && l.all (fun o => o.phase == 0) &&
    !held.any (fun h => h.sameGram q) && (l.take k).all (fun o => held.any (fun h => h.serial == o.serial))

/-- The k-th command of a unit starts, if it may. -/
def cloveTurn (s : State) (gn k : Nat) : State :=
  match (s.core gn).clove[k]? with
  | none => s
  | some q => if cloveMay s gn k then cloveStart (s.takeUp (.clove gn) q) gn q else s

/-- How many words, in order, a core's banks serve in the present cycle (R111, R157): up to the first whose bank is locked, has served another agent,
or has served an earlier one of them. -/
def Core.serves (g : Core) : List Nat → Nat
  | [] => 0
  | w :: r => if g.locked [g.bank w] || g.taken [w] then 0 else 1 + (g.use [w]).serves r

/-- One cycle of a mask that is being written (R284): at most 32 words, as far as their banks serve them; then the tags in one step; then the
command retires. -/
def maskCycle (s : State) (gn : Nat) (q : SqCmd) : State :=
  let upd (f : SqCmd → SqCmd) (g : Core) : Core := { g with clove := g.clove.map (fun x => if x.serial = q.serial then f x else x) }
  let g := s.core gn
  match q.phase with
  | 1 =>
    let now := (q.out.take 32).take (g.serves ((q.out.take 32).map Prod.fst))
    let g := now.foldl (fun g p => { (g.setBad 1 p.1 false).use [p.1] with sp := SMap.set 0 g.sp p.1 p.2 }) g
    s.setCore gn (upd (fun x => { x with out := x.out.drop now.length, phase := if x.out.length ≤ now.length then 2 else 1 }) g)
  | 2 =>
    let ws := maskWords q.b.toNat (List.replicate q.place.1 0)
    if g.locked (ws.map (fun p => g.bank p.1)) then s
    else s.setCore gn (upd (fun x => { x with phase := 3 }) (g.setTags (ws.map Prod.fst) true))
  | _ => retireCmd (s.dropClove gn q) (.clove gn) q

/-- The end of a cycle for a Clove unit: a mask goes on, else the first command that may start does. -/
def tickClove (s : State) (gn : Nat) : State :=
  let l := (s.core gn).clove
  if l.isEmpty then s
  else
    let s := match l.find? (fun q => q.phase != 0) with
      | some q => maskCycle s gn q
      | none => match (List.range l.length).find? (fun k => cloveMay s gn k) with
        | some k => cloveTurn s gn k
        | none => s
    s.modCore gn (fun g => { g with clove := g.clove.map (fun x => { x with wait := x.wait - 1 }) })

/-! ### The SQ cells -/

/-- Clove commands of a context that have not retired. -/
def heldClove (s : State) (tid rank : Nat) : Nat := (s.cores.map (fun p => heldBy p.2.clove tid rank)).sum

/-- A Clove command (R281): it arrives at issue + 1 and starts at issue + 3 or later. -/
def sendClove (op x : Nat) (a b : BitVec 6) (k : BitVec 5) :=
  sendCmd 1 4 op x a b k heldClove (fun s q => s.modCore q.core (fun g => { g with clove := g.clove ++ [q] }))

/-- `sq.gbind` (R282). -/
def opSqGbind (a b : BitVec 6) (k : BitVec 5) := sendClove 16 0 a b k
/-- `sq.gbind.reset` (R282). -/
def opSqGbindReset (a b : BitVec 6) (k : BitVec 5) := sendClove 16 1 a b k
/-- `sq.gbind.drop` (R282). -/
def opSqGbindDrop (a : BitVec 6) (k : BitVec 5) := sendClove 16 2 a 0 k
/-- `sq.gstep` (R283). -/
def opSqGstep (a b : BitVec 6) (k : BitVec 5) := sendClove 17 0 a b k
/-- `sq.gmask` (R284). -/
def opSqGmask (a b : BitVec 6) (k : BitVec 5) := sendClove 18 0 a b k
/-- `sq.gfork` (R285). -/
def opSqGfork (a b : BitVec 6) (k : BitVec 5) := sendClove 19 0 a b k
/-- `sq.groll.ent` (R286). -/
def opSqGrollEnt (a b : BitVec 6) (k : BitVec 5) := sendClove 20 0 a b k
/-- `sq.groll.pos` (R286). -/
def opSqGrollPos (a b : BitVec 6) (k : BitVec 5) := sendClove 20 1 a b k
/-- `sq.gcommit` (R287). -/
def opSqGcommit (a b : BitVec 6) (k : BitVec 5) := sendClove 21 0 a b k

end Sys2Proof.Machine
end

