-- ==== Sys2Proof/Machine/Sampler.lean ====
section
/-! DEFINITION. The sampler (13_sampling.md R289-R300): the candidate file, weights, the commands and the unit's cycles. -/

namespace Sys2Proof.Machine

/-! ### The candidate file (R290-R292) -/

/-- An empty candidate file: its reset values (R290, R297). -/
def CandFile.init : CandFile := ⟨0x3F800000, 64, 0x3F800000, []⟩

/-- The number that an FP32 code stands for. -/
def f32 (c : BitVec 32) : Num := Fmt.decode .f32 c.toNat

/-- Does a new candidate come before one that is held (R291)? -/
def before (n h : Cand) : Bool := Num.lt (f32 h.val) (f32 n.val) || (!Num.lt (f32 n.val) (f32 h.val) && decide (n.idx.toNat < h.idx.toNat))

/-- A candidate at its place in the list. -/
def insertCand (n : Cand) : List Cand → List Cand
  | [] => [n]
  | h :: r => if before n h then n :: h :: r else h :: insertCand n r

/-- E: the number of eligible entries (R292). -/
def CandFile.elig (f : CandFile) : Nat := min f.entries.length f.k

/-- FP32 arithmetic under RNE without events. -/
def rneAdd (a b : Nat) : Nat := (fadd .f32 .rne 0 a b).1
/-- A product. -/
def rneMul (a b : Nat) : Nat := (fmul .f32 .rne 0 a b).1
/-- A quotient. -/
def rneDiv (a b : Nat) : Nat := (fdiv .f32 .rne 0 a b).1

/-- FP32 +infinity. -/
def plusInf : Nat := 0x7F800000

/-- Is an FP32 code a NaN? -/
def isNan32 (c : Nat) : Bool := Fmt.decode .f32 c == .nan

/-- The weights in logit mode (R292). -/
def CandFile.logits (f : CandFile) : List Nat :=
  let es := f.entries.take f.elig
  match es with
  | [] => []
  | h :: _ =>
    if f.beta.toNat = plusInf then es.zipIdx.map (fun p => if p.2 = 0 then 0x3F800000 else 0)
    else es.map (fun e =>
      let y := rneMul f.beta.toNat ((fsub .f32 .rne 0 e.val.toNat h.val.toNat).1)
      if isNan32 y then 0 else (expElem y).1)

/-- The weights in linear mode (R292). -/
def CandFile.linear (f : CandFile) : List Nat :=
  (f.entries.take f.elig).map (fun e =>
    if e.val.toNat = plusInf then Fmt.maxCode .f32
    else if Num.lt (.fin false 0 0) (f32 e.val) then e.val.toNat else 0)

/-- The prefix sums of weights, from a first sum (R292). -/
def sums (c : Nat) : List Nat → List Nat
  | [] => []
  | w :: r => let d := rneAdd c w; d :: sums d r

/-- S: the last prefix sum, +0 when there is none. -/
def total (cs : List Nat) : Nat := cs.getLastD 0

/-- Is an FP32 code finite and greater than +0? -/
def finPos (c : Nat) : Bool := c != plusInf && !isNan32 c && Num.lt (.fin false 0 0) (Fmt.decode .f32 c)

/-! ### The commands (R295-R299) -/

/-- `smerge` (R295): the kept lanes are inserted, the first 64 stay, K becomes 64. -/
def CandFile.merge (f : CandFile) (v : Vec) (base : Nat) (keep : W64) : CandFile :=
  let new := (List.range 64).filterMap (fun i =>
    let x := elem .f32 v i
    if isNan32 x || !keep.getLsbD i then none else some (⟨BitVec.ofNat 32 x, BitVec.ofNat 32 (base + i)⟩ : Cand))
  { f with entries := (new.foldl (fun l c => insertCand c l) f.entries).take 64, k := 64 }

/-- `stopp` (R296). -/
def CandFile.topp' (f : CandFile) (q : Nat) : CandFile :=
  let cs := sums 0 f.logits
  let s := total cs
  if isNan32 q || !Num.lt (Fmt.decode .f32 q) (.fin false 1 0) || f.elig == 0 || !finPos s then f
  else
    let t := Fmt.decode .f32 (rneMul q s)
    match cs.findIdx? (fun c => !Num.lt (Fmt.decode .f32 c) t) with
    | some m => { f with k := m + 1 }
    | none => f

/-- `sdraw` (R298): the value of its return entry. -/
def CandFile.draw (f : CandFile) (lin : Bool) (seed ctr : W64) : W64 :=
  let cs := sums 0 (if lin then f.linear else f.logits)
  let s := total cs
  if f.elig = 0 ∨ finPos s = false then BitVec.allOnes 64
  else
    let d := Sys2Proof.Machine.draw seed ctr
    let u : Num := .fin false (fieldOf d 63 40) (-24)
    let t := Fmt.decode .f32 ((Num.mul u (Fmt.decode .f32 s)).1.pack .f32 .rdn false 0).1
    match cs.findIdx? (fun c => Num.lt t (Fmt.decode .f32 c)) with
    | some i => BitVec.ofNat 64 (i * 2 ^ 32 + ((f.entries.getD i ⟨0, 0⟩).idx).toNat)
    | none => BitVec.allOnes 64

/-- The probability of entry e (R299). -/
def CandFile.prob (f : CandFile) (e : Nat) : Nat :=
  let ws := f.logits
  let s := total (sums 0 ws)
  if f.elig ≤ e then 0
  else if s = plusInf ∨ isNan32 s = true then Fmt.nanCode .f32
  else if s = 0 then 0
  else rneDiv (ws.getD e 0) s

/-- `sget` (R299): the value of its return entry. -/
def CandFile.get' (f : CandFile) (x : Nat) (a : W64) : W64 :=
  let e := a.toNat % 64
  match x with
  | 0 => match f.entries[e]? with | some c => c.val.setWidth 64 | none => 0
  | 1 => match f.entries[e]? with | some c => c.idx.setWidth 64 | none => 0xFFFFFFFF
  | 2 => BitVec.ofNat 64 (f.prob e)
  | 3 => match (f.entries.take f.elig).findIdx? (fun c => c.idx.toNat == a.toNat % 2 ^ 32) with
    | some i => BitVec.ofNat 64 (f.prob i)
    | none => 0
  | _ => BitVec.ofNat 64 (total (sums 0 f.logits))

/-- The effect of a command on its context's candidate file (R295-R297). -/
def SampCmd.effect (q : SampCmd) (f : CandFile) : CandFile :=
  match q.op with
  | 1 => f.merge q.v q.a.toNat q.keep
  | 2 => CandFile.init
  | 3 => { f with beta := if finPos (q.a.toNat % 2 ^ 32) then q.a.setWidth 32 else BitVec.ofNat 32 plusInf }
  | 4 => if q.a = 0 then f else { f with k := min f.k q.a.toNat }
  | 5 => f.topp' (q.a.toNat % 2 ^ 32)
  | _ => f

/-- The return value of a command, if it has one. -/
def SampCmd.value (q : SampCmd) (f : CandFile) : Option W64 :=
  match q.op with
  | 6 => some (f.draw (q.x == 1) q.a q.b)
  | 7 => some (f.get' q.x q.a)
  | _ => none

/-- The busy cycles of a command (R293). -/
def SampCmd.busy (q : SampCmd) : Nat :=
  match q.op with
  | 1 => 2
  | 5 => 4
  | 6 => 4
  | 7 => if q.x ≤ 1 then 2 else 4
  | _ => 1

/-- The scratchpad words of a mask for the 64 lanes, one a lane (R295). -/
def SampCmd.maskAt (q : SampCmd) (i : Nat) : Nat :=
  (q.b.toNat % 2 ^ 22 / 8 * 8 + 8 * ((q.a.toNat + i) % 2 ^ 32 / 64)) % 0x300000 / 8

/-- The lanes that a mask keeps; a poisoned mask word acts as zero (R295, R377). -/
def SampCmd.lanes (q : SampCmd) (g : Core) : W64 :=
  if !q.masked then BitVec.allOnes 64
  else BitVec.ofNat 64 (maskOf 1 ((List.range 64).map (fun i =>
    let w := q.maskAt i
    !g.bad 1 w && (SMap.get 0 g.sp w).getLsbD ((q.a.toNat + i) % 2 ^ 32 % 64))))

/-- The mask words of a command. -/
def SampCmd.maskWords (q : SampCmd) : List Nat := if q.masked then (List.range 64).map (fun i => q.maskAt i) else []

/-- May the head command start in this cycle: not in its issue cycle, its tokens done, its mask words' banks not locked (R293, R295) and not serving
another agent (R157)? -/
def sampMay (s : State) (gn : Nat) (q : SampCmd) : Bool :=
  !q.fresh && s.depsDone q.tid q.rank q.deps &&
    !(s.core gn).locked (q.maskWords.map (s.core gn).bank) && !(s.core gn).taken q.maskWords

/-- A command completes: its effect on the candidate file, and its value in its reserved entry (R293). -/
def sampDone (s : State) (gn : Nat) (q : SampCmd) : State :=
  let s := s.modCore gn (fun g => { g with samp := g.samp.drop 1 })
  s.modWho q.tid q.rank (fun x =>
    let v := q.value x.cand
    { x with
      cand := q.effect x.cand
      rq := match v with | some v => x.rq.map (fun e => if e.seq = q.serial then { e with arrived := true, val := v } else e) | none => x.rq })

/-- The head command of a sampler completes, if it is in its last busy cycle; the next one starts a cycle later (R293). -/
def sampComplete (s : State) (gn : Nat) : State :=
  match (s.core gn).samp with
  | [] => s
  | q :: _ =>
    if q.left = some 1 then (sampDone s gn q).modCore gn (fun g => { g with samp := g.samp.map (fun q => { q with fresh := true }) }) else s

/-- One cycle of a sampler: the head command starts, goes on, or completes in its last busy cycle (R293). -/
def tickSampler (s : State) (gn : Nat) : State :=
  match (s.core gn).samp with
  | [] => s
  | q :: r =>
    let put (s : State) (q : SampCmd) : State := s.modCore gn (fun g => { g with samp := q :: r })
    let s := match q.left with
      | none => if sampMay s gn q then put s { q with left := some q.busy, keep := if q.op = 1 then q.lanes (s.core gn) else 0 } else s
      | some _ => s
    let s := match (s.core gn).samp with
      | q :: _ => (match q.left with
        | some 1 => sampDone s gn q
        | some n => put s { q with left := some (n - 1) }
        | none => s)
      | [] => s
    s.modCore gn (fun g => { g with samp := g.samp.map (fun q => { q with fresh := false }) })

/-! ### The SQ cells -/

/-- A sampler cell (R293): a full queue blocks; so does a full return queue for `sdraw` and `sget`. -/
def sampSend (op x : Nat) (v : Vec) (a b : W64) (masked : Bool) (c : Nat) (s : State) : Verdict :=
  let y := s.ctx c
  let ret := op == 6 || op == 7
  if 16 ≤ (s.core (coreOf c)).samp.length then
    .block (if ret && decide (8 ≤ y.rq.length) then .returnsReserved else .samplerFull) .none
  else if ret && decide (8 ≤ y.rq.length) then .block .returnsReserved .none
  else
    let s := { s with serial := s.serial + 1 }
    let deps := if op = 1 then y.deps else []
    let q : SampCmd := ⟨s.serial, op, x, y.tid, y.rank, y.order, v, a, b, masked, deps, true, none, 0⟩
    let s := s.modCore (coreOf c) (fun g => { g with samp := g.samp ++ [q] })
    .issued (s.modCtx c (fun z => { z with
      att := if op = 1 then [] else z.att
      rq := if ret then z.rq ++ [(⟨0, q.serial, false, 0⟩ : AqEntry)] else z.rq }))

/-- `sq.smerge` (R295): the v field is from 0 to 31 (R48). -/
def opSqSmerge (v b m : BitVec 6) (c : Nat) (s : State) : Verdict :=
  sampSend 1 0 (readV s c v.toNat) (readS s c b.toNat) (readS s c m.toNat) (m != 0) c s
/-- `sq.sclr` (R297). -/
def opSqSclr := sampSend 2 0 0 0 0 false
/-- `sq.stemp` (R296). -/
def opSqStemp (a : BitVec 6) (c : Nat) (s : State) : Verdict := sampSend 3 0 0 (readS s c a.toNat) 0 false c s
/-- `sq.stopk` (R296). -/
def opSqStopk (a : BitVec 6) (c : Nat) (s : State) : Verdict := sampSend 4 0 0 (readS s c a.toNat) 0 false c s
/-- `sq.stopp` (R296). -/
def opSqStopp (a : BitVec 6) (c : Nat) (s : State) : Verdict := sampSend 5 0 0 (readS s c a.toNat) 0 false c s
/-- `sq.sdraw` (R298). -/
def opSqSdraw (a b : BitVec 6) (c : Nat) (s : State) : Verdict := sampSend 6 0 0 (readS s c a.toNat) (readS s c b.toNat) false c s
/-- `sq.sdraw.lin` (R298). -/
def opSqSdrawLin (a b : BitVec 6) (c : Nat) (s : State) : Verdict := sampSend 6 1 0 (readS s c a.toNat) (readS s c b.toNat) false c s
/-- `sq.sget.val` (R299). -/
def opSqSgetVal (a : BitVec 6) (c : Nat) (s : State) : Verdict := sampSend 7 0 0 (readS s c a.toNat) 0 false c s
/-- `sq.sget.idx` (R299). -/
def opSqSgetIdx (a : BitVec 6) (c : Nat) (s : State) : Verdict := sampSend 7 1 0 (readS s c a.toNat) 0 false c s
/-- `sq.sget.prob` (R299). -/
def opSqSgetProb (a : BitVec 6) (c : Nat) (s : State) : Verdict := sampSend 7 2 0 (readS s c a.toNat) 0 false c s
/-- `sq.sget.tprob` (R299). -/
def opSqSgetTprob (a : BitVec 6) (c : Nat) (s : State) : Verdict := sampSend 7 3 0 (readS s c a.toNat) 0 false c s
/-- `sq.sget.sum` (R299). -/
def opSqSgetSum := sampSend 7 4 0 0 0 false

/-- `sq.rpop` (R300). -/
def opSqRpop (d : BitVec 6) (c : Nat) (s : State) : Verdict :=
  match (s.ctx c).rq with
  | [] => .block .rqEmpty .none
  | e :: r => if !e.arrived then .block .rqEmpty .none
              else .issued (exposeS (s.modCtx c (fun x => { x with rq := r })) c 7 d.toNat e.val 2 0)

end Sys2Proof.Machine
end

