-- ==== Sys2Proof/Machine/Walker.lean ====
section
/-! DEFINITION. The schedule walkers (15_schedule.md R333-R352): the schedule block, tiles and placement, hand-out, rewrites, completion
and yield, and the order of commands. -/

namespace Sys2Proof.Machine

/-! ### The block and its geometry (R334-R336) -/

/-- A dimension word. -/
structure DimWord where
  ext : Nat
  gran : Nat
  tile : Nat
  ord : Nat

/-- A dimension word from its 64 bits. -/
def DimWord.of (w : W64) : DimWord := ⟨fieldOf w 63 32, fieldOf w 31 16, fieldOf w 15 8, fieldOf w 2 0⟩

/-- G of a dimension (R336). -/
def DimWord.granules (d : DimWord) : Nat := ceilDiv d.ext d.gran
/-- U of a dimension (R340). -/
def DimWord.tiles (d : DimWord) : Nat := ceilDiv d.granules d.tile

/-- A geometry: its dimensions below NDIM, the worker count, the placement and the worker table. -/
structure Geom where
  dims : List DimWord
  nw : Nat
  place : Nat
  tab : List Nat

/-- A product of a list. -/
def prod (l : List Nat) : Nat := l.foldl (fun a b => a * b) 1

/-- Is a geometry valid (R335), with NDIM and CLUS of the block? -/
def Geom.valid (g : Geom) (ndim clus : Nat) : Bool :=
  decide (1 ≤ ndim) && decide (ndim ≤ 6) && g.dims.length == ndim &&
  g.dims.all (fun d => decide (1 ≤ d.ext) && decide (1 ≤ d.gran) && decide (1 ≤ d.tile) && decide (d.tile ≤ 64)) &&
  (List.range ndim).all (fun i => g.dims.any (fun d => d.ord == i)) &&
  decide (prod (g.dims.map (fun d => d.tile)) ≤ 64) && decide (prod (g.dims.map DimWord.granules) ≤ 2 ^ 30) &&
  decide (1 ≤ g.nw) && decide (g.nw ≤ 64) && decide (clus ≤ 19)

/-- GT. -/
def Geom.total (g : Geom) : Nat := prod (g.dims.map DimWord.granules)
/-- T. -/
def Geom.tiles (g : Geom) : Nat := prod (g.dims.map DimWord.tiles)
/-- U of the outermost dimension (R344). -/
def Geom.top (g : Geom) : Nat := match g.dims.find? (fun d => d.ord + 1 == g.dims.length) with | some d => d.tiles | none => 1

/-- The tile position in a dimension of tile t: the tiles of the inner dimensions come first (R340). -/
def Geom.tilePos (g : Geom) (t : Nat) (d : DimWord) : Nat :=
  t / prod ((g.dims.filter (fun e => decide (e.ord < d.ord))).map DimWord.tiles) % d.tiles

/-- A box in one dimension: its first granule and its granules (R340). -/
def Geom.box (g : Geom) (t : Nat) : List (Nat × Nat) :=
  g.dims.map (fun d => let u := g.tilePos t d; (u * d.tile, min ((u + 1) * d.tile) d.granules - u * d.tile))

/-- Coordinates in a box of a box bit, dimension 0 fastest (R340). -/
def boxCoords (b : Nat) : List (Nat × Nat) → List Nat
  | [] => []
  | (o, n) :: r => (o + b % max 1 n) :: boxCoords (b / max 1 n) r

/-- The map index of granule coordinates (R336). -/
def Geom.mapIndex (g : Geom) (cs : List Nat) : Nat :=
  ((g.dims.zip cs).foldr (fun p a => p.2 + p.1.granules * a) 0)

/-- The tile that holds a granule, by its coordinates (R340, R346). -/
def Geom.tileOf (g : Geom) (cs : List Nat) : Nat :=
  ((g.dims.zip cs).map (fun p =>
    p.2 / max 1 p.1.tile * prod ((g.dims.filter (fun e => decide (e.ord < p.1.ord))).map DimWord.tiles))).sum

/-- Is tile t placed on worker w (R341)? A table byte of NW or more names no worker. -/
def Geom.placed (g : Geom) (t w : Nat) : Bool :=
  match g.place with
  | 0 => t % g.nw == w
  | 1 => t / ceilDiv g.tiles g.nw == w
  | 2 => g.tab.getD (t % 32) 255 == w && decide (w < g.nw)
  | _ => true

/-- Bytes of words, the first lowest. -/
def wordBytes (ws : List W64) : List Nat := ws.flatMap (fun w => (List.range 8).map (fun i => w.toNat / 2 ^ (8 * i) % 256))

/-- A schedule block as a command reads it. -/
structure Sched where
  at_ : Nat
  via : Via
  ctrl : W64
  run : W64
  prog : W64
  mapw : W64
  geo : W64
  dims : List W64
  tab : List W64
  pgeo : W64
  pdims : List W64
  ptab : List W64

/-- The address of the coverage map: MOFF is a signed offset (R334). -/
def Sched.mapAt (b : Sched) : Nat := (b.at_ + sx48 (fieldOf b.mapw 47 0)) % 2 ^ 64

/-- The block at an address, 256-byte aligned and canonical; its map must be canonical and 8-byte aligned (R345). -/
def readSched (w : Via) (a : Nat) : Eng Sched := do
  echeck (canonical a && a % 256 == 0) 1
  let ws ← eReads w a 26
  let b : Sched := { at_ := a, via := w, ctrl := wordAt ws 0, run := wordAt ws 1, prog := wordAt ws 2, mapw := wordAt ws 3, geo := wordAt ws 4,
                     dims := (ws.drop 5).take 6, pgeo := wordAt ws 11, pdims := (ws.drop 12).take 6, tab := (ws.drop 18).take 4,
                     ptab := (ws.drop 22).take 4 }
  echeck (canonical b.mapAt && fieldOf b.mapw 47 0 % 8 == 0) 1
  pure b

/-- NDIM. -/
def Sched.ndim (b : Sched) : Nat := fieldOf b.ctrl 34 32
/-- CLUS. -/
def Sched.clus (b : Sched) : Nat := fieldOf b.ctrl 52 48
/-- GEN, PEND, CUR, LIM and NDONE. -/
def Sched.gen (b : Sched) : Nat := fieldOf b.run 63 48
/-- PEND. -/
def Sched.pend (b : Sched) : Bool := b.run.getLsbD 47
/-- CUR. -/
def Sched.cur (b : Sched) : Nat := fieldOf b.run 31 0
/-- LIM. -/
def Sched.lim (b : Sched) : Nat := fieldOf b.prog 63 32
/-- NDONE. -/
def Sched.ndone (b : Sched) : Nat := fieldOf b.prog 31 0

/-- A geometry from a GEO word, dimension words and a worker table. -/
def geomOf (ndim : Nat) (geo : W64) (dims tab : List W64) : Geom :=
  ⟨(dims.take ndim).map DimWord.of, fieldOf geo 6 0, fieldOf geo 9 8, wordBytes tab⟩

/-- The current geometry. -/
def Sched.geom (b : Sched) : Geom := geomOf b.ndim b.geo b.dims b.tab

/-- A dimension word with TILE and ORD of another. -/
def mixDim (d p : W64) : W64 := setField (setField d 15 8 (fieldOf p 15 8)) 2 0 (fieldOf p 2 0)

/-- The dimension words with TILE and ORD of others, below NDIM. -/
def mixDims (ndim : Nat) (ds ps : List W64) : List W64 :=
  (ds.zip ps).zipIdx.map (fun p => if p.2 < ndim then mixDim p.1.1 p.1.2 else p.1.1)

/-- The state of a granule (R337). -/
def Sched.granule (b : Sched) (g : Nat) : Eng Nat := do
  let w ← eRead b.via (b.mapAt + 8 * (g / 32))
  pure (w.toNat / 2 ^ (2 * (g % 32)) % 4)

/-- Write the state of a granule. -/
def Sched.setGranule (b : Sched) (g v : Nat) : Eng Unit :=
  eRmw b.via (b.mapAt + 8 * (g / 32)) (fun w => setField w (2 * (g % 32) + 1) (2 * (g % 32)) v)

/-- The box bits of the free granules of a tile. -/
def Sched.freeBits (b : Sched) (gm : Geom) (t : Nat) : Eng (List Nat) := do
  let bx := gm.box t
  let bits := List.range (prod (bx.map Prod.snd))
  bits.foldlM (fun l i => do
    let v ← b.granule (gm.mapIndex (boxCoords i bx))
    pure (if v = 0 then l ++ [i] else l)) []

/-- The least tile from `t` on, below `e`, that a test allows and whose box holds a free granule. -/
def Sched.findTile (b : Sched) (gm : Geom) (ok : Nat → Bool) (t : Nat) : Nat → Eng (Option (Nat × List Nat))
  | 0 => pure none
  | n + 1 =>
    if !ok t then b.findTile gm ok (t + 1) n
    else do
      let l ← b.freeBits gm t
      if l.isEmpty then b.findTile gm ok (t + 1) n else pure (some (t, l))

/-- RUN and PROG are written. -/
def Sched.setRun (b : Sched) (gen : Nat) (pend : Bool) (cur lim ndone : Nat) : Eng Unit :=
  eWrites b.via (b.at_ + 8) [BitVec.ofNat 64 (gen % 2 ^ 16 * 2 ^ 48 + pend.toNat * 2 ^ 47 + cur % 2 ^ 32),
    BitVec.ofNat 64 (lim % 2 ^ 32 * 2 ^ 32 + ndone % 2 ^ 32)]

/-- A mask of bits. -/
def bitsMask (l : List Nat) : W64 := l.foldl (fun m i => m ||| (1#64 <<< i)) 0

/-! ### The commands (R342-R346) -/

/-- The tile record of a hand-out (R343). -/
def tileRecord (gm : Geom) (gen t : Nat) (bits : List Nat) : List W64 :=
  let bx := gm.box t
  let dims := (gm.dims.zip bx).map (fun p =>
    let o := p.2.1 * p.1.gran
    BitVec.ofNat 64 (o % 2 ^ 32 * 2 ^ 32 + min (p.2.2 * p.1.gran) (p.1.ext - o) % 2 ^ 24 * 2 ^ 8 + p.2.2 % 256))
  [bitsMask bits, 0, BitVec.ofNat 64 (gen % 2 ^ 16 * 2 ^ 48 + t)] ++ dims ++ List.replicate (6 - dims.length) (0x101 : W64)

/-- The block after a switch of generation (R342): GEOM while the pending copy is not valid. -/
def Sched.switch (b : Sched) : Eng Sched := do
  if b.pend && decide (b.lim ≤ b.cur) then
    let dims := mixDims b.ndim b.dims b.pdims
    let b' : Sched := { b with geo := b.pgeo, dims := dims, tab := b.ptab }
    echeck (b'.geom.valid b.ndim b.clus) 17
    eWrites b.via (b.at_ + 32) (b.pgeo :: dims)
    eWrites b.via (b.at_ + 144) b.ptab
    b.setRun (b.gen + 1) false 0 0xFFFFFFFF b.ndone
    pure { b' with run := BitVec.ofNat 64 ((b.gen + 1) % 2 ^ 16 * 2 ^ 48), prog := setField b.prog 63 32 0xFFFFFFFF }
  else pure b

/-- `itnext` (R342): the reply. `aud` is true for an auditable task and a replay (R384). -/
def itNext (aud : Bool) (w : Via) (a x : W64) : Eng W64 := do
  let b ← readSched w a.toNat
  let rec_ := sx48 (x.toNat % 2 ^ 48)
  echeck (rec_ % 128 == 0) 1
  echeck (b.geom.valid b.ndim b.clus && !(aud && b.geom.place == 3)) 2
  let wk := fieldOf x 63 58
  echeck (decide (wk < b.geom.nw)) 16
  let b ← b.switch
  let gm := b.geom
  echeck (!(aud && gm.place == 3)) 2
  if b.ndone = gm.total then pure 0x8000000000000002
  else
    let e := if b.pend then min b.lim gm.tiles else gm.tiles
    match ← b.findTile gm (fun t => gm.placed t wk) b.cur (e - b.cur) with
    | none => pure 0x8000000000000001
    | some (t, bits) =>
      let bx := gm.box t
      eFor bits (fun i => b.setGranule (gm.mapIndex (boxCoords i bx)) 1)
      eWrites w rec_ (tileRecord gm b.gen t bits)
      let nxt ← b.findTile gm (fun _ => true) b.cur (gm.tiles - b.cur)
      b.setRun b.gen b.pend (match nxt with | some (u, _) => u | none => gm.tiles) b.lim b.ndone
      pure (BitVec.ofNat 64 (b.gen * 2 ^ 32 + t))

/-- `schw` (R344); it fails with STATE for an auditable task and a replay (R384). -/
def schw (aud : Bool) (w : Via) (a x : W64) : Eng Unit := do
  let b ← readSched w a.toNat
  echeck (canonical x.toNat && x.toNat % 8 == 0) 1
  echeck (!b.ctrl.getLsbD 63 && !aud) 6
  echeck (b.geom.valid b.ndim b.clus) 2
  let ws ← eReads w x.toNat 11
  let geo := wordAt ws 0
  let dims := (ws.drop 1).take 6
  let tab := (ws.drop 7).take 4
  echeck ((geomOf b.ndim geo (mixDims b.ndim b.dims dims) tab).valid b.ndim b.clus) 17
  eWrites w (b.at_ + 88) (geo :: dims)
  eWrites w (b.at_ + 176) tab
  if b.pend then pure ()
  else
    let gm := b.geom
    let inner := gm.tiles / gm.top
    let lim := if b.cur = gm.tiles then gm.tiles else (b.cur / inner + 1) * inner
    b.setRun b.gen true b.cur lim b.ndone

/-- A dimension of a tile record: O and B. -/
def recBox (gm : Geom) (ws : List W64) : List (Nat × Nat) :=
  gm.dims.zipIdx.map (fun p => let v := wordAt ws (3 + p.2); (fieldOf v 63 32, fieldOf v 7 0))

/-- `itdone` and `ityield` (R346); they do not test the geometry (R335), a record that does not fit it fails with TILEREC. -/
def itEnd (w : Via) (yield : Bool) (a x : W64) : Eng Unit := do
  let b ← readSched w a.toNat
  let r := sx48 (x.toNat % 2 ^ 48)
  echeck (r % 128 == 0) 1
  let gm := b.geom
  let ws ← eReads w r 9
  let mask := wordAt ws 0
  let ym := wordAt ws 1
  let box := recBox gm ws
  let n := prod (box.map Prod.snd)
  let low (m : W64) : Bool := decide (64 ≤ n) || m.toNat < 2 ^ n
  echeck (low mask && (!yield || low ym)) 18
  let set := if yield then mask &&& ym else mask
  let bits := (List.range 64).filter (fun i => set.getLsbD i)
  let gbox := (gm.dims.zip box).map (fun p => (p.2.1 / p.1.gran, p.2.2))
  echeck (bits.isEmpty || ((gm.dims.zip box).all (fun p => p.2.1 % p.1.gran == 0 && decide (p.2.1 / p.1.gran + p.2.2 ≤ p.1.granules)))) 18
  let cs := bits.map (fun i => boxCoords i gbox)
  eFor cs (fun c => do
    let v ← b.granule (gm.mapIndex c)
    echeck (v == 1) 18)
  eFor cs (fun c => b.setGranule (gm.mapIndex c) (if yield then 0 else 2))
  if yield then
    eWrites w r [mask &&& ~~~ym, 0]
    if bits.isEmpty then pure ()
    else b.setRun b.gen b.pend (cs.foldl (fun m c => min m (gm.tileOf c)) b.cur) b.lim b.ndone
  else
    eWrite w r 0
    if bits.isEmpty then pure () else b.setRun b.gen b.pend b.cur b.lim (b.ndone + bits.length)

/-! ### Order (R350) -/

/-- How a walker serves a command. -/
def walkVia (cl : Nat) (q : SqCmd) : Via := ⟨.walker cl, cl / 20, q.asid, q.k⟩

/-- Where a command is performed (R350): the home walker that CTRL names, or the issuing cluster's walker with what it settles itself. -/
inductive Home where
  | walker (cl : Nat)
  | settle (h : Halt)

/-- The home of a command, as the issuing cluster's walker reads it. -/
def walkHome (s : State) (q : SqCmd) : Home :=
  let cl := clusterOf q.core
  if !canonical q.a.toNat || q.a.toNat % 256 != 0 then .settle (.fail 1)
  else match (eRead (walkVia cl q) q.a.toNat).on s with
    | .error e => .settle e.halt
    | .ok (w, _) => if 19 < fieldOf w 52 48 then .settle (.fail 2) else .walker (fieldOf w 53 53 * 20 + fieldOf w 52 48)

/-- The cluster whose walker performs a command now. -/
def walkCluster (s : State) (q : SqCmd) : Nat := match walkHome s q with | .walker cl => cl | .settle _ => clusterOf q.core

/-- What a command does; `itnext` gives its reply. -/
def walkRun (aud : Bool) (w : Via) (q : SqCmd) : Eng (Option W64) :=
  match q.op with
  | 22 => do
    let v ← itNext aud w q.a q.b
    pure (some v)
  | 23 => do
    itEnd w false q.a q.b
    pure none
  | 24 => do
    itEnd w true q.a q.b
    pure none
  | _ => do
    schw aud w q.a q.b
    pure none

/-- A command of a walker leaves the list. -/
def State.dropWalk (s : State) (q : SqCmd) : State := { s with walks := s.walks.filter (fun x => x.serial != q.serial) }

/-- A command fails with a code and retires; `itnext` returns the code (R345). -/
def walkEnd (s : State) (cl : Nat) (q : SqCmd) (code : Nat) : State :=
  let s := (tryErr (walkVia cl q) (q.a.toNat + 24) code s).dropWalk q
  if q.replies then giveReply s (.walker cl) q (failReply code) else retireCmd s (.walker cl) q

/-- A halt of a command (R345, R350, R352, R377). WHO of a walker's fault record is its cluster's number in the package, 0 to 39, where the spec
says 'global cluster number' and numbers the clusters of a die only (16_faults.md R363; DESIGN CHOICE, log entry 67). -/
def walkHalt (s : State) (cl : Nat) (q : SqCmd) (h : Halt) : State :=
  match h with
  | .fail code => walkEnd s cl q code
  | .poison kill => let s := walkEnd s cl q 19
                    if kill then s.beginKill q.tid 8 else s
  | .wait => s
  | .absent asid va acc lvl =>
    cmdFault { s with walks := s.walks.map (fun x => if x.serial = q.serial then { x with stopped := true, begun := true } else x) } (cl / 20) 5 cl q
      asid va acc lvl q.k

/-- A command at its turn: the issuing cluster's walker has read CTRL, and the home walker performs it (R350). -/
def walkTurn (s : State) (q : SqCmd) : State :=
  let home := walkHome s q
  let first := clusterOf q.core
  let s := if !canonical q.a.toNat || q.a.toNat % 256 != 0 then s
    else match (eRead (walkVia first q) q.a.toNat).on (s.takeUp (.walker first) q) with
      | .ok (_, t) => t
      | .error e => s.after (.walker first) e
  match home with
  | .settle h => walkHalt s first q h
  | .walker cl =>
    let s := s.takeUp (.walker cl) q
    match (walkRun (s.audited q.tid) (walkVia cl q) q).on s with
    | .error e => walkHalt (s.after (.walker cl) e) cl q e.halt
    | .ok (v, s) =>
      let s := s.dropWalk q
      match v with
      | some v => giveReply s (.walker cl) q v
      | none => retireCmd s (.walker cl) q

/-- Do two commands name one block? -/
def walkConflict (o q : SqCmd) : Bool := o.asid == q.asid && o.a == q.a

/-- Walker commands of a context that have not retired. -/
def heldWalk (s : State) (tid rank : Nat) : Nat := heldBy s.walks tid rank

/-- A token-producing walker command (R350): it starts at issue + 3 or later. -/
def sendWalk (op : Nat) (a b : BitVec 6) (k : BitVec 5) := sendCmd 2 4 op 0 a b k heldWalk (fun s q => { s with walks := s.walks ++ [q.onWay] })

/-- `sq.itnext` (R348): it does not consume the attach set. -/
def opSqItnext (d a b : BitVec 6) := askCmd 2 4 22 0 d a b heldWalk
/-- `sq.itdone` (R346). -/
def opSqItdone (a b : BitVec 6) (k : BitVec 5) := sendWalk 23 a b k
/-- `sq.ityield` (R346). -/
def opSqItyield (a b : BitVec 6) (k : BitVec 5) := sendWalk 24 a b k
/-- `sq.schw` (R349). -/
def opSqSchw (a b : BitVec 6) (k : BitVec 5) := sendWalk 25 a b k

end Sys2Proof.Machine
end

