-- ==== Sys2Proof/Machine/Copy.lean ====
section
/-! DEFINITION. The copy engines (10_copy.md R227-R240, R246-R249, 16_faults.md R371, R372): registration, acceptance and its checks, the
start of packets, payload word by word, completion, error stamps, cancellation. -/

namespace Sys2Proof.Machine

/-! ### The packet (R232-R235) -/

/-- Word 0 of a packet. -/
def Packet.w0 (p : Packet) : W64 := wordAt p.words 0
/-- OP. -/
def Packet.op (p : Packet) : Nat := fieldOf p.w0 19 16
/-- CACT. -/
def Packet.cact (p : Packet) : Nat := fieldOf p.w0 11 10
/-- CKV. -/
def Packet.ckv (p : Packet) : Bool := p.w0.getLsbD 9
/-- SPV. -/
def Packet.spv (p : Packet) : Bool := p.w0.getLsbD 8
/-- AUD. -/
def Packet.audit (p : Packet) : Bool := p.w0.getLsbD 7
/-- SSP. -/
def Packet.ssp (p : Packet) : Nat := fieldOf p.w0 6 5
/-- DSP. -/
def Packet.dsp (p : Packet) : Nat := fieldOf p.w0 4 3
/-- AOP. -/
def Packet.aop (p : Packet) : Nat := fieldOf p.w0 2 0
/-- PTOK. -/
def Packet.ptok (p : Packet) : Nat := fieldOf p.w0 39 35
/-- SRC. -/
def Packet.src (p : Packet) : Nat := (wordAt p.words 1).toNat
/-- DST. -/
def Packet.dst (p : Packet) : Nat := (wordAt p.words 2).toNat
/-- Rows. -/
def Packet.n (p : Packet) : Nat := fieldOf (wordAt p.words 3) 43 32 + 1
/-- LEN. -/
def Packet.len (p : Packet) : Nat := fieldOf (wordAt p.words 3) 31 0
/-- AUX. -/
def Packet.aux (p : Packet) : Nat := (wordAt p.words 4).toNat
/-- CADDR. -/
def Packet.caddr (p : Packet) : Nat := (wordAt p.words 5).toNat
/-- CVAL. -/
def Packet.cval (p : Packet) : Nat := (wordAt p.words 6).toNat
/-- CK. -/
def Packet.ckw (p : Packet) : W64 := wordAt p.words 7
/-- Is it an arithmetic operation on write? -/
def Packet.arith (p : Packet) : Bool := p.op == 4 || p.op == 5 || p.op == 6
/-- The element type of arithmetic. -/
def Packet.fmt (p : Packet) : Fmt := Fmt.ofCode (fieldOf p.w0 15 12)
/-- The element size in bytes. -/
def Packet.esize (p : Packet) : Nat := if p.arith then p.fmt.width / 8 else 1
/-- The payload bytes. -/
def Packet.total (p : Packet) : Nat := if p.op = 8 then p.len else p.n * p.len

/-- The source stride of rows (R233). -/
def Packet.sstr (p : Packet) : Nat := if p.op = 2 ∨ p.arith = true then p.aux % 2 ^ 32 else p.len
/-- The destination stride of rows. -/
def Packet.dstr (p : Packet) : Nat := if p.op = 2 ∨ p.arith = true then p.aux / 2 ^ 32 else p.len

/-- An operand address in its space: virtual, or the scratchpad address (R234). -/
def spaceAddr (sp v : Nat) : Nat := if sp = 1 then v % 2 ^ 22 else v
/-- The core of a scratchpad or accumulator operand. -/
def spaceCore (v : Nat) : Nat := v / 2 ^ 32 % 2 ^ 9
/-- Bits that R234 gives as 0 in an operand of a space. -/
def spaceReserved (sp v : Nat) : Bool :=
  (sp == 1 && (v % 2 ^ 32 / 2 ^ 22 != 0 || v / 2 ^ 41 != 0)) ||
  (sp == 2 && (v % 2 ^ 32 / 2 ^ 12 != 0 || v / 2 ^ 41 % 2 ^ 7 != 0 || v / 2 ^ 58 != 0))

/-- The FORMAT checks of R235. -/
def Packet.formatOk (p : Packet) : Bool :=
  fieldOf (wordAt p.words 3) 63 55 == 0 && !(p.spv && fieldOf p.ckw 63 48 != 0) && (p.ckv || p.spv || p.ckw == 0) &&
  !(p.ssp == 1 && p.op != 8 && spaceReserved 1 p.src) && !(p.dsp == 1 && spaceReserved 1 p.dst) && !(p.dsp == 2 && spaceReserved 2 p.dst) &&
  decide (p.op ≤ 8) && p.ssp != 3 && (p.ssp == 2) == (p.op == 1) && !(p.dsp == 2 && p.op != 4) && (p.dsp == 3) == (p.op == 7) &&
  !(p.op == 8 && (decide (1 < p.ssp) || decide (1 < p.dsp))) && !(p.cact == 3 && p.dsp != 1) && !(p.ckv && p.spv) &&
  !(p.op == 8 && decide (4 < p.aop)) && !(p.arith && decide (5 < fieldOf p.w0 15 12))

/-- Bytes of a scratchpad (R153). -/
def spBytes : Nat := 0x300000

/-- The RANGE checks of an operand in its space. -/
def Packet.operandOk (p : Packet) (isSrc : Bool) : Bool :=
  let sp := if isSrc then p.ssp else p.dsp
  let v := if isSrc then p.src else p.dst
  let st := if isSrc then p.sstr else p.dstr
  let n := if p.op = 8 then 1 else p.n
  match sp with
  | 0 => canonical v && v % p.esize == 0 && (st % p.esize == 0)
  | 1 =>
    let a := v % 2 ^ 22
    decide (spaceCore v ≤ 319) && a % 8 == 0 && p.len % 8 == 0 && st % 8 == 0 &&
    ((isSrc && p.op == 3) || decide (a + (n - 1) * st + p.len ≤ spBytes))
  | 2 => isSrc || (decide (spaceCore v ≤ 319) && p.len == 128 && st % p.esize == 0 && decide (p.n ≤ 128) && decide (v % 2 ^ 12 + p.n ≤ 4096) &&
      (let e := fieldOf p.w0 15 12; e == 0 || e == 4 || (e == 1 && v % 2 == 0 && p.n % 2 == 0)))
  | _ => true

/-- The RANGE checks of R235. -/
def Packet.rangeOk (p : Packet) : Bool :=
  p.len != 0 && p.len % p.esize == 0 && (p.op == 8 || p.operandOk true) && p.operandOk false &&
  !(p.op == 8 && !((p.len == 4 || p.len == 8) && spaceAddr p.dsp p.dst % max 1 p.len == 0)) &&
  !(p.op == 3 && !(canonical p.aux && p.aux % 4 == 0)) &&
  (p.caddr == 0 || (canonical p.caddr && p.caddr % 8 == 0)) && !((p.cact == 1 || p.cact == 2) && p.caddr == 0) &&
  !(p.cact == 1 && decide (2 ^ 63 ≤ p.cval)) && (p.cact == 1 || p.cval == 0 || (canonical p.cval && p.cval % 8 == 0)) &&
  !(p.spv && fieldOf p.ckw 47 8 == 0)

/-- The POSTER checks of R235 and R384. -/
def Packet.posterOk (p : Packet) (s : State) : Bool :=
  let t := s.task p.tid
  let audited := p.cpost && (t.aud || t.replay.isSome)
  !((p.op == 8 || p.dsp == 2) && !p.cpost) && (p.audit == audited) &&
  !(p.dsp == 2 && !(match s.whereIs p.tid p.rank with
    | some c => (s.core (coreOf c)).owner == some c && spaceCore p.dst == coreOf c
    | none => false))

/-- The first failing check of acceptance, in the order of the table (R235). -/
def Packet.reject (p : Packet) (s : State) : Option Nat :=
  if !p.formatOk then some 1 else if !p.rangeOk then some 2 else if !p.posterOk s then some 3 else none

/-! ### Engines -/

/-- How a packet's accesses are translated (R246, R358). -/
def Packet.via (p : Packet) (die eng : Nat) : Via := ⟨.copy die eng, die, p.asid, false⟩

/-- Change an engine. -/
def State.modEngine (s : State) (die eng : Nat) (f : Engine → Engine) : State :=
  s.modDie die (fun d => d.setEngine eng (f (d.engine eng)))

/-- The engine of a die. -/
def State.engine (s : State) (die eng : Nat) : Engine := (s.die die).engine eng

/-- Change a packet, named by its serial number. -/
def State.modPacket (s : State) (die eng serial : Nat) (f : Packet → Packet) : State :=
  s.modEngine die eng (fun e => { e with packets := e.packets.map (fun p => if p.serial = serial then f p else p) })

/-- A value arrives at the reserved return entry of a claim (R240). -/
def Context.giveEntry (x : Context) (line seq : Nat) (v : W64) : Context :=
  { x with aq := x.aq.map (fun e => if e.line = line && e.seq == seq then { e with arrived := true, val := v } else e) }

/-- The value of an amo, or its error stamp, reaches the reserved return entry (R240), unless it has its stamp already (R380). -/
def giveReturn (s : State) (p : Packet) (v : W64) : State :=
  if p.op = 8 && p.cpost && !p.retired then s.modWho p.tid p.rank (fun x => x.giveEntry p.line p.seq v) else s

/-- A packet retires (R112): its token is done, unless its claim's cancellation made it so (R380), and its poster's count falls. -/
def retirePacket (s : State) (die eng : Nat) (p : Packet) : State :=
  let s := s.modEngine die eng (fun e => { e with packets := e.packets.filter (fun x => x.serial != p.serial) })
  let s := if p.dsp = 2 then s.modCore (spaceCore p.dst) (fun g =>
    { g with doneWins := g.doneWins.filter (fun w => !(w.desc == p.line && w.seq == p.seq)) }) else s
  if p.cpost then
    let s := if p.retired then s.noteTs p.tid (s.ptsOf (.copy die eng)) else s.retireTok p.tid p.rank p.ptok (s.ptsOf (.copy die eng))
    s.modWho p.tid p.rank (fun x => { x with posted := x.posted - 1 })
  else s

/-- A packet stops in its fault slot; a fault record COPY is due (R246, R362, R371). -/
def stopPacket (s : State) (die eng : Nat) (p : Packet) (asid va : Nat) (acc : Acc) (lvl : Nat) : State :=
  let who := die * 2 ^ 20 + eng * 2 ^ 14 + p.slot * 2 ^ 11
  let f : FaultRec := ⟨none, 2, va % 2 ^ 48, asid, acc.code, false, lvl, if p.cpost then p.tid else 0xFFF, who, p.rank, p.serial, false⟩
  (s.modPacket die eng p.serial (fun x => { x with stopped := true })).modDie die (fun d => { d with faults := d.faults ++ [f] })

/-- A packet ends with an error: its stamp is to be written (R236). -/
def failPacket (s : State) (die eng : Nat) (p : Packet) (code : Nat) : State :=
  s.modPacket die eng p.serial (fun x => { x with phase := .stamp code, stopped := false, buf := [] })

/-- A halt of a packet's access: a fault, ACCESS, RANGE, or nothing while the home cannot be reached. -/
def packetHalt (s : State) (die eng : Nat) (p : Packet) (h : Halt) : State :=
  match h with
  | .absent asid va acc lvl => stopPacket s die eng p asid va acc lvl
  | .fail code => failPacket s die eng p (if code = 2 then 2 else 4)
  | .poison kill => let s := failPacket s die eng p 8
                    if kill && p.cpost then s.beginKill p.tid 8 else s
  | .wait => s

/-! ### Accesses of a payload (R238, R239) -/

/-- A read of bytes inside one aligned word: the value, poison, and whether the page does not contain it. -/
def cReadIn (w : Via) (va n : Nat) : Eng (Nat × Bool × Bool) := fun s =>
  match eTrans w va .read s with
  | .error e => .error e
  | .ok ((pa, pte), s) =>
    let (v, bad, s) := s.loadPhys w.agent pa n true
    .ok ((v, bad, bad && !pteContain pte), s)

/-- A write of bytes inside one aligned word; data from a poisoned source poisons the word (R377). -/
def cWrite (w : Via) (va n v : Nat) (bad : Bool) : Eng Unit := fun s =>
  match eTrans w va .write s with
  | .error e => .error e
  | .ok ((pa, _), s) =>
    let s := s.storePhys w.agent pa n v
    .ok ((), if bad then s.setBad pa true else s)

/-- One element or word combined with memory in one point (R238, R240): the function gives the new value. -/
def cRmw (w : Via) (va n : Nat) (bad : Bool) (f : Nat → Nat) : Eng (Nat × Bool × Bool) := fun s =>
  match eTrans w va .rmw s with
  | .error e => .error e
  | .ok ((pa, pte), s) =>
    let (v, b, s) := s.rmwPhys w.agent pa n f
    .ok ((v, b, b && !pteContain pte), if bad || b then s.setBad pa true else s)

/-- The places of a scratchpad word of a packet: where it stands, or the windows and frames that a save bound it to (R372). -/
inductive SpPlace where
  | here (core word : Nat)
  | frame (tid rank off : Nat)
  deriving DecidableEq, Repr

/-! ### Frames in memory (14_dispatch.md R319, R328) -/

/-- Where a context's frame lies (R319). -/
def frameAt (s : State) (tid rank : Nat) : Nat := (s.task tid).frb + rank * (s.task tid).fstr

/-- The word of a frame at which its window data begin. -/
def frameData : Nat := 0x10000 / 8

/-- The word of a frame at which its window tags begin, behind `lines` lines of data. -/
def frameTags (lines : Nat) : Nat := (0x10000 + 768 * lines + 4095) / 4096 * 512

/-- How many bytes of word j lie in a frame: the tags of an odd number of lines end in the middle of a word, and so does a frame that they end (R328). -/
def Frame.wordBytes (f : Frame) (j : Nat) : Nat :=
  if f.own = false ∧ j = frameTags f.lines + 12 * f.lines / 8 then 12 * f.lines % 8 else 8

/-- Word j of a frame in memory, with zeros behind the end of the frame (R78). -/
def frameWord (s : State) (tid rank j : Nat) : W64 :=
  BitVec.ofNat 64 (s.readN (frameAt s tid rank + 8 * j) ((s.frame tid rank).wordBytes j))

/-- The place of word j among the bytes that CK64 covers, which are all but word 1 (R328; DEDUCED, log entry 14). -/
def frameIndex (j : Nat) : Nat := if j = 0 then 0 else j - 1

/-- The hardware writes word j of a frame, and its CK64 follows (R328, 16_faults.md R372). -/
def setFrameWord (s : State) (tid rank j : Nat) (v : W64) (bad : Bool) : State :=
  let ag : Agent := .dispatch (s.task tid).die
  let a := frameAt s tid rank
  let ck := frameWord s tid rank 1 - ckTerm (frameIndex j) (frameWord s tid rank j) + ckTerm (frameIndex j) v
  let s := (s.storePhys ag (a + 8 * j) ((s.frame tid rank).wordBytes j) v.toNat).storePhys ag (a + 8) 8 ck.toNat
  s.setBad (a + 8 * j) bad

/-- The tag of window word o becomes full in a frame (R372). -/
def setFrameTag (s : State) (tid rank o : Nat) : State :=
  let j := frameTags (s.frame tid rank).lines + o / 64
  setFrameWord s tid rank j (frameWord s tid rank j ||| (1#64 <<< (o % 64))) false

/-- Does a bound name a word? -/
def Bound.holds (b : Bound) (core word : Nat) : Bool := b.core == core && decide (b.first ≤ word) && decide (word < b.first + b.words)

/-- The places of a word: the windows and frames of the task that it was bound to first, if any (R372). -/
def Packet.places (p : Packet) (s : State) (core word : Nat) : List SpPlace :=
  match p.bounds.filter (fun b => b.holds core word) with
  | [] => [.here core word]
  | x :: r => (((x :: r).filter (fun b => b.tid == x.tid)).filterMap (fun b =>
    if s.frames.any (fun f => f.1 == frameKey b.tid b.rank) then some (.frame b.tid b.rank (word - b.first))
    else match s.whereIs b.tid b.rank with
      | some c => some (.here (coreOf c) ((s.ctx c).spBase / 8 + (word - b.first)))
      | none => none)).eraseDups

/-- Does a tile command's lock hold a packet at a core (R111): was it posted by a context of that core? -/
def Packet.heldAt (p : Packet) (s : State) (core : Nat) : Bool :=
  p.cpost && (match s.whereIs p.tid p.rank with | some c => coreOf c == core | none => false)

/-- Is a packet held at a place: by a tile command (R111), or by a frame out of reach (17_reliability.md R392)? -/
def SpPlace.locked (s : State) (p : Packet) : SpPlace → Bool
  | .here c w => p.heldAt s c && (s.core c).locked [(s.core c).bank w]
  | .frame t r o => !s.reach (s.task t).die (frameAt s t r) || !s.reach (s.task t).die (frameAt s t r + 8 * (frameData + o))

/-- Change a frame. -/
def State.modFrame (s : State) (tid rank : Nat) (f : Frame → Frame) : State :=
  { s with frames := s.frames.map (fun p => if p.1 = frameKey tid rank then (p.1, f p.2) else p) }

/-- The word at a place, with its poison. -/
def SpPlace.read (s : State) : SpPlace → W64 × Bool
  | .here c w => (SMap.get 0 (s.core c).sp w, (s.core c).bad 1 w)
  | .frame t r o => (frameWord s t r (frameData + o), s.badAt (frameAt s t r + 8 * (frameData + o)) 8)

/-- A word written at a place, its tag set where `tag` says so (R109). -/
def SpPlace.write (s : State) (v : W64) (bad tag : Bool) : SpPlace → State
  | .here c w => s.modCore c (fun g =>
      let g := { (g.setBad 1 w bad).use [w] with sp := SMap.set 0 g.sp w v }
      if tag then g.setTags [w] true else g)
  | .frame t r o =>
    let s := setFrameWord s t r (frameData + o) v bad
    if tag then setFrameTag s t r o else s

/-- Bytes of a word replaced. -/
def putBytes (w : W64) (at_ n v : Nat) : W64 := setField w (8 * at_ + 8 * n - 1) (8 * at_) v

/-- A scratchpad word or a part of it combined: value `f old` over `n` bytes at byte `b` of the word; its tag, where `tag` says so, follows the
word's last byte (R110). -/
def spCombine (p : Packet) (core addr n : Nat) (bad rmw tag : Bool) (f : Nat → Nat) : Eng (Nat × Bool) := fun s =>
  let ps := p.places s core (addr / 8)
  if ps.any (SpPlace.locked s p) then ewait s
  else
    let part (w : W64) : Nat := w.toNat / 2 ^ (8 * (addr % 8)) % 2 ^ (8 * n)
    let old := match ps with | q :: _ => (let r := q.read s; (part r.1, r.2)) | [] => (0, false)
    .ok (old, ps.foldl (fun s q =>
      let (w, b) := q.read s
      q.write s (putBytes w (addr % 8) n (f (part w))) (bad || (b && (rmw || decide (n < 8)))) tag) s)

/-- A scratchpad word read by a packet's source, whole (R238). -/
def spSource (p : Packet) (core addr : Nat) : Eng (Nat × Bool) := fun s =>
  let g := s.core core
  if p.heldAt s core && g.locked [g.bank (addr / 8)] then ewait s
  else .ok (((SMap.get 0 g.sp (addr / 8)).toNat, g.bad 1 (addr / 8)), s.modCore core (fun g => g.use [addr / 8]))

/-- The source address of a row; a gather's index must be read for it (R233). -/
def Packet.rowSrc (p : Packet) (i idx : Nat) : Nat :=
  let st := if p.op = 3 then idx * p.len else i * p.sstr
  if p.ssp = 1 then p.src % 2 ^ 22 + st else (p.src + st) % 2 ^ 64
/-- The destination address of a row. -/
def Packet.rowDst (p : Packet) (i : Nat) : Nat :=
  if p.dsp = 1 then p.dst % 2 ^ 22 + i * p.dstr else (p.dst + i * p.dstr) % 2 ^ 64

/-- How many bytes the next write moves: one element, one destination word or part of one (R238). -/
def Packet.chunk (p : Packet) : Nat :=
  if p.arith && p.dsp != 2 then p.esize
  else
    let off := p.done % p.len
    min (8 - (if p.dsp = 0 then (p.rowDst (p.done / p.len) + off) % 8 else 0)) (p.len - off)

/-- One element combined (R238). -/
def Packet.combine (p : Packet) (e x : Nat) : Nat :=
  let f := p.fmt
  match p.op with
  | 4 => if f.isInt then (e + x) % 2 ^ f.width else (fadd f .rne 0 e x).1
  | 5 => fminmax true f e x
  | _ => fminmax false f e x

/-- The new value of an amo (R240). -/
def Packet.atomic (p : Packet) (old : Nat) : Nat :=
  let w := 8 * p.len
  let v := p.src % 2 ^ w
  match p.aop with
  | 0 => (old + v) % 2 ^ w
  | 1 => v
  | 2 => if old = p.aux % 2 ^ w then v else old
  | 3 => if signedOf w v < signedOf w old then v else old
  | _ => if signedOf w old < signedOf w v then v else old

/-- Payload bytes into the checksum: whole words are added, the rest is kept (R78, R239). -/
def feed (ck : W64) (i : Nat) (part : List Nat) : W64 × Nat × List Nat :=
  if 8 ≤ part.length then
    let w := (List.range 8).foldr (fun j a => part.getD j 0 + 256 * a) 0
    (ck + ckTerm i (BitVec.ofNat 64 w), i + 1, part.drop 8)
  else (ck, i, part)

/-- The bytes of a value. -/
def valBytes (v n : Nat) : List Nat := (List.range n).map (fun j => v / 2 ^ (8 * j) % 256)

/-- A packet after `n` more payload bytes of a value. -/
def Packet.advance (p : Packet) (v n : Nat) (bad kill : Bool) : Packet :=
  let (ck, i, part) := feed p.ck p.ckIdx (p.ckPart ++ valBytes v n)
  { p with done := p.done + n, ck := ck, ckIdx := i, ckPart := part, buf := p.buf.drop n, bad := p.bad || bad, badKill := p.badKill || kill,
           gidx := if (p.done + n) % max 1 p.len = 0 then p.gidx.drop 1 else p.gidx }

/-- CK64 of the payload when it is complete (R78). -/
def Packet.checksum (p : Packet) : W64 :=
  if p.ckPart.isEmpty then p.ck
  else p.ck + ckTerm p.ckIdx (BitVec.ofNat 64 (p.ckPart.foldr (fun b a => b + 256 * a) 0))

/-- Every page of the bytes `lo` to `hi - 1` of the payload, of one 64-byte line, is translated before the line's first access (R246). -/
def linePages (p : Packet) (w : Via) (lo hi : Nat) : Nat → Eng Unit
  | 0 => pure ()
  | f + 1 =>
    if hi ≤ lo then pure ()
    else do
      let i := lo / p.len
      let off := lo % p.len
      let k := min (hi - lo) (p.len - off)
      if p.ssp = 0 then
        let a := p.rowSrc i (p.gidx.getD (i - p.done / p.len) 0) + off
        let _ ← eTrans w (a % 2 ^ 64) .read
        let _ ← eTrans w ((a + k - 1) % 2 ^ 64) .read
        pure ()
      else pure ()
      if p.dsp = 0 then
        let acc := if p.arith then Acc.rmw else Acc.write
        let _ ← eTrans w ((p.rowDst i + off) % 2 ^ 64) acc
        let _ ← eTrans w ((p.rowDst i + off + k - 1) % 2 ^ 64) acc
        pure ()
      else pure ()
      linePages p w (lo + k) hi f

/-- A gather whose list word for a row before payload byte `hi` is not read yet: that row (R233). -/
def Packet.needsIndex (p : Packet) (hi : Nat) : Option Nat :=
  let i := p.done / p.len + p.gidx.length
  if p.op = 3 ∧ i ≤ (hi - 1) / p.len then some i else none

/-- The next 64-byte line of the payload is made ready (R246): its list words are read, one a step, and then its pages are translated. -/
def payloadAhead (p : Packet) (w : Via) : Eng Packet :=
  let hi := min (p.ahead + 64) p.total
  match p.needsIndex hi with
  | some i => do
    let (x, b, k) ← cReadIn w ((p.aux + 4 * i) % 2 ^ 64) 4
    if b then epoison k else pure { p with gidx := p.gidx ++ [x] }
  | none => do
    linePages p w p.ahead hi 64
    pure { p with ahead := hi }

/-- The next source word of the payload is read whole, or the part of it that its row covers (R238). -/
def payloadRead (p : Packet) (w : Via) : Eng Packet := do
  let pos := p.done + p.buf.length
  let off := pos % p.len
  let a := p.rowSrc (pos / p.len) (p.gidx.headD 0)
  if p.ssp = 1 ∧ spBytes < a + p.len then efail 2
  else
    let k := min (8 - (a + off) % 8) (p.len - off)
    if p.ssp = 1 then
      let (v, b) ← spSource p (spaceCore p.src) (a + off)
      pure { p with buf := p.buf ++ (valBytes (v / 2 ^ (8 * ((a + off) % 8))) k).map (fun x => (x, b)), bad := p.bad || b }
    else
      let (v, b, kl) ← cReadIn w ((a + off) % 2 ^ 64) k
      pure { p with buf := p.buf ++ (valBytes v k).map (fun x => (x, b)), bad := p.bad || b, badKill := p.badKill || kl }

/-- The next `n` bytes of the payload, of which one is poisoned if `b`, are written (R233, R238). -/
def payloadWrite (p : Packet) (w : Via) (n v : Nat) (b : Bool) : Eng Packet := do
  let i := p.done / p.len
  let off := p.done % p.len
  match p.dsp with
  | 3 => pure (p.advance v n b false)
  | 2 =>
    let q := p.advance v n b false
    let cells := p.row ++ [v % 2 ^ 32, v / 2 ^ 32]
    let bads := p.rowBad ++ [b, b]
    if off + n = p.len then
      fun s => .ok ({ q with row := [], rowBad := [] }, s.modCore (spaceCore p.dst) (fun g =>
        { g with wins := g.wins.map (fun x => if x.desc = p.line && x.seq == p.seq then { x with ready := x.ready ++ [(i, cells, bads)] } else x) }))
    else pure { q with row := cells, rowBad := bads }
  | 1 =>
    let a := p.rowDst i + off
    let tag := p.cact == 3 && !p.ckv && a % 8 + n == 8
    let (_, ob) ← spCombine p (spaceCore p.dst) a n b p.arith tag (fun e => if p.arith then p.combine e v else v)
    pure (p.advance v n (b || (p.arith && ob)) false)
  | _ =>
    if p.arith then
      let (_, ob, ok) ← cRmw w ((p.rowDst i + off) % 2 ^ 64) n b (fun e => p.combine e v)
      pure (p.advance v n (b || ob) ok)
    else
      cWrite w ((p.rowDst i + off) % 2 ^ 64) n v b
      pure (p.advance v n b false)

/-- The next access of a started payload within the bytes whose pages are translated: a read, or the write of `n` bytes that have been read. -/
def payloadMove (p : Packet) (w : Via) (n : Nat) : Eng Packet :=
  if p.op = 1 then
    payloadWrite p w n ((List.range n).foldr (fun j a => p.src / 2 ^ (8 * ((p.done + j) % 8)) % 256 + 256 * a) 0) false
  else if p.buf.length < n then payloadRead p w
  else
    let l := p.buf.take n
    payloadWrite p w n (l.foldr (fun x a => x.1 + 256 * a) 0) (l.any (fun x => x.2))

/-- The next access of a payload (R233, R238): a list word of a gather, a read, or the write of what was read. Where the next line cannot be
made ready, the line before it is finished first, so that the packet stops at a 64-byte boundary of its payload (R246, R371). -/
def payloadStep (p : Packet) (w : Via) : Eng Packet := fun s =>
  let n := p.chunk
  if p.done + n ≤ p.ahead then payloadMove p w n s
  else match payloadAhead p w s with
    | .ok (q, s) => if q.done + n ≤ q.ahead then payloadMove q w n s else .ok (q, s)
    | .error e => if p.done < p.ahead then payloadMove p w (p.ahead - p.done) (s.after w.agent e) else .error e

/-- An amo (R240): one point, its old value returned. -/
def amoStep (p : Packet) (w : Via) : Eng Packet := do
  let n := p.len
  let (old, b, k) ← if p.dsp = 1 then (do let r ← spCombine p (spaceCore p.dst) (p.dst % 2 ^ 22) n false true (p.cact == 3 && !p.ckv) p.atomic
                                          pure (r.1, r.2, false))
                    else cRmw w p.dst n false p.atomic
  if b then epoison k
  else pure { p.advance (p.atomic old) n false false with old := BitVec.ofNat 64 old }

/-- One access of a started packet (R238): none while it has to wait. -/
def packetGo (s : State) (die eng : Nat) (p : Packet) : Option State :=
  match (if p.op = 8 then amoStep p (p.via die eng) else payloadStep p (p.via die eng)).on s with
  | .ok (q, s) =>
    let q := if q.total ≤ q.done then { q with phase := .complete } else q
    let s := s.modPacket die eng p.serial (fun _ => q)
    some (if q.op = 8 then giveReturn s q q.old else s)
  | .error e => match e.halt with
    | .wait => none
    | h => some (packetHalt (s.after (.copy die eng) e) die eng p h)

/-- PACKET_WORD: one access of a started packet; the payload complete, its completion is left (R238). -/
def packetWord (s : State) (die eng k : Nat) : State :=
  match (s.engine die eng).packets[k]? with
  | none => s
  | some p =>
    if p.phase != .payload || p.stopped then s
    else if p.total ≤ p.done then s.modPacket die eng p.serial (fun x => { x with phase := .complete })
    else (packetGo s die eng p).getD s

/-! ### Completion and error stamps (R236, R239) -/

/-- The error stamp (R236). -/
def Packet.stamp (p : Packet) (code : Nat) : W64 :=
  BitVec.ofNat 64 (2 ^ 63 + code % 128 * 2 ^ 56 + p.seq % 2 ^ 24 * 2 ^ 32 + min p.done (2 ^ 32 - 1))

/-- The address that takes the stamp beside LASTERR. -/
def Packet.stampAt (p : Packet) : Nat := if p.cact = 1 then p.caddr else p.cval

/-- A stamp is written: to LASTERR, and to its address; an amo's goes to the return queue too. A page that is absent stops a packet
that has started; otherwise, and where access is refused, LASTERR alone has it (R236, R371). It waits while LASTERR is out of reach
(17_reliability.md R392). -/
def stampStep (s : State) (die eng : Nat) (p : Packet) (code : Nat) : State :=
  let st := p.stamp code
  if !s.reach die (64 * p.line) then s
  else
  let s := s.storePhys (.copy die eng) (64 * p.line + 32) 8 st.toNat
  let fin (s : State) : State := retirePacket (giveReturn s p st) die eng p
  if p.stampAt = 0 || p.stampAt % 8 != 0 || p.noStamp then fin s
  else match (eWrite (p.via die eng) p.stampAt st).on s with
    | .ok (_, s) => fin s
    | .error e =>
      let s := s.after (.copy die eng) e
      match e.halt with
      | .absent asid va acc lvl => if !p.fault then fin s else stopPacket s die eng p asid va acc lvl
      | .wait => s
      | _ => fin s

/-- The destination words of a scratchpad packet: one of an amo (R233, R240). -/
def Packet.dstWords (p : Packet) : List Nat :=
  if p.op = 8 then [p.dst % 2 ^ 22 / 8]
  else (List.range p.n).flatMap (fun i => (List.range (p.len / 8)).map (fun j => p.rowDst i / 8 + j))

/-- Tags of all destination words at once (R239, R110). -/
def tagAll (p : Packet) (s : State) : State :=
  p.dstWords.foldl (fun s w => (p.places s (spaceCore p.dst) w).foldl (fun s q => let (v, b) := q.read s; q.write s v b true) s) s

/-- Has the window of an accumulator packet passed, and did it miss (R215)? -/
def winState (s : State) (p : Packet) : Option Bool :=
  ((s.core (spaceCore p.dst)).doneWins.find? (fun w => w.desc == p.line && w.seq == p.seq)).map (fun w => w.missed)

/-- The completion action (R117, R239). -/
def completeAction (p : Packet) (w : Via) : Eng Unit :=
  match p.cact with
  | 1 => eWrite w p.caddr (BitVec.ofNat 64 p.cval)
  | 2 => eRmw w p.caddr (fun v => v + BitVec.ofNat 64 p.done)
  | 3 =>
    if !p.ckv then pure ()
    else fun s =>
      if p.dstWords.any (fun x => (p.places s (spaceCore p.dst) x).any (SpPlace.locked s p)) then ewait s else .ok ((), tagAll p s)
  | _ => pure ()

/-- PACKET_COMPLETE: the checks and the completion action, then the packet retires; or its error stamp is written (R236, R239). -/
def packetComplete (s : State) (die eng k : Nat) : State :=
  match (s.engine die eng).packets[k]? with
  | none => s
  | some p =>
    if p.stopped then s
    else match p.phase with
      | .stamp code => stampStep s die eng p code
      | .complete =>
        if p.bad then
          let s := failPacket s die eng p 8
          if p.badKill && p.cpost then s.beginKill p.tid 8 else s
        else if p.ckv && p.checksum != p.ckw then failPacket s die eng p 5
        else if p.dsp = 2 && (winState s p).isNone then s
        else if p.dsp = 2 && winState s p == some true then failPacket s die eng p 6
        else match (completeAction p (p.via die eng)).on s with
          | .ok (_, s) => retirePacket s die eng p
          | .error e => packetHalt (s.after (.copy die eng) e) die eng p e.halt
      | _ => s

/-! ### Start (R237) -/

/-- The scratchpad words that a packet may write: core, first, end. -/
def Packet.extent (p : Packet) : Option (Nat × Nat × Nat) :=
  if p.dsp = 1 then
    let a := p.dst % 2 ^ 22 / 8
    some (spaceCore p.dst, a, a + ((if p.op = 8 then 0 else (p.n - 1) * p.dstr) + p.len + 7) / 8)
  else none

/-- Does a packet write words of a context's window that are not bound elsewhere already (R372)? -/
def Packet.meets (p : Packet) (c : Nat) (x : Context) : Bool :=
  match p.extent with
  | none => false
  | some (g, lo, hi) =>
    let lo := max lo (x.spBase / 8)
    coreOf c == g && (List.range (min hi (x.spBase / 8 + 96 * x.spLines) - lo)).any (fun i => !p.bounds.any (fun b => b.holds g (lo + i)))

/-- Does a packet write into a window of a task (R372)? -/
def Packet.into (p : Packet) (s : State) (tid : Nat) : Bool :=
  p.bounds.any (fun b => b.tid == tid) || s.bound.any (fun x => x.2.tid == tid && p.meets x.1 x.2)

/-- Is a packet held from starting by a save (R372, R225)? -/
def Packet.heldBySave (p : Packet) (s : State) : Bool :=
  s.tasks.any (fun t => t.2.state == 3 && p.into s t.1)

/-- Has a packet started? -/
def Packet.started (p : Packet) : Bool := match p.phase with | .waiting => false | _ => true

/-- PACKET_START: the packet's tokens are done, the previous packet of its queue has started, and fewer than 8 run; its first access is its
start (R237). -/
def packetStart (s : State) (die eng k : Nat) : State :=
  let l := (s.engine die eng).packets
  match l[k]? with
  | none => s
  | some p =>
    if p.phase = .waiting && s.depsDone p.tid p.rank p.deps && (l.take k).all (fun o => o.line != p.line || o.started) &&
       decide ((l.filter (fun o => o.fault)).length < 8) && !p.heldBySave s then
      let slot := ((List.range 8).find? (fun j => l.all (fun o => !o.fault || o.slot != j))).getD 0
      let q := { p with phase := .payload, fault := true, slot := slot }
      let t := (s.raise (.copy die eng) (s.depTs p.tid p.rank p.deps)).modPacket die eng p.serial (fun _ => q)
      (packetGo t die eng q).getD s
    else s

/-! ### Acceptance and registration (R229-R231) -/

/-- Is the valid word of a slot still among the issued stores of a context (R131, R230)? -/
def State.slotPending (s : State) (pa va asid : Nat) : Bool :=
  s.ctxs.any (fun c => c.2.stores.any (fun t => t.pa == some pa || (t.pa == none && t.va == va && t.asid == asid)))

/-- The tokens CTA, CTB and CTC of a slot that `dx.cpost` wrote, with the producers for which they stood at its issue (R113, R241, R313). -/
def claimDeps (s : State) (cl : Option Claim) (ws : List W64) : List Nat :=
  match cl with
  | some x => [fieldOf (wordAt ws 0) 34 30, fieldOf (wordAt ws 0) 29 25, fieldOf (wordAt ws 0) 24 20].map (fun k =>
      (x.deps.find? (fun d => d % 32 == k)).getD ((s.who x.tid x.rank).dep k))
  | none => []

/-- A packet at acceptance: from its slot's words, its claim, and the context that claimed it by `dx.cpost`. -/
def newPacket (s : State) (q : CopyQueue) (c : Nat) (ws : List W64) : Packet :=
  let cl := s.claims.find? (fun x => x.line == q.line && x.seq == c)
  let post := cl.isSome
  let (tid, rank, order) := match cl with | some x => (x.tid, x.rank, x.order) | none => (0, 0, 0)
  let deps := claimDeps s cl ws
  { serial := s.serial, desc := q.desc, line := q.line, asid := if post && s.inReplay tid then (s.task tid).asid else q.asid, seq := c,
    words := ws, cpost := post, tid := tid, rank := rank, order := order, deps := deps, phase := .waiting, done := 0, buf := [], ahead := 0,
    row := [], rowBad := [], ck := 0, ckIdx := 0, ckPart := [], gidx := [], bad := false, badKill := false, stopped := false, fault := false, slot := 0,
    bounds := [], old := 0, cancelled := match cl with | some x => x.cancelled | none => false,
    retired := match cl with | some x => x.retired | none => false, noStamp := false }

/-- A read of a queue's slot for a claim: its physical address and its eight words (R231). -/
def slotRead (die eng : Nat) (q : CopyQueue) (c : Nat) : Eng (Nat × List W64) := do
  let va := q.ring + 64 * (c % 2 ^ q.lsize)
  let x ← eTrans ⟨.copy die eng, die, q.asid, false⟩ va .read
  let ws ← eReads ⟨.copy die eng, die, q.asid, false⟩ va 8
  pure (x.1, ws)

/-- The speculation tag of a packet: the sequence's bits [47:8] and the depth (R232). -/
def Packet.spec (p : Packet) : Option (Nat × Nat) := if p.spv then some (fieldOf p.ckw 47 8, fieldOf p.ckw 7 0) else none

/-- Are the words of a slot tagged with a sequence, deeper than `a` (R232, R248)? -/
def slotDeeper (ws : List W64) (seq a : Nat) : Bool :=
  (wordAt ws 0).getLsbD 8 && fieldOf (wordAt ws 7) 47 8 == seq && decide (a < fieldOf (wordAt ws 7) 7 0)

/-- Is a packet tagged with a sequence, an address under its queue's ASID, deeper than `a` (R248)? -/
def Packet.deeper (p : Packet) (asid seq a : Nat) : Bool :=
  p.asid == asid && match p.spec with | some (q, d) => q == seq && decide (a < d) | none => false

/-- The slot of a claim, once its valid word is there (R231): the state after the reads and the packet, which a CQDEL or an earlier
cancellation ends with CANCEL and R235 may reject. -/
def readSlot (s : State) (die eng : Nat) (q : CopyQueue) (c : Nat) (cancel : Bool) : Option (State × Packet) :=
  let va := q.ring + 64 * (c % 2 ^ q.lsize)
  match (slotRead die eng q c).on s with
  | .error _ => none
  | .ok ((pa, ws), s) =>
    if fieldOf (wordAt ws 0) 63 40 ≠ c % 2 ^ 24 || s.slotPending pa va q.asid then none
    else
      let s := { s with serial := s.serial + 1 }
      let p := newPacket s q c ws
      let s := { s with claims := s.claims.filter (fun x => !(x.line == q.line && x.seq == c)) }
      let gone := cancel || p.cancelled || (s.engine die eng).cancels.contains (q.line, c)
      some (s, if gone then { p with phase := .stamp 7 } else match p.reject s with
        | some code => { p with phase := .stamp code }
        | none => p)

/-- A slot that could not be read leaves what its walk has done (R359). -/
def slotLeft (s : State) (die eng : Nat) (q : CopyQueue) (c : Nat) : Option State :=
  match (slotRead die eng q c).on s with
  | .error e => some (s.after (.copy die eng) e)
  | .ok _ => none

/-- A packet joins its engine. -/
def addPacket (s : State) (die eng : Nat) (q : CopyQueue) (p : Packet) : State :=
  s.modEngine die eng (fun e => { e with packets := e.packets ++ [p], cancels := e.cancels.filter (fun x => x != (q.line, p.seq)) })

/-- A slot that a squash could not read is tested once it can be (R248): where its valid word precedes the squash, in the order of R99, and it is tagged
deeper, it is cancelled; else the squash does not reach it. -/
def testUnread (s : State) (die eng : Nat) (u : Unread) : State :=
  let drop (s : State) : State := s.modEngine die eng (fun e => { e with unread := e.unread.erase u })
  match (s.engine die eng).queues.find? (fun q => q.line == u.line) with
  | none => drop s
  | some q => match (slotRead die eng q u.claim).on s with
    | .error _ => s
    | .ok ((pa, ws), t) =>
      let valid := fieldOf (wordAt ws 0) 63 40 == u.claim % 2 ^ 24 && !s.slotPending pa (q.ring + 64 * (u.claim % 2 ^ q.lsize)) q.asid &&
        decide ((s.lineTs (pa / 64)).1 ≤ u.ts)
      let t := drop t
      if valid && slotDeeper ws u.seq u.depth then t.modEngine die eng (fun e => { e with cancels := e.cancels ++ [(u.line, u.claim)] }) else t

/-- The slots of an engine that squashes could not read are tested again. -/
def testAllUnread (s : State) (die eng : Nat) : State := (s.engine die eng).unread.foldl (fun s u => testUnread s die eng u) s

/-- The next claim of a queue is read and checked; RIDX rises (R231, R235, R247). -/
def acceptNext (s : State) (die eng : Nat) (q : CopyQueue) : Option State :=
  let c := (s.word (64 * q.line + 8)).toNat
  if (s.word (64 * q.line)).toNat = c || !s.reach die (64 * q.line) then none
  else
    let t := s.loadHome (.copy die eng) (64 * q.line) 1
    match readSlot t die eng q c false with
    | some x => some (addPacket (x.1.storePhys (.copy die eng) (64 * q.line + 8) 8 ((c + 1) % 2 ^ 64)) die eng q x.2)
    | none => slotLeft t die eng q c

/-- PACKET_ACCEPT: the k-th queue of an engine. What a squash could not read is tested before. -/
def packetAccept (s : State) (die eng k : Nat) : State :=
  let s := testAllUnread s die eng
  match (s.engine die eng).queues[k]? with
  | none => s
  | some q => (acceptNext s die eng q).getD s

/-- What a registration reads of a descriptor (R229): the place of its header, and its words. -/
def cqRead (die eng asid va : Nat) : Eng (Nat × List W64) := do
  let x ← eTrans ⟨.copy die eng, die, asid, false⟩ va .read
  let ws ← eReads ⟨.copy die eng, die, asid, false⟩ va 4
  pure (x.1, ws)

/-- CQADD (R229): the queue is registered and its descriptor's line marked, or ERR is set; nothing while the descriptor is out of reach
(17_reliability.md R392). -/
def cqAdd (s : State) (die eng asid : Nat) (v : W64) : State :=
  let e := s.engine die eng
  let va := v.toNat
  let bad (s : State) := s.modEngine die eng (fun e => { e with err := true })
  if 64 ≤ e.queues.length || va % 64 != 0 then bad s
  else match (cqRead die eng asid va).on s with
    | .error e => if e.halt = .wait then s else bad (s.after (.copy die eng) e)
    | .ok ((pa, ws), s) =>
      let ls := fieldOf (wordAt ws 3) 4 0
      if ls < 4 ∨ 16 < ls then bad s
      else
        let q : CopyQueue := { desc := va, line := pa / 64, regAsid := asid, asid := fieldOf (wordAt ws 2) 63 48,
                               ring := sx48 (fieldOf (wordAt ws 2) 47 0), lsize := ls }
        let h : QHead := { launch := false, die := die, eng := eng, desc := va, ring := q.ring, lsize := ls, asid := q.asid }
        let s := s.modEngine die eng (fun e => { e with queues := e.queues.filter (fun x => x.line != q.line) ++ [q] })
        { s with qheads := SMap.put (SMap.del s.qheads (pa / 64)) (pa / 64) h }

/-- The slots from RIDX upward that are valid at a CQDEL end with CANCEL, in claim order; a slot that is not is never read (R229). -/
def cancelSlots (s : State) (die eng : Nat) (q : CopyQueue) : State :=
  let first := s.word (64 * q.line + 8)
  (List.range (min (2 ^ q.lsize) (s.word (64 * q.line) - first).toNat)).foldl (fun s i =>
    match readSlot s die eng q (first + BitVec.ofNat 64 i).toNat true with
    | some (s, p) => addPacket s die eng q p
    | none => (slotLeft s die eng q (first + BitVec.ofNat 64 i).toNat).getD s) s

/-- The queue that a CQDEL names (R229). -/
def cqNamed (s : State) (die eng asid : Nat) (v : W64) : Option CopyQueue :=
  (s.engine die eng).queues.find? (fun q => q.desc == v.toNat && q.regAsid == asid)

/-- Is the header or a claimed slot of a queue out of reach now (17_reliability.md R392)? -/
def slotsWait (s : State) (die eng : Nat) (q : CopyQueue) : Bool :=
  let first := s.word (64 * q.line + 8)
  !s.reach die (64 * q.line) ||
  (List.range (min (2 ^ q.lsize) (s.word (64 * q.line) - first).toNat)).any (fun i =>
    match (slotRead die eng q (first + BitVec.ofNat 64 i).toNat).on s with
    | .error e => e.halt == .wait
    | .ok _ => false)

/-- CQDEL (R229): claims of the queue whose slots are not valid are never accepted, and what a later registration of the line claims is new; nothing
while the queue is out of reach (17_reliability.md R392). -/
def cqDel (s : State) (die eng asid : Nat) (v : W64) : State :=
  match cqNamed s die eng asid v with
  | none => s
  | some q =>
    if slotsWait s die eng q then s
    else
      let s := cancelSlots (s.loadHome (.copy die eng) (64 * q.line) 1) die eng q
      let s := s.modEngine die eng (fun e => { e with queues := e.queues.filter (fun x => x.line != q.line), cancels := e.cancels.filter (fun x => x.1 != q.line),
                                                      unread := e.unread.filter (fun x => x.line != q.line) })
      { s with qheads := SMap.del s.qheads q.line, claims := s.claims.filter (fun x => x.line != q.line) }

/-- Does a write of a register of an engine's window have to wait for a descriptor out of reach (17_reliability.md R392)? -/
def cqWaits (s : State) (die eng asid w : Nat) (v : W64) : Bool :=
  match w with
  | 0 => decide ((s.engine die eng).queues.length < 64) && v.toNat % 64 == 0 &&
    (match (cqRead die eng asid v.toNat).on s with | .error e => e.halt == .wait | .ok _ => false)
  | 1 => match cqNamed s die eng asid v with | some q => slotsWait s die eng q | none => false
  | _ => false

/-! ### Cancellation (R247, R248) -/

/-- Every packet of every engine changed. -/
def State.mapPackets (s : State) (f : Packet → Packet) : State :=
  { s with dies := s.dies.map (fun d => (d.1, { d.2 with engines := d.2.engines.map (fun e =>
      (e.1, { e.2 with packets := e.2.packets.map f })) })) }

/-- Unstarted packets that a test names end with CANCEL, and claims that it names will when they are accepted (R247, R380). -/
def cancelPosted (s : State) (tid rank first : Nat) : State :=
  let mine (t r o : Nat) : Bool := t == tid && r == rank && decide (first ≤ o)
  let s := s.mapPackets (fun p => if p.cpost && mine p.tid p.rank p.order && p.phase == .waiting then { p with phase := .stamp 7 } else p)
  { s with claims := s.claims.map (fun c => if mine c.tid c.rank c.order then { c with cancelled := true } else c) }

/-- The faults of some packets become those of cancelled work: an answer to one only frees its identifier (R365). -/
def State.dropFaults (s : State) (f : Packet → Bool) : State :=
  let gone := s.dies.flatMap (fun d => d.2.engines.flatMap (fun e => (e.2.packets.filter f).map (fun p => p.serial)))
  { s with dies := s.dies.map (fun d => (d.1, { d.2 with faults := d.2.faults.map (fun x =>
      if x.agent = 2 ∧ gone.contains x.unit = true then { x with unit := 0 } else x) })) }

/-- A kill of a context (R247): as above, and faulted packets end at their progress points; their faults are answered for nothing (R365). -/
def killPosted (s : State) (tid rank : Nat) : State :=
  let s := cancelPosted s tid rank 0
  let s := s.dropFaults (fun p => p.cpost && p.tid == tid && p.rank == rank && p.stopped)
  s.mapPackets (fun p => if p.cpost && p.tid == tid && p.rank == rank && p.stopped then
    { p with phase := .stamp 7, stopped := false, noStamp := p.noStamp || (match p.phase with | .stamp _ => true | _ => false) } else p)

/-- Slots of a queue that are valid at the squash point and tagged deeper (R248) are cancelled: the claims from `c`, `n` at most. One that cannot be read
is tested once it can be, by the timestamp `ts` of the squash (DEDUCED, log entry 31). What was named so far, and the state after the reads. -/
def taggedSlots (die eng : Nat) (q : CopyQueue) (asid seq a ts : Nat) : Nat → Nat → List (Nat × Nat × Nat × Nat) × State → List (Nat × Nat × Nat × Nat) × State
  | _, 0, r => r
  | c, n + 1, (l, s) =>
    if (s.word (64 * q.line)).toNat = c then (l, s)
    else
      let va := q.ring + 64 * (c % 2 ^ q.lsize)
      taggedSlots die eng q asid seq a ts ((c + 1) % 2 ^ 64) n (match (slotRead die eng q c).on s with
        | .error e =>
          (l, (s.after (.copy die eng) e).modEngine die eng (fun g => { g with unread := g.unread ++ [⟨q.line, c, asid, seq, a, ts⟩] }))
        | .ok ((pa, ws), s) =>
          let w0 := wordAt ws 0
          if fieldOf w0 63 40 = c % 2 ^ 24 && !s.slotPending pa va q.asid && slotDeeper ws seq a then
            (l ++ [(die, eng, q.line, c)], s.modEngine die eng (fun g => { g with cancels := g.cancels ++ [(q.line, c)] }))
          else (l, s))

/-- A squash at the copy engines (R248): unstarted packets tagged with the sequence and deeper than `a` end with CANCEL. The slots that are
valid and not accepted are named too: die, engine, line and claim. -/
def squashPackets (s : State) (asid seq a ts : Nat) : List (Nat × Nat × Nat × Nat) × State :=
  let qs := s.dies.flatMap (fun d => d.2.engines.flatMap (fun e => (e.2.queues.filter (fun q => q.asid == asid)).map (fun q => (d.1, e.1, q))))
  let s := s.mapPackets (fun p => if p.deeper asid seq a && p.phase == .waiting then { p with phase := .stamp 7 } else p)
  qs.foldl (fun r x => taggedSlots x.1 x.2.1 x.2.2 asid seq a ts (r.2.word (64 * x.2.2.line + 8)).toNat (2 ^ x.2.2.lsize) r) ([], s)

/-- One step of an engine in its own order: a stamp or completion, an access of the first packet that can go on, a start, an acceptance. -/
def engineAuto (s : State) (die eng : Nat) : State :=
  let l := (s.engine die eng).packets
  let busy (p : Packet) : Bool := !p.stopped && p.started
  let s := (List.range l.length).foldl (fun s k => packetStart s die eng k) s
  let s := match (s.engine die eng).packets.findIdx? busy with
    | none => s
    | some k => match ((s.engine die eng).packets[k]?).map Packet.phase with
      | some .payload => packetWord s die eng k
      | _ => packetComplete s die eng k
  (List.range (s.engine die eng).queues.length).foldl (fun s k => packetAccept s die eng k) s

end Sys2Proof.Machine
end

