-- ==== Sys2Proof/Machine/Launch.lean ====
section
/-! DEFINITION. Launch queues, the acceptance and checks of launch records, eligibility, refusal, the event ring and the fault ring (14_dispatch.md
R308-R318, R331; 01_organisation.md R13-R15; 16_faults.md R363, R364; 17_reliability.md R383). -/

namespace Sys2Proof.Machine

/-! ### The event ring (R318) -/

/-- DEVQ.LOG. -/
def Die.evLog (d : Die) : Nat := fieldOf d.devq 63 59

/-- The physical place of the next event entry. -/
def Die.evAt (d : Die) : Nat := fieldOf d.devq 47 0 + 16 * (d.evIndex % 2 ^ d.evLog)

/-- Is there a free slot in the event ring? A slot is free while its word 0 is 0; the ring counts as full while LOG is outside 4 to 16 (log
entry 19); the ring's next place must be within reach (17_reliability.md R392). -/
def evRoom (s : State) (die : Nat) : Bool :=
  let d := s.die die
  s.reach die d.evAt && decide (4 ≤ d.evLog) && decide (d.evLog ≤ 16) && decide (d.evAt + 16 ≤ memBytes) && s.word d.evAt == 0

/-- Held events are written in order while there is room. -/
def flushEvents (s : State) (die : Nat) : Nat → State
  | 0 => s
  | n + 1 => match (s.die die).events with
    | [] => s
    | e :: r =>
      if evRoom s die then
        let a := (s.die die).evAt
        let s := (s.storePhys (.dispatch die) (a + 8) 8 e.w1.toNat).storePhys (.dispatch die) a 8 e.w0.toNat
        flushEvents (s.modDie die (fun d => { d with events := r, evIndex := d.evIndex + 1 })) die n
      else s

/-- An event is posted: kind, task, detail and the second word. -/
def postEvent (s : State) (die kind tid detail : Nat) (w1 : W64) : State :=
  let e : DEvent := ⟨BitVec.ofNat 64 (kind * 2 ^ 56 + tid % 4096 * 2 ^ 44 + detail % 2 ^ 44), w1⟩
  let s := s.modDie die (fun d => { d with events := d.events ++ [e] })
  flushEvents s die (s.die die).events.length

/-! ### The fault ring (16_faults.md R363, R364) -/

/-- FRING.LOG. -/
def Die.frLog (d : Die) : Nat := fieldOf d.fring 63 59

/-- Is there room in a die's fault ring? It is full when FTAIL − FHEAD, modulo 2^16, is 2^LOG, and while LOG lies outside 4 to 16 (R364). -/
def Die.frRoom (d : Die) : Bool :=
  decide (4 ≤ d.frLog) && decide (d.frLog ≤ 16) && decide ((d.ftail + 2 ^ 16 - d.fhead) % 2 ^ 16 ≠ 2 ^ d.frLog)

/-- The four words of a record (R363). -/
def FaultRec.words (f : FaultRec) (fid : Nat) : List W64 :=
  [BitVec.ofNat 64 (f.agent * 2 ^ 60 + fid * 2 ^ 48 + f.va % 2 ^ 48),
   BitVec.ofNat 64 (f.asid % 2 ^ 16 * 2 ^ 48 + f.acc * 2 ^ 46 + (if f.k then 2 ^ 45 else 0) + f.lvl * 2 ^ 42),
   BitVec.ofNat 64 (f.tid % 2 ^ 12 * 2 ^ 52 + f.who % 2 ^ 52), 0]

/-- The place of the next record of a die's ring (R363). -/
def Die.frAt (d : Die) : Nat := fieldOf d.fring 47 0 + 32 * (d.ftail % 2 ^ d.frLog)

/-- A record is written at FTAIL, then FTAIL advances (R364). -/
def putRecord (s : State) (die : Nat) (f : FaultRec) (fid : Nat) : State :=
  let a := (s.die die).frAt
  let s := if memBytes < a + 32 then s else
    (f.words fid).zipIdx.foldl (fun s x => s.storePhys (.dispatch die) (a + 8 * x.2) 8 x.1.toNat) s
  s.modDie die (fun d => { d with ftail := (d.ftail + 1) % 2 ^ 16 })

/-- A notice is written with FID 0xFFF, or dropped when the ring is full (R364); it waits while the ring is out of reach (17_reliability.md R392). -/
def putNotice (s : State) (die : Nat) (f : FaultRec) : State :=
  if !(s.die die).frRoom then s
  else if s.reach die (s.die die).frAt then putRecord s die f 0xFFF
  else keepWrite s ⟨0, die, f.asid, f.va, none, 0, 0xFFF, 0, .link, .notice f⟩ .link

/-! ### Queues (R308, R309) -/

/-- Change a launch queue, by its number. -/
def State.modLq (s : State) (die q : Nat) (f : LaunchQueue → LaunchQueue) : State :=
  s.modDie die (fun d => { d with lqs := d.lqs.map (fun x => if x.num = q then f x else x) })

/-- A launch queue by its number. -/
def Die.lq (d : Die) (q : Nat) : Option LaunchQueue := d.lqs.find? (fun x => x.num == q)

/-- Change a record, by its serial number. -/
def State.modRec (s : State) (die serial : Nat) (f : Launch → Launch) : State :=
  s.modDie die (fun d => { d with recs := d.recs.map (fun r => if r.serial = serial then f r else r) })

/-- A record's ASID: that of its queue as it was registered (R309), or SASID for a replay (R384). -/
def recAsid (s : State) (r : Launch) : Nat := if r.audit.isSome then fieldOf s.sumcfg 63 48 else r.lq.asid

/-- The priority at which a record counts: PRIO, at most PCAP (R311). -/
def Launch.prio (r : Launch) : Nat := min (fieldOf (wordAt r.words 0) 19 16) r.lq.pcap

/-- Detail of a record's events: queue and claim (R318). -/
def Launch.detail (r : Launch) : Nat := r.lq.num * 2 ^ 24 + r.seq % 2 ^ 24

/-- Does eligible record `a` stand before `b`: descending min(PRIO, PCAP), then queue number, then claim (R317)? -/
def Launch.before (a b : Launch) : Bool :=
  if a.prio = b.prio then (if a.lq.num = b.lq.num then decide (a.seq < b.seq) else decide (a.lq.num < b.lq.num)) else decide (b.prio < a.prio)

/-- A record at its place among the eligible ones of a list. -/
def placeAmong (r : Launch) : List Launch → List Launch
  | [] => [r]
  | x :: l => if x.state == .eligible && r.before x then r :: x :: l else x :: placeAmong r l

/-- A record becomes eligible: it takes its place in the order of R317, and ELIGIBLE is posted. -/
def makeEligible (s : State) (r : Launch) : State :=
  postEvent (s.modDie r.die (fun d => { d with
    recs := placeAmong { r with state := .eligible } (d.recs.filter (fun x => x.serial != r.serial)) })) r.die 1 0 r.detail 0

/-- TVB as a bind gives it: its reserved bits read as 0 (00_scope.md R5, R121). -/
def tvbStore (v : W64) : W64 := v &&& 0xFFF0000000FFF800

/-- What a registration reads of a descriptor (R309): the place of its header, and its words. -/
def lqRead (die asid va : Nat) : Eng (Nat × List W64) := do
  let x ← eTrans ⟨.dispatch die, die, asid, false⟩ va .read
  let ws ← eReads ⟨.dispatch die, die, asid, false⟩ va 8
  pure (x.1, ws)

/-- Does a write of LQADD have to wait for a descriptor out of reach (17_reliability.md R392)? -/
def lqWaits (s : State) (die asid : Nat) (v : W64) : Bool :=
  decide ((s.die die).lqs.length < 256) && v.toNat % 64 == 0 &&
    (match (lqRead die asid v.toNat).on s with | .error e => e.halt == .wait | .ok _ => false)

/-- LQADD (R309): the queue takes the least free number, its class words are read once, and its line is marked; or ERR is set. -/
def lqAdd (s : State) (die asid : Nat) (v : W64) : State :=
  let d := s.die die
  let va := v.toNat
  let bad := s.modDie die (fun d => { d with lqErr := true })
  if 256 ≤ d.lqs.length || va % 64 != 0 then bad
  else match (lqRead die asid va).on s with
    | .error e => if e.halt = .wait then s else (s.after (.dispatch die) e).modDie die (fun d => { d with lqErr := true })
    | .ok ((pa, ws), s) =>
      let ls := fieldOf (wordAt ws 3) 4 0
      let al := fieldOf (wordAt ws 7) 63 56
      if ls < 4 ∨ 16 < ls ∨ (al ≠ 0 ∧ (al < 12 ∨ 40 < al)) then s.modDie die (fun d => { d with lqErr := true })
      else
        let num := ((List.range 256).find? (fun n => !d.lqs.any (fun q => q.num == n))).getD 0
        let s := { s with serial := s.serial + 1 }
        let q : LaunchQueue := { serial := s.serial, line := pa / 64, stall := false, failed := false, desc := va, regAsid := asid,
                                 asid := fieldOf (wordAt ws 2) 63 48, ring := sx48 (fieldOf (wordAt ws 2) 47 0), lsize := ls,
                                 wlim := fieldOf (wordAt ws 5) 63 32, pcap := fieldOf (wordAt ws 5) 31 28, k := (wordAt ws 5).getLsbD 27,
                                 dws := (wordAt ws 5).getLsbD 26, tvb := tvbStore (wordAt ws 6), alog := al, abase := fieldOf (wordAt ws 7) 47 0,
                                 num := num, armed := none }
        let h : QHead := { launch := true, die := die, eng := 0, desc := va, ring := q.ring, lsize := ls, asid := q.asid }
        let s := s.modDie die (fun d => { d with lqs := d.lqs ++ [q], lqLast := num })
        { s with qheads := SMap.put (SMap.del s.qheads (pa / 64)) (pa / 64) h }

/-- LQDEL (R309): accepted records stand; what a later registration of the line claims is new. -/
def lqDel (s : State) (die asid : Nat) (v : W64) : State :=
  match (s.die die).lqs.find? (fun q => q.desc == v.toNat && q.regAsid == asid) with
  | none => s
  | some q =>
    let s := s.modDie die (fun d => { d with lqs := d.lqs.filter (fun x => x.num != q.num) })
    { s with qheads := SMap.del s.qheads q.line, claims := s.claims.filter (fun x => x.line != q.line) }

/-! ### The checks of a record (R312, R13-R15, R383) -/

/-- Capacity of a domain (R14); PEER counts the packages of the peer group, which are the enabled GFT ports and this package. -/
def domCapacity (peers : Nat) : Nat → Nat
  | 0 => 4 | 1 => 8 | 2 => 20 | 3 => 2 | 4 => 1 | _ => peers

/-- May a domain have a scope (R15)? -/
def scopeOk (dom scope : Nat) : Bool :=
  match dom with
  | 0 => decide (scope ≤ 4)
  | 1 => decide (1 ≤ scope) && decide (scope ≤ 4)
  | 2 => decide (2 ≤ scope) && decide (scope ≤ 4)
  | 5 => scope == 4
  | _ => scope == 3 || scope == 4

/-- The levels with a domain: their product is within its capacity (R14). -/
def capacityOk (ws : List W64) (peers : Nat) : Bool :=
  (List.range 6).all (fun d => decide (prod (((List.range (levels ws)).filter (fun i => lvDom ws i == d)).map (lvCount ws)) ≤ domCapacity peers d))

/-- The form of a level table (R13, but for capacity and scope). -/
def tableOk (ws : List W64) : Bool :=
  let n := levels ws
  n != 0 && (List.range 8).all (fun i => decide (i < n) || lvCount ws i == 0) &&
  (List.range 8).all (fun i => decide (lvDom ws i ≤ 5) && decide (lvScope ws i ≤ 4)) &&
  (List.range (n - 1)).all (fun i => decide (lvDom ws i ≤ lvDom ws (i + 1)))

/-- Fields of a record (R311). -/
def recHandle (ws : List W64) : Nat := fieldOf (wordAt ws 1) 63 52
/-- ENTRY. -/
def recEntry (ws : List W64) : Nat := fieldOf (wordAt ws 1) 23 0
/-- INST. -/
def recInst (ws : List W64) : Nat := fieldOf (wordAt ws 2) 47 0
/-- CADDR. -/
def recCaddr (ws : List W64) : Nat := fieldOf (wordAt ws 5) 47 0
/-- TADDR. -/
def recTaddr (ws : List W64) : Nat := fieldOf (wordAt ws 6) 47 0
/-- AFTER, XCL, SPV and AUD. -/
def recAfter (ws : List W64) : Bool := (wordAt ws 0).getLsbD 11
/-- XCL. -/
def recXcl (ws : List W64) : Bool := (wordAt ws 0).getLsbD 10
/-- SPV. -/
def recSpv (ws : List W64) : Bool := (wordAt ws 0).getLsbD 9
/-- AUD. -/
def recAud (ws : List W64) : Bool := (wordAt ws 0).getLsbD 8

/-- The FORMAT checks (R312, R383). -/
def recFormatOk (ws : List W64) : Bool :=
  fieldOf (wordAt ws 0) 7 0 == 0 && fieldOf (wordAt ws 1) 51 24 == 0 && recEntry ws % 32 == 0 &&
  [2, 3, 5, 6].all (fun i => fieldOf (wordAt ws i) 63 48 == 0) && tableOk ws &&
  (match trigLevel ws with | some l => decide (l < levels ws) | none => recTaddr ws == 0) &&
  (if recSpv ws then fieldOf (wordAt ws 7) 63 48 == 0 && fieldOf (wordAt ws 7) 47 8 != 0 else wordAt ws 7 == 0) &&
  !(recAud ws && (List.range (levels ws)).any (fun i => decide (3 ≤ lvDom ws i) || lvScope ws i == 4))

/-- The RANGE checks. -/
def recRangeOk (ws : List W64) (peers : Nat) : Bool :=
  [recInst ws, fieldOf (wordAt ws 3) 47 0, recCaddr ws, recTaddr ws].all (fun a => a % 8 == 0) && capacityOk ws peers &&
  (List.range (levels ws)).all (fun i => scopeOk (lvDom ws i) (lvScope ws i))

/-- Does a handle name an image that a bind may use (R57)? -/
def State.handleOk (s : State) (h : Nat) : Bool := h != 0 && !(s.seal h).code.isEmpty && !(s.seal h).released

/-- The first failing check of a record (R312). -/
def recReject (s : State) (ws : List W64) (peers : Nat) : Option Nat :=
  if !recFormatOk ws then some 1
  else if !recRangeOk ws peers then some 2
  else if !(s.handleOk (recHandle ws) && decide (recEntry ws < s.imageLen (recHandle ws))) then some 10
  else none

/-! ### Refusal (R312) -/

/-- The poster's token of a record becomes done (R313, R324). -/
def recTokenDone (s : State) (r : Launch) : State :=
  if r.cpost then s.retireTok r.tid r.rank r.tok (s.ptsOf (.dispatch r.die)) else s

/-- An error stamp of a record, with DONE = 0 (R236, R312). -/
def recStamp (r : Launch) (code : Nat) : W64 := BitVec.ofNat 64 (2 ^ 63 + code * 2 ^ 56 + r.seq % 2 ^ 24 * 2 ^ 32)

/-- LASTERR of a record's queue takes a stamp, once it can be reached (17_reliability.md R392); a replay has no queue's (DEDUCED, log entry 21). -/
def lastErr (s : State) (r : Launch) (st : W64) : State :=
  if r.audit.isSome then s
  else dispatchWrite s ⟨0, r.die, r.lq.asid, 64 * r.lq.line + 32, some st, r.lq.num, 0xFFF, r.serial, .link, .phys⟩

/-- The place of an audit record (R388). -/
def auditAt (s : State) (place : Nat) : Nat := fieldOf s.sumring 47 0 + 256 * (place % 2 ^ fieldOf s.sumring 63 59)

/-- Word 192 of an audit record (R388). -/
def auditWord (a : Audit) (status rcore : Nat) : Nat := status * 2 ^ 60 + a.tid % 4096 * 2 ^ 48 + a.ocore * 2 ^ 32 + rcore * 2 ^ 23

/-- Sumac's agent reaches a place in memory, or waits (R392). -/
def auditReach (s : State) (place : Nat) : Bool := s.reach 0 (auditAt s place)

/-- The end of a replay (R387, R388): bytes 200 to 215 and then word 192 are written, once they can be reached (R392); a mismatch interrupts. -/
def auditEnd (s : State) (serial status : Nat) (rsig : W64) (rcore : Nat) : State :=
  match s.audits.find? (fun a => a.serial == serial) with
  | none => s
  | some a =>
    let p := auditAt s a.place
    if !auditReach s a.place then keepWrite s ⟨0, 0, 0, p, none, 0, 0xFFF, serial, .link, .audit serial status rsig rcore⟩ .link
    else
    let s := ((s.storePhys .sumac (p + 200) 8 a.osig.toNat).storePhys .sumac (p + 208) 8 rsig.toNat).storePhys .sumac (p + 192) 8
      (auditWord a status rcore)
    { s with audits := s.audits.filter (fun a => a.serial != serial), mismatch := s.mismatch || status == 2 }

/-- The stamps, the token and the event of a record's refusal (R312), for a task number (0xFFF for none). -/
def refuseWrites (s : State) (r : Launch) (code tid : Nat) : State :=
  let st := recStamp r code
  let s := lastErr s r st
  let s := dispatchWrite s ⟨0, r.die, recAsid s r, recCaddr r.words, some st, r.lq.num, tid, r.serial, .link, .virt⟩
  postEvent (recTokenDone s r) r.die 2 tid r.detail st

/-- A record is refused or cancelled (R312): stamps, the token, event REFUSED; it is finished. A replay ends FAILED (R387). -/
def refuseRec (s : State) (r : Launch) (code tid : Nat) : State :=
  let s := refuseWrites s r code tid
  let s := s.modRec r.die r.serial (fun x => { x with state := .finished, wait := false, watch := none, trig := true })
  match r.audit with | some n => auditEnd s n 4 0 0 | none => s

/-- The record of a bound task whose counter is refused, or poisoned, is refused with a code, once (16_faults.md R362, R365; 17_reliability.md
R377): the task runs on, and its completion adds to no counter and gives no token a second time (DEDUCED, log entry 28). -/
def refuseBound (s : State) (die serial tid code : Nat) : State :=
  match (s.die die).recs.find? (fun r => r.serial == serial) with
  | none => s
  | some r =>
    if r.state != .bound || (s.task tid).refused || (s.task tid).rec_ != serial then s
    else (refuseWrites s r code tid).modTask tid (fun t => { t with refused := true })

/-! ### Acceptance (R310, R312) -/

/-- Records of a queue, by its serial number, that are neither bound nor finished. -/
def Die.openRecs (d : Die) (q : Nat) : Nat := (d.recs.filter (fun r => r.lq.serial == q && (r.state == .waiting || r.state == .eligible))).length

/-- The record of claim c from its words. -/
def newRec (s : State) (die : Nat) (q : LaunchQueue) (c : Nat) (ws : List W64) : Launch :=
  let cl := s.claims.find? (fun x => x.line == q.line && x.seq == c)
  let (tid, rank, tok) := match cl with | some x => (x.tid, x.rank, x.tok) | none => (0, 0, 0)
  { serial := s.serial, die := die, trig := false, wait := false, failed := false, audit := none, lq := q, seq := c, words := ws,
    cpost := cl.isSome, tid := tid, rank := rank, tok := tok, deps := claimDeps s cl ws, state := .waiting, task := 0, squash := none, watch := none }

/-- LAUNCH_ACCEPT: the next claim of the k-th queue is read once its valid word is there, RIDX rises, and the record is checked (R231, R310, R312). A
poisoned slot is refused with code 8, one whose page is absent waits for its fault, one that is refused access takes code 4 (R362, R377). -/
def launchAccept (s : State) (die k peers : Nat) : State :=
  match (s.die die).lqs[k]? with
  | none => s
  | some q =>
    let ag : Agent := .dispatch die
    let c := (s.word (64 * q.line + 8)).toNat
    let va := q.ring + 128 * (c % 2 ^ q.lsize)
    if q.stall || (s.word (64 * q.line)).toNat = c || decide (64 ≤ (s.die die).openRecs q.serial) || !s.reach die (64 * q.line) then s
    else
      let s := s.loadHome ag (64 * q.line) 1
      let take (s : State) (ws : List W64) (code : Option Nat) : State :=
        let s := { s with serial := s.serial + 1 }
        let r := newRec s die q c ws
        let s := { s with claims := s.claims.filter (fun x => !(x.line == q.line && x.seq == c)) }
        let s := s.storePhys ag (64 * q.line + 8) 8 ((c + 1) % 2 ^ 64)
        let s := s.modLq die q.num (fun x => { x with failed := false })
        let s := s.modDie die (fun d => { d with recs := d.recs ++ [r] })
        match code with
        | some code => refuseRec s r code 0xFFF
        | none => match recReject s ws peers with
          | some code => refuseRec s r code 0xFFF
          | none => s
      let w : Via := ⟨ag, die, q.asid, false⟩
      let stop (s : State) (e : Stop) : State :=
        let s := s.after ag e
        match e.halt with
        | .absent asid va acc lvl => dispatchFault (s.modLq die q.num (fun x => { x with stall := true })) die asid va acc lvl q.num 0xFFF q.serial
        | .poison _ => take s [] (some 8)
        | .fail _ => take s [] (some 4)
        | .wait => s
      if q.failed then take s [] (some 4)
      else match (do let x ← eTrans w va .read
                     let v ← cReadIn w va 8
                     pure (x.1, v.1) : Eng (Nat × Nat)).on s with
        | .error e => stop s e
        | .ok ((pa, v), s) =>
          if fieldOf (BitVec.ofNat 64 v) 63 40 ≠ c % 2 ^ 24 || s.slotPending pa va q.asid then s
          else match (eReads w va 16).on s with
            | .error e => stop s e
            | .ok (ws, s) => take s ws none

/-! ### Eligibility (R316, R317) -/

/-- Has the previous claim of the queue finished? -/
def prevDone (s : State) (r : Launch) : Bool :=
  match (s.die r.die).recs.find? (fun x => x.lq.serial == r.lq.serial && x.audit.isNone && (x.seq + 1) % 2 ^ 64 == r.seq) with
  | none => true
  | some x => if (trigLevel x.words).isSome then x.trig else x.state == .finished

/-- ELIGIBLE: the k-th record of a die becomes eligible when its conditions hold (R316, R317); a failing dependence word is watched. -/
def eligibleStep (s : State) (die k : Nat) : State :=
  match (s.die die).recs[k]? with
  | none => s
  | some r =>
    if r.state != .waiting || r.watch.isSome || r.wait || !s.depsDone r.tid r.rank r.deps || (recAfter r.words && !prevDone s r) then s
    else
      let s := s.raise (.dispatch die) (s.depTs r.tid r.rank r.deps)
      let yes (s : State) : State := makeEligible s r
      let da := fieldOf (wordAt r.words 3) 47 0
      if da = 0 then yes s
      else if r.failed then refuseRec s r 4 0xFFF
      else match (do let x ← eTrans ⟨.dispatch die, die, recAsid s r, false⟩ (sx48 da) .read
                     let v ← eRead ⟨.dispatch die, die, recAsid s r, false⟩ (sx48 da)
                     pure (x.1, v) : Eng (Nat × W64)).on s with
        | .error e => match e.halt with
          | .absent asid va acc lvl =>
            dispatchFault ((s.after (.dispatch die) e).modRec die r.serial (fun x => { x with wait := true })) die asid va acc lvl r.lq.num 0xFFF r.serial
          | .poison _ => refuseRec (s.after (.dispatch die) e) r 8 0xFFF
          | .fail _ => refuseRec (s.after (.dispatch die) e) r 4 0xFFF
          | .wait => s.after (.dispatch die) e
        | .ok ((pa, v), s) =>
          if (wordAt r.words 4).toInt ≤ v.toInt then yes s
          else s.modRec die r.serial (fun x => { x with watch := some (pa / 64) })

/-- Is the bind of a record under way: its installation waits for a page (R315, R332)? -/
def Launch.binding (r : Launch) : Bool := r.state == .eligible && r.wait

/-- The accepted and unbound records that name a sequence, an address under their queues' ASID (R311, R331, R332). -/
def seqRecs (s : State) (asid seq : Nat) : List Launch :=
  s.dies.flatMap (fun d => d.2.recs.filter (fun r =>
    (r.state == .waiting || r.state == .eligible) && recAsid s r == asid && recSpv r.words && fieldOf (wordAt r.words 7) 47 8 == seq))

/-- A squash at the dispatch hardware (R331): accepted and unbound records that name the sequence deeper than `a`, whose valid word
precedes the point, are cancelled with code 7. A bind that is under way completes, and its contexts receive the event then (R332). -/
def squashRecs (s : State) (asid seq a : Nat) (info : W64) : State :=
  (seqRecs s asid seq).foldl (fun s r =>
    if r.binding then s.modRec r.die r.serial (fun x => { x with squash := some info })
    else if a < fieldOf (wordAt r.words 7) 7 0 then refuseRec s r 7 0xFFF else s) s

/-- CANCEL (R331): an accepted, unbound record of a queue and claim; the outcome code. -/
def cancelRec (s : State) (die arg : Nat) : State × Nat :=
  match (s.die die).recs.find? (fun r => r.lq.num == arg / 2 ^ 40 % 256 && r.seq % 2 ^ 24 == arg % 2 ^ 24 &&
    (r.state == .waiting || r.state == .eligible)) with
  | none => (s, 1)
  | some r => (refuseRec s r 7 0xFFF, 0)

end Sys2Proof.Machine
end

