-- ==== Sys2Proof/Machine/Bind.lean ====
section
/-! DEFINITION. Bind records, the checks of BIND, placement of segments, installation, and binding (14_dispatch.md R314, R315, R319-R322,
R328, R329; 01_organisation.md R12, R16-R18; 06_scratchpad.md R154, R155). -/

namespace Sys2Proof.Machine

/-! ### Bind records (R319) -/

/-- V of a bind record. -/
def brV (b : BindRec) : Bool := (wordAt b 0).getLsbD 63
/-- TID. -/
def brTid (b : BindRec) : Nat := fieldOf (wordAt b 0) 59 48
/-- OWN. -/
def brOwn (b : BindRec) : Bool := (wordAt b 0).getLsbD 47
/-- QUANT. -/
def brQuant (b : BindRec) : Nat := fieldOf (wordAt b 0) 31 0
/-- DLINES. -/
def brDlines (b : BindRec) : Nat := fieldOf (wordAt b 1) 57 45
/-- LINES. -/
def brLines (b : BindRec) : Nat := fieldOf (wordAt b 1) 44 32
/-- BASE. -/
def brBase (b : BindRec) : Nat := fieldOf (wordAt b 1) 21 0
/-- LVIDi: two to a word from byte 32 on. -/
def brLvid (b : BindRec) (i : Nat) : Nat := (wordAt b (4 + i / 2)).toNat / 2 ^ (32 * (i % 2)) % 2 ^ 32

/-- The bind records that name a task, on both dies: context number and record, in rising order. -/
def bindRecs (s : State) (tid : Nat) : List (Nat × BindRec) :=
  (List.range 2).flatMap (fun d => (s.die d).slots.filterMap (fun p =>
    if brV p.2 && brTid p.2 == tid && decide (p.1 < 640) then some (d * 640 + p.1, p.2) else none))

/-- The rank of a bind record (R319). -/
def brRank (ws : List W64) (b : BindRec) : Nat := ((List.range (levels ws)).map (fun i => brLvid b i * sizeBelow ws i)).sum

/-- V becomes 0 in the records that still name the task. -/
def dropBindRecs (s : State) (tid : Nat) : State :=
  (List.range 2).foldl (fun s d => s.modDie d (fun x => { x with slots := x.slots.map (fun p =>
    if brV p.2 && brTid p.2 == tid then (p.1, p.2.set 0 (setField (wordAt p.2 0) 63 63 0)) else p) })) s

/-- The size of a context's frame in bytes (R328): each part begins at its boundary, and the frame ends with the last part. -/
def frameBytes (lines : Nat) (own xcl : Bool) : Nat :=
  let up (n a : Nat) : Nat := (n + a - 1) / a * a
  let data := 0x10000 + 768 * lines
  let tags := up data 4096 + 12 * lines
  let core := if own then up tags 0x10000 + 836 * 1024 else tags
  if own && xcl then up core 0x10000 + 0x10000 else core

/-! ### The checks of BIND (R320) -/

/-- Check 2: the identifiers enumerate every combination below the COUNTs exactly once, and no other. -/
def enumerates (ws : List W64) (bs : List (Nat × BindRec)) : Bool :=
  bs.length == taskSize ws &&
  bs.all (fun b => (List.range 8).all (fun i => if i < levels ws then decide (brLvid b.2 i < lvCount ws i) else brLvid b.2 i == 0)) &&
  (bs.map (fun b => brRank ws b.2)).eraseDups.length == bs.length

/-- Check 3: identifiers at the levels of a domain and above select one instance of it, and different ones different instances (R12). -/
def placesOk (ws : List W64) (bs : List (Nat × BindRec)) : Bool :=
  let key (d : Nat) (b : BindRec) : List Nat := ((List.range (levels ws)).filter (fun i => decide (d ≤ lvDom ws i))).map (brLvid b)
  let place (d c : Nat) : Nat := if d = 1 then coreOf c else if d = 2 then clusterOf (coreOf c) else dieOf (coreOf c)
  [1, 2, 3].all (fun d => bs.all (fun x => bs.all (fun y => (key d x.2 == key d y.2) == (place d x.1 == place d y.1))))

/-- Windows as base line, lines and diagonal lines. -/
def brWin (b : BindRec) : Nat × Nat × Nat := (brBase b / 768, brLines b, brDlines b)

/-- Do two windows of a core agree on the layout of every line (R154)? -/
def layoutOk (a b : Nat × Nat × Nat) : Bool :=
  -- no line of a's diagonal part lies in b's linear part
  let lo := max a.1 (b.1 + b.2.2)
  let hi := min (a.1 + a.2.2) (b.1 + b.2.1)
  decide (hi ≤ lo)

/-- SCRATCH levels of a record. -/
def scratchLevels (ws : List W64) : List Nat := (List.range (levels ws)).filter (fun i => lvScope ws i == 0 && lvSeg ws i != 0)

/-- Check 4: windows in range, one layout for each line, one BASE and LINES for each SCRATCH-scope group, and the SCRATCH
segments fit in the window. -/
def windowsOk (s : State) (ws : List W64) (bs : List (Nat × BindRec)) : Bool :=
  let others := s.bound.map (fun p => (coreOf p.1, (p.2.spBase / 768, p.2.spLines, p.2.spDlines)))
  let mine := bs.map (fun b => (coreOf b.1, brWin b.2))
  bs.all (fun b => brBase b.2 % 768 == 0 && decide (brBase b.2 / 768 + brLines b.2 ≤ 4096) && decide (brDlines b.2 ≤ brLines b.2)) &&
  mine.all (fun x => (mine ++ others).all (fun y => x.1 != y.1 || (layoutOk x.2 y.2 && layoutOk y.2 x.2))) &&
  ((List.range (levels ws)).filter (fun i => lvScope ws i == 0)).all (fun i => bs.all (fun x => bs.all (fun y =>
    groupOf ws i (brRank ws x.2) != groupOf ws i (brRank ws y.2) || (brBase x.2 == brBase y.2 && brLines x.2 == brLines y.2)))) &&
  bs.all (fun b => decide (((scratchLevels ws).map (lvSeg ws)).sum ≤ 768 * brLines b.2))

/-- Does a record have an L1F level (R16)? -/
def wantsFused (ws : List W64) : Bool := (List.range (levels ws)).any (fun i => lvScope ws i == 1)

/-- Check 5: the clusters that an L1F level needs are fused or empty. -/
def fusionOk (s : State) (ws : List W64) (bs : List (Nat × BindRec)) : Bool :=
  !wantsFused ws || bs.all (fun b => s.fused.contains (clusterOf (coreOf b.1)) ||
    !s.bound.any (fun p => clusterOf (coreOf p.1) == clusterOf (coreOf b.1)))

/-- Check 6: with XCL, each core used has one OWN and no other holder; without, no OWN. -/
def ownersOk (s : State) (tid : Nat) (ws : List W64) (bs : List (Nat × BindRec)) : Bool :=
  if recXcl ws then
    bs.all (fun b =>
      (match (s.core (coreOf b.1)).xcl with | some t => t == tid | none => true) &&
      (bs.filter (fun x => coreOf x.1 == coreOf b.1 && brOwn x.2)).length == 1)
  else bs.all (fun b => !brOwn b.2)

/-- Check 7: FSTR is at least the frame size. -/
def framesOk (s : State) (tid : Nat) (ws : List W64) (bs : List (Nat × BindRec)) : Bool :=
  bs.all (fun b => decide (frameBytes (brLines b.2) (brOwn b.2) (recXcl ws) ≤ (s.task tid).fstr))

/-- The checks 2 to 7, which BIND and RESTORE share; 0 when all pass (R320, R329). -/
def placeCode (s : State) (tid : Nat) (ws : List W64) (bs : List (Nat × BindRec)) : Nat :=
  if !enumerates ws bs then 2 else if !placesOk ws bs then 3 else if !windowsOk s ws bs then 4 else if !fusionOk s ws bs then 5
  else if !ownersOk s tid ws bs then 6 else if !framesOk s tid ws bs then 7 else 0

/-- Is every context that the records name UNBOUND? -/
def allFree (s : State) (bs : List (Nat × BindRec)) : Bool := bs.all (fun b => (s.ctx b.1).st == .unbound)

/-- The refusal code of a bind, 0 when it passes (R320, R387). -/
def bindCode (s : State) (tid : Nat) (r : Launch) (armed : Bool) : Nat :=
  let bs := bindRecs s tid
  let t := s.task tid
  if t.state != (if armed then 1 else 0) || r.state != .eligible || !allFree s bs then 1
  else
    let p := placeCode s tid r.words bs
    if p ≠ 0 then p
    else match r.audit.bind (fun a => s.audits.find? (fun x => x.serial == a)) with
      | some a => if bs.any (fun b => dieOf (coreOf b.1) == a.die) then 15 else 0
      | none => 0

/-! ### Segments (R97, R321) -/

/-- Round up to 256 bytes. -/
def up256 (n : Nat) : Nat := (n + 255) / 256 * 256

/-- SCRATCH segments of a group start at its BASE, one after another (R321): the base of a level's segment. -/
def scratchBase (ws : List W64) (base i : Nat) : Nat :=
  ((scratchLevels ws).filter (fun j => decide (j < i))).foldl (fun a j => up256 (a + lvSeg ws j)) base

/-- Groups of a level in a task. -/
def groupCount (ws : List W64) (i : Nat) : Nat := taskSize ws / max 1 (sizeBelow ws (i + 1))

/-- L2, BMEM and FABRIC segments lie from SEGB, in ascending level, then group (R321); L1F segments, whose bytes stay in the fused L1, take
their virtual addresses after them in the same way (DESIGN CHOICE, log entry 20). -/
def segBases (ws : List W64) (segb : Nat) : List (Nat × Nat × Nat) :=
  let l := (List.range (levels ws)).filter (fun i => lvSeg ws i != 0)
  ((l.filter (fun i => decide (2 ≤ lvScope ws i)) ++ l.filter (fun i => lvScope ws i == 1)).foldl (fun (p : Nat × List (Nat × Nat × Nat)) i =>
    let n := up256 (lvSeg ws i)
    (p.1 + n * groupCount ws i, p.2 ++ (List.range (groupCount ws i)).map (fun g => (i, g, p.1 + n * g)))) (segb, [])).2

/-- The segments of a task that is being bound. -/
def segments (ws : List W64) (segb : Nat) (bs : List (Nat × BindRec)) : List Segment :=
  let cluster (i g : Nat) : Nat := match bs.find? (fun b => groupOf ws i (brRank ws b.2) == g) with | some b => clusterOf (coreOf b.1) | none => 0
  (segBases ws segb).map (fun x => ⟨x.1, x.2.1, sx48 x.2.2, lvSeg ws x.1, lvScope ws x.1, cluster x.1 x.2.1⟩)

/-- LVSB of a level for a context (R17); of a level without a segment it reads 0 (DESIGN CHOICE, log entry 20). -/
def lvsb (ws : List W64) (segs : List Segment) (b : BindRec) (i : Nat) : Nat :=
  if levels ws ≤ i ∨ lvSeg ws i = 0 then 0
  else if lvScope ws i = 0 then scratchBase ws (brBase b) i
  else match segs.find? (fun g => g.level == i && g.group == groupOf ws i (brRank ws b)) with
    | some g => g.base
    | none => 0

/-! ### Installation (R314, R315) -/

/-- Bytes of memory, or of the fused L1, and the poison of their words, from an address: set to 0 (R315, R321). -/
def State.zeroBytes (s : State) (pa n : Nat) : State :=
  { s with
    mem := s.mem.filter (fun c => !(decide (pa ≤ c.1) && decide (c.1 < pa + n)))
    memPoison := s.memPoison.filter (fun c => !(decide (pa ≤ 8 * c.1) && decide (8 * c.1 < pa + n))) }

/-- One page of a range set to 0, or the part of it in the range. -/
def clearPage (w : Via) (va n : Nat) : Eng Unit := fun s =>
  match eTrans w va .write s with
  | .error e => .error e
  | .ok ((pa, _), s) =>
    let s := s.zeroBytes pa n
    .ok ((), (List.range ((n + 63) / 64)).foldl (fun s i => (s.stampStore w.agent (pa / 64 + i)).wake (pa / 64 + i)) s)

/-- A range of an address space set to 0, page by page. -/
def clearRange (w : Via) (va n : Nat) : Eng Unit :=
  eFor (pagesOf va n) (fun p => let lo := max p va; clearPage w lo (min (p + 4096) (va + n) - lo))

/-- The cores of bind records. -/
def brCores (bs : List (Nat × BindRec)) : List Nat := (bs.map (fun b => coreOf b.1)).eraseDups

/-- The words of a range of a scratchpad set to 0. -/
def Core.clearWords (g : Core) (lo n : Nat) : Core :=
  { g.clearBadRange 1 lo (lo + n) with sp := g.sp.filter (fun p => !(decide (lo ≤ p.1) && decide (p.1 < lo + n))) }

/-- The tags of a range of words set empty. -/
def Core.emptyTags (g : Core) (lo n : Nat) : Core := { g with tag := g.tag.filter (fun p => !(decide (lo ≤ p.1) && decide (p.1 < lo + n))) }

/-- The bytes of an L1F segment of a task set to 0 (R97, R315). -/
def clearL1f (tid : Nat) (g : Segment) : Eng Unit := fun s => .ok ((), s.zeroBytes (l1fPlace tid g 0) g.bytes)

/-- Step 1 of R315: segment bytes 0, window tags empty. -/
def installClear (tid : Nat) (w : Via) (ws : List W64) (segs : List Segment) (bs : List (Nat × BindRec)) : Eng Unit := do
  eFor segs (fun g => if g.scope = 1 then clearL1f tid g else clearRange w g.base g.bytes)
  fun s => .ok ((), bs.foldl (fun s b => s.modCore (coreOf b.1) (fun g =>
    let g := g.emptyTags (brBase b.2 / 8) (96 * brLines b.2)
    (scratchLevels ws).foldl (fun g i => g.clearWords (scratchBase ws (brBase b.2) i / 8) (lvSeg ws i / 8)) g)) s)

/-- Bytes from a virtual source, in aligned 8-byte reads where possible. -/
def eBytes (w : Via) (va : Nat) : Nat → Eng (List Nat)
  | 0 => pure []
  | n + 1 => do
    let x ← eReadN w va 1
    let r ← eBytes w (va + 1) n
    pure (x :: r)

/-- Bytes to a virtual address, one by one. -/
def ePutBytes (w : Via) (va : Nat) : List Nat → Eng Unit
  | [] => pure ()
  | x :: r => do
    cWrite w va 1 x false
    ePutBytes w (va + 1) r

/-- Bytes into an L1F segment of a task, at an offset (R97, R314). -/
def putL1f (tid : Nat) (g : Segment) (off : Nat) (data : List Nat) : Eng Unit := fun s =>
  .ok ((), data.zipIdx.foldl (fun s p => s.setByte (l1fPlace tid g (off + p.2)) (BitVec.ofNat 8 p.1)) s)

/-- A byte of a scratchpad; its word's tag becomes full (R315). -/
def Core.putByte (g : Core) (a v : Nat) : Core :=
  let w := SMap.get 0 g.sp (a / 8)
  { g.setTags [a / 8] true with sp := SMap.set 0 g.sp (a / 8) (putBytes w (a % 8) 1 v) }

/-- A DATA entry: the bytes go into the level's segment at OFF in every group (R314). -/
def installData (tid : Nat) (ws : List W64) (segs : List Segment) (bs : List (Nat × BindRec)) (w : Via) (level off : Nat) (data : List Nat) : Eng Unit := do
  echeck (decide (level < levels ws) && decide (off + data.length ≤ lvSeg ws level)) 1
  if lvScope ws level = 0 then
    fun s => .ok ((), bs.foldl (fun s b => s.modCore (coreOf b.1) (fun g =>
      data.zipIdx.foldl (fun g p => g.putByte (scratchBase ws (brBase b.2) level + off + p.2) p.1) g)) s)
  else eFor (segs.filter (fun g => g.level == level)) (fun g => if g.scope = 1 then putL1f tid g off data else ePutBytes w (g.base + off) data)

/-- A change of every core of the bind records. -/
def eCores (bs : List (Nat × BindRec)) (f : Core → Core) : Eng Unit := fun s => .ok ((), (brCores bs).foldl (fun s c => s.modCore c f) s)

/-- One install entry (R314): FORMAT (1) where it breaks R314, R133 or R383. -/
def installEntry (tid : Nat) (ws : List W64) (segs : List Segment) (bs : List (Nat × BindRec)) (w : Via) (e v : W64) : Eng Unit := do
  let kind := fieldOf e 63 60
  echeck (decide (1 ≤ kind) && decide (kind ≤ 9) && !(decide (2 ≤ kind) && decide (kind ≤ 7) && !recXcl ws)) 1
  let low := fieldOf e 55 0
  match kind with
  | 1 =>
    echeck (!e.getLsbD 59) 1
    let data ← eBytes w v.toNat (fieldOf e 55 32)
    installData tid ws segs bs w (fieldOf e 58 56) (fieldOf e 31 0) data
  | 2 =>
    echeck (!e.getLsbD 59 && low == 0) 1
    eCores bs (fun g => g.setQueue (fieldOf e 58 56) ((g.queue (fieldOf e 58 56)).setCfg v))
  | 3 =>
    echeck (!e.getLsbD 59 && low == 0) 1
    eCores bs (fun g => g.setQueue (fieldOf e 58 56) { g.queue (fieldOf e 58 56) with key := v })
  | 4 =>
    echeck (low == 0 && shapeOk v) 1
    eCores bs (fun g => { g with ts := SMap.set tsReset g.ts (fieldOf e 59 56) v })
  | 5 =>
    echeck (!e.getLsbD 59 && low == 0) 1
    eCores bs (fun g => { g with tda := SMap.set tdaReset g.tda (fieldOf e 58 56) (tdaStore v) })
  | 6 =>
    echeck (!e.getLsbD 59 && low == 0) 1
    eCores bs (fun g => { g with tdb := SMap.set tdbReset g.tdb (fieldOf e 58 56) (tdbStore v) })
  | 7 =>
    let n := fieldOf e 12 0
    echeck (fieldOf e 59 44 == 0 && fieldOf e 31 13 == 0 && decide (n ≤ 4096)) 1
    let data ← eBytes w v.toNat (2 * n)
    eCores bs (fun g => (List.range n).foldl (fun g i =>
      { g with tab := SMap.set (0 : BitVec 16) g.tab ((fieldOf e 43 32 + i) % 4096)
                        (BitVec.ofNat 16 (data.getD (2 * i) 0 + 256 * data.getD (2 * i + 1) 0)) }) g)
  | _ =>
    let len := fieldOf e 39 0
    echeck (recAud ws && !e.getLsbD 59 && fieldOf e 55 40 == 0 && len % 8 == 0 && decide (8 ≤ len) && canonical v.toNat && v.toNat % 8 == 0) 1

/-- The entries of a block one after another. -/
def installEntries (tid : Nat) (ws : List W64) (segs : List Segment) (bs : List (Nat × BindRec)) (w : Via) : List W64 → Eng Unit
  | e :: v :: r => do
    installEntry tid ws segs bs w e v
    installEntries tid ws segs bs w r
  | _ => pure ()

/-- The regions that an install block declares: index, address, length, output (R383). -/
def regionsOf : List W64 → List (Nat × Nat × Nat × Bool)
  | e :: v :: r =>
    if fieldOf e 63 60 = 8 ∨ fieldOf e 63 60 = 9 then (fieldOf e 58 56, v.toNat, fieldOf e 39 0, fieldOf e 63 60 == 9) :: regionsOf r
    else regionsOf r
  | _ => []

/-- The regions that count: of one index and kind the last (DEDUCED, log entry 21). -/
def lastRegions : List (Nat × Nat × Nat × Bool) → List (Nat × Nat × Nat × Bool)
  | [] => []
  | x :: r => if r.any (fun y => y.1 == x.1 && y.2.2.2 == x.2.2.2) then lastRegions r else x :: lastRegions r

/-- Do regions overlap? -/
def regionsClash : List (Nat × Nat × Nat × Bool) → Bool
  | [] => false
  | (_, a, n, _) :: r => r.any (fun x => decide (a < x.2.1 + x.2.2.1) && decide (x.2.1 < a + n)) || regionsClash r

/-- CK64 of a region of memory (R386): its words from address `a`. -/
def ckRegion (w : Via) (a : Nat) : Nat → Nat → W64 → Eng W64
  | 0, _, acc => pure acc
  | n + 1, i, acc => do
    let x ← eRead w (a + 8 * i)
    ckRegion w a n (i + 1) (acc + ckTerm i x)

/-- The input checksums INCK0 to INCK7 (R386). -/
def inputCks (w : Via) (regs : List (Nat × Nat × Nat × Bool)) : List Nat → Eng (List W64)
  | [] => pure []
  | n :: r => do
    let c ← (match regs.find? (fun x => x.1 == n && !x.2.2.2) with
      | some (_, a, len, _) => ckRegion w a (len / 8) 0 0
      | none => pure 0)
    let cs ← inputCks w regs r
    pure (c :: cs)

/-- The words of an install block (R314): its header gives the number of entries; a header with a reserved bit set is refused as FORMAT (DESIGN CHOICE,
log entry 44). -/
def readBlock (w : Via) (inst : Nat) : Eng (List W64) := do
  if inst = 0 then pure []
  else
    let h ← eRead w (sx48 inst)
    echeck (fieldOf h 63 16 == 0) 1
    eReads w (sx48 inst + 8) (2 * fieldOf h 15 0)

/-- The bind values of matrix and core state (R119, R165, R191, R208-R210, R245). -/
def Core.fresh (g : Core) : Core :=
  let g := ((g.clearBadRange 2 0 32768).clearBadRange 3 0 131072).clearBadRange 4 0 131072
  { g.clearBadRange 6 0 4096 with
    tile := [], ts := [], latch := [], latTag := [], acc := [], queues := [], tda := [], tdb := [], tab := [], gslots := [] }

/-- A context as a bind leaves it (R17, R119, R320): everything at its bind value. -/
def bindContext (s : State) (tid : Nat) (ws : List W64) (segs : List Segment) (q : LaunchQueue) (squash : Option W64) (b : BindRec) (c : Nat) :
    State :=
  let x := Context.init
  let x := (List.range 8).foldl (fun x i =>
    let x := if i < levels ws then (x.setSys (0x010 + i) (BitVec.ofNat 64 (brLvid b i))).setSys (0x018 + i) (BitVec.ofNat 64 (lvCount ws i)) else x
    x.setSys (0x020 + i) (BitVec.ofNat 64 (lvsb ws segs b i))) x
  let x := (x.setSys 0x030 (BitVec.ofNat 64 (brBase b))).setSys 0x031 (BitVec.ofNat 64 (brDlines b * 2 ^ 16 + brLines b))
  let x := ((x.setSys 0x003 (BitVec.ofNat 64 q.wlim)).setSys 0x03A (if q.k then 1 else 0)).setSys 0x040 q.tvb
  s.setCtx c { x with st := .ready, tid := tid, rank := brRank ws b, handle := recHandle ws, pc := recEntry ws, quant := brQuant b, squash := squash }

/-- The diagonal parts of a core's lines from the windows bound on it (R154). -/
def State.setLayout (s : State) (gn : Nat) : State :=
  let ds := (s.bound.filter (fun p => coreOf p.1 == gn && p.2.spDlines != 0)).map (fun p => (p.2.spBase / 768, p.2.spDlines))
  s.modCore gn (fun g => { g with diag := ds })

/-- The owners and holders of the cores that a bind gives (R26, R27). A task without XCL finds the trellis definitions and the table of its core as they
are at its bind, and takes none of them with it (DESIGN CHOICE, log entry 71). -/
def takeCores (s : State) (tid : Nat) (xcl : Bool) (bs : List (Nat × BindRec)) : State :=
  let s := if xcl then (brCores bs).foldl (fun s c => s.modCore c (fun g => { g.fresh with xcl := some tid })) s else s
  bs.foldl (fun s b => if brOwn b.2 then s.modCore (coreOf b.1) (fun g => { g with owner := some b.1 }) else s) s

/-- Clusters are fused: their L1s are one, and no copy of the L1s they were stays (R96). No step sets a cluster back to unfused (DESIGN CHOICE, log
entry 80). -/
def State.fuse (s : State) (cls : List Nat) : State :=
  let new := cls.filter (fun c => !s.fused.contains c)
  { s with fused := (s.fused ++ cls).eraseDups, cores := s.cores.map (fun p => if new.contains (clusterOf p.1) then (p.1, { p.2 with l1 := [] }) else p) }

/-- Everything that a bind does, as one step (R315, R320, R386, R387). -/
def bindSteps (tid : Nat) (r : Launch) (q : LaunchQueue) (bs : List (Nat × BindRec)) : Eng Unit := do
  let ws := r.words
  let asid : Nat ← fun s => .ok (recAsid s r, s)
  let w : Via := ⟨.dispatch r.die, r.die, asid, false⟩
  let segb : Nat ← fun s => .ok ((s.task tid).segb, s)
  let segs := segments ws segb bs
  let blk ← readBlock w (recInst ws)
  let regs := lastRegions (regionsOf blk)
  echeck (!regionsClash regs && (!recAud ws || regs.any (fun x => x.2.2.2))) 1
  installClear tid w ws segs bs
  let cores : State → State := fun s => takeCores s tid (recXcl ws) bs
  fun s => .ok ((), cores s)
  installEntries tid ws segs bs w blk
  let cks ← if recAud ws then inputCks w regs (List.range 8) else pure []
  fun s =>
    let s := bs.foldl (fun s b => bindContext s tid ws segs q r.squash b.2 b.1) s
    let s := (brCores bs).foldl (fun s c => s.raise (.core c) (s.ptsOf (.dispatch r.die))) s
    let s := bs.foldl (fun s b => s.setLayout (coreOf b.1)) s
    let s := if wantsFused ws then s.fuse (bs.map (fun b => clusterOf (coreOf b.1))) else s
    let oc := match bs.find? (fun b => brRank ws b.2 == 0) with | some b => coreOf b.1 | none => 0
    let s := s.modTask tid (fun t => { t with
      state := 2, live := bs.length, die := r.die, q := q.num, seq := r.seq, words := ws, handle := recHandle ws, asid := asid, dws := q.dws,
      tvb := q.tvb, wlim := q.wlim, k := q.k, cpost := r.cpost, ptid := r.tid, prank := r.rank, gone := [], triggered := [], tDone := false,
      bars := [], segs := segs, faults := 0, errors := 0, kill := none, saving := none, replay := r.audit, aud := recAud ws, inck := cks,
      regions := regs, ocore := oc, rec_ := r.serial, wait := false, refused := false, released := false, saveAt := 0, ts := 0, counted := false })
    .ok ((), s.modRec r.die r.serial (fun x => { x with state := .bound, task := tid }))

/-- The outcome of a bind whose checks pass (its image is looked at again, R57): bound; waiting for an absent page; or the record refused (R315, R362). `none` while the
command waits. A replay whose inputs have changed is not run (R387). -/
def bindGo (s : State) (tid : Nat) (r : Launch) : Option State :=
  if r.wait then none
  else if !(s.handleOk (recHandle r.words)) || decide (s.imageLen (recHandle r.words) ≤ recEntry r.words) then some (refuseRec s r 10 tid)
  else if r.failed then some (refuseRec s r 4 tid)
  else match (bindSteps tid r r.lq (bindRecs s tid)).on s with
    | .ok (_, s') => match r.audit.bind (fun n => s.audits.find? (fun a => a.serial == n)) with
      | some a =>
        if (s'.task tid).inck = a.incks then some s'
        else some (auditEnd ((s.after (.dispatch r.die) ⟨.fail 3, none, s'⟩).modRec r.die r.serial (fun x => { x with state := .finished })) a.serial 3 0 0)
      | none => some s'
    | .error e =>
      let s := s.after (.dispatch r.die) e
      match e.halt with
      | .absent asid va acc lvl =>
        some (dispatchFault (s.modRec r.die r.serial (fun x => { x with wait := true, task := tid })) r.die asid va acc lvl r.lq.num tid r.serial)
      | .poison _ => some (refuseRec s r 8 tid)
      | .fail code => some (refuseRec s r (if code = 10 then 4 else 1) tid)
      | .wait => none

/-- The record that a BIND names. -/
def namedRec (s : State) (die arg : Nat) : Option Launch :=
  (s.die die).recs.find? (fun r => r.lq.num == arg / 2 ^ 40 % 256 && r.seq % 2 ^ 24 == arg % 2 ^ 24 && r.state == .eligible)

/-- The record of a list that was accepted first. -/
def firstOf : List Launch → Option Launch
  | [] => none
  | r :: l => match firstOf l with
    | some x => if x.serial < r.serial then some x else some r
    | none => some r

/-- The k-th queue of a die binds its oldest eligible unbound record onto the armed task, once its checks pass (R322). -/
def armedBind (s : State) (die k : Nat) : State :=
  match (s.die die).lqs[k]? with
  | none => s
  | some q => match q.armed with
    | none => s
    | some tid =>
      match firstOf ((s.die die).recs.filter (fun r => r.lq.serial == q.serial && r.audit.isNone && r.state == .eligible)) with
      | none => s
      | some r =>
        if bindCode s tid r true ≠ 0 then s
        else match bindGo s tid r with
          | none => s
          | some s' => if (s'.task tid).state = 2 then s'.modLq die q.num (fun x => { x with armed := none }) else s'

end Sys2Proof.Machine
end

