-- ==== Sys2Proof/Machine/Save.lean ====
section
/-! DEFINITION. Unwinds and kills settled (16_faults.md, 17_reliability.md R380, 10_copy.md R247, 14_dispatch.md R330), saving and restoring
a task (R325-R329, 09_matrix.md R225, 16_faults.md R372), completion (R324) and auditing (17_reliability.md R386-R388). -/

namespace Sys2Proof.Machine

/-! ### Cancellation at an unwind (17_reliability.md R380) -/

/-- QA commands that a context issued from a bundle on and that have not started retire with CANCEL; one that has stopped at an absent page has
started, also while it waits to start again (R271, R288, R352, 16_faults.md R373). -/
def cancelCommands (s : State) (tid rank first : Nat) : State :=
  let mine (q : SqCmd) : Bool := q.tid == tid && q.rank == rank && decide (first ≤ q.order) && !q.begun
  let s := (s.anise.filter (fun q => mine q && !q.replies)).foldl (fun s q => aniseQuit s q (aniseDie s q) 8) s
  let s := (s.walks.filter (fun q => mine q && !q.replies)).foldl (fun s q => walkEnd s (walkCluster s q) q 8) s
  s.cores.foldl (fun s p => (p.2.clove.filter (fun q => mine q && q.phase == 0)).foldl (fun s q => cloveEnd s p.1 q 8) s) s

/-- Mace commands of the region that have not started are cancelled, their tokens done (08_trellis.md R202). -/
def cancelMace (s : State) (tid rank first : Nat) : State :=
  let mine (m : MaceCmd) : Bool := m.tid == tid && m.rank == rank && decide (first ≤ m.order) && !m.started
  s.cores.foldl (fun s p =>
    (p.2.mace.filter mine).foldl (fun s m => s.retireTok m.tid m.rank m.tok (s.depTs m.tid m.rank m.deps))
      (s.modCore p.1 (fun g => { g with mace := maceWithout mine g.mace }))) s

/-- The cancelled packets of a context end at once: their stamps are written and they retire (R236, R380). -/
def stampCancelled (s : State) (tid rank : Nat) : State :=
  s.dies.foldl (fun s d => d.2.engines.foldl (fun s e =>
    (e.2.packets.filter (fun p => p.cpost && p.tid == tid && p.rank == rank && p.phase == .stamp 7 && !p.stopped)).foldl
      (fun s p => stampStep s d.1 e.1 p 7) s) s) s

/-- The stamp CANCEL of a claim that no packet has yet been accepted for (R236). -/
def cancelStamp (seq : Nat) : W64 := BitVec.ofNat 64 (2 ^ 63 + 7 * 2 ^ 56 + seq % 2 ^ 24 * 2 ^ 32)

/-- The claims of a region that are not yet accepted are cancelled: each is retired now, its token done and the stamp of an amo in its
return entry; its other stamps, and its poster's count, wait for its acceptance (R247, R380; DEDUCED, log entry 60). -/
def retireClaims (s : State) (tid rank first : Nat) : State :=
  let mine (c : Claim) : Bool := c.tid == tid && c.rank == rank && decide (first ≤ c.order) && !c.retired &&
    !s.qheads.any (fun h => h.1 == c.line && h.2.launch)
  let l := s.claims.filter mine
  let s : State := { s with claims := s.claims.map (fun (c : Claim) => if mine c then { c with cancelled := true, retired := true } else c) }
  l.foldl (fun s c => (s.retireTok tid rank c.tok 0).modWho tid rank (fun x => x.giveEntry c.line c.seq (cancelStamp c.seq))) s

/-- The cancellations that an unwind makes at its point U (R380). -/
def unwindCancel (s : State) (tid rank first : Nat) : State :=
  cancelCommands (cancelMace (stampCancelled (cancelPosted (retireClaims s tid rank first) tid rank first) tid rank) tid rank first) tid rank first

/-- The unwinds begun in this step make their cancellations. -/
def settleUnwinds (s : State) : State :=
  s.unwinds.foldl (fun s u => unwindCancel s u.1 u.2.1 u.2.2) { s with unwinds := [] }

/-! ### A kill under way (R330) -/

/-- The reply that a killed context kept of a `balloc` gives its block back (11_kvblocks.md R263). -/
def releaseReply (s : State) (tid : Nat) (r : Ask) : State :=
  match r.reply with
  | some v =>
    if r.op = 8 && v.toNat / 2 ^ 48 == 0 then
      let t := s.task tid
      let p := s.poolHolding t.asid v.toNat
      match (bFree p t.asid true false v.toNat).on s with
      | .ok (_, s) => s
      | .error e => s.after (.anise (p.elim t.die PoolRef.die)) e
    else s
  | none => s

/-- The ranks of a task. -/
def State.ranks (s : State) (tid : Nat) : List Nat := List.range (taskSize (s.task tid).words)

/-- A kill discards the kept replies of a task's contexts and releases their blocks (11_kvblocks.md R263). -/
def releaseReplies (s : State) (tid : Nat) : State :=
  (s.ranks tid).foldl (fun s r =>
    let as := (s.who tid r).asks.filter (fun a => a.reply.isSome)
    let s := s.modWho tid r (fun x => { x with asks := x.asks.filter (fun a => a.reply.isNone) })
    as.foldl (fun s a => releaseReply s tid a) s) s

/-- The cancellations of a kill (R247, R202, R226, R294, R330 step 2): they take effect at once and once only, for a killed context issues
nothing more. -/
def killWork (s : State) (tid : Nat) : State :=
  let s := (s.ranks tid).foldl (fun s r => killPosted s tid r) s
  let gs := ((s.bound.filter (fun p => p.2.tid == tid)).map (fun p => coreOf p.1)).eraseDups
  let s := gs.foldl (fun s g => maceCancel s g tid) s
  let s := gs.foldl (fun s g => s.modCore g (fun x => { x with samp := x.samp.filter (fun q => q.tid != tid) })) s
  let s := (s.bound.filter (fun p => p.2.tid == tid)).foldl (fun s p => stopQueueOps s p.1) s
  let s : State := { s with frames := s.frames.map (fun (f : Nat × Frame) => if f.2.tid = tid then (f.1, { f.2 with clove := [], samp := [] }) else f) }
  releaseReplies s tid

/-- The images that a context's next bundles, handlers or returns may come from (02_bundle.md R57). -/
def Context.images (x : Context) : List Nat :=
  x.handle :: ((match x.trap with | some t => [t.handle] | none => []) ++ x.resumes.map (fun r => r.handle) ++
    [0x040, 0x041, 0x049, 0x04C, 0x04D, 0x04E, 0x04F].map (fun n => (x.sysReg n >>> 52).toNat))

/-- Does a bound or saved task use an image (02_bundle.md R57)? -/
def State.usesSeal (s : State) (h : Nat) : Bool :=
  s.tasks.any (fun t => (t.2.handle == h || (t.2.tvb >>> 52).toNat == h) && decide (2 ≤ t.2.state) && decide (t.2.state ≤ 5)) ||
  s.bound.any (fun p => p.2.images.contains h) || s.frames.any (fun f => f.2.ctx.images.contains h)

/-- Seal records that SEALREL has named and no bound or saved task uses are freed (02_bundle.md R57). -/
def freeSeals (s : State) : State := { s with seals := s.seals.filter (fun p => !(p.2.released && !s.usesSeal p.1)) }

/-- Do the links carry the accesses of both dies (17_reliability.md R392)? -/
def State.joined (s : State) : Bool := s.reach 0 (192 * 2 ^ 30) && s.reach 1 0

/-- Can a write of the dispatch hardware that waits go on? -/
def State.writeDue (s : State) (w : DWrite) : Bool := w.why == .refused || (w.why == .link && s.joined)

/-- The writes of the dispatch hardware that can go on: a refused addition refuses its record (R362), and what waited for a link is tried again
once the dies are joined (17_reliability.md R392). -/
def settleWrites (s : State) : State :=
  (s.dwrites.filter s.writeDue).foldl (fun s w => match w.kind with
    | .audit n status rsig rcore => auditEnd s n status rsig rcore
    | .notice f => putNotice s w.die f
    | .trigger => resumeTrigger s w
    | _ => if w.why = .refused then refuseBound s w.die w.rec_ w.tid 4 else dispatchWrite s w) { s with dwrites := s.dwrites.filter (fun w => !s.writeDue w) }

/-- The kills under way are carried on. -/
def settleKills (s : State) : State := (s.tasks.filter (fun t => t.2.state == 5)).foldl (fun s t => killWork s t.1) s

/-- What a bundle has begun is settled: an unwind (17_reliability.md R380), a kill (R330). -/
def settleIssue (s : State) : State := settleKills (settleUnwinds s)

/-- The unwinds and kills of a step are settled, the writes of the dispatch hardware that can go on are done, and released images that no task
uses any more are freed. -/
def settleAll (s : State) : State :=
  let s := settleWrites (settleUnwinds s)
  settleKills (if s.seals.any (fun p => p.2.released && !s.usesSeal p.1) then freeSeals s else s)

/-! ### Save (R325-R328) -/

/-- The pending scratchpad writes of a core are performed, oldest first (R107). -/
def performSpAll (g : Core) : Core := (List.range g.spw.length).foldl (fun g _ => g.performSp 0) g

/-- The bound contexts of a task. -/
def taskCtxs (s : State) (tid : Nat) : List (Nat × Context) := s.bound.filter (fun p => p.2.tid == tid)

/-- May the frames be written: every context has stopped and has captured its results (R325, R326), its stores and its frame can be reached
(17_reliability.md R392), matrix work has drained and every registered window has passed (R225), no mask of the task is being written (R288), and no started packet still writes
into its windows (R372)? -/
def saveReady (s : State) (tid : Nat) : Bool :=
  (taskCtxs s tid).all (fun p =>
    let g := s.core (coreOf p.1)
    (p.2.st == .exited || (p.2.st == .saved && p.2.captured)) && !s.stuck p.1 && s.reach (s.task tid).die (frameAt s tid p.2.rank) &&
    (g.owner != some p.1 || (g.rows.isEmpty && g.paths.isEmpty && g.tcmds.isEmpty && g.wins.isEmpty)) &&
    g.clove.all (fun q => q.tid != tid || q.phase == 0)) &&
  s.dies.all (fun d => d.2.engines.all (fun e => e.2.packets.all (fun p => !p.started || p.stopped || !p.into s tid)))

/-- The windows of a task that an accepted packet will write into, started or not: where its words are bound to (R372). -/
def frameBounds (s : State) (tid : Nat) (p : Packet) : List Bound :=
  (taskCtxs s tid).filterMap (fun x => if p.meets x.1 x.2 then some ⟨tid, x.2.rank, coreOf x.1, x.2.spBase / 8, 96 * x.2.spLines⟩ else none)

/-- The frame of one context (R328). -/
def makeFrame (s : State) (c : Nat) : Frame :=
  let x := s.ctx c
  let g := s.core (coreOf c)
  let own := g.owner == some c
  { tid := x.tid, ctx := { x with st := if x.st = .exited then .exited else .saved }, pts := g.pts, base := x.spBase, lines := x.spLines,
    dlines := x.spDlines, own := own, core := if own then some g else none,
    clove := g.clove.filter (fun q => q.tid == x.tid && q.rank == x.rank),
    samp := (g.samp.filter (fun q => q.tid == x.tid && q.rank == x.rank)).map (fun q => { q with left := none, keep := 0 }) }

/-- Up to 64 bits as a word. -/
def bitsWord (n : Nat) (b : Nat → Bool) : W64 := BitVec.ofNat 64 ((List.range n).foldl (fun a i => if b i then a + 2 ^ i else a) 0)

/-- Word j of a frame, but for word 1, as a save writes it (R328): the header, the window's data and tags from word `lo` of the scratchpad on, and
elsewhere words that only the hardware reads, which the manual does not give (free values, log entry 14). -/
def frameImage (g : Core) (lo lines size free j : Nat) : W64 :=
  if j = 0 then BitVec.ofNat 64 (size * 2 ^ 32 + 1)
  else if frameData ≤ j ∧ j < frameData + 96 * lines then SMap.get 0 g.sp (lo + (j - frameData))
  else if frameTags lines ≤ j ∧ 64 * (j - frameTags lines) < 96 * lines then
    let o := 64 * (j - frameTags lines)
    bitsWord (min 64 (96 * lines - o)) (fun i => SMap.get false g.tag (lo + o + i))
  else BitVec.ofNat 64 (Config.freeValue (free + j) 7001)

/-- CK64 of all bytes of a frame of `n` words but word 1, which stands in word 1 (R328, R78). -/
def frameCk (word : Nat → W64) (n : Nat) : W64 := ck64From 0 (((List.range n).filter (fun j => j != 1)).map word)

/-- A context's frame is written (R328): what it holds, and its words in memory with their CK64; a poisoned word of the window stays poisoned. -/
def writeFrame (s : State) (c : Nat) : State :=
  let x := s.ctx c
  let g := s.core (coreOf c)
  let f := makeFrame s c
  let size := frameBytes f.lines f.own (recXcl (s.task x.tid).words)
  let a := frameAt s x.tid x.rank
  let ag : Agent := .dispatch (s.task x.tid).die
  let lo := f.base / 8
  let word := frameImage g lo f.lines size s.free
  let n := (size + 7) / 8
  let s := { s with
    free := s.free + n, frames := SMap.put (SMap.del s.frames (frameKey x.tid x.rank)) (frameKey x.tid x.rank) f }
  if memBytes < a + size then s
  else
    let s := (List.range n).foldl (fun s j =>
      s.storePhys ag (a + 8 * j) (f.wordBytes j) (if j = 1 then frameCk word n else word j).toNat) s
    (List.range (96 * f.lines)).foldl (fun s o => if g.bad 1 (lo + o) then s.setBad (a + 8 * (frameData + o)) true else s) s

/-- A context leaves its slot: it becomes UNBOUND, and its core forgets what belonged to it. -/
def leaveSlot (s : State) (c : Nat) : State :=
  let x := s.ctx c
  let s := s.setCtx c Context.init
  let s := s.modCore (coreOf c) (fun g =>
    { g with active := if g.active = some c then none else g.active,
             owner := if g.owner = some c then none else g.owner,
             clove := g.clove.filter (fun q => !(q.tid == x.tid && q.rank == x.rank)),
             samp := g.samp.filter (fun q => !(q.tid == x.tid && q.rank == x.rank)) })
  s.setLayout (coreOf c)

/-- The core state that a task held is given up (R27); Clove's slots are emptied also where no task holds it (12_grammar.md R280). The Mace commands of a
task without XCL stay on the core and run on (DESIGN CHOICE, log entry 71). -/
def leaveCore (s : State) (g tid : Nat) : State :=
  if (s.core g).xcl = some tid then
    s.modCore g (fun x => { x.fresh with xcl := none, owner := none, mace := [], latqs := [], accqs := [], busy := [] })
  else if (s.core g).xcl.isNone then s.modCore g (fun x => { x with gslots := [] })
  else s

/-- SAVE: a save that is under way writes its frames and ends, when it may (R325). -/
def saveStep (s : State) (tid : Nat) : State :=
  let t := s.task tid
  if t.state ≠ 3 ∨ saveReady s tid = false then s
  else
    let cs := (taskCtxs s tid).map Prod.fst
    let s := cs.foldl flushStores s
    let s := cs.foldl (fun s c => s.modCore (coreOf c) performSpAll) s
    let s := s.mapPackets (fun p => { p with bounds := p.bounds ++ frameBounds s tid p })
    let s := cs.foldl writeFrame s
    let s := cs.foldl leaveSlot s
    let s := ((cs.map coreOf).eraseDups).foldl (fun s g => leaveCore s g tid) s
    let s := (dropBindRecs s tid).modTask tid (fun t => { t with state := 4, saving := none })
    postEvent s t.die 4 tid (t.saving.getD 1) 0

/-! ### Restore (R329) -/

/-- Are the records of a saved task at the places that its frames need: BASE, LINES and DLINES (code 4), OWN (code 6)? -/
def frameCode (s : State) (tid : Nat) (bs : List (Nat × BindRec)) : Nat :=
  let ws := (s.task tid).words
  let fr (b : Nat × BindRec) := s.frame tid (brRank ws b.2)
  if bs.any (fun b => (fr b).base != brBase b.2 || (fr b).lines != brLines b.2 || (fr b).dlines != brDlines b.2) then 4
  else if bs.any (fun b => (fr b).own != brOwn b.2) then 6
  else 0

/-- The refusal code of a RESTORE, 0 when it passes (R329, R332, R367). -/
def restoreCode (s : State) (tid : Nat) : Nat :=
  let t := s.task tid
  let bs := bindRecs s tid
  if t.state != 4 || !allFree s bs then 1
  else if t.faults != 0 then 14
  else
    let p := placeCode s tid t.words bs
    if p ≠ 0 then p else frameCode s tid bs

/-- Does the CK64 of every frame of a task hold where the frame now lies (R328, R329)? -/
def framesWhole (s : State) (tid : Nat) : Bool :=
  (s.frames.filter (fun f => f.2.tid == tid)).all (fun f =>
    let r := f.1 % 2048
    frameCk (frameWord s tid r) ((frameBytes f.2.lines f.2.own (recXcl (s.task tid).words) + 7) / 8) == frameWord s tid r 1)

/-- Is no word of a task's frames poisoned, but for window data, which comes back poisoned (17_reliability.md R377, R378)? -/
def framesClean (s : State) (tid : Nat) : Bool :=
  (s.frames.filter (fun f => f.2.tid == tid)).all (fun f =>
    let a := frameAt s tid (f.1 % 2048)
    let n := frameBytes f.2.lines f.2.own (recXcl (s.task tid).words)
    !s.badAt a 0x10000 && !s.badAt (a + 8 * frameTags f.2.lines) (n - 8 * frameTags f.2.lines))

/-- Matrix and core state come back from a frame (R225, R328). -/
def Core.takeBack (g h : Core) (tid c : Nat) : Core :=
  { g with tile := h.tile, ts := h.ts, latch := h.latch, latTag := h.latTag, acc := h.acc, latqs := h.latqs, accqs := h.accqs,
           busy := h.busy, queues := h.queues, tda := h.tda, tdb := h.tdb, tab := h.tab, mace := h.mace, gslots := h.gslots,
           poison := g.poison.filter (fun p => p.1 / 2 ^ 24 == 1) ++ h.poison.filter (fun p => p.1 / 2 ^ 24 != 1),
           owner := some c, xcl := some tid }

/-- A context comes back from its frame into a slot (R103, R155, R288, R294, R327, R329). -/
def restoreContext (s : State) (tid : Nat) (ws : List W64) (b : Nat × BindRec) : State :=
  let rank := brRank ws b.2
  let f := s.frame tid rank
  let c := b.1
  let gn := coreOf c
  let lo := f.base / 8
  let die := (s.task tid).die
  let m := s.readAll (.dispatch die) ((List.range ((frameBytes f.lines f.own (recXcl ws) + 63) / 64)).map (fun i => frameAt s tid rank + 64 * i))
  let s := m.setCtx c { f.ctx with st := if f.ctx.st = .exited then .exited else .ready, quant := brQuant b.2, quota := 0 }
  let s := match f.core with
    | some h => s.modCore gn (fun g => g.takeBack h tid c)
    | none => s
  let s := s.modCore gn (fun g =>
    let g := (g.clearWords lo (96 * f.lines)).emptyTags lo (96 * f.lines)
    let g := (List.range (96 * f.lines)).foldl (fun g o =>
      let g := { g with sp := SMap.set 0 g.sp (lo + o) (frameWord m tid rank (frameData + o)) }
      let g := g.setTags [lo + o] ((frameWord m tid rank (frameTags f.lines + o / 64)).getLsbD (o % 64))
      g.setBad 1 (lo + o) (m.badAt (frameAt m tid rank + 8 * (frameData + o)) 8)) g
    { g with pts := max (max g.pts f.pts) (m.ptsOf (.dispatch die)), clove := g.clove ++ f.clove.map (fun q => { q with core := gn, ctx := c }),
             samp := g.samp ++ f.samp })
  { s with frames := SMap.del s.frames (frameKey tid rank) }

/-- A segment after a restore: an L1F segment is in the cluster where its group now runs (R97). -/
def Segment.moved (new : List Segment) (g : Segment) : Segment :=
  match new.find? (fun x => x.level == g.level && x.group == g.group) with
  | some x => { g with cluster := x.cluster }
  | none => g

/-- A restore that passes its checks (R329, R369): a frame whose CK64 fails kills the task with FRAME, a poisoned one with POISON
(17_reliability.md R378). -/
def restoreGo (s : State) (tid : Nat) : State :=
  if !framesClean s tid then s.beginKill tid 8
  else if !framesWhole s tid then s.beginKill tid 13
  else
    let bs := bindRecs s tid
    let ws := (s.task tid).words
    let s := bs.foldl (fun s b => restoreContext s tid ws b) s
    let s := bs.foldl (fun s b => s.setLayout (coreOf b.1)) s
    let s := if wantsFused ws then s.fuse (bs.map (fun b => clusterOf (coreOf b.1))) else s
    s.modTask tid (fun t => { t with state := 2, errors := 0, segs := t.segs.map (Segment.moved (segments ws t.segb bs)) })

/-! ### Auditing (R386-R388) -/

/-- The signature of the output regions (R386). -/
def signature (w : Via) : List (Nat × Nat × Nat × Bool) → Eng W64
  | [] => pure 0
  | (n, a, len, out) :: r => do
    let x ← if out then (do let c ← ckRegion w a (len / 8) 0 0
                            pure (mix (c ^^^ (BitVec.ofNat 64 n * K1)))) else pure 0
    let y ← signature w r
    pure (x + y)

/-- Sumac's accesses to a task's regions (DEDUCED, log entry 21): by die 0's walkers, at U level. -/
def sumacVia (s : State) (tid : Nat) : Via := ⟨.sumac, 0, (s.task tid).asid, false⟩

/-- Is a completed task sampled (R386)? -/
def sampled (s : State) : Bool :=
  let frac := fieldOf s.sumcfg 4 0
  s.sumcfg.getLsbD 36 && (frac == 0 || (draw s.sumkey s.sumseq).toNat / 2 ^ (64 - frac) == 0)

/-- Is there room in the audit ring (R388)? -/
def auditRoom (s : State) : Bool :=
  let lg := fieldOf s.sumring 63 59
  decide (4 ≤ lg) && decide (lg ≤ 16) && decide ((s.sumtail + 2 ^ 16 - s.sumhead) % 2 ^ 16 < 2 ^ lg) &&
    decide (auditAt s s.sumtail + 256 ≤ memBytes)

/-- The signature of a task's outputs as Sumac forms it (R386); a read that does not go through gives an unspecified signature (DEDUCED, log
entry 21), and one that waits for a link gives none yet (R392). -/
def taskSignature (s : State) (tid : Nat) : Option (W64 × State) :=
  match (signature (sumacVia s tid) (s.task tid).regions).on s with
  | .ok x => some x
  | .error e =>
    if e.halt = .wait then none
    else let (v, t) := (s.after .sumac e).drawFree 7002; some (BitVec.ofNat 64 v, t)

/-- An auditable task has met R29: after its signature, SUMSEQ, and a replay where it is sampled (R386, R388). -/
def auditSampled (s : State) (tid : Nat) (sig : W64) : State :=
  let t := s.task tid
  let s := { s with sumseq := s.sumseq + 1 }
  if !sampled s || !auditRoom s then s
  else
    let s := { s with serial := s.serial + 1 }
    let a : Audit := { serial := s.serial, place := s.sumtail, die := dieOf t.ocore, words := t.words, incks := t.inck, regions := t.regions,
                       tid := tid, ocore := t.ocore, osig := sig, seq := s.sumseq, rcore := 0 }
    let p := auditAt s a.place
    let ws := t.words ++ t.inck ++ [BitVec.ofNat 64 (auditWord a 0 0), sig, 0, s.sumseq, 0, 0, 0, 0]
    let s := ws.zipIdx.foldl (fun s x => s.storePhys .sumac (p + 8 * x.2) 8 x.1.toNat) s
    let die := 1 - dieOf t.ocore
    let q := fieldOf s.sumcfg 47 40
    let lq := ((s.die die).lq q).getD { LaunchQueue.init with num := q }
    let r : Launch := { serial := s.serial, die := die, trig := false, wait := false, failed := false, audit := some s.serial, lq := lq,
                        seq := a.place, words := t.words, cpost := false, tid := 0, rank := 0, tok := 0, deps := [], state := .eligible, task := 0,
                        squash := none, watch := none }
    makeEligible { s with audits := s.audits ++ [a], sumtail := (s.sumtail + 1) % 2 ^ 16 } r

/-- An auditable task has met R29 (R386, R388); nothing while Sumac waits for a link (R392). -/
def auditTask (s : State) (tid : Nat) : Option State :=
  match taskSignature s tid with
  | none => none
  | some (sig, s) => if auditReach s s.sumtail then some (auditSampled s tid sig) else none

/-- A replay has met R29 and its completion counter is settled, or it has been killed or its record refused (R387); nothing while Sumac waits for a link
(R392). -/
def auditResult (s : State) (tid serial : Nat) (failed : Bool) : Option State :=
  match s.audits.find? (fun a => a.serial == serial) with
  | none => some s
  | some a =>
    let t := s.task tid
    if !auditReach s a.place then none
    else if failed then some (auditEnd s serial 4 0 t.ocore)
    else match (do let v ← signature (sumacVia s tid) t.regions
                   let cs ← inputCks (sumacVia s tid) t.regions (List.range 8)
                   pure (v, cs) : Eng (W64 × List W64)).on s with
      | .error e => if e.halt = .wait then none else some (auditEnd (s.after .sumac e) serial 4 0 t.ocore)
      | .ok ((v, cs), s) => some (auditEnd s serial (if cs != a.incks then 3 else if v = a.osig then 1 else 2) v t.ocore)

/-! ### Completion (R29, R324, R330) -/

/-- Has every packet and sequence command of a task retired (R29, R330)? -/
def workDone (s : State) (tid : Nat) : Bool :=
  (s.ranks tid).all (fun r => (s.who tid r).posted == 0) && s.anise.all (fun q => q.tid != tid) && s.squashes.all (fun q => q.cmd.tid != tid) &&
  s.walks.all (fun q => q.tid != tid) &&
  s.cores.all (fun g => g.2.clove.all (fun q => q.tid != tid) && g.2.samp.all (fun q => q.tid != tid)) &&
  s.frames.all (fun f => f.2.tid != tid || (f.2.clove.isEmpty && f.2.samp.isEmpty))

/-- Has the matrix work of a task's owners been done (R28, R226)? -/
def matrixDone (s : State) (tid : Nat) : Bool :=
  (taskCtxs s tid).all (fun p =>
    let g := s.core (coreOf p.1)
    g.owner != some p.1 || (g.rows.isEmpty && g.paths.isEmpty && g.tcmds.isEmpty && g.wins.isEmpty && g.latqs.isEmpty && g.accqs.isEmpty))

/-- May a task complete (R29), or its kill (R330)? -/
def mayComplete (s : State) (tid : Nat) : Bool :=
  let t := s.task tid
  !t.wait && workDone s tid && matrixDone s tid && (taskCtxs s tid).all (fun p => !s.stuck p.1) &&
  (t.state == 5 || ((t.state == 2 || t.state == 3 || t.state == 4) && decide (taskSize t.words ≤ t.gone.length)))

/-- A killed task's contexts count as arrived and as triggered (R330 step 3). -/
def killedGone (s : State) (tid : Nat) : State :=
  let s := s.modTask tid (fun t => { t with gone := List.range (taskSize t.words) })
  completeBars (triggerGone s tid) tid

/-- Does a claim of a launch queue or a record that is not finished name this poster (R313)? -/
def launchOf (s : State) (tid rank : Nat) : Bool :=
  s.claims.any (fun c => c.tid == tid && c.rank == rank && s.qheads.any (fun h => h.1 == c.line && h.2.launch)) ||
  s.dies.any (fun d => d.2.recs.any (fun r => r.cpost && r.tid == tid && r.rank == rank && r.state != .finished))

/-- The launches of a task do not hold its completion (R29), and the tokens that they produce and consume outlive it (R313, R316): they name from now
on a poster whose number no task has, and posters that nothing names any more are dropped (DEDUCED, log entry 83). -/
def keepPosters (s : State) (tid : Nat) : State :=
  let ks := (s.ranks tid).filter (launchOf s tid)
  let u := 4096 + s.serial
  let named (t : Nat) : Nat := if t = tid then u else t
  let ps := ks.foldl (fun m r => SMap.set Context.init m (frameKey u r) (s.who tid r)) (s.posters.filter (fun p => launchOf s (p.1 / 2048) (p.1 % 2048)))
  if ks.isEmpty then { s with posters := ps }
  else
    { s with
      serial := s.serial + 1, posters := ps,
      claims := s.claims.map (fun c => if s.qheads.any (fun h => h.1 == c.line && h.2.launch) then { c with tid := named c.tid } else c),
      dies := s.dies.map (fun d => (d.1, { d.2 with recs := d.2.recs.map (fun r =>
        if r.cpost && r.state != .finished then { r with tid := named r.tid } else r) })) }

/-- Step 1 of R324: the task's core state is released; its frames are discarded. -/
def releaseTask (s : State) (tid : Nat) : State :=
  let s := keepPosters s tid
  let cs := (taskCtxs s tid).map Prod.fst
  let gs := (cs.map coreOf).eraseDups
  let s := gs.foldl (fun s g => maceCancel s g tid) s
  let s := gs.foldl (fun s g => s.modCore g performSpAll) s
  let s := gs.foldl (fun s g => (leaveCore s g tid).modCore g (fun x => { x with doneWins := x.doneWins.filter (fun w => w.tid != tid) })) s
  { s with frames := s.frames.filter (fun f => f.2.tid != tid) }

/-- The packets bound to a task's windows have no place any more (R372). -/
def Packet.unbind (tid : Nat) (p : Packet) : Packet := { p with bounds := p.bounds.map (fun b => if b.tid = tid then { b with tid := 4096 } else b) }

/-- Steps 3 to 5 of R324: the token, the records, the slots, the entry, the event. The report of a double trap to the resident kernel is its stamp
in LASTERR and the event (R330; DESIGN CHOICE, log entry 31). -/
def finishTask (s : State) (tid : Nat) : State :=
  let t := s.task tid
  let r : Option Launch := (s.die t.die).recs.find? (fun r => r.serial == t.rec_)
  let s := match r with | some r => if t.refused then s else recTokenDone s r | none => s
  let s := dropBindRecs s tid
  let s := ((taskCtxs s tid).map Prod.fst).foldl leaveSlot s
  let s := s.mapPackets (Packet.unbind tid)
  let s := s.modRec t.die t.rec_ (fun x => { x with state := .finished })
  let st := match r with | some r => (match t.kill with | some code => recStamp r code | none => 0) | none => 0
  let s := match r, t.kill with | some r, some _ => lastErr s r st | _, _ => s
  let s := s.setTask tid { Task.init with frb := t.frb, fstr := t.fstr, segb := t.segb }
  if t.kill.isSome then postEvent s t.die 6 tid 0 st else postEvent s t.die 5 tid 0 0

/-- A task has met R29, or its kill is complete: its stores are performed, Sumac samples an auditable one (R386), and its core state is released, once
(R324 step 1); nothing while Sumac waits for a link (R392). -/
def retireTask (s : State) (tid : Nat) : Option State :=
  let t := s.task tid
  if t.released then some s
  else
    let s := (taskCtxs s tid).foldl (fun s p => flushStores s p.1) s
    let s := if t.kill.isSome then killedGone (releaseReplies s tid) tid else s
    let a := if t.replay.isNone && t.aud then auditTask s tid else some s
    a.map (fun s =>
      ((releaseTask s tid).modTask tid (fun t => { t with released := true })).raise (.dispatch t.die) (s.taskTs tid))

/-- Steps 3 to 5 of R324, once Sumac has the result of a replay (R387). -/
def settleTask (s : State) (tid : Nat) : State :=
  let s := s.modTask tid (fun t => { t with counted := true })
  let t := s.task tid
  match t.replay with
  | none => finishTask s tid
  | some n => ((auditResult s tid n (t.kill.isSome || t.refused)).map (fun s => finishTask s tid)).getD s

/-- TASK_COMPLETION: the task meets R29, or its kill is complete; the addition at CADDR may have to wait for its page (R324, R362). -/
def completeTask (s : State) (tid : Nat) : State :=
  if !mayComplete s tid then s
  else match retireTask s tid with
    | none => s
    | some s =>
      let t := s.task tid
      if recCaddr t.words = 0 || t.refused || t.counted then settleTask s tid
      else match (eRmw ⟨.dispatch t.die, t.die, t.asid, false⟩ (sx48 (recCaddr t.words)) (fun v => v + 1)).on s with
        | .ok (_, s) => settleTask s tid
        | .error e =>
          let s := s.after (.dispatch t.die) e
          match e.halt with
          | .absent asid va acc lvl => dispatchFault (s.modTask tid (fun t => { t with wait := true })) t.die asid va acc lvl t.q tid t.rec_
          | .wait => s
          | .poison _ => settleTask (refuseBound s t.die t.rec_ tid 8) tid
          | .fail _ => settleTask (refuseBound s t.die t.rec_ tid 4) tid

end Sys2Proof.Machine
end

