-- ==== Sys2Proof/Machine/Speculate.lean ====
section
/-! DEFINITION. Squash (13_sampling.md R302-R306): the turn of `sq.squash` at its Anise, what it cancels, the events of the drafter's contexts,
and the squash token. -/

namespace Sys2Proof.Machine

/-- The squash at its turn: its failures, else SPDEPTH := min(SPDEPTH, A) by one ordinary write, whose point is S (R302, R384). -/
def squashRun (s : State) (q : SqCmd) (die : Nat) : Eng Unit := do
  echeck (!s.inReplay q.tid) 6
  echeck (canonical q.a.toNat && q.a.toNat % 256 == 0) 1
  let w : Via := ⟨.anise die, die, q.asid, q.k⟩
  let sel ← eRead w (q.a.toNat + 8)
  let p ← ePool (selPool (fieldOf sel 36 32))
  echeck (p.isKv q.asid) 2
  let v ← eRead w (q.a.toNat + 48)
  eWrite w (q.a.toNat + 48) (setField v 7 0 (min (fieldOf v 7 0) (min q.b.toNat 255)))

/-- Is a task a drafter of the record (R303): bound or saved, its launch record tagged with it, an address under its queue's ASID (14_dispatch.md R311)? -/
def Task.drafts (t : Task) (asid seq : Nat) : Bool :=
  t.asid == asid && decide (2 ≤ t.state) && decide (t.state ≤ 4) && recSpv t.words && fieldOf (wordAt t.words 7) 47 8 == seq

/-- The drafter contexts that have not exited: the task's record, task, rank. -/
def drafters (s : State) (asid seq : Nat) : List (Nat × Nat × Nat) :=
  (s.tasks.filter (fun t => t.2.drafts asid seq)).flatMap (fun t =>
    ((List.range (taskSize t.2.words)).filter (fun r => !t.2.gone.contains r)).map (fun r => (t.2.rec_, t.1, r)))

/-- A context receives a squash event (R305): a blocked one becomes READY, a frozen bundle ends its freeze, a saved one keeps it. -/
def Context.giveSquash (x : Context) (info : W64) : Context :=
  { x with squash := some info, watch := none, st := if x.st = .blocked then .ready else x.st, frz := 0, spent := 0 }

/-- The appends on the record that have not started end with CANCEL (11_kvblocks.md R269). -/
def squashAppends (s : State) (q : SqCmd) : State :=
  (s.anise.filter (fun o => o.op == 10 && o.x == 0 && o.a == q.a && o.asid == q.asid && o.wait == 0 && !o.begun)).foldl
    (fun s o => aniseQuit s o (aniseDie s o) 8) s

/-- The steps on the record that have not started end with CANCEL, those put back in a saved frame too (12_grammar.md R288). -/
def squashSteps (s : State) (q : SqCmd) : State :=
  let mine (o : SqCmd) : Bool := o.op == 17 && o.a == q.a && o.asid == q.asid && o.phase == 0 && !o.begun
  let s := s.cores.foldl (fun s p => (p.2.clove.filter mine).foldl (fun s o => cloveEnd s p.1 o 8) s) s
  s.frames.foldl (fun s f =>
    let s := s.modFrame f.2.tid f.2.ctx.rank (fun x => { x with clove := x.clove.filter (fun o => !mine o) })
    (f.2.clove.filter mine).foldl (fun s o => retireCmd (tryErr ⟨.clove o.core, dieOf o.core, o.asid, o.k⟩ (o.a.toNat + 48) 8 s) (.clove o.core) o) s) s

/-- Everything that a squash does at S (R304, R305). -/
def squashAll (s : State) (q : SqCmd) : State :=
  let seq := fieldOf q.a 47 8
  let a := min q.b.toNat 255
  let (slots, s) := squashPackets s q.asid seq a (s.ptsOf (.anise (aniseDie s q)))
  let info := BitVec.ofNat 64 (seq * 256 + a)
  let s := squashRecs (squashSteps (squashAppends s q) q) q.asid seq a info
  let ds := drafters s q.asid seq
  let s := ds.foldl (fun s d => s.modWho d.2.1 d.2.2 (fun x => x.giveSquash info)) s
  let bs := ((seqRecs s q.asid seq).filter Launch.binding).flatMap (fun r => (List.range (taskSize r.words)).map (fun k => (r.serial, r.task, k)))
  { s with squashes := s.squashes ++ [⟨q, slots, (ds ++ bs).map (fun d => (d.1, d.2.1, d.2.2, none))⟩] }

/-- SQUASH_TURN: the k-th command of Anise, a squash, takes its turn (R302). -/
def squashTurn (s : State) (die k : Nat) : State :=
  match s.anise[k]? with
  | none => s
  | some q =>
    if q.op != 15 || !mayTurn s s.anise k (fun o => aniseDie s o == die) (aniseConflict s) then s
    else
      let s := s.takeUp (.anise die) q
      match (squashRun s q die).on s with
      | .ok (_, s) => squashAll (s.dropAnise q) q
      | .error e => aniseHalt (s.after (.anise die) e) q die e.halt

/-- ANISE_COMMAND_TURN: the k-th command takes its turn (11_kvblocks.md R261). -/
def aniseCommandTurn (s : State) (die k : Nat) : State :=
  match s.anise[k]? with
  | none => s
  | some q =>
    if q.op = 15 then squashTurn s die k
    else if mayTurn s s.anise k (fun o => aniseDie s o == die) (aniseConflict s) then aniseTurn (s.takeUp (.anise die) q) q die
    else s

/-- WALKER_COMMAND_START: the k-th command of the walkers takes its turn at a cluster's walker (15_schedule.md R350). -/
def walkerCommandStart (s : State) (cl k : Nat) : State :=
  match s.walks[k]? with
  | none => s
  | some q => if mayTurn s s.walks k (fun o => walkCluster s o == cl) walkConflict then walkTurn s q else s

/-! ### The event (R305) -/

/-- Every squash learns that a context has taken its event. -/
def noteSquash (s : State) (tid rank order : Nat) : State :=
  { s with squashes := s.squashes.map (fun q => { q with waits := q.waits.map (fun w =>
      if w.2.1 = tid ∧ w.2.2.1 = rank ∧ w.2.2.2 = none then (w.1, tid, rank, some order) else w) }) }

/-- A context takes its squash event at a bundle boundary: a trap with cause SQUASH, at the first bundle that has not issued; an
interrupted `br.delay` resumes with what remains (R38, R305). -/
def takeSquash (s : State) (c : Nat) (info : W64) : State :=
  let x := s.ctx c
  boundaryTrap ((noteSquash s x.tid x.rank x.order).modCtx c (fun y => { y with squash := none })) c 8 info

/-- May a context take its squash event now: it holds issue, no trap entry is pending, and no handler is active? -/
def mayTakeSquash (s : State) (c : Nat) : Bool :=
  let x := s.ctx c
  x.squash.isSome && x.st == .active && x.trap.isNone && !(x.sysReg 0x044).getLsbD 1

/-! ### The token (R306) -/

/-- Has a context of a drafter taken its event, exited, or been saved with it? The place up to which its work counts. -/
def squashSeen (s : State) (w : Nat × Nat × Nat × Option Nat) : Option Nat :=
  let t := s.task w.2.1
  if s.dies.any (fun d => d.2.recs.any (fun r => r.serial == w.1 && r.state == .eligible)) then none
  else if t.rec_ ≠ w.1 ∨ t.state = 0 then some 0
  else match w.2.2.2 with
    | some n => some n
    | none =>
      if t.gone.contains w.2.2.1 || t.state == 4 || t.state == 5 then some ((s.who w.2.1 w.2.2.1).order + 1) else none

/-- Has all that a context issued before a bundle retired, the k-th squash itself apart? -/
def issuedDone (s : State) (k tid rank lim : Nat) : Bool :=
  let mine (t r o : Nat) : Bool := t == tid && r == rank && decide (o < lim)
  let cmd (q : SqCmd) : Bool := mine q.tid q.rank q.order
  s.dies.all (fun d => d.2.engines.all (fun e => e.2.packets.all (fun p => !(p.cpost && mine p.tid p.rank p.order)))) &&
  s.claims.all (fun c => c.cancelled || !mine c.tid c.rank c.order || s.qheads.any (fun h => h.1 == c.line && h.2.launch)) && s.anise.all (fun q => !cmd q) &&
  (s.squashes.eraseIdx k).all (fun z => !cmd z.cmd) && s.walks.all (fun q => !cmd q) &&
  s.cores.all (fun g => g.2.clove.all (fun q => !cmd q) && g.2.samp.all (fun q => !mine q.tid q.rank q.order)) &&
  s.frames.all (fun f => f.2.clove.all (fun q => !cmd q) && f.2.samp.all (fun q => !mine q.tid q.rank q.order))

/-- Have the cancellations of a squash taken effect (R306): every packet that it has cancelled has its stamp? -/
def cancelsDone (s : State) (q : Squash) : Bool :=
  let seq := fieldOf q.cmd.a 47 8
  let a := min q.cmd.b.toNat 255
  s.dies.all (fun d => d.2.engines.all (fun e => e.2.packets.all (fun p => !(p.phase == .stamp 7 && p.deeper q.cmd.asid seq a)))) &&
  q.slots.all (fun x => !(s.engine x.1 x.2.1).cancels.contains x.2.2) &&
  s.dies.all (fun d => d.2.engines.all (fun e => e.2.unread.all (fun u => !(u.asid == q.cmd.asid && u.seq == seq && u.depth == a)) ))

/-- SQUASH_TOKEN_DONE: the k-th squash retires when its cancellations have taken effect and every drafter context and its earlier work are
done, which then lie before the token (R306). -/
def squashTokenDone (s : State) (k : Nat) : State :=
  match s.squashes[k]? with
  | none => s
  | some q =>
    let ag : Agent := .anise (aniseDie s q.cmd)
    if cancelsDone s q && q.waits.all (fun w => match squashSeen s w with | none => false | some n => n == 0 || issuedDone s k w.2.1 w.2.2.1 n) then
      retireCmd ((({ s with squashes := s.squashes.eraseIdx k } : State)).raise ag (q.waits.foldl (fun t w => max t (s.taskTs w.2.1)) 0)) ag q.cmd
    else s

end Sys2Proof.Machine
end

