-- ==== Sys2Proof/Machine/Command.lean ====
section
/-! DEFINITION. The dispatch commands (14_dispatch.md R318, R320, R322, R323, R325, R329-R332): each is the head of its die's command list,
performed when no event is held for the ring; its outcome goes to DSTAT. -/

namespace Sys2Proof.Machine

/-- The head command has been performed: it leaves the list, and DSTAT names its outcome. -/
def endCmd (s : State) (die : Nat) (q : DCmd) (code : Nat) : State :=
  s.modDie die (fun d => { d with dcmd := d.dcmd.drop 1, dstat := BitVec.ofNat 64 (q.op * 2 ^ 60 + q.tid % 4096 * 2 ^ 48 + code * 2 ^ 40) })

/-- BIND (R320): refused with its code, or performed; it stays the head while its installation waits for a page. -/
def doBind (s : State) (die : Nat) (q : DCmd) : State :=
  match namedRec s die q.arg with
  | none => endCmd s die q 1
  | some r =>
    let code := bindCode s q.tid r false
    if code ≠ 0 then endCmd s die q code
    else match bindGo s q.tid r with
      | none => s
      | some s' =>
        if (s'.die die).recs.any (fun x => x.serial == r.serial && x.wait) then s' else endCmd s' die q 0

/-- ARM (R322): one TID at a time on a registered queue; the task entry must be free. -/
def doArm (s : State) (die : Nat) (q : DCmd) : State :=
  let n := q.arg / 2 ^ 40 % 256
  match (s.die die).lq n with
  | none => endCmd s die q 1
  | some l =>
    if l.armed.isSome || (s.task q.tid).state != 0 then endCmd s die q 1
    else endCmd ((s.modLq die n (fun x => { x with armed := some q.tid })).modTask q.tid (fun t => { t with state := 1 })) die q 0

/-- PREEMPT (R325): a save of a bound task. With a save that began in the same cycle it makes one, with its cause (R332); code 1 for a task that is
not bound or was being saved already. -/
def doPreempt (s : State) (die : Nat) (q : DCmd) : State :=
  let t := s.task q.tid
  if t.state = 2 ∨ (t.state = 3 ∧ s.taskCycle q.tid ≤ t.saveAt + 1) then endCmd (s.beginSave q.tid 1 none) die q 0 else endCmd s die q 1

/-- RESTORE (R329); it waits while the frames cannot be reached (17_reliability.md R392). -/
def doRestore (s : State) (die : Nat) (q : DCmd) : State :=
  let code := restoreCode s q.tid
  if code ≠ 0 then endCmd s die q code
  else if (s.frames.filter (fun f => f.2.tid == q.tid)).any (fun f => !s.reach die (frameAt s q.tid (f.1 % 2048))) then s
  else endCmd (restoreGo s q.tid) die q 0

/-- KILL (R330), with the stamp KILL (11). -/
def doKill (s : State) (die : Nat) (q : DCmd) : State :=
  let t := s.task q.tid
  if t.state = 2 ∨ t.state = 3 ∨ t.state = 4 then endCmd (s.beginKill q.tid 11) die q 0 else endCmd s die q 1

/-- YIELD (R323): the ACTIVE context of the named core gives up issue at its next bundle boundary. -/
def doYield (s : State) (die : Nat) (q : DCmd) : State :=
  let g := q.arg % 512
  endCmd (if g < 320 ∧ (s.core g).active.isSome = true then s.modCore g (fun x => { x with yields := true }) else s) die q 0

/-- CANCEL (R331). -/
def doCancel (s : State) (die : Nat) (q : DCmd) : State :=
  let (s, code) := cancelRec s die q.arg
  endCmd s die q code

/-- The head command of a die is performed if it is the one that the step names, and no event is held (R318). -/
def perform (s : State) (die op : Nat) : State :=
  match (s.die die).dcmd with
  | [] => s
  | q :: _ =>
    if q.op ≠ op ∨ (s.die die).events.isEmpty = false then s
    else match op with
      | 1 => doBind s die q
      | 2 => doArm s die q
      | 3 => doPreempt s die q
      | 4 => doRestore s die q
      | 5 => doKill s die q
      | 6 => doYield s die q
      | _ => doCancel s die q

/-- A write of DCMD (R318): ignored for OP 0 and 8 to 15, dropped when 16 wait. -/
def dcmdWrite (s : State) (die : Nat) (v : W64) : State :=
  let op := fieldOf v 63 60
  if op = 0 ∨ 7 < op ∨ 16 ≤ (s.die die).dcmd.length then s
  else s.modDie die (fun d => { d with dcmd := d.dcmd ++ [⟨op, fieldOf v 59 48, fieldOf v 47 0⟩] })

end Sys2Proof.Machine
end

