-- ==== Sys2Proof/Machine/Faults.lean ====
section
/-! DEFINITION. The fault ring, FRESUME, and TLB invalidation (16_faults.md R354, R360-R369), and page walks as steps of their own. -/

namespace Sys2Proof.Machine

/-! ### Fault records (R363, R364) -/

/-- The next fault identifier, 0x000 to 0xFFE, that is not outstanding, after the last one given (R364, R366; DESIGN CHOICE, log entry 24). -/
def Die.freeFid (d : Die) : Option Nat :=
  ((List.range 4095).map (fun n => (d.fidNext + n) % 4095)).find? (fun n => !d.faults.any (fun f => f.fid == some n))

/-- FAULT_RECORD_WRITE: the oldest held fault of a die receives an identifier and its record is written, when there is room (R364) and the ring can be reached (17_reliability.md R392). -/
def faultRecord (s : State) (die : Nat) : State :=
  let d := s.die die
  match d.faults.findIdx? (fun f => f.fid.isNone), d.freeFid with
  | some k, some fid =>
    match d.faults[k]? with
    | some f =>
      if d.frRoom && s.reach die d.frAt then (putRecord s die f fid).modDie die (fun d => { d with faults := d.faults.set k { f with fid := some fid }, fidNext := (fid + 1) % 4095 }) else s
    | none => s
  | _, _ => s

/-- A notice of an access from outside (R362, R363). -/
def notice (s : State) (die agent asid va : Nat) (acc : Acc) (lvl : Nat) : State :=
  putNotice s die ⟨none, agent, va % 2 ^ 48, asid, acc.code, false, lvl, 0xFFF, 0, 0, 0, false⟩

/-! ### FRESUME (R365-R367, R371, R373) -/

/-- Every list entry that waits is changed where a test names it. -/
def resumeIn {α : Type} (l : List α) (p : α → Bool) (f : α → α) : List α := l.map (fun x => if p x then f x else x)

/-- A CORE fault is answered (R367), unless its task is gone or being killed (R365): the last answer posts RESUMABLE with the number answered ERROR; ERROR makes the context take ACCESS
at its restore. -/
def resumeCore (s : State) (f : FaultRec) (err : Bool) : State :=
  let t := s.task f.tid
  if t.rec_ ≠ f.unit ∨ t.state < 2 ∨ 4 < t.state then s
  else
    let s := if err then s.modWho f.tid f.rank (fun x => { x with refused := some (sx48 f.va) }) else s
    let t := { t with faults := t.faults - 1, errors := if err then t.errors + 1 else t.errors }
    let s := s.setTask f.tid t
    if t.faults = 0 then postEvent s t.die 7 f.tid t.errors 0 else s

/-- A COPY fault is answered: the packet goes on from its slot, or ends with ACCESS (R365, R371). The fault of a packet that was killed names none. -/
def resumeCopy (s : State) (f : FaultRec) (err : Bool) : State :=
  s.mapPackets (fun p =>
    if p.serial ≠ f.unit ∨ p.stopped = false then p
    else if !err then { p with stopped := false }
    else match p.phase with
      | .stamp _ => { p with stopped := false, noStamp := true }
      | _ => { p with stopped := false, phase := .stamp 4, buf := [] })

/-- An ANISE fault is answered: a command starts again or fails with ACCESS; a block's exit from quarantine is tried again, or its block
stays (R267, R365). -/
def resumeAnise (s : State) (die : Nat) (f : FaultRec) (err : Bool) : State :=
  match s.anise.find? (fun q => q.serial == f.unit && q.stopped) with
  | some q => if err then aniseQuit s q die 10 else { s with anise := resumeIn s.anise (fun x => x.serial == q.serial) (fun x => { x with stopped := false }) }
  | none => s.modDie die (fun d => { d with quars := resumeIn d.quars (fun x => x.serial == f.unit) (fun x => { x with fault := false, stuck := err }) })

/-- A CLOVE fault is answered (R365), in whichever unit the command stands now, or in the frame that it was put back into (12_grammar.md R288):
its accesses follow the timestamp `t` (R366). -/
def resumeClove (s : State) (f : FaultRec) (err : Bool) (t : Nat) : State :=
  let me (q : SqCmd) : Bool := q.serial == f.unit && q.stopped
  let go (l : List SqCmd) : List SqCmd := resumeIn l me (fun x => { x with stopped := false, ts := max x.ts t })
  match s.cores.find? (fun g => g.2.clove.any me) with
  | some (gn, g) =>
    if err then (g.clove.filter me).foldl (fun s q => cloveEnd s gn q 10) (s.raise (.clove gn) t) else s.modCore gn (fun g => { g with clove := go g.clove })
  | none => match s.frames.find? (fun x => x.2.clove.any me) with
    | some (_, x) =>
      if err then
        (x.clove.filter me).foldl (fun s q => let s := s.raise (.clove q.core) t; retireCmd (tryErr ⟨.clove q.core, dieOf q.core, q.asid, q.k⟩ (q.a.toNat + 48) 10 s) (.clove q.core) q)
          (s.modFrame x.tid x.ctx.rank (fun y => { y with clove := y.clove.filter (fun q => !me q) }))
      else s.modFrame x.tid x.ctx.rank (fun y => { y with clove := go y.clove })
    | none => s

/-- A WALKER fault is answered. -/
def resumeWalker (s : State) (f : FaultRec) (err : Bool) : State :=
  match s.walks.find? (fun q => q.serial == f.unit && q.stopped) with
  | some q => if err then walkEnd s f.who q 10 else { s with walks := resumeIn s.walks (fun x => x.serial == q.serial) (fun x => { x with stopped := false }) }
  | none => s

/-- A DISPATCH fault is answered: the read or write is tried again, or the record is refused with ACCESS (R365, R373). -/
def resumeDispatch (s : State) (die : Nat) (f : FaultRec) (err : Bool) : State :=
  match s.dwrites.find? (fun w => w.serial == f.unit) with
  | some w =>
    let s := { s with dwrites := s.dwrites.filter (fun x => x.serial != w.serial) }
    if !err then dispatchWrite s w else if w.stamp.isNone then refuseBound s w.die w.rec_ w.tid 4 else s
  | none =>
    let s := s.modDie die (fun d => { d with
      lqs := resumeIn d.lqs (fun q => q.serial == f.unit && q.stall) (fun q => { q with stall := false, failed := err })
      recs := resumeIn d.recs (fun r => r.serial == f.unit && r.wait) (fun r => { r with wait := false, failed := err }) })
    let t := s.task f.tid
    if t.rec_ ≠ f.unit ∨ t.wait = false then s
    else
      let s := s.modTask f.tid (fun t => { t with wait := false })
      if err then refuseBound s t.die t.rec_ f.tid 4 else s

/-- The agent that an answer resumes, a Clove unit apart, whose command says where it stands; a core's context comes back through the dispatch hardware of its task's die (R367). -/
def resumedAgent (s : State) (die : Nat) (f : FaultRec) : Agent :=
  match f.agent with
  | 1 => .dispatch (s.task f.tid).die
  | 2 => .copy (f.who / 2 ^ 20) (f.who / 2 ^ 14 % 64)
  | 3 => .anise die
  | 5 => .walker f.who
  | _ => .dispatch die

/-- FRESUME of a die (R365): an identifier that is not outstanding sets BADR; else it is freed, and the agent goes on as OUT
says; its accesses follow the stores of the die's system and management cores before the write (R366). -/
def fresume (s : State) (die fid : Nat) (err : Bool) : State :=
  match (s.die die).faults.find? (fun f => f.fid == some fid) with
  | none => s.modDie die (fun d => { d with badr := true })
  | some f =>
    let s := s.modDie die (fun d => { d with faults := d.faults.filter (fun x => x.fid != some fid) })
    let t := (List.range 9).foldl (fun m h => max m (s.ptsOf (.hart die h))) 0
    let s := s.raise (resumedAgent s die f) t
    match f.agent with
    | 1 => resumeCore s f err
    | 2 => resumeCopy s f err
    | 3 => resumeAnise s die f err
    | 4 => resumeClove s f err t
    | 5 => resumeWalker s f err
    | _ => resumeDispatch s die f err

/-- A write of FRESUME: OUT 1 FILLED, 2 ERROR; 0 and 3 are ignored (R354). -/
def fresumeWrite (s : State) (die : Nat) (v : W64) : State :=
  match fieldOf v 63 62 with
  | 1 => fresume s die (fieldOf v 11 0) false
  | 2 => fresume s die (fieldOf v 11 0) true
  | _ => s

/-! ### TLBI (R361) -/

/-- Pages that a held translation covers, as a shift of the page number. -/
def Tlb.shift (t : Tlb) : Nat := match t.level with | 0 => (if pbit t.pte 63 then 4 else 0) | n => 9 * n

/-- Does an invalidation name a held translation? -/
def tlbiHits (v : W64) (t : Tlb) : Bool :=
  match fieldOf v 1 0 with
  | 0 => t.asid == fieldOf v 63 48 && t.vpn / 2 ^ t.shift == fieldOf v 47 12 / 2 ^ t.shift
  | 1 => t.asid == fieldOf v 63 48
  | _ => true

/-- A write of TLBI: it queues; a seventeenth stalls its writer (R361), which the model shows as a write that has not happened yet. -/
def tlbiWrite (s : State) (die : Nat) (v : W64) : State :=
  if 16 ≤ (s.die die).tlbi.length then s else s.modDie die (fun d => { d with tlbi := d.tlbi ++ [(v, false)] })

/-- Does a packet still have accesses to make with translations that it has (R361)? -/
def Packet.midLine (p : Packet) : Bool := p.phase == .payload && !p.stopped && decide (p.done < p.ahead)

/-- May an invalidation complete: every access translated before it can be performed, and no packet is inside a line (R361)? -/
def State.tlbiReady (s : State) : Bool :=
  s.ctxs.all (fun c => !s.stuck c.1) && s.dies.all (fun d => d.2.engines.all (fun e => e.2.packets.all (fun p => !p.midLine)))

/-- The latest of all agents' clocks: no access that has been performed lies later (R101). -/
def State.latest (s : State) : Nat := s.cores.foldl (fun t p => max t p.2.pts) (s.pts.foldl (fun t p => max t p.2) 0)

/-- TLBI_COMPLETE: the oldest invalidation of a die completes: every issued store is performed, no agent holds a translation of the named
pages, and SEQ rises (R361). A load that reads the raised SEQ lies after every access so far (R361, 19_ordering.md R411). -/
def tlbiDone (s : State) (die : Nat) : State :=
  match (s.die die).tlbi with
  | [] => s
  | (v, _) :: r =>
    if !s.tlbiReady then s
    else
      let s := s.ctxs.foldl (fun s c => if c.2.stores.isEmpty then s else flushStores s c.1) s
      let s : State := { s with tlbs := s.tlbs.filter (fun t => !tlbiHits v t) }
      s.modDie die (fun d => { d with tlbi := r, tlbSeq := (d.tlbSeq + 1) % 2 ^ 32, tlbTs := s.latest })

/-- Is the agent a copy engine with a packet inside a line, whose pages it has translated and holds until the line is done (R246, R371)? -/
def State.inLine (s : State) (a : Agent) : Bool :=
  s.dies.any (fun d => d.2.engines.any (fun e => decide (a = .copy d.1 e.1) && e.2.packets.any Packet.midLine))

/-- An agent drops its k-th held translation (R360), which a copy engine does not do inside a line of a packet. -/
def State.evictTlb (s : State) (k : Nat) : State :=
  match s.tlbs[k]? with
  | none => s
  | some t => if s.inLine t.agent then s else { s with tlbs := s.tlbs.eraseIdx k }

/-- PAGE_WALK by a die's walkers for its dispatch hardware's cache: A, and D for a write, are set in a leaf that allows the access; an
absent or refused walk leaves its reads alone (R358-R360). -/
def walkStep (s : State) (die asid va : Nat) (wr k : Bool) : State :=
  match translate s die (.dispatch die) asid va (if wr then .write else .read) k with
  | .ok _ _ s => s
  | .absent _ s => s
  | .refused s => s
  | .wait => s

end Sys2Proof.Machine
end

