-- ==== Sys2Proof/Machine/Sealing.lean ====
section
/-! DEFINITION. The sealing engine (02_bundle.md R52-R57). -/

namespace Sys2Proof.Machine

/-- Does the branch offset of a slot word stay inside an image of `len` bundles (R55, KIND 3)? -/
def targetOk (idx len : Nat) (i : Instr) : Bool :=
  let ok (o : Int) : Bool := decide (0 ≤ (idx : Int) + o) && decide ((idx : Int) + o < len)
  match i with
  | .brJmp _ o => ok o.toInt
  | .brCall _ o => ok o.toInt
  | .brLoop _ _ o => ok o.toInt
  | .brCrgnOpen o => ok o.toInt
  | _ => true

/-- The lowest KIND that a slot word meets by itself (R55). -/
def slotKind (idx len : Nat) (b : Bundle) (n : Nat) : Option Nat :=
  let w := slotWord b n
  let away : Bool := match decodeCell (slotAt n) ⟨w.extractLsb' 28 4, w.getLsbD 27⟩ (w.extractLsb' 21 6).toNat (w.extractLsb' 0 21) with
    | .ok i => w.extractLsb' 21 6 != 0 && !targetOk idx len i
    | .error _ => false
  match decodeSlot (slotAt n) w with
  | .ok _ => if away then some 3 else none
  | .error k => if away then some (min 3 k.code) else some k.code

/-- Is the LD slot a tile form? -/
def isTileForm : Instr → Bool
  | .ldTile _ _ _ _ | .stTile _ _ _ _ | .ldAcc _ _ _ _ _ | .stAcc _ _ _ _ _ => true
  | _ => false

/-- Does slot n break the bundle's composition (R38, R55, R213; KIND 6)? -/
def breaksBundle (b : Bundle) (n : Nat) : Bool :=
  let nonNop (k : Nat) : Bool := slotWord b k != 0
  let delay := match decodeSlot .br (slotWord b 0) with | .ok (.brDelay _) => true | _ => false
  let tile := match decodeSlot .ld (slotWord b 3) with | .ok i => isTileForm i | .error _ => false
  (delay && n != 0 && nonNop n && (List.range n).all (fun k => k == 0 || !nonNop k)) || (n == 5 && tile && nonNop 5)

/-- The first offence of a bundle: slot and KIND. -/
def bundleOffence (idx len : Nat) (b : Bundle) : Option (Nat × Nat) :=
  (List.range 8).findSome? (fun n => match slotKind idx len b n with
    | some k => some (n, k)
    | none => if breaksBundle b n then some (n, 6) else none)

/-- A bundle from its four words. -/
def bundleOf (ws : List W64) : Bundle := BitVec.ofNat 256 (packLanes 64 (ws.map (fun w => w.toNat)))

/-- Bundles of the code from index i on, each checked as it is copied (R55): the bundles, or the first offence with its bundle, slot and KIND. -/
def readCode (w : Via) (len a : Nat) : Nat → Nat → Eng (Except (Nat × Nat × Nat) (List Bundle))
  | 0, _ => pure (.ok [])
  | n + 1, i => do
    let ws ← eReads w (a + 32 * i) 4
    match bundleOffence i len (bundleOf ws) with
    | some (k, o) => pure (.error (i, k, o))
    | none => do
      let r ← readCode w len a n (i + 1)
      pure (r.map (fun l => bundleOf ws :: l))

/-- The lowest seal handle that is free, of 1 to 4,095 (R57; which of them is a DESIGN CHOICE, log entry 22). -/
def freeHandle (s : State) : Option Nat := (List.range 4095).findSome? (fun n => if s.seals.any (fun p => p.1 == n + 1) then none else some (n + 1))

/-- The seal report (R56): HANDLE first, word 0 last; nothing while its home is out of reach (17_reliability.md R392). A report that cannot be
written at all, or whose place is not 16-byte aligned (R54), is left out, and a sealed image stays sealed (DESIGN CHOICE, log entry 22). -/
def sealReport (s : State) (w : Via) (rpt status slot kind bundle handle : Nat) : Option State :=
  if rpt % 16 ≠ 0 then some s
  else match (do eWrite w (rpt + 8) (BitVec.ofNat 64 handle)
                 eWrite w rpt (BitVec.ofNat 64 (status * 2 ^ 62 + slot * 2 ^ 59 + kind * 2 ^ 56 + bundle)) : Eng Unit).on s with
  | .ok (_, s) => some s
  | .error e => if e.halt = .wait then none else some (s.after w.agent e)

/-- A write of SEALSUB (R53): an aligned address queues; a full queue drops it and sets OVF. -/
def sealSubmit (s : State) (die asid : Nat) (v : W64) : State :=
  if v.toNat % 64 ≠ 0 then s
  else if 16 ≤ (s.die die).sealQueue.length then s.modDie die (fun d => { d with sealOvf := true })
  else s.modDie die (fun d => { d with sealQueue := d.sealQueue ++ [(v.toNat, asid)] })

/-- A seal request with its words (R54-R57): the state after its report; nothing while it waits for a link (17_reliability.md R392). -/
def sealWords (s : State) (w : Via) (ws : List W64) : Option State :=
  let src := (wordAt ws 0).toNat
  let len := fieldOf (wordAt ws 1) 31 0
  let rpt := (wordAt ws 2).toNat
  match freeHandle s with
  | none => sealReport s w rpt 3 0 2 0 0
  | some h =>
    if src % 32 ≠ 0 ∨ len = 0 ∨ 524288 < len then sealReport s w rpt 3 0 1 0 0
    else match (readCode w len src len 0).on s with
      | .error e => if e.halt = .wait then none else sealReport (s.after w.agent e) w rpt 3 0 1 0 0
      | .ok (.error (i, n, k), s) => sealReport s w rpt 2 n k i 0
      | .ok (.ok code, s) => sealReport { s with seals := SMap.put (SMap.del s.seals h) h ⟨code, false⟩ } w rpt 1 0 0 0 h

/-- A seal request at an address: its ASID stands in the request itself, so that field alone is found under the ASID of the writer of SEALSUB,
and then the request is read under its own (R54; DEDUCED, log entry 46). A poisoned word of a request is reported with STATUS 3 (17_reliability.md
R377), under the writer's ASID where the word with the ASID is the poisoned one; a request that cannot be read, or whose RPT is poisoned, ends
without a report (DESIGN CHOICE, log entry 22). -/
def sealTry (s : State) (die va asid : Nat) : Option State :=
  let stop (s : State) (e : Stop) : Option State := if e.halt = .wait then none else some (s.after (.seal die) e)
  match (cReadIn ⟨.seal die, die, asid, false⟩ (va + 8) 8).on s with
  | .error e => stop s e
  | .ok (x, s) =>
    let w : Via := ⟨.seal die, die, if x.2.1 then asid else fieldOf (BitVec.ofNat 64 x.1) 47 32, false⟩
    match (do let a ← cReadIn w va 8
              let r ← cReadIn w (va + 16) 8
              pure (a, r) : Eng ((Nat × Bool × Bool) × (Nat × Bool × Bool))).on s with
    | .error e => stop s e
    | .ok ((a, r), s) =>
      if r.2.1 then some s
      else if x.2.1 || a.2.1 then sealReport s w r.1 3 0 1 0 0
      else sealWords s w ([a.1, x.1, r.1].map (BitVec.ofNat 64))

/-- SEAL_REQUEST: the oldest request of a die is performed (R54-R57), or waits for a link (17_reliability.md R392). -/
def sealPerform (s : State) (die : Nat) : State :=
  match (s.die die).sealQueue with
  | [] => s
  | (va, asid) :: r => (sealTry (s.modDie die (fun d => { d with sealQueue := r })) die va asid).getD s

/-- SEALREL (R57): the record is released; it is freed when no bound or saved task uses it. -/
def sealRelease (s : State) (v : W64) : State :=
  let h := fieldOf v 11 0
  freeSeals { s with seals := s.seals.map (fun p => if p.1 = h then (p.1, { p.2 with released := true }) else p) }

end Sys2Proof.Machine
end

