-- ==== Sys2Proof/Machine/Single.lean ====
section
/-! DEFINITION. A slot instruction that stands alone in its bundle, for the ACTIVE context of the core in focus (DESIGN CHOICE, log entry 4). -/

namespace Sys2Proof.Machine

/-- The next state of a slot instruction that stands alone in its bundle: nothing happens where no context is ACTIVE. -/
def issueOne (o : SlotOp) (s : State) : Host.Outcome State Fault Refusal :=
  match s.acting with
  | none => .next s
  | some c => .next (settleIssue (issueSlots c [o] s))

end Sys2Proof.Machine
end

