-- ==== Sys2Proof/Machine/BrRows.lean ====
section
/-! DEFINITION. The rows of the control engine (05_control.md): each as a slot of a bundle, and its meaning alone in a bundle. -/

namespace Sys2Proof.Machine

/-- `br.nop` (R37). -/
def rowBrNop : SlotOp := ⟨0, always, noAccess, opNop⟩
/-- `br.nop` alone in its bundle: no effect (R37). -/
def execBrNop (s : State) : Host.Outcome State Fault Refusal := issueOne rowBrNop s

/-- `br.jmp` (R134) as a slot of a bundle. -/
def rowBrJmp (g : Guard) (o : BitVec 21) : SlotOp := ⟨0, g, noAccess, opBrJmp g o⟩
/-- `br.jmp` (R134) alone in its bundle. -/
def execBrJmp (g : Guard) (o : BitVec 21) (s : State) : Host.Outcome State Fault Refusal := issueOne (rowBrJmp g o) s

/-- `br.call` (R134) as a slot of a bundle. -/
def rowBrCall (g : Guard) (o : BitVec 21) : SlotOp := ⟨0, g, noAccess, opBrCall g o⟩
/-- `br.call` (R134) alone in its bundle. -/
def execBrCall (g : Guard) (o : BitVec 21) (s : State) : Host.Outcome State Fault Refusal := issueOne (rowBrCall g o) s

/-- `br.jmpr` (R134) as a slot of a bundle. -/
def rowBrJmpr (g : Guard) (a : BitVec 6) : SlotOp := ⟨0, g, noAccess, opBrJmpr a⟩
/-- `br.jmpr` (R134) alone in its bundle. -/
def execBrJmpr (g : Guard) (a : BitVec 6) (s : State) : Host.Outcome State Fault Refusal := issueOne (rowBrJmpr g a) s

/-- `br.ret` (R134) as a slot of a bundle. -/
def rowBrRet (g : Guard) : SlotOp := ⟨0, g, noAccess, opBrRet⟩
/-- `br.ret` (R134) alone in its bundle. -/
def execBrRet (g : Guard) (s : State) : Host.Outcome State Fault Refusal := issueOne (rowBrRet g) s

/-- `br.loop` (R135) as a slot of a bundle. -/
def rowBrLoop (g : Guard) (l : BitVec 2) (o : BitVec 19) : SlotOp := ⟨0, g, noAccess, opBrLoop g l o⟩
/-- `br.loop` (R135) alone in its bundle. -/
def execBrLoop (g : Guard) (l : BitVec 2) (o : BitVec 19) (s : State) : Host.Outcome State Fault Refusal := issueOne (rowBrLoop g l o) s

/-- `br.lset` (R135) as a slot of a bundle. -/
def rowBrLset (g : Guard) (l : BitVec 2) (a : BitVec 6) : SlotOp := ⟨0, g, noAccess, opBrLset l a⟩
/-- `br.lset` (R135) alone in its bundle. -/
def execBrLset (g : Guard) (l : BitVec 2) (a : BitVec 6) (s : State) : Host.Outcome State Fault Refusal := issueOne (rowBrLset g l a) s

/-- `br.delay` (R38) as a slot of a bundle. -/
def rowBrDelay (n : BitVec 16) : SlotOp := ⟨0, always, noAccess, opBrDelay n⟩
/-- `br.delay` (R38) alone in its bundle. -/
def execBrDelay (n : BitVec 16) (s : State) : Host.Outcome State Fault Refusal := issueOne (rowBrDelay n) s

/-- `br.waita` (R137) as a slot of a bundle. -/
def rowBrWaita (g : Guard) (a b : BitVec 6) (cd : BitVec 3) : SlotOp := ⟨0, g, wordAccess a 8 .read, opBrWaita a b cd⟩
/-- `br.waita` (R137) alone in its bundle. -/
def execBrWaita (g : Guard) (a b : BitVec 6) (cd : BitVec 3) (s : State) : Host.Outcome State Fault Refusal := issueOne (rowBrWaita g a b cd) s

/-- `br.tokw` (R139) as a slot of a bundle. -/
def rowBrTokw (g : Guard) (k : BitVec 5) : SlotOp := ⟨0, g, noAccess, opBrTokw k⟩
/-- `br.tokw` (R139) alone in its bundle. -/
def execBrTokw (g : Guard) (k : BitVec 5) (s : State) : Host.Outcome State Fault Refusal := issueOne (rowBrTokw g k) s

/-- `br.pload` (R142) as a slot of a bundle. -/
def rowBrPload (g : Guard) (a : BitVec 6) : SlotOp := ⟨0, g, wordAccess a 8 .read, opBrPload a⟩
/-- `br.pload` (R142) alone in its bundle. -/
def execBrPload (g : Guard) (a : BitVec 6) (s : State) : Host.Outcome State Fault Refusal := issueOne (rowBrPload g a) s

/-- `br.early` (R143) as a slot of a bundle. -/
def rowBrEarly (g : Guard) : SlotOp := ⟨0, g, noAccess, opBrEarly⟩
/-- `br.early` (R143) alone in its bundle. -/
def execBrEarly (g : Guard) (s : State) : Host.Outcome State Fault Refusal := issueOne (rowBrEarly g) s

/-- `br.exit` (R143) as a slot of a bundle. -/
def rowBrExit (g : Guard) : SlotOp := ⟨0, g, noAccess, opBrExit⟩
/-- `br.exit` (R143) alone in its bundle. -/
def execBrExit (g : Guard) (s : State) : Host.Outcome State Fault Refusal := issueOne (rowBrExit g) s

/-- `br.sys` (R145) as a slot of a bundle. -/
def rowBrSys (g : Guard) (n : BitVec 15) : SlotOp := ⟨0, g, noAccess, opBrSys n⟩
/-- `br.sys` (R145) alone in its bundle. -/
def execBrSys (g : Guard) (n : BitVec 15) (s : State) : Host.Outcome State Fault Refusal := issueOne (rowBrSys g n) s

/-- `br.tret` (R148) as a slot of a bundle. -/
def rowBrTret (g : Guard) : SlotOp := ⟨0, g, noAccess, opBrTret⟩
/-- `br.tret` (R148) alone in its bundle. -/
def execBrTret (g : Guard) (s : State) : Host.Outcome State Fault Refusal := issueOne (rowBrTret g) s

/-- `br.crgn.open` (R150) as a slot of a bundle. -/
def rowBrCrgnOpen (o : BitVec 21) : SlotOp := ⟨0, always, noAccess, opBrCrgnOpen o⟩
/-- `br.crgn.open` (R150) alone in its bundle. -/
def execBrCrgnOpen (o : BitVec 21) (s : State) : Host.Outcome State Fault Refusal := issueOne (rowBrCrgnOpen o) s

/-- `br.crgn.close` (R150) as a slot of a bundle. -/
def rowBrCrgnClose : SlotOp := ⟨0, always, noAccess, opBrCrgnClose⟩
/-- `br.crgn.close` (R150) alone in its bundle. -/
def execBrCrgnClose (s : State) : Host.Outcome State Fault Refusal := issueOne (rowBrCrgnClose) s

/-- `br.brk` (R145) as a slot of a bundle. -/
def rowBrBrk (g : Guard) (n : BitVec 15) : SlotOp := ⟨0, g, noAccess, opBrBrk n⟩
/-- `br.brk` (R145) alone in its bundle. -/
def execBrBrk (g : Guard) (n : BitVec 15) (s : State) : Host.Outcome State Fault Refusal := issueOne (rowBrBrk g n) s

/-- `br.bar` (R140) as a slot of a bundle. -/
def rowBrBar (g : Guard) (a : BitVec 6) : SlotOp := ⟨0, g, noAccess, opBrBar a⟩
/-- `br.bar` (R140) alone in its bundle. -/
def execBrBar (g : Guard) (a : BitVec 6) (s : State) : Host.Outcome State Fault Refusal := issueOne (rowBrBar g a) s

/-- `br.fevclr` (R152) as a slot of a bundle. -/
def rowBrFevclr (g : Guard) : SlotOp := ⟨0, g, noAccess, opBrFevclr⟩
/-- `br.fevclr` (R152) alone in its bundle. -/
def execBrFevclr (g : Guard) (s : State) : Host.Outcome State Fault Refusal := issueOne (rowBrFevclr g) s

end Sys2Proof.Machine
end

