-- ==== Sys2Proof/Machine/DxRows.lean ====
section
/-! DEFINITION. The rows of the exchange slot (08_trellis.md, 10_copy.md): each as a slot of a bundle, and its meaning alone in a bundle. -/

namespace Sys2Proof.Machine

/-- `dx.nop` (R37). -/
def rowDxNop : SlotOp := ⟨6, always, noAccess, opNop⟩
/-- `dx.nop` alone in its bundle: no effect (R37). -/
def execDxNop (s : State) : Host.Outcome State Fault Refusal := issueOne rowDxNop s

/-- `dx.cpost` (R241) as a slot of a bundle. -/
def rowDxCpost (g : Guard) (a b : BitVec 6) (k : BitVec 5) : SlotOp := ⟨6, g, wordAccess a 64 .rmw, opDxCpost a b k⟩
/-- `dx.cpost` (R241) alone in its bundle. -/
def execDxCpost (g : Guard) (a b : BitVec 6) (k : BitVec 5) (s : State) : Host.Outcome State Fault Refusal := issueOne (rowDxCpost g a b k) s

/-- `dx.kdep` (R242) as a slot of a bundle. -/
def rowDxKdep (g : Guard) (a b e : BitVec 5) : SlotOp := ⟨6, g, noAccess, opDxKdep a b e⟩
/-- `dx.kdep` (R242) alone in its bundle. -/
def execDxKdep (g : Guard) (a b e : BitVec 5) (s : State) : Host.Outcome State Fault Refusal := issueOne (rowDxKdep g a b e) s

/-- `dx.aqpop` (R243) as a slot of a bundle. -/
def rowDxAqpop (g : Guard) (d : BitVec 6) : SlotOp := ⟨6, g, noAccess, opDxAqpop d⟩
/-- `dx.aqpop` (R243) alone in its bundle. -/
def execDxAqpop (g : Guard) (d : BitVec 6) (s : State) : Host.Outcome State Fault Refusal := issueOne (rowDxAqpop g d) s

/-- `dx.qcfg.cfg` (R244) as a slot of a bundle. -/
def rowDxQcfgCfg (g : Guard) (q : BitVec 3) (a : BitVec 6) : SlotOp := ⟨6, g, noAccess, opDxQcfgCfg q a⟩
/-- `dx.qcfg.cfg` (R244) alone in its bundle. -/
def execDxQcfgCfg (g : Guard) (q : BitVec 3) (a : BitVec 6) (s : State) : Host.Outcome State Fault Refusal := issueOne (rowDxQcfgCfg g q a) s

/-- `dx.qcfg.cal` (R244) as a slot of a bundle. -/
def rowDxQcfgCal (g : Guard) (q : BitVec 3) (a : BitVec 6) : SlotOp := ⟨6, g, noAccess, opDxQcfgCal q a⟩
/-- `dx.qcfg.cal` (R244) alone in its bundle. -/
def execDxQcfgCal (g : Guard) (q : BitVec 3) (a : BitVec 6) (s : State) : Host.Outcome State Fault Refusal := issueOne (rowDxQcfgCal g q a) s

/-- `dx.qcfg.key` (R244) as a slot of a bundle. -/
def rowDxQcfgKey (g : Guard) (q : BitVec 3) (a : BitVec 6) : SlotOp := ⟨6, g, noAccess, opDxQcfgKey q a⟩
/-- `dx.qcfg.key` (R244) alone in its bundle. -/
def execDxQcfgKey (g : Guard) (q : BitVec 3) (a : BitVec 6) (s : State) : Host.Outcome State Fault Refusal := issueOne (rowDxQcfgKey g q a) s

/-- `dx.qcfg.ctr` (R244) as a slot of a bundle. -/
def rowDxQcfgCtr (g : Guard) (q : BitVec 3) (a : BitVec 6) : SlotOp := ⟨6, g, noAccess, opDxQcfgCtr q a⟩
/-- `dx.qcfg.ctr` (R244) alone in its bundle. -/
def execDxQcfgCtr (g : Guard) (q : BitVec 3) (a : BitVec 6) (s : State) : Host.Outcome State Fault Refusal := issueOne (rowDxQcfgCtr g q a) s

/-- `dx.qstep` (R81) as a slot of a bundle. -/
def rowDxQstep (g : Guard) (q : BitVec 3) (a : BitVec 6) : SlotOp := ⟨6, g, noAccess, opDxQstep q a⟩
/-- `dx.qstep` (R81) alone in its bundle. -/
def execDxQstep (g : Guard) (q : BitVec 3) (a : BitVec 6) (s : State) : Host.Outcome State Fault Refusal := issueOne (rowDxQstep g q a) s

/-- `dx.qstep.wsat` (R244) as a slot of a bundle. -/
def rowDxQstepWsat (g : Guard) (q : BitVec 3) (a : BitVec 6) : SlotOp := ⟨6, g, noAccess, opDxQstepWsat q a⟩
/-- `dx.qstep.wsat` (R244) alone in its bundle. -/
def execDxQstepWsat (g : Guard) (q : BitVec 3) (a : BitVec 6) (s : State) : Host.Outcome State Fault Refusal := issueOne (rowDxQstepWsat g q a) s

/-- `dx.qstep.flush` (R244) as a slot of a bundle. -/
def rowDxQstepFlush (g : Guard) (q : BitVec 3) (a : BitVec 6) : SlotOp := ⟨6, g, noAccess, opDxQstepFlush q a⟩
/-- `dx.qstep.flush` (R244) alone in its bundle. -/
def execDxQstepFlush (g : Guard) (q : BitVec 3) (a : BitVec 6) (s : State) : Host.Outcome State Fault Refusal := issueOne (rowDxQstepFlush g q a) s

/-- `dx.qrd.cfg` (R244) as a slot of a bundle. -/
def rowDxQrdCfg (g : Guard) (q : BitVec 3) (d : BitVec 6) : SlotOp := ⟨6, g, noAccess, opDxQrdCfg q d⟩
/-- `dx.qrd.cfg` (R244) alone in its bundle. -/
def execDxQrdCfg (g : Guard) (q : BitVec 3) (d : BitVec 6) (s : State) : Host.Outcome State Fault Refusal := issueOne (rowDxQrdCfg g q d) s

/-- `dx.qrd.cal` (R244) as a slot of a bundle. -/
def rowDxQrdCal (g : Guard) (q : BitVec 3) (d : BitVec 6) : SlotOp := ⟨6, g, noAccess, opDxQrdCal q d⟩
/-- `dx.qrd.cal` (R244) alone in its bundle. -/
def execDxQrdCal (g : Guard) (q : BitVec 3) (d : BitVec 6) (s : State) : Host.Outcome State Fault Refusal := issueOne (rowDxQrdCal g q d) s

/-- `dx.qrd.amax` (R244) as a slot of a bundle. -/
def rowDxQrdAmax (g : Guard) (q : BitVec 3) (d : BitVec 6) : SlotOp := ⟨6, g, noAccess, opDxQrdAmax q d⟩
/-- `dx.qrd.amax` (R244) alone in its bundle. -/
def execDxQrdAmax (g : Guard) (q : BitVec 3) (d : BitVec 6) (s : State) : Host.Outcome State Fault Refusal := issueOne (rowDxQrdAmax g q d) s

/-- `dx.qrd.sat` (R244) as a slot of a bundle. -/
def rowDxQrdSat (g : Guard) (q : BitVec 3) (d : BitVec 6) : SlotOp := ⟨6, g, noAccess, opDxQrdSat q d⟩
/-- `dx.qrd.sat` (R244) alone in its bundle. -/
def execDxQrdSat (g : Guard) (q : BitVec 3) (d : BitVec 6) (s : State) : Host.Outcome State Fault Refusal := issueOne (rowDxQrdSat g q d) s

/-- `dx.mdec` (R197) as a slot of a bundle. -/
def rowDxMdec (g : Guard) (b : BitVec 6) (t q : BitVec 3) (k : BitVec 5) : SlotOp := ⟨6, g, noAccess, opDxMdec b t q k⟩
/-- `dx.mdec` (R197) alone in its bundle. -/
def execDxMdec (g : Guard) (b : BitVec 6) (t q : BitVec 3) (k : BitVec 5) (s : State) : Host.Outcome State Fault Refusal := issueOne (rowDxMdec g b t q k) s

/-- `dx.tdef.wa` (R196) as a slot of a bundle. -/
def rowDxTdefWa (g : Guard) (t : BitVec 3) (a : BitVec 6) : SlotOp := ⟨6, g, noAccess, opDxTdefWa t a⟩
/-- `dx.tdef.wa` (R196) alone in its bundle. -/
def execDxTdefWa (g : Guard) (t : BitVec 3) (a : BitVec 6) (s : State) : Host.Outcome State Fault Refusal := issueOne (rowDxTdefWa g t a) s

/-- `dx.tdef.wb` (R196) as a slot of a bundle. -/
def rowDxTdefWb (g : Guard) (t : BitVec 3) (a : BitVec 6) : SlotOp := ⟨6, g, noAccess, opDxTdefWb t a⟩
/-- `dx.tdef.wb` (R196) alone in its bundle. -/
def execDxTdefWb (g : Guard) (t : BitVec 3) (a : BitVec 6) (s : State) : Host.Outcome State Fault Refusal := issueOne (rowDxTdefWb g t a) s

/-- `dx.tdef.ra` (R196) as a slot of a bundle. -/
def rowDxTdefRa (g : Guard) (t : BitVec 3) (a : BitVec 6) : SlotOp := ⟨6, g, noAccess, opDxTdefRa t a⟩
/-- `dx.tdef.ra` (R196) alone in its bundle. -/
def execDxTdefRa (g : Guard) (t : BitVec 3) (a : BitVec 6) (s : State) : Host.Outcome State Fault Refusal := issueOne (rowDxTdefRa g t a) s

/-- `dx.tdef.rb` (R196) as a slot of a bundle. -/
def rowDxTdefRb (g : Guard) (t : BitVec 3) (a : BitVec 6) : SlotOp := ⟨6, g, noAccess, opDxTdefRb t a⟩
/-- `dx.tdef.rb` (R196) alone in its bundle. -/
def execDxTdefRb (g : Guard) (t : BitVec 3) (a : BitVec 6) (s : State) : Host.Outcome State Fault Refusal := issueOne (rowDxTdefRb g t a) s

/-- `dx.tload` (R199) as a slot of a bundle. -/
def rowDxTload (g : Guard) (a b : BitVec 6) (k : BitVec 5) : SlotOp := ⟨6, g, noAccess, opDxTload a b k⟩
/-- `dx.tload` (R199) alone in its bundle. -/
def execDxTload (g : Guard) (a b : BitVec 6) (k : BitVec 5) (s : State) : Host.Outcome State Fault Refusal := issueOne (rowDxTload g a b k) s

end Sys2Proof.Machine
end

