-- ==== Sys2Proof/Machine/LdRows.lean ====
section
/-! DEFINITION. The rows of the LD slot (06_scratchpad.md): each as a slot of a bundle, and its meaning alone in a bundle. -/

namespace Sys2Proof.Machine

/-- `ld.nop` (R37). -/
def rowLdNop : SlotOp := ⟨3, always, noAccess, opNop⟩
/-- `ld.nop` alone in its bundle: no effect (R37). -/
def execLdNop (s : State) : Host.Outcome State Fault Refusal := issueOne rowLdNop s

/-- `ld.w` (R160) as a slot of a bundle. -/
def rowLdW (g : Guard) (d b : BitVec 6) (m : BitVec 2) (o : BitVec 7) : SlotOp := ⟨3, g, noAccess, opLdW d b m o⟩
/-- `ld.w` (R160) alone in its bundle. -/
def execLdW (g : Guard) (d b : BitVec 6) (m : BitVec 2) (o : BitVec 7) (s : State) : Host.Outcome State Fault Refusal := issueOne (rowLdW g d b m o) s

/-- `st.w` (R160) as a slot of a bundle. -/
def rowStW (g : Guard) (d b : BitVec 6) (m : BitVec 2) (o : BitVec 7) : SlotOp := ⟨3, g, noAccess, opStW d b m o⟩
/-- `st.w` (R160) alone in its bundle. -/
def execStW (g : Guard) (d b : BitVec 6) (m : BitVec 2) (o : BitVec 7) (s : State) : Host.Outcome State Fault Refusal := issueOne (rowStW g d b m o) s

/-- `ld.row` (R160) as a slot of a bundle. -/
def rowLdRow (g : Guard) (d b : BitVec 6) (m : BitVec 2) (o : BitVec 7) : SlotOp := ⟨3, g, noAccess, opLdRow d b m o⟩
/-- `ld.row` (R160) alone in its bundle. -/
def execLdRow (g : Guard) (d b : BitVec 6) (m : BitVec 2) (o : BitVec 7) (s : State) : Host.Outcome State Fault Refusal := issueOne (rowLdRow g d b m o) s

/-- `st.row` (R160) as a slot of a bundle. -/
def rowStRow (g : Guard) (d b : BitVec 6) (m : BitVec 2) (o : BitVec 7) : SlotOp := ⟨3, g, noAccess, opStRow d b m o⟩
/-- `st.row` (R160) alone in its bundle. -/
def execStRow (g : Guard) (d b : BitVec 6) (m : BitVec 2) (o : BitVec 7) (s : State) : Host.Outcome State Fault Refusal := issueOne (rowStRow g d b m o) s

/-- `ld.col` (R160) as a slot of a bundle. -/
def rowLdCol (g : Guard) (d b : BitVec 6) (m : BitVec 2) (o : BitVec 7) : SlotOp := ⟨3, g, noAccess, opLdCol d b m o⟩
/-- `ld.col` (R160) alone in its bundle. -/
def execLdCol (g : Guard) (d b : BitVec 6) (m : BitVec 2) (o : BitVec 7) (s : State) : Host.Outcome State Fault Refusal := issueOne (rowLdCol g d b m o) s

/-- `st.col` (R160) as a slot of a bundle. -/
def rowStCol (g : Guard) (d b : BitVec 6) (m : BitVec 2) (o : BitVec 7) : SlotOp := ⟨3, g, noAccess, opStCol d b m o⟩
/-- `st.col` (R160) alone in its bundle. -/
def execStCol (g : Guard) (d b : BitVec 6) (m : BitVec 2) (o : BitVec 7) (s : State) : Host.Outcome State Fault Refusal := issueOne (rowStCol g d b m o) s

/-- `ld.tile` (R161) as a slot of a bundle. -/
def rowLdTile (g : Guard) (t : BitVec 4) (b : BitVec 6) (m : BitVec 2) : SlotOp := ⟨3, g, noAccess, opLdTile t b m⟩
/-- `ld.tile` (R161) alone in its bundle. -/
def execLdTile (g : Guard) (t : BitVec 4) (b : BitVec 6) (m : BitVec 2) (s : State) : Host.Outcome State Fault Refusal := issueOne (rowLdTile g t b m) s

/-- `st.tile` (R161) as a slot of a bundle. -/
def rowStTile (g : Guard) (t : BitVec 4) (b : BitVec 6) (m : BitVec 2) : SlotOp := ⟨3, g, noAccess, opStTile t b m⟩
/-- `st.tile` (R161) alone in its bundle. -/
def execStTile (g : Guard) (t : BitVec 4) (b : BitVec 6) (m : BitVec 2) (s : State) : Host.Outcome State Fault Refusal := issueOne (rowStTile g t b m) s

/-- `ld.acc` (R162) as a slot of a bundle. -/
def rowLdAcc (g : Guard) (r b : BitVec 6) (m : BitVec 2) (n : BitVec 7) : SlotOp := ⟨3, g, noAccess, opLdAcc r b m n⟩
/-- `ld.acc` (R162) alone in its bundle. -/
def execLdAcc (g : Guard) (r b : BitVec 6) (m : BitVec 2) (n : BitVec 7) (s : State) : Host.Outcome State Fault Refusal := issueOne (rowLdAcc g r b m n) s

/-- `st.acc` (R162) as a slot of a bundle. -/
def rowStAcc (g : Guard) (r b : BitVec 6) (m : BitVec 2) (n : BitVec 7) : SlotOp := ⟨3, g, noAccess, opStAcc r b m n⟩
/-- `st.acc` (R162) alone in its bundle. -/
def execStAcc (g : Guard) (r b : BitVec 6) (m : BitVec 2) (n : BitVec 7) (s : State) : Host.Outcome State Fault Refusal := issueOne (rowStAcc g r b m n) s

/-- `ld.tagset.full` (R164) as a slot of a bundle. -/
def rowLdTagsetFull (g : Guard) (b n : BitVec 6) : SlotOp := ⟨3, g, noAccess, opLdTagsetFull b n⟩
/-- `ld.tagset.full` (R164) alone in its bundle. -/
def execLdTagsetFull (g : Guard) (b n : BitVec 6) (s : State) : Host.Outcome State Fault Refusal := issueOne (rowLdTagsetFull g b n) s

/-- `ld.tagset.empty` (R164) as a slot of a bundle. -/
def rowLdTagsetEmpty (g : Guard) (b n : BitVec 6) : SlotOp := ⟨3, g, noAccess, opLdTagsetEmpty b n⟩
/-- `ld.tagset.empty` (R164) alone in its bundle. -/
def execLdTagsetEmpty (g : Guard) (b n : BitVec 6) (s : State) : Host.Outcome State Fault Refusal := issueOne (rowLdTagsetEmpty g b n) s

end Sys2Proof.Machine
end

