-- ==== Sys2Proof/Machine/MxRows.lean ====
section
/-! DEFINITION. The rows of the matrix engine (09_matrix.md): each as a slot of a bundle, and its meaning alone in a bundle. -/

namespace Sys2Proof.Machine

/-- `mx.nop` (R37). -/
def rowMxNop : SlotOp := ⟨5, always, noAccess, opNop⟩
/-- `mx.nop` alone in its bundle: no effect (R37). -/
def execMxNop (s : State) : Host.Outcome State Fault Refusal := issueOne rowMxNop s

/-- `mx.mma` (R217) as a slot of a bundle. -/
def rowMxMma (g : Guard) (l : BitVec 2) (a : BitVec 4) (r : BitVec 6) (t : BitVec 3) (o : BitVec 2) : SlotOp := ⟨5, g, noAccess, opMxMma l a r t o⟩
/-- `mx.mma` (R217) alone in its bundle. -/
def execMxMma (g : Guard) (l : BitVec 2) (a : BitVec 4) (r : BitVec 6) (t : BitVec 3) (o : BitVec 2) (s : State) : Host.Outcome State Fault Refusal := issueOne (rowMxMma g l a r t o) s

/-- `mx.latq` (R218) as a slot of a bundle. -/
def rowMxLatq (g : Guard) (l : BitVec 2) (q : BitVec 3) : SlotOp := ⟨5, g, noAccess, opMxLatq l q⟩
/-- `mx.latq` (R218) alone in its bundle. -/
def execMxLatq (g : Guard) (l : BitVec 2) (q : BitVec 3) (s : State) : Host.Outcome State Fault Refusal := issueOne (rowMxLatq g l q) s

/-- `mx.latt` (R219) as a slot of a bundle. -/
def rowMxLatt (g : Guard) (l : BitVec 2) (a : BitVec 4) : SlotOp := ⟨5, g, noAccess, opMxLatt l a⟩
/-- `mx.latt` (R219) alone in its bundle. -/
def execMxLatt (g : Guard) (l : BitVec 2) (a : BitVec 4) (s : State) : Host.Outcome State Fault Refusal := issueOne (rowMxLatt g l a) s

/-- `mx.ttr` (R219) as a slot of a bundle. -/
def rowMxTtr (g : Guard) (d a : BitVec 4) : SlotOp := ⟨5, g, noAccess, opMxTtr d a⟩
/-- `mx.ttr` (R219) alone in its bundle. -/
def execMxTtr (g : Guard) (d a : BitVec 4) (s : State) : Host.Outcome State Fault Refusal := issueOne (rowMxTtr g d a) s

/-- `mx.accz` (R221) as a slot of a bundle. -/
def rowMxAccz (g : Guard) (r n : BitVec 6) : SlotOp := ⟨5, g, noAccess, opMxAccz r n⟩
/-- `mx.accz` (R221) alone in its bundle. -/
def execMxAccz (g : Guard) (r n : BitVec 6) (s : State) : Host.Outcome State Fault Refusal := issueOne (rowMxAccz g r n) s

/-- `mx.accq` (R222) as a slot of a bundle. -/
def rowMxAccq (g : Guard) (r n : BitVec 6) (q : BitVec 3) : SlotOp := ⟨5, g, noAccess, opMxAccq r n q⟩
/-- `mx.accq` (R222) alone in its bundle. -/
def execMxAccq (g : Guard) (r n : BitVec 6) (q : BitVec 3) (s : State) : Host.Outcome State Fault Refusal := issueOne (rowMxAccq g r n q) s

end Sys2Proof.Machine
end

