-- ==== Sys2Proof/Machine/SaRows.lean ====
section
/-! DEFINITION. The rows of the scalar engines (05_control.md): each as a slot of a bundle, and its meaning alone in a bundle. -/

namespace Sys2Proof.Machine

/-- `sa.nop` (R37). -/
def rowSaNop : SlotOp := ⟨1, always, noAccess, opNop⟩
/-- `sa.nop` alone in its bundle: no effect (R37). -/
def execSaNop (s : State) : Host.Outcome State Fault Refusal := issueOne rowSaNop s

/-- `sb.nop` (R37). -/
def rowSbNop : SlotOp := ⟨2, always, noAccess, opNop⟩
/-- `sb.nop` alone in its bundle: no effect (R37). -/
def execSbNop (s : State) : Host.Outcome State Fault Refusal := issueOne rowSbNop s

/-- `sa.add` (R126) as a slot of a bundle. -/
def rowSaAdd (u : SUnit) (g : Guard) (d a b : BitVec 6) : SlotOp := ⟨(SUnit.slot u), g, noAccess, opSaAdd u d a b⟩
/-- `sa.add` (R126) alone in its bundle. -/
def execSaAdd (u : SUnit) (g : Guard) (d a b : BitVec 6) (s : State) : Host.Outcome State Fault Refusal := issueOne (rowSaAdd u g d a b) s

/-- `sa.sub` (R126) as a slot of a bundle. -/
def rowSaSub (u : SUnit) (g : Guard) (d a b : BitVec 6) : SlotOp := ⟨(SUnit.slot u), g, noAccess, opSaSub u d a b⟩
/-- `sa.sub` (R126) alone in its bundle. -/
def execSaSub (u : SUnit) (g : Guard) (d a b : BitVec 6) (s : State) : Host.Outcome State Fault Refusal := issueOne (rowSaSub u g d a b) s

/-- `sa.mul` (R126) as a slot of a bundle. -/
def rowSaMul (u : SUnit) (g : Guard) (d a b : BitVec 6) : SlotOp := ⟨(SUnit.slot u), g, noAccess, opSaMul u d a b⟩
/-- `sa.mul` (R126) alone in its bundle. -/
def execSaMul (u : SUnit) (g : Guard) (d a b : BitVec 6) (s : State) : Host.Outcome State Fault Refusal := issueOne (rowSaMul u g d a b) s

/-- `sa.mulh` (R126) as a slot of a bundle. -/
def rowSaMulh (u : SUnit) (g : Guard) (d a b : BitVec 6) (x : BitVec 3) : SlotOp := ⟨(SUnit.slot u), g, noAccess, opSaMulh u d a b x⟩
/-- `sa.mulh` (R126) alone in its bundle. -/
def execSaMulh (u : SUnit) (g : Guard) (d a b : BitVec 6) (x : BitVec 3) (s : State) : Host.Outcome State Fault Refusal := issueOne (rowSaMulh u g d a b x) s

/-- `sa.div` (R126) as a slot of a bundle. -/
def rowSaDiv (u : SUnit) (g : Guard) (d a b : BitVec 6) (x : BitVec 3) : SlotOp := ⟨(SUnit.slot u), g, noAccess, opSaDiv u d a b x⟩
/-- `sa.div` (R126) alone in its bundle. -/
def execSaDiv (u : SUnit) (g : Guard) (d a b : BitVec 6) (x : BitVec 3) (s : State) : Host.Outcome State Fault Refusal := issueOne (rowSaDiv u g d a b x) s

/-- `sa.rem` (R126) as a slot of a bundle. -/
def rowSaRem (u : SUnit) (g : Guard) (d a b : BitVec 6) (x : BitVec 3) : SlotOp := ⟨(SUnit.slot u), g, noAccess, opSaRem u d a b x⟩
/-- `sa.rem` (R126) alone in its bundle. -/
def execSaRem (u : SUnit) (g : Guard) (d a b : BitVec 6) (x : BitVec 3) (s : State) : Host.Outcome State Fault Refusal := issueOne (rowSaRem u g d a b x) s

/-- `sa.and` (R126) as a slot of a bundle. -/
def rowSaAnd (u : SUnit) (g : Guard) (d a b : BitVec 6) : SlotOp := ⟨(SUnit.slot u), g, noAccess, opSaAnd u d a b⟩
/-- `sa.and` (R126) alone in its bundle. -/
def execSaAnd (u : SUnit) (g : Guard) (d a b : BitVec 6) (s : State) : Host.Outcome State Fault Refusal := issueOne (rowSaAnd u g d a b) s

/-- `sa.or` (R126) as a slot of a bundle. -/
def rowSaOr (u : SUnit) (g : Guard) (d a b : BitVec 6) : SlotOp := ⟨(SUnit.slot u), g, noAccess, opSaOr u d a b⟩
/-- `sa.or` (R126) alone in its bundle. -/
def execSaOr (u : SUnit) (g : Guard) (d a b : BitVec 6) (s : State) : Host.Outcome State Fault Refusal := issueOne (rowSaOr u g d a b) s

/-- `sa.xor` (R126) as a slot of a bundle. -/
def rowSaXor (u : SUnit) (g : Guard) (d a b : BitVec 6) : SlotOp := ⟨(SUnit.slot u), g, noAccess, opSaXor u d a b⟩
/-- `sa.xor` (R126) alone in its bundle. -/
def execSaXor (u : SUnit) (g : Guard) (d a b : BitVec 6) (s : State) : Host.Outcome State Fault Refusal := issueOne (rowSaXor u g d a b) s

/-- `sa.shl` (R126) as a slot of a bundle. -/
def rowSaShl (u : SUnit) (g : Guard) (d a b : BitVec 6) : SlotOp := ⟨(SUnit.slot u), g, noAccess, opSaShl u d a b⟩
/-- `sa.shl` (R126) alone in its bundle. -/
def execSaShl (u : SUnit) (g : Guard) (d a b : BitVec 6) (s : State) : Host.Outcome State Fault Refusal := issueOne (rowSaShl u g d a b) s

/-- `sa.shr` (R126) as a slot of a bundle. -/
def rowSaShr (u : SUnit) (g : Guard) (d a b : BitVec 6) : SlotOp := ⟨(SUnit.slot u), g, noAccess, opSaShr u d a b⟩
/-- `sa.shr` (R126) alone in its bundle. -/
def execSaShr (u : SUnit) (g : Guard) (d a b : BitVec 6) (s : State) : Host.Outcome State Fault Refusal := issueOne (rowSaShr u g d a b) s

/-- `sa.sra` (R126) as a slot of a bundle. -/
def rowSaSra (u : SUnit) (g : Guard) (d a b : BitVec 6) : SlotOp := ⟨(SUnit.slot u), g, noAccess, opSaSra u d a b⟩
/-- `sa.sra` (R126) alone in its bundle. -/
def execSaSra (u : SUnit) (g : Guard) (d a b : BitVec 6) (s : State) : Host.Outcome State Fault Refusal := issueOne (rowSaSra u g d a b) s

/-- `sa.min` (R126) as a slot of a bundle. -/
def rowSaMin (u : SUnit) (g : Guard) (d a b : BitVec 6) (x : BitVec 3) : SlotOp := ⟨(SUnit.slot u), g, noAccess, opSaMin u d a b x⟩
/-- `sa.min` (R126) alone in its bundle. -/
def execSaMin (u : SUnit) (g : Guard) (d a b : BitVec 6) (x : BitVec 3) (s : State) : Host.Outcome State Fault Refusal := issueOne (rowSaMin u g d a b x) s

/-- `sa.max` (R126) as a slot of a bundle. -/
def rowSaMax (u : SUnit) (g : Guard) (d a b : BitVec 6) (x : BitVec 3) : SlotOp := ⟨(SUnit.slot u), g, noAccess, opSaMax u d a b x⟩
/-- `sa.max` (R126) alone in its bundle. -/
def execSaMax (u : SUnit) (g : Guard) (d a b : BitVec 6) (x : BitVec 3) (s : State) : Host.Outcome State Fault Refusal := issueOne (rowSaMax u g d a b x) s

/-- `sa.cmp` (R124) as a slot of a bundle. -/
def rowSaCmp (u : SUnit) (g : Guard) (p : BitVec 4) (a b : BitVec 6) (cd : BitVec 3) : SlotOp := ⟨(SUnit.slot u), g, noAccess, opSaCmp u p a b cd⟩
/-- `sa.cmp` (R124) alone in its bundle. -/
def execSaCmp (u : SUnit) (g : Guard) (p : BitVec 4) (a b : BitVec 6) (cd : BitVec 3) (s : State) : Host.Outcome State Fault Refusal := issueOne (rowSaCmp u g p a b cd) s

/-- `sa.pand` (R125) as a slot of a bundle. -/
def rowSaPand (u : SUnit) (g : Guard) (d a b : BitVec 4) : SlotOp := ⟨(SUnit.slot u), g, noAccess, opSaPand u d a b⟩
/-- `sa.pand` (R125) alone in its bundle. -/
def execSaPand (u : SUnit) (g : Guard) (d a b : BitVec 4) (s : State) : Host.Outcome State Fault Refusal := issueOne (rowSaPand u g d a b) s

/-- `sa.por` (R125) as a slot of a bundle. -/
def rowSaPor (u : SUnit) (g : Guard) (d a b : BitVec 4) : SlotOp := ⟨(SUnit.slot u), g, noAccess, opSaPor u d a b⟩
/-- `sa.por` (R125) alone in its bundle. -/
def execSaPor (u : SUnit) (g : Guard) (d a b : BitVec 4) (s : State) : Host.Outcome State Fault Refusal := issueOne (rowSaPor u g d a b) s

/-- `sa.pxor` (R125) as a slot of a bundle. -/
def rowSaPxor (u : SUnit) (g : Guard) (d a b : BitVec 4) : SlotOp := ⟨(SUnit.slot u), g, noAccess, opSaPxor u d a b⟩
/-- `sa.pxor` (R125) alone in its bundle. -/
def execSaPxor (u : SUnit) (g : Guard) (d a b : BitVec 4) (s : State) : Host.Outcome State Fault Refusal := issueOne (rowSaPxor u g d a b) s

/-- `sa.movi` (R127) as a slot of a bundle. -/
def rowSaMovi (u : SUnit) (g : Guard) (d : BitVec 6) (i : BitVec 15) : SlotOp := ⟨(SUnit.slot u), g, noAccess, opSaMovi u d i⟩
/-- `sa.movi` (R127) alone in its bundle. -/
def execSaMovi (u : SUnit) (g : Guard) (d : BitVec 6) (i : BitVec 15) (s : State) : Host.Outcome State Fault Refusal := issueOne (rowSaMovi u g d i) s

/-- `sa.movh` (R127) as a slot of a bundle. -/
def rowSaMovh (u : SUnit) (g : Guard) (d : BitVec 6) (i : BitVec 15) : SlotOp := ⟨(SUnit.slot u), g, noAccess, opSaMovh u d i⟩
/-- `sa.movh` (R127) alone in its bundle. -/
def execSaMovh (u : SUnit) (g : Guard) (d : BitVec 6) (i : BitVec 15) (s : State) : Host.Outcome State Fault Refusal := issueOne (rowSaMovh u g d i) s

/-- `sa.addi` (R127) as a slot of a bundle. -/
def rowSaAddi (u : SUnit) (g : Guard) (d : BitVec 6) (i : BitVec 15) : SlotOp := ⟨(SUnit.slot u), g, noAccess, opSaAddi u d i⟩
/-- `sa.addi` (R127) alone in its bundle. -/
def execSaAddi (u : SUnit) (g : Guard) (d : BitVec 6) (i : BitVec 15) (s : State) : Host.Outcome State Fault Refusal := issueOne (rowSaAddi u g d i) s

/-- `sa.ld.b64` (R130) as a slot of a bundle. -/
def rowSaLdB64 (u : SUnit) (g : Guard) (d a b : BitVec 6) : SlotOp := ⟨(SUnit.slot u), g, scalarAccess a b 8 .read, opSaLdB64 u d a b⟩
/-- `sa.ld.b64` (R130) alone in its bundle. -/
def execSaLdB64 (u : SUnit) (g : Guard) (d a b : BitVec 6) (s : State) : Host.Outcome State Fault Refusal := issueOne (rowSaLdB64 u g d a b) s

/-- `sa.ld.b32` (R130) as a slot of a bundle. -/
def rowSaLdB32 (u : SUnit) (g : Guard) (d a b : BitVec 6) (x : BitVec 3) : SlotOp := ⟨(SUnit.slot u), g, scalarAccess a b 4 .read, opSaLdB32 u d a b x⟩
/-- `sa.ld.b32` (R130) alone in its bundle. -/
def execSaLdB32 (u : SUnit) (g : Guard) (d a b : BitVec 6) (x : BitVec 3) (s : State) : Host.Outcome State Fault Refusal := issueOne (rowSaLdB32 u g d a b x) s

/-- `sa.ld.b16` (R130) as a slot of a bundle. -/
def rowSaLdB16 (u : SUnit) (g : Guard) (d a b : BitVec 6) (x : BitVec 3) : SlotOp := ⟨(SUnit.slot u), g, scalarAccess a b 2 .read, opSaLdB16 u d a b x⟩
/-- `sa.ld.b16` (R130) alone in its bundle. -/
def execSaLdB16 (u : SUnit) (g : Guard) (d a b : BitVec 6) (x : BitVec 3) (s : State) : Host.Outcome State Fault Refusal := issueOne (rowSaLdB16 u g d a b x) s

/-- `sa.ld.b8` (R130) as a slot of a bundle. -/
def rowSaLdB8 (u : SUnit) (g : Guard) (d a b : BitVec 6) (x : BitVec 3) : SlotOp := ⟨(SUnit.slot u), g, scalarAccess a b 1 .read, opSaLdB8 u d a b x⟩
/-- `sa.ld.b8` (R130) alone in its bundle. -/
def execSaLdB8 (u : SUnit) (g : Guard) (d a b : BitVec 6) (x : BitVec 3) (s : State) : Host.Outcome State Fault Refusal := issueOne (rowSaLdB8 u g d a b x) s

/-- `sa.st.b64` (R130) as a slot of a bundle. -/
def rowSaStB64 (u : SUnit) (g : Guard) (d a b : BitVec 6) : SlotOp := ⟨(SUnit.slot u), g, scalarAccess a b 8 .write, opSaStB64 u d a b⟩
/-- `sa.st.b64` (R130) alone in its bundle. -/
def execSaStB64 (u : SUnit) (g : Guard) (d a b : BitVec 6) (s : State) : Host.Outcome State Fault Refusal := issueOne (rowSaStB64 u g d a b) s

/-- `sa.st.b32` (R130) as a slot of a bundle. -/
def rowSaStB32 (u : SUnit) (g : Guard) (d a b : BitVec 6) : SlotOp := ⟨(SUnit.slot u), g, scalarAccess a b 4 .write, opSaStB32 u d a b⟩
/-- `sa.st.b32` (R130) alone in its bundle. -/
def execSaStB32 (u : SUnit) (g : Guard) (d a b : BitVec 6) (s : State) : Host.Outcome State Fault Refusal := issueOne (rowSaStB32 u g d a b) s

/-- `sa.st.b16` (R130) as a slot of a bundle. -/
def rowSaStB16 (u : SUnit) (g : Guard) (d a b : BitVec 6) : SlotOp := ⟨(SUnit.slot u), g, scalarAccess a b 2 .write, opSaStB16 u d a b⟩
/-- `sa.st.b16` (R130) alone in its bundle. -/
def execSaStB16 (u : SUnit) (g : Guard) (d a b : BitVec 6) (s : State) : Host.Outcome State Fault Refusal := issueOne (rowSaStB16 u g d a b) s

/-- `sa.st.b8` (R130) as a slot of a bundle. -/
def rowSaStB8 (u : SUnit) (g : Guard) (d a b : BitVec 6) : SlotOp := ⟨(SUnit.slot u), g, scalarAccess a b 1 .write, opSaStB8 u d a b⟩
/-- `sa.st.b8` (R130) alone in its bundle. -/
def execSaStB8 (u : SUnit) (g : Guard) (d a b : BitVec 6) (s : State) : Host.Outcome State Fault Refusal := issueOne (rowSaStB8 u g d a b) s

/-- `sa.fadd.f64` (R128) as a slot of a bundle. -/
def rowSaFaddF64 (u : SUnit) (g : Guard) (d a b : BitVec 6) : SlotOp := ⟨(SUnit.slot u), g, noAccess, opSaFaddF64 u d a b⟩
/-- `sa.fadd.f64` (R128) alone in its bundle. -/
def execSaFaddF64 (u : SUnit) (g : Guard) (d a b : BitVec 6) (s : State) : Host.Outcome State Fault Refusal := issueOne (rowSaFaddF64 u g d a b) s

/-- `sa.fsub.f64` (R128) as a slot of a bundle. -/
def rowSaFsubF64 (u : SUnit) (g : Guard) (d a b : BitVec 6) : SlotOp := ⟨(SUnit.slot u), g, noAccess, opSaFsubF64 u d a b⟩
/-- `sa.fsub.f64` (R128) alone in its bundle. -/
def execSaFsubF64 (u : SUnit) (g : Guard) (d a b : BitVec 6) (s : State) : Host.Outcome State Fault Refusal := issueOne (rowSaFsubF64 u g d a b) s

/-- `sa.fmul.f64` (R128) as a slot of a bundle. -/
def rowSaFmulF64 (u : SUnit) (g : Guard) (d a b : BitVec 6) : SlotOp := ⟨(SUnit.slot u), g, noAccess, opSaFmulF64 u d a b⟩
/-- `sa.fmul.f64` (R128) alone in its bundle. -/
def execSaFmulF64 (u : SUnit) (g : Guard) (d a b : BitVec 6) (s : State) : Host.Outcome State Fault Refusal := issueOne (rowSaFmulF64 u g d a b) s

/-- `sa.fdiv.f64` (R128) as a slot of a bundle. -/
def rowSaFdivF64 (u : SUnit) (g : Guard) (d a b : BitVec 6) : SlotOp := ⟨(SUnit.slot u), g, noAccess, opSaFdivF64 u d a b⟩
/-- `sa.fdiv.f64` (R128) alone in its bundle. -/
def execSaFdivF64 (u : SUnit) (g : Guard) (d a b : BitVec 6) (s : State) : Host.Outcome State Fault Refusal := issueOne (rowSaFdivF64 u g d a b) s

/-- `sa.fadd.f32` (R128) as a slot of a bundle. -/
def rowSaFaddF32 (u : SUnit) (g : Guard) (d a b : BitVec 6) : SlotOp := ⟨(SUnit.slot u), g, noAccess, opSaFaddF32 u d a b⟩
/-- `sa.fadd.f32` (R128) alone in its bundle. -/
def execSaFaddF32 (u : SUnit) (g : Guard) (d a b : BitVec 6) (s : State) : Host.Outcome State Fault Refusal := issueOne (rowSaFaddF32 u g d a b) s

/-- `sa.fsub.f32` (R128) as a slot of a bundle. -/
def rowSaFsubF32 (u : SUnit) (g : Guard) (d a b : BitVec 6) : SlotOp := ⟨(SUnit.slot u), g, noAccess, opSaFsubF32 u d a b⟩
/-- `sa.fsub.f32` (R128) alone in its bundle. -/
def execSaFsubF32 (u : SUnit) (g : Guard) (d a b : BitVec 6) (s : State) : Host.Outcome State Fault Refusal := issueOne (rowSaFsubF32 u g d a b) s

/-- `sa.fmul.f32` (R128) as a slot of a bundle. -/
def rowSaFmulF32 (u : SUnit) (g : Guard) (d a b : BitVec 6) : SlotOp := ⟨(SUnit.slot u), g, noAccess, opSaFmulF32 u d a b⟩
/-- `sa.fmul.f32` (R128) alone in its bundle. -/
def execSaFmulF32 (u : SUnit) (g : Guard) (d a b : BitVec 6) (s : State) : Host.Outcome State Fault Refusal := issueOne (rowSaFmulF32 u g d a b) s

/-- `sa.fdiv.f32` (R128) as a slot of a bundle. -/
def rowSaFdivF32 (u : SUnit) (g : Guard) (d a b : BitVec 6) : SlotOp := ⟨(SUnit.slot u), g, noAccess, opSaFdivF32 u d a b⟩
/-- `sa.fdiv.f32` (R128) alone in its bundle. -/
def execSaFdivF32 (u : SUnit) (g : Guard) (d a b : BitVec 6) (s : State) : Host.Outcome State Fault Refusal := issueOne (rowSaFdivF32 u g d a b) s

/-- `sa.fcvt` (R129) as a slot of a bundle. -/
def rowSaFcvt (u : SUnit) (g : Guard) (d a : BitVec 6) (f t rn : BitVec 3) : SlotOp := ⟨(SUnit.slot u), g, noAccess, opSaFcvt u d a f t rn⟩
/-- `sa.fcvt` (R129) alone in its bundle. -/
def execSaFcvt (u : SUnit) (g : Guard) (d a : BitVec 6) (f t rn : BitVec 3) (s : State) : Host.Outcome State Fault Refusal := issueOne (rowSaFcvt u g d a f t rn) s

/-- `sa.fcmp.f64` (R124) as a slot of a bundle. -/
def rowSaFcmpF64 (u : SUnit) (g : Guard) (p : BitVec 4) (a b : BitVec 6) (cd : BitVec 3) : SlotOp := ⟨(SUnit.slot u), g, noAccess, opSaFcmpF64 u p a b cd⟩
/-- `sa.fcmp.f64` (R124) alone in its bundle. -/
def execSaFcmpF64 (u : SUnit) (g : Guard) (p : BitVec 4) (a b : BitVec 6) (cd : BitVec 3) (s : State) : Host.Outcome State Fault Refusal := issueOne (rowSaFcmpF64 u g p a b cd) s

/-- `sa.fcmp.f32` (R124) as a slot of a bundle. -/
def rowSaFcmpF32 (u : SUnit) (g : Guard) (p : BitVec 4) (a b : BitVec 6) (cd : BitVec 3) : SlotOp := ⟨(SUnit.slot u), g, noAccess, opSaFcmpF32 u p a b cd⟩
/-- `sa.fcmp.f32` (R124) alone in its bundle. -/
def execSaFcmpF32 (u : SUnit) (g : Guard) (p : BitVec 4) (a b : BitVec 6) (cd : BitVec 3) (s : State) : Host.Outcome State Fault Refusal := issueOne (rowSaFcmpF32 u g p a b cd) s

/-- `sa.mfsr` (R122) as a slot of a bundle. -/
def rowSaMfsr (u : SUnit) (g : Guard) (d : BitVec 6) (n : BitVec 12) : SlotOp := ⟨(SUnit.slot u), g, noAccess, opSaMfsr u d n⟩
/-- `sa.mfsr` (R122) alone in its bundle. -/
def execSaMfsr (u : SUnit) (g : Guard) (d : BitVec 6) (n : BitVec 12) (s : State) : Host.Outcome State Fault Refusal := issueOne (rowSaMfsr u g d n) s

/-- `sa.mtsr` (R122) as a slot of a bundle. -/
def rowSaMtsr (u : SUnit) (g : Guard) (a : BitVec 6) (n : BitVec 12) : SlotOp := ⟨(SUnit.slot u), g, noAccess, opSaMtsr u a n⟩
/-- `sa.mtsr` (R122) alone in its bundle. -/
def execSaMtsr (u : SUnit) (g : Guard) (a : BitVec 6) (n : BitVec 12) (s : State) : Host.Outcome State Fault Refusal := issueOne (rowSaMtsr u g a n) s

/-- `sa.tshape` (R133) as a slot of a bundle. -/
def rowSaTshape (u : SUnit) (g : Guard) (t : BitVec 4) (a : BitVec 6) : SlotOp := ⟨(SUnit.slot u), g, noAccess, opSaTshape u t a⟩
/-- `sa.tshape` (R133) alone in its bundle. -/
def execSaTshape (u : SUnit) (g : Guard) (t : BitVec 4) (a : BitVec 6) (s : State) : Host.Outcome State Fault Refusal := issueOne (rowSaTshape u g t a) s

end Sys2Proof.Machine
end

