-- ==== Sys2Proof/Machine/SqRows.lean ====
section
/-! DEFINITION. The rows of the SQ slot (11_kvblocks.md, 12_grammar.md, 13_sampling.md, 15_schedule.md): each as a slot of a bundle, and its meaning alone in a bundle. -/

namespace Sys2Proof.Machine

/-- `sq.nop` (R37). -/
def rowSqNop : SlotOp := ⟨7, always, noAccess, opNop⟩
/-- `sq.nop` alone in its bundle: no effect (R37). -/
def execSqNop (s : State) : Host.Outcome State Fault Refusal := issueOne rowSqNop s

/-- `sq.smerge` (R295) as a slot of a bundle. -/
def rowSqSmerge (g : Guard) (v b m : BitVec 6) : SlotOp := ⟨7, g, noAccess, opSqSmerge v b m⟩
/-- `sq.smerge` (R295) alone in its bundle. -/
def execSqSmerge (g : Guard) (v b m : BitVec 6) (s : State) : Host.Outcome State Fault Refusal := issueOne (rowSqSmerge g v b m) s

/-- `sq.sclr` (R297) as a slot of a bundle. -/
def rowSqSclr (g : Guard) : SlotOp := ⟨7, g, noAccess, opSqSclr⟩
/-- `sq.sclr` (R297) alone in its bundle. -/
def execSqSclr (g : Guard) (s : State) : Host.Outcome State Fault Refusal := issueOne (rowSqSclr g) s

/-- `sq.stemp` (R296) as a slot of a bundle. -/
def rowSqStemp (g : Guard) (a : BitVec 6) : SlotOp := ⟨7, g, noAccess, opSqStemp a⟩
/-- `sq.stemp` (R296) alone in its bundle. -/
def execSqStemp (g : Guard) (a : BitVec 6) (s : State) : Host.Outcome State Fault Refusal := issueOne (rowSqStemp g a) s

/-- `sq.stopk` (R296) as a slot of a bundle. -/
def rowSqStopk (g : Guard) (a : BitVec 6) : SlotOp := ⟨7, g, noAccess, opSqStopk a⟩
/-- `sq.stopk` (R296) alone in its bundle. -/
def execSqStopk (g : Guard) (a : BitVec 6) (s : State) : Host.Outcome State Fault Refusal := issueOne (rowSqStopk g a) s

/-- `sq.stopp` (R296) as a slot of a bundle. -/
def rowSqStopp (g : Guard) (a : BitVec 6) : SlotOp := ⟨7, g, noAccess, opSqStopp a⟩
/-- `sq.stopp` (R296) alone in its bundle. -/
def execSqStopp (g : Guard) (a : BitVec 6) (s : State) : Host.Outcome State Fault Refusal := issueOne (rowSqStopp g a) s

/-- `sq.sdraw` (R298) as a slot of a bundle. -/
def rowSqSdraw (g : Guard) (a b : BitVec 6) : SlotOp := ⟨7, g, noAccess, opSqSdraw a b⟩
/-- `sq.sdraw` (R298) alone in its bundle. -/
def execSqSdraw (g : Guard) (a b : BitVec 6) (s : State) : Host.Outcome State Fault Refusal := issueOne (rowSqSdraw g a b) s

/-- `sq.sdraw.lin` (R298) as a slot of a bundle. -/
def rowSqSdrawLin (g : Guard) (a b : BitVec 6) : SlotOp := ⟨7, g, noAccess, opSqSdrawLin a b⟩
/-- `sq.sdraw.lin` (R298) alone in its bundle. -/
def execSqSdrawLin (g : Guard) (a b : BitVec 6) (s : State) : Host.Outcome State Fault Refusal := issueOne (rowSqSdrawLin g a b) s

/-- `sq.sget.val` (R299) as a slot of a bundle. -/
def rowSqSgetVal (g : Guard) (a : BitVec 6) : SlotOp := ⟨7, g, noAccess, opSqSgetVal a⟩
/-- `sq.sget.val` (R299) alone in its bundle. -/
def execSqSgetVal (g : Guard) (a : BitVec 6) (s : State) : Host.Outcome State Fault Refusal := issueOne (rowSqSgetVal g a) s

/-- `sq.sget.idx` (R299) as a slot of a bundle. -/
def rowSqSgetIdx (g : Guard) (a : BitVec 6) : SlotOp := ⟨7, g, noAccess, opSqSgetIdx a⟩
/-- `sq.sget.idx` (R299) alone in its bundle. -/
def execSqSgetIdx (g : Guard) (a : BitVec 6) (s : State) : Host.Outcome State Fault Refusal := issueOne (rowSqSgetIdx g a) s

/-- `sq.sget.prob` (R299) as a slot of a bundle. -/
def rowSqSgetProb (g : Guard) (a : BitVec 6) : SlotOp := ⟨7, g, noAccess, opSqSgetProb a⟩
/-- `sq.sget.prob` (R299) alone in its bundle. -/
def execSqSgetProb (g : Guard) (a : BitVec 6) (s : State) : Host.Outcome State Fault Refusal := issueOne (rowSqSgetProb g a) s

/-- `sq.sget.tprob` (R299) as a slot of a bundle. -/
def rowSqSgetTprob (g : Guard) (a : BitVec 6) : SlotOp := ⟨7, g, noAccess, opSqSgetTprob a⟩
/-- `sq.sget.tprob` (R299) alone in its bundle. -/
def execSqSgetTprob (g : Guard) (a : BitVec 6) (s : State) : Host.Outcome State Fault Refusal := issueOne (rowSqSgetTprob g a) s

/-- `sq.sget.sum` (R299) as a slot of a bundle. -/
def rowSqSgetSum (g : Guard) : SlotOp := ⟨7, g, noAccess, opSqSgetSum⟩
/-- `sq.sget.sum` (R299) alone in its bundle. -/
def execSqSgetSum (g : Guard) (s : State) : Host.Outcome State Fault Refusal := issueOne (rowSqSgetSum g) s

/-- `sq.balloc` (R263) as a slot of a bundle. -/
def rowSqBalloc (g : Guard) (d a : BitVec 6) : SlotOp := ⟨7, g, noAccess, opSqBalloc d a⟩
/-- `sq.balloc` (R263) alone in its bundle. -/
def execSqBalloc (g : Guard) (d a : BitVec 6) (s : State) : Host.Outcome State Fault Refusal := issueOne (rowSqBalloc g d a) s

/-- `sq.bfree` (R264) as a slot of a bundle. -/
def rowSqBfree (g : Guard) (a : BitVec 6) (k : BitVec 5) : SlotOp := ⟨7, g, noAccess, opSqBfree a k⟩
/-- `sq.bfree` (R264) alone in its bundle. -/
def execSqBfree (g : Guard) (a : BitVec 6) (k : BitVec 5) (s : State) : Host.Outcome State Fault Refusal := issueOne (rowSqBfree g a k) s

/-- `sq.bfree.acq` (R264) as a slot of a bundle. -/
def rowSqBfreeAcq (g : Guard) (a : BitVec 6) (k : BitVec 5) : SlotOp := ⟨7, g, noAccess, opSqBfreeAcq a k⟩
/-- `sq.bfree.acq` (R264) alone in its bundle. -/
def execSqBfreeAcq (g : Guard) (a : BitVec 6) (k : BitVec 5) (s : State) : Host.Outcome State Fault Refusal := issueOne (rowSqBfreeAcq g a k) s

/-- `sq.kvapp` (R265) as a slot of a bundle. -/
def rowSqKvapp (g : Guard) (a b : BitVec 6) (k : BitVec 5) : SlotOp := ⟨7, g, noAccess, opSqKvapp a b k⟩
/-- `sq.kvapp` (R265) alone in its bundle. -/
def execSqKvapp (g : Guard) (a b : BitVec 6) (k : BitVec 5) (s : State) : Host.Outcome State Fault Refusal := issueOne (rowSqKvapp g a b k) s

/-- `sq.kvapp.list` (R265) as a slot of a bundle. -/
def rowSqKvappList (g : Guard) (a b : BitVec 6) (k : BitVec 5) : SlotOp := ⟨7, g, noAccess, opSqKvappList a b k⟩
/-- `sq.kvapp.list` (R265) alone in its bundle. -/
def execSqKvappList (g : Guard) (a b : BitVec 6) (k : BitVec 5) (s : State) : Host.Outcome State Fault Refusal := issueOne (rowSqKvappList g a b k) s

/-- `sq.kvfork` (R266) as a slot of a bundle. -/
def rowSqKvfork (g : Guard) (a b : BitVec 6) (k : BitVec 5) : SlotOp := ⟨7, g, noAccess, opSqKvfork a b k⟩
/-- `sq.kvfork` (R266) alone in its bundle. -/
def execSqKvfork (g : Guard) (a b : BitVec 6) (k : BitVec 5) (s : State) : Host.Outcome State Fault Refusal := issueOne (rowSqKvfork g a b k) s

/-- `sq.kvroll` (R269) as a slot of a bundle. -/
def rowSqKvroll (g : Guard) (a : BitVec 6) (k : BitVec 5) : SlotOp := ⟨7, g, noAccess, opSqKvroll a k⟩
/-- `sq.kvroll` (R269) alone in its bundle. -/
def execSqKvroll (g : Guard) (a : BitVec 6) (k : BitVec 5) (s : State) : Host.Outcome State Fault Refusal := issueOne (rowSqKvroll g a k) s

/-- `sq.kvcommit` (R269) as a slot of a bundle. -/
def rowSqKvcommit (g : Guard) (a b : BitVec 6) (k : BitVec 5) : SlotOp := ⟨7, g, noAccess, opSqKvcommit a b k⟩
/-- `sq.kvcommit` (R269) alone in its bundle. -/
def execSqKvcommit (g : Guard) (a b : BitVec 6) (k : BitVec 5) (s : State) : Host.Outcome State Fault Refusal := issueOne (rowSqKvcommit g a b k) s

/-- `sq.kvwin.get` (R270) as a slot of a bundle. -/
def rowSqKvwinGet (g : Guard) (d a : BitVec 6) : SlotOp := ⟨7, g, noAccess, opSqKvwinGet d a⟩
/-- `sq.kvwin.get` (R270) alone in its bundle. -/
def execSqKvwinGet (g : Guard) (d a : BitVec 6) (s : State) : Host.Outcome State Fault Refusal := issueOne (rowSqKvwinGet g d a) s

/-- `sq.kvwin.set` (R270) as a slot of a bundle. -/
def rowSqKvwinSet (g : Guard) (d a b : BitVec 6) : SlotOp := ⟨7, g, noAccess, opSqKvwinSet d a b⟩
/-- `sq.kvwin.set` (R270) alone in its bundle. -/
def execSqKvwinSet (g : Guard) (d a b : BitVec 6) (s : State) : Host.Outcome State Fault Refusal := issueOne (rowSqKvwinSet g d a b) s

/-- `sq.squash` (R302) as a slot of a bundle. -/
def rowSqSquash (g : Guard) (a b : BitVec 6) (k : BitVec 5) : SlotOp := ⟨7, g, noAccess, opSqSquash a b k⟩
/-- `sq.squash` (R302) alone in its bundle. -/
def execSqSquash (g : Guard) (a b : BitVec 6) (k : BitVec 5) (s : State) : Host.Outcome State Fault Refusal := issueOne (rowSqSquash g a b k) s

/-- `sq.gbind` (R282) as a slot of a bundle. -/
def rowSqGbind (g : Guard) (a b : BitVec 6) (k : BitVec 5) : SlotOp := ⟨7, g, noAccess, opSqGbind a b k⟩
/-- `sq.gbind` (R282) alone in its bundle. -/
def execSqGbind (g : Guard) (a b : BitVec 6) (k : BitVec 5) (s : State) : Host.Outcome State Fault Refusal := issueOne (rowSqGbind g a b k) s

/-- `sq.gbind.reset` (R282) as a slot of a bundle. -/
def rowSqGbindReset (g : Guard) (a b : BitVec 6) (k : BitVec 5) : SlotOp := ⟨7, g, noAccess, opSqGbindReset a b k⟩
/-- `sq.gbind.reset` (R282) alone in its bundle. -/
def execSqGbindReset (g : Guard) (a b : BitVec 6) (k : BitVec 5) (s : State) : Host.Outcome State Fault Refusal := issueOne (rowSqGbindReset g a b k) s

/-- `sq.gbind.drop` (R282) as a slot of a bundle. -/
def rowSqGbindDrop (g : Guard) (a : BitVec 6) (k : BitVec 5) : SlotOp := ⟨7, g, noAccess, opSqGbindDrop a k⟩
/-- `sq.gbind.drop` (R282) alone in its bundle. -/
def execSqGbindDrop (g : Guard) (a : BitVec 6) (k : BitVec 5) (s : State) : Host.Outcome State Fault Refusal := issueOne (rowSqGbindDrop g a k) s

/-- `sq.gstep` (R283) as a slot of a bundle. -/
def rowSqGstep (g : Guard) (a b : BitVec 6) (k : BitVec 5) : SlotOp := ⟨7, g, noAccess, opSqGstep a b k⟩
/-- `sq.gstep` (R283) alone in its bundle. -/
def execSqGstep (g : Guard) (a b : BitVec 6) (k : BitVec 5) (s : State) : Host.Outcome State Fault Refusal := issueOne (rowSqGstep g a b k) s

/-- `sq.gmask` (R284) as a slot of a bundle. -/
def rowSqGmask (g : Guard) (a b : BitVec 6) (k : BitVec 5) : SlotOp := ⟨7, g, noAccess, opSqGmask a b k⟩
/-- `sq.gmask` (R284) alone in its bundle. -/
def execSqGmask (g : Guard) (a b : BitVec 6) (k : BitVec 5) (s : State) : Host.Outcome State Fault Refusal := issueOne (rowSqGmask g a b k) s

/-- `sq.gfork` (R285) as a slot of a bundle. -/
def rowSqGfork (g : Guard) (a b : BitVec 6) (k : BitVec 5) : SlotOp := ⟨7, g, noAccess, opSqGfork a b k⟩
/-- `sq.gfork` (R285) alone in its bundle. -/
def execSqGfork (g : Guard) (a b : BitVec 6) (k : BitVec 5) (s : State) : Host.Outcome State Fault Refusal := issueOne (rowSqGfork g a b k) s

/-- `sq.groll.ent` (R286) as a slot of a bundle. -/
def rowSqGrollEnt (g : Guard) (a b : BitVec 6) (k : BitVec 5) : SlotOp := ⟨7, g, noAccess, opSqGrollEnt a b k⟩
/-- `sq.groll.ent` (R286) alone in its bundle. -/
def execSqGrollEnt (g : Guard) (a b : BitVec 6) (k : BitVec 5) (s : State) : Host.Outcome State Fault Refusal := issueOne (rowSqGrollEnt g a b k) s

/-- `sq.groll.pos` (R286) as a slot of a bundle. -/
def rowSqGrollPos (g : Guard) (a b : BitVec 6) (k : BitVec 5) : SlotOp := ⟨7, g, noAccess, opSqGrollPos a b k⟩
/-- `sq.groll.pos` (R286) alone in its bundle. -/
def execSqGrollPos (g : Guard) (a b : BitVec 6) (k : BitVec 5) (s : State) : Host.Outcome State Fault Refusal := issueOne (rowSqGrollPos g a b k) s

/-- `sq.gcommit` (R287) as a slot of a bundle. -/
def rowSqGcommit (g : Guard) (a b : BitVec 6) (k : BitVec 5) : SlotOp := ⟨7, g, noAccess, opSqGcommit a b k⟩
/-- `sq.gcommit` (R287) alone in its bundle. -/
def execSqGcommit (g : Guard) (a b : BitVec 6) (k : BitVec 5) (s : State) : Host.Outcome State Fault Refusal := issueOne (rowSqGcommit g a b k) s

/-- `sq.itnext` (R342) as a slot of a bundle. -/
def rowSqItnext (g : Guard) (d a b : BitVec 6) : SlotOp := ⟨7, g, noAccess, opSqItnext d a b⟩
/-- `sq.itnext` (R342) alone in its bundle. -/
def execSqItnext (g : Guard) (d a b : BitVec 6) (s : State) : Host.Outcome State Fault Refusal := issueOne (rowSqItnext g d a b) s

/-- `sq.itdone` (R346) as a slot of a bundle. -/
def rowSqItdone (g : Guard) (a b : BitVec 6) (k : BitVec 5) : SlotOp := ⟨7, g, noAccess, opSqItdone a b k⟩
/-- `sq.itdone` (R346) alone in its bundle. -/
def execSqItdone (g : Guard) (a b : BitVec 6) (k : BitVec 5) (s : State) : Host.Outcome State Fault Refusal := issueOne (rowSqItdone g a b k) s

/-- `sq.ityield` (R346) as a slot of a bundle. -/
def rowSqItyield (g : Guard) (a b : BitVec 6) (k : BitVec 5) : SlotOp := ⟨7, g, noAccess, opSqItyield a b k⟩
/-- `sq.ityield` (R346) alone in its bundle. -/
def execSqItyield (g : Guard) (a b : BitVec 6) (k : BitVec 5) (s : State) : Host.Outcome State Fault Refusal := issueOne (rowSqItyield g a b k) s

/-- `sq.schw` (R344) as a slot of a bundle. -/
def rowSqSchw (g : Guard) (a b : BitVec 6) (k : BitVec 5) : SlotOp := ⟨7, g, noAccess, opSqSchw a b k⟩
/-- `sq.schw` (R344) alone in its bundle. -/
def execSqSchw (g : Guard) (a b : BitVec 6) (k : BitVec 5) (s : State) : Host.Outcome State Fault Refusal := issueOne (rowSqSchw g a b k) s

/-- `sq.rpop` (R300) as a slot of a bundle. -/
def rowSqRpop (g : Guard) (d : BitVec 6) : SlotOp := ⟨7, g, noAccess, opSqRpop d⟩
/-- `sq.rpop` (R300) alone in its bundle. -/
def execSqRpop (g : Guard) (d : BitVec 6) (s : State) : Host.Outcome State Fault Refusal := issueOne (rowSqRpop g d) s

end Sys2Proof.Machine
end

