-- ==== Sys2Proof/Machine/VxRows.lean ====
section
/-! DEFINITION. The rows of the vector engine (07_vector.md, 08_trellis.md): each as a slot of a bundle, and its meaning alone in a bundle. -/

namespace Sys2Proof.Machine

/-- `vx.nop` (R37). -/
def rowVxNop : SlotOp := ⟨4, always, noAccess, opNop⟩
/-- `vx.nop` alone in its bundle: no effect (R37). -/
def execVxNop (s : State) : Host.Outcome State Fault Refusal := issueOne rowVxNop s

/-- `vx.add` (R169) as a slot of a bundle. -/
def rowVxAdd (g : Guard) (d a b : BitVec 6) (t : BitVec 3) : SlotOp := ⟨4, g, noAccess, opVxAdd d a b t⟩
/-- `vx.add` (R169) alone in its bundle. -/
def execVxAdd (g : Guard) (d a b : BitVec 6) (t : BitVec 3) (s : State) : Host.Outcome State Fault Refusal := issueOne (rowVxAdd g d a b t) s

/-- `vx.sub` (R169) as a slot of a bundle. -/
def rowVxSub (g : Guard) (d a b : BitVec 6) (t : BitVec 3) : SlotOp := ⟨4, g, noAccess, opVxSub d a b t⟩
/-- `vx.sub` (R169) alone in its bundle. -/
def execVxSub (g : Guard) (d a b : BitVec 6) (t : BitVec 3) (s : State) : Host.Outcome State Fault Refusal := issueOne (rowVxSub g d a b t) s

/-- `vx.mul` (R169) as a slot of a bundle. -/
def rowVxMul (g : Guard) (d a b : BitVec 6) (t : BitVec 3) : SlotOp := ⟨4, g, noAccess, opVxMul d a b t⟩
/-- `vx.mul` (R169) alone in its bundle. -/
def execVxMul (g : Guard) (d a b : BitVec 6) (t : BitVec 3) (s : State) : Host.Outcome State Fault Refusal := issueOne (rowVxMul g d a b t) s

/-- `vx.min` (R169) as a slot of a bundle. -/
def rowVxMin (g : Guard) (d a b : BitVec 6) (t : BitVec 3) : SlotOp := ⟨4, g, noAccess, opVxMin d a b t⟩
/-- `vx.min` (R169) alone in its bundle. -/
def execVxMin (g : Guard) (d a b : BitVec 6) (t : BitVec 3) (s : State) : Host.Outcome State Fault Refusal := issueOne (rowVxMin g d a b t) s

/-- `vx.max` (R169) as a slot of a bundle. -/
def rowVxMax (g : Guard) (d a b : BitVec 6) (t : BitVec 3) : SlotOp := ⟨4, g, noAccess, opVxMax d a b t⟩
/-- `vx.max` (R169) alone in its bundle. -/
def execVxMax (g : Guard) (d a b : BitVec 6) (t : BitVec 3) (s : State) : Host.Outcome State Fault Refusal := issueOne (rowVxMax g d a b t) s

/-- `vx.fma.f32` (R170) as a slot of a bundle. -/
def rowVxFmaF32 (g : Guard) (d : BitVec 5) (a b : BitVec 6) (e : BitVec 4) : SlotOp := ⟨4, g, noAccess, opVxFmaF32 d a b e⟩
/-- `vx.fma.f32` (R170) alone in its bundle. -/
def execVxFmaF32 (g : Guard) (d : BitVec 5) (a b : BitVec 6) (e : BitVec 4) (s : State) : Host.Outcome State Fault Refusal := issueOne (rowVxFmaF32 g d a b e) s

/-- `vx.fma.f64` (R170) as a slot of a bundle. -/
def rowVxFmaF64 (g : Guard) (d : BitVec 5) (a b : BitVec 6) (e : BitVec 4) : SlotOp := ⟨4, g, noAccess, opVxFmaF64 d a b e⟩
/-- `vx.fma.f64` (R170) alone in its bundle. -/
def execVxFmaF64 (g : Guard) (d : BitVec 5) (a b : BitVec 6) (e : BitVec 4) (s : State) : Host.Outcome State Fault Refusal := issueOne (rowVxFmaF64 g d a b e) s

/-- `vx.fma.f16` (R170) as a slot of a bundle. -/
def rowVxFmaF16 (g : Guard) (d : BitVec 5) (a b : BitVec 6) (e : BitVec 4) : SlotOp := ⟨4, g, noAccess, opVxFmaF16 d a b e⟩
/-- `vx.fma.f16` (R170) alone in its bundle. -/
def execVxFmaF16 (g : Guard) (d : BitVec 5) (a b : BitVec 6) (e : BitVec 4) (s : State) : Host.Outcome State Fault Refusal := issueOne (rowVxFmaF16 g d a b e) s

/-- `vx.fma.bf16` (R170) as a slot of a bundle. -/
def rowVxFmaBf16 (g : Guard) (d : BitVec 5) (a b : BitVec 6) (e : BitVec 4) : SlotOp := ⟨4, g, noAccess, opVxFmaBf16 d a b e⟩
/-- `vx.fma.bf16` (R170) alone in its bundle. -/
def execVxFmaBf16 (g : Guard) (d : BitVec 5) (a b : BitVec 6) (e : BitVec 4) (s : State) : Host.Outcome State Fault Refusal := issueOne (rowVxFmaBf16 g d a b e) s

/-- `vx.abs` (R171) as a slot of a bundle. -/
def rowVxAbs (g : Guard) (d a : BitVec 6) (t : BitVec 3) : SlotOp := ⟨4, g, noAccess, opVxAbs d a t⟩
/-- `vx.abs` (R171) alone in its bundle. -/
def execVxAbs (g : Guard) (d a : BitVec 6) (t : BitVec 3) (s : State) : Host.Outcome State Fault Refusal := issueOne (rowVxAbs g d a t) s

/-- `vx.and` (R172) as a slot of a bundle. -/
def rowVxAnd (g : Guard) (d a b : BitVec 6) : SlotOp := ⟨4, g, noAccess, opVxAnd d a b⟩
/-- `vx.and` (R172) alone in its bundle. -/
def execVxAnd (g : Guard) (d a b : BitVec 6) (s : State) : Host.Outcome State Fault Refusal := issueOne (rowVxAnd g d a b) s

/-- `vx.or` (R172) as a slot of a bundle. -/
def rowVxOr (g : Guard) (d a b : BitVec 6) : SlotOp := ⟨4, g, noAccess, opVxOr d a b⟩
/-- `vx.or` (R172) alone in its bundle. -/
def execVxOr (g : Guard) (d a b : BitVec 6) (s : State) : Host.Outcome State Fault Refusal := issueOne (rowVxOr g d a b) s

/-- `vx.xor` (R172) as a slot of a bundle. -/
def rowVxXor (g : Guard) (d a b : BitVec 6) : SlotOp := ⟨4, g, noAccess, opVxXor d a b⟩
/-- `vx.xor` (R172) alone in its bundle. -/
def execVxXor (g : Guard) (d a b : BitVec 6) (s : State) : Host.Outcome State Fault Refusal := issueOne (rowVxXor g d a b) s

/-- `vx.shl` (R172) as a slot of a bundle. -/
def rowVxShl (g : Guard) (d a b : BitVec 6) (t : BitVec 3) : SlotOp := ⟨4, g, noAccess, opVxShl d a b t⟩
/-- `vx.shl` (R172) alone in its bundle. -/
def execVxShl (g : Guard) (d a b : BitVec 6) (t : BitVec 3) (s : State) : Host.Outcome State Fault Refusal := issueOne (rowVxShl g d a b t) s

/-- `vx.shr` (R172) as a slot of a bundle. -/
def rowVxShr (g : Guard) (d a b : BitVec 6) (t : BitVec 3) : SlotOp := ⟨4, g, noAccess, opVxShr d a b t⟩
/-- `vx.shr` (R172) alone in its bundle. -/
def execVxShr (g : Guard) (d a b : BitVec 6) (t : BitVec 3) (s : State) : Host.Outcome State Fault Refusal := issueOne (rowVxShr g d a b t) s

/-- `vx.cmp` (R174) as a slot of a bundle. -/
def rowVxCmp (g : Guard) (m : BitVec 3) (a b : BitVec 6) (cd t : BitVec 3) : SlotOp := ⟨4, g, noAccess, opVxCmp m a b cd t⟩
/-- `vx.cmp` (R174) alone in its bundle. -/
def execVxCmp (g : Guard) (m : BitVec 3) (a b : BitVec 6) (cd t : BitVec 3) (s : State) : Host.Outcome State Fault Refusal := issueOne (rowVxCmp g m a b cd t) s

/-- `vx.sel` (R175) as a slot of a bundle. -/
def rowVxSel (g : Guard) (d a b : BitVec 6) (m : BitVec 3) : SlotOp := ⟨4, g, noAccess, opVxSel d a b m⟩
/-- `vx.sel` (R175) alone in its bundle. -/
def execVxSel (g : Guard) (d a b : BitVec 6) (m : BitVec 3) (s : State) : Host.Outcome State Fault Refusal := issueOne (rowVxSel g d a b m) s

/-- `vx.perm` (R176) as a slot of a bundle. -/
def rowVxPerm (g : Guard) (d a b : BitVec 6) (t : BitVec 3) : SlotOp := ⟨4, g, noAccess, opVxPerm d a b t⟩
/-- `vx.perm` (R176) alone in its bundle. -/
def execVxPerm (g : Guard) (d a b : BitVec 6) (t : BitVec 3) (s : State) : Host.Outcome State Fault Refusal := issueOne (rowVxPerm g d a b t) s

/-- `vx.bcast` (R173) as a slot of a bundle. -/
def rowVxBcast (g : Guard) (d a : BitVec 6) (t : BitVec 3) : SlotOp := ⟨4, g, noAccess, opVxBcast d a t⟩
/-- `vx.bcast` (R173) alone in its bundle. -/
def execVxBcast (g : Guard) (d a : BitVec 6) (t : BitVec 3) (s : State) : Host.Outcome State Fault Refusal := issueOne (rowVxBcast g d a t) s

/-- `vx.movi` (R173) as a slot of a bundle. -/
def rowVxMovi (g : Guard) (d : BitVec 6) (i : BitVec 15) : SlotOp := ⟨4, g, noAccess, opVxMovi d i⟩
/-- `vx.movi` (R173) alone in its bundle. -/
def execVxMovi (g : Guard) (d : BitVec 6) (i : BitVec 15) (s : State) : Host.Outcome State Fault Refusal := issueOne (rowVxMovi g d i) s

/-- `vx.redsum` (R178) as a slot of a bundle. -/
def rowVxRedsum (g : Guard) (d a b : BitVec 6) (t : BitVec 3) : SlotOp := ⟨4, g, noAccess, opVxRedsum d a b t⟩
/-- `vx.redsum` (R178) alone in its bundle. -/
def execVxRedsum (g : Guard) (d a b : BitVec 6) (t : BitVec 3) (s : State) : Host.Outcome State Fault Refusal := issueOne (rowVxRedsum g d a b t) s

/-- `vx.redmax` (R178) as a slot of a bundle. -/
def rowVxRedmax (g : Guard) (d a b : BitVec 6) (t : BitVec 3) : SlotOp := ⟨4, g, noAccess, opVxRedmax d a b t⟩
/-- `vx.redmax` (R178) alone in its bundle. -/
def execVxRedmax (g : Guard) (d a b : BitVec 6) (t : BitVec 3) (s : State) : Host.Outcome State Fault Refusal := issueOne (rowVxRedmax g d a b t) s

/-- `vx.exp` (R179) as a slot of a bundle. -/
def rowVxExp (g : Guard) (d a : BitVec 6) : SlotOp := ⟨4, g, noAccess, opVxExp d a⟩
/-- `vx.exp` (R179) alone in its bundle. -/
def execVxExp (g : Guard) (d a : BitVec 6) (s : State) : Host.Outcome State Fault Refusal := issueOne (rowVxExp g d a) s

/-- `vx.rcp` (R179) as a slot of a bundle. -/
def rowVxRcp (g : Guard) (d a : BitVec 6) : SlotOp := ⟨4, g, noAccess, opVxRcp d a⟩
/-- `vx.rcp` (R179) alone in its bundle. -/
def execVxRcp (g : Guard) (d a : BitVec 6) (s : State) : Host.Outcome State Fault Refusal := issueOne (rowVxRcp g d a) s

/-- `vx.rsqrt` (R179) as a slot of a bundle. -/
def rowVxRsqrt (g : Guard) (d a : BitVec 6) : SlotOp := ⟨4, g, noAccess, opVxRsqrt d a⟩
/-- `vx.rsqrt` (R179) alone in its bundle. -/
def execVxRsqrt (g : Guard) (d a : BitVec 6) (s : State) : Host.Outcome State Fault Refusal := issueOne (rowVxRsqrt g d a) s

/-- `vx.cvt` (R180) as a slot of a bundle. -/
def rowVxCvt (g : Guard) (d a : BitVec 6) (f t : BitVec 4) : SlotOp := ⟨4, g, noAccess, opVxCvt d a f t⟩
/-- `vx.cvt` (R180) alone in its bundle. -/
def execVxCvt (g : Guard) (d a : BitVec 6) (f t : BitVec 4) (s : State) : Host.Outcome State Fault Refusal := issueOne (rowVxCvt g d a f t) s

/-- `vx.cvts` (R180) as a slot of a bundle. -/
def rowVxCvts (g : Guard) (d a : BitVec 6) (f t : BitVec 4) : SlotOp := ⟨4, g, noAccess, opVxCvts d a f t⟩
/-- `vx.cvts` (R180) alone in its bundle. -/
def execVxCvts (g : Guard) (d a : BitVec 6) (f t : BitVec 4) (s : State) : Host.Outcome State Fault Refusal := issueOne (rowVxCvts g d a f t) s

/-- `vx.amax` (R181) as a slot of a bundle. -/
def rowVxAmax (g : Guard) (d a b : BitVec 6) (t : BitVec 3) : SlotOp := ⟨4, g, noAccess, opVxAmax d a b t⟩
/-- `vx.amax` (R181) alone in its bundle. -/
def execVxAmax (g : Guard) (d a b : BitVec 6) (t : BitVec 3) (s : State) : Host.Outcome State Fault Refusal := issueOne (rowVxAmax g d a b t) s

/-- `vx.scale` (R182) as a slot of a bundle. -/
def rowVxScale (g : Guard) (d a b : BitVec 6) (t : BitVec 3) : SlotOp := ⟨4, g, noAccess, opVxScale d a b t⟩
/-- `vx.scale` (R182) alone in its bundle. -/
def execVxScale (g : Guard) (d a b : BitVec 6) (t : BitVec 3) (s : State) : Host.Outcome State Fault Refusal := issueOne (rowVxScale g d a b t) s

/-- `vx.push` (R184) as a slot of a bundle. -/
def rowVxPush (g : Guard) (v : BitVec 6) (q : BitVec 3) : SlotOp := ⟨4, g, noAccess, opVxPush v q⟩
/-- `vx.push` (R184) alone in its bundle. -/
def execVxPush (g : Guard) (v : BitVec 6) (q : BitVec 3) (s : State) : Host.Outcome State Fault Refusal := issueOne (rowVxPush g v q) s

/-- `vx.pop` (R184) as a slot of a bundle. -/
def rowVxPop (g : Guard) (v : BitVec 6) (q : BitVec 3) : SlotOp := ⟨4, g, noAccess, opVxPop v q⟩
/-- `vx.pop` (R184) alone in its bundle. -/
def execVxPop (g : Guard) (v : BitVec 6) (q : BitVec 3) (s : State) : Host.Outcome State Fault Refusal := issueOne (rowVxPop g v q) s

/-- `vx.rand` (R186) as a slot of a bundle. -/
def rowVxRand (g : Guard) (d a b : BitVec 6) (t : BitVec 3) : SlotOp := ⟨4, g, noAccess, opVxRand d a b t⟩
/-- `vx.rand` (R186) alone in its bundle. -/
def execVxRand (g : Guard) (d a b : BitVec 6) (t : BitVec 3) (s : State) : Host.Outcome State Fault Refusal := issueOne (rowVxRand g d a b t) s

/-- `vx.acs` (R187) as a slot of a bundle. -/
def rowVxAcs (g : Guard) (d a b : BitVec 6) (t : BitVec 3) : SlotOp := ⟨4, g, noAccess, opVxAcs d a b t⟩
/-- `vx.acs` (R187) alone in its bundle. -/
def execVxAcs (g : Guard) (d a b : BitVec 6) (t : BitVec 3) (s : State) : Host.Outcome State Fault Refusal := issueOne (rowVxAcs g d a b t) s

/-- `vx.tval` (R188) as a slot of a bundle. -/
def rowVxTval (g : Guard) (d a : BitVec 6) (t : BitVec 3) : SlotOp := ⟨4, g, noAccess, opVxTval d a t⟩
/-- `vx.tval` (R188) alone in its bundle. -/
def execVxTval (g : Guard) (d a : BitVec 6) (t : BitVec 3) (s : State) : Host.Outcome State Fault Refusal := issueOne (rowVxTval g d a t) s

/-- `vx.mov` (R171) as a slot of a bundle. -/
def rowVxMov (g : Guard) (d a : BitVec 6) : SlotOp := ⟨4, g, noAccess, opVxMov d a⟩
/-- `vx.mov` (R171) alone in its bundle. -/
def execVxMov (g : Guard) (d a : BitVec 6) (s : State) : Host.Outcome State Fault Refusal := issueOne (rowVxMov g d a) s

/-- `vx.ext` (R177) as a slot of a bundle. -/
def rowVxExt (g : Guard) (d a l : BitVec 6) (t : BitVec 3) : SlotOp := ⟨4, g, noAccess, opVxExt d a l t⟩
/-- `vx.ext` (R177) alone in its bundle. -/
def execVxExt (g : Guard) (d a l : BitVec 6) (t : BitVec 3) (s : State) : Host.Outcome State Fault Refusal := issueOne (rowVxExt g d a l t) s

end Sys2Proof.Machine
end

