-- ==== Sys2Proof/Machine/Bundle.lean ====
section
/-! DEFINITION. The slots of a bundle as operations: which row each decoded slot word is. -/

namespace Sys2Proof.Machine

/-- The slot operation of an instruction; a device step is none. -/
def slotOp (i : Instr) : Option SlotOp :=
  match i with
  | .brNop => some rowBrNop
  | .saNop => some rowSaNop
  | .sbNop => some rowSbNop
  | .ldNop => some rowLdNop
  | .vxNop => some rowVxNop
  | .mxNop => some rowMxNop
  | .dxNop => some rowDxNop
  | .sqNop => some rowSqNop
  | .brJmp g o => some (rowBrJmp g o)
  | .brCall g o => some (rowBrCall g o)
  | .brJmpr g a => some (rowBrJmpr g a)
  | .brRet g => some (rowBrRet g)
  | .brLoop g l o => some (rowBrLoop g l o)
  | .brLset g l a => some (rowBrLset g l a)
  | .brDelay n => some (rowBrDelay n)
  | .brWaita g a b cd => some (rowBrWaita g a b cd)
  | .brTokw g k => some (rowBrTokw g k)
  | .brPload g a => some (rowBrPload g a)
  | .brEarly g => some (rowBrEarly g)
  | .brExit g => some (rowBrExit g)
  | .brSys g n => some (rowBrSys g n)
  | .brTret g => some (rowBrTret g)
  | .brCrgnOpen o => some (rowBrCrgnOpen o)
  | .brCrgnClose => some rowBrCrgnClose
  | .brBrk g n => some (rowBrBrk g n)
  | .brBar g a => some (rowBrBar g a)
  | .brFevclr g => some (rowBrFevclr g)
  | .saAdd u g d a b => some (rowSaAdd u g d a b)
  | .saSub u g d a b => some (rowSaSub u g d a b)
  | .saMul u g d a b => some (rowSaMul u g d a b)
  | .saMulh u g d a b x => some (rowSaMulh u g d a b x)
  | .saDiv u g d a b x => some (rowSaDiv u g d a b x)
  | .saRem u g d a b x => some (rowSaRem u g d a b x)
  | .saAnd u g d a b => some (rowSaAnd u g d a b)
  | .saOr u g d a b => some (rowSaOr u g d a b)
  | .saXor u g d a b => some (rowSaXor u g d a b)
  | .saShl u g d a b => some (rowSaShl u g d a b)
  | .saShr u g d a b => some (rowSaShr u g d a b)
  | .saSra u g d a b => some (rowSaSra u g d a b)
  | .saMin u g d a b x => some (rowSaMin u g d a b x)
  | .saMax u g d a b x => some (rowSaMax u g d a b x)
  | .saCmp u g p a b cd => some (rowSaCmp u g p a b cd)
  | .saPand u g d a b => some (rowSaPand u g d a b)
  | .saPor u g d a b => some (rowSaPor u g d a b)
  | .saPxor u g d a b => some (rowSaPxor u g d a b)
  | .saMovi u g d i => some (rowSaMovi u g d i)
  | .saMovh u g d i => some (rowSaMovh u g d i)
  | .saAddi u g d i => some (rowSaAddi u g d i)
  | .saLdB64 u g d a b => some (rowSaLdB64 u g d a b)
  | .saLdB32 u g d a b x => some (rowSaLdB32 u g d a b x)
  | .saLdB16 u g d a b x => some (rowSaLdB16 u g d a b x)
  | .saLdB8 u g d a b x => some (rowSaLdB8 u g d a b x)
  | .saStB64 u g d a b => some (rowSaStB64 u g d a b)
  | .saStB32 u g d a b => some (rowSaStB32 u g d a b)
  | .saStB16 u g d a b => some (rowSaStB16 u g d a b)
  | .saStB8 u g d a b => some (rowSaStB8 u g d a b)
  | .saFaddF64 u g d a b => some (rowSaFaddF64 u g d a b)
  | .saFsubF64 u g d a b => some (rowSaFsubF64 u g d a b)
  | .saFmulF64 u g d a b => some (rowSaFmulF64 u g d a b)
  | .saFdivF64 u g d a b => some (rowSaFdivF64 u g d a b)
  | .saFaddF32 u g d a b => some (rowSaFaddF32 u g d a b)
  | .saFsubF32 u g d a b => some (rowSaFsubF32 u g d a b)
  | .saFmulF32 u g d a b => some (rowSaFmulF32 u g d a b)
  | .saFdivF32 u g d a b => some (rowSaFdivF32 u g d a b)
  | .saFcvt u g d a f t rn => some (rowSaFcvt u g d a f t rn)
  | .saFcmpF64 u g p a b cd => some (rowSaFcmpF64 u g p a b cd)
  | .saFcmpF32 u g p a b cd => some (rowSaFcmpF32 u g p a b cd)
  | .saMfsr u g d n => some (rowSaMfsr u g d n)
  | .saMtsr u g a n => some (rowSaMtsr u g a n)
  | .saTshape u g t a => some (rowSaTshape u g t a)
  | .ldW g d b m o => some (rowLdW g d b m o)
  | .stW g d b m o => some (rowStW g d b m o)
  | .ldRow g d b m o => some (rowLdRow g d b m o)
  | .stRow g d b m o => some (rowStRow g d b m o)
  | .ldCol g d b m o => some (rowLdCol g d b m o)
  | .stCol g d b m o => some (rowStCol g d b m o)
  | .ldTile g t b m => some (rowLdTile g t b m)
  | .stTile g t b m => some (rowStTile g t b m)
  | .ldAcc g r b m n => some (rowLdAcc g r b m n)
  | .stAcc g r b m n => some (rowStAcc g r b m n)
  | .ldTagsetFull g b n => some (rowLdTagsetFull g b n)
  | .ldTagsetEmpty g b n => some (rowLdTagsetEmpty g b n)
  | .vxAdd g d a b t => some (rowVxAdd g d a b t)
  | .vxSub g d a b t => some (rowVxSub g d a b t)
  | .vxMul g d a b t => some (rowVxMul g d a b t)
  | .vxMin g d a b t => some (rowVxMin g d a b t)
  | .vxMax g d a b t => some (rowVxMax g d a b t)
  | .vxFmaF32 g d a b e => some (rowVxFmaF32 g d a b e)
  | .vxFmaF64 g d a b e => some (rowVxFmaF64 g d a b e)
  | .vxFmaF16 g d a b e => some (rowVxFmaF16 g d a b e)
  | .vxFmaBf16 g d a b e => some (rowVxFmaBf16 g d a b e)
  | .vxAbs g d a t => some (rowVxAbs g d a t)
  | .vxAnd g d a b => some (rowVxAnd g d a b)
  | .vxOr g d a b => some (rowVxOr g d a b)
  | .vxXor g d a b => some (rowVxXor g d a b)
  | .vxShl g d a b t => some (rowVxShl g d a b t)
  | .vxShr g d a b t => some (rowVxShr g d a b t)
  | .vxCmp g m a b cd t => some (rowVxCmp g m a b cd t)
  | .vxSel g d a b m => some (rowVxSel g d a b m)
  | .vxPerm g d a b t => some (rowVxPerm g d a b t)
  | .vxBcast g d a t => some (rowVxBcast g d a t)
  | .vxMovi g d i => some (rowVxMovi g d i)
  | .vxRedsum g d a b t => some (rowVxRedsum g d a b t)
  | .vxRedmax g d a b t => some (rowVxRedmax g d a b t)
  | .vxExp g d a => some (rowVxExp g d a)
  | .vxRcp g d a => some (rowVxRcp g d a)
  | .vxRsqrt g d a => some (rowVxRsqrt g d a)
  | .vxCvt g d a f t => some (rowVxCvt g d a f t)
  | .vxCvts g d a f t => some (rowVxCvts g d a f t)
  | .vxAmax g d a b t => some (rowVxAmax g d a b t)
  | .vxScale g d a b t => some (rowVxScale g d a b t)
  | .vxPush g v q => some (rowVxPush g v q)
  | .vxPop g v q => some (rowVxPop g v q)
  | .vxRand g d a b t => some (rowVxRand g d a b t)
  | .vxAcs g d a b t => some (rowVxAcs g d a b t)
  | .vxTval g d a t => some (rowVxTval g d a t)
  | .vxMov g d a => some (rowVxMov g d a)
  | .vxExt g d a l t => some (rowVxExt g d a l t)
  | .mxMma g l a r t o => some (rowMxMma g l a r t o)
  | .mxLatq g l q => some (rowMxLatq g l q)
  | .mxLatt g l a => some (rowMxLatt g l a)
  | .mxTtr g d a => some (rowMxTtr g d a)
  | .mxAccz g r n => some (rowMxAccz g r n)
  | .mxAccq g r n q => some (rowMxAccq g r n q)
  | .dxCpost g a b k => some (rowDxCpost g a b k)
  | .dxKdep g a b e => some (rowDxKdep g a b e)
  | .dxAqpop g d => some (rowDxAqpop g d)
  | .dxQcfgCfg g q a => some (rowDxQcfgCfg g q a)
  | .dxQcfgCal g q a => some (rowDxQcfgCal g q a)
  | .dxQcfgKey g q a => some (rowDxQcfgKey g q a)
  | .dxQcfgCtr g q a => some (rowDxQcfgCtr g q a)
  | .dxQstep g q a => some (rowDxQstep g q a)
  | .dxQstepWsat g q a => some (rowDxQstepWsat g q a)
  | .dxQstepFlush g q a => some (rowDxQstepFlush g q a)
  | .dxQrdCfg g q d => some (rowDxQrdCfg g q d)
  | .dxQrdCal g q d => some (rowDxQrdCal g q d)
  | .dxQrdAmax g q d => some (rowDxQrdAmax g q d)
  | .dxQrdSat g q d => some (rowDxQrdSat g q d)
  | .dxMdec g b t q k => some (rowDxMdec g b t q k)
  | .dxTdefWa g t a => some (rowDxTdefWa g t a)
  | .dxTdefWb g t a => some (rowDxTdefWb g t a)
  | .dxTdefRa g t a => some (rowDxTdefRa g t a)
  | .dxTdefRb g t a => some (rowDxTdefRb g t a)
  | .dxTload g a b k => some (rowDxTload g a b k)
  | .sqSmerge g v b m => some (rowSqSmerge g v b m)
  | .sqSclr g => some (rowSqSclr g)
  | .sqStemp g a => some (rowSqStemp g a)
  | .sqStopk g a => some (rowSqStopk g a)
  | .sqStopp g a => some (rowSqStopp g a)
  | .sqSdraw g a b => some (rowSqSdraw g a b)
  | .sqSdrawLin g a b => some (rowSqSdrawLin g a b)
  | .sqSgetVal g a => some (rowSqSgetVal g a)
  | .sqSgetIdx g a => some (rowSqSgetIdx g a)
  | .sqSgetProb g a => some (rowSqSgetProb g a)
  | .sqSgetTprob g a => some (rowSqSgetTprob g a)
  | .sqSgetSum g => some (rowSqSgetSum g)
  | .sqBalloc g d a => some (rowSqBalloc g d a)
  | .sqBfree g a k => some (rowSqBfree g a k)
  | .sqBfreeAcq g a k => some (rowSqBfreeAcq g a k)
  | .sqKvapp g a b k => some (rowSqKvapp g a b k)
  | .sqKvappList g a b k => some (rowSqKvappList g a b k)
  | .sqKvfork g a b k => some (rowSqKvfork g a b k)
  | .sqKvroll g a k => some (rowSqKvroll g a k)
  | .sqKvcommit g a b k => some (rowSqKvcommit g a b k)
  | .sqKvwinGet g d a => some (rowSqKvwinGet g d a)
  | .sqKvwinSet g d a b => some (rowSqKvwinSet g d a b)
  | .sqSquash g a b k => some (rowSqSquash g a b k)
  | .sqGbind g a b k => some (rowSqGbind g a b k)
  | .sqGbindReset g a b k => some (rowSqGbindReset g a b k)
  | .sqGbindDrop g a k => some (rowSqGbindDrop g a k)
  | .sqGstep g a b k => some (rowSqGstep g a b k)
  | .sqGmask g a b k => some (rowSqGmask g a b k)
  | .sqGfork g a b k => some (rowSqGfork g a b k)
  | .sqGrollEnt g a b k => some (rowSqGrollEnt g a b k)
  | .sqGrollPos g a b k => some (rowSqGrollPos g a b k)
  | .sqGcommit g a b k => some (rowSqGcommit g a b k)
  | .sqItnext g d a b => some (rowSqItnext g d a b)
  | .sqItdone g a b k => some (rowSqItdone g a b k)
  | .sqItyield g a b k => some (rowSqItyield g a b k)
  | .sqSchw g a b k => some (rowSqSchw g a b k)
  | .sqRpop g d => some (rowSqRpop g d)
  | _ => none

/-- The slots of a decoded bundle that are not NOP, in slot order. -/
def bundleOps (is : List Instr) : List SlotOp := (is.filter (fun i => !i.isNop)).filterMap slotOp

end Sys2Proof.Machine
end

