-- ==== Sys2Proof/Machine/Cycle.lean ====
section
/-! DEFINITION. One cycle of a compute core (01_organisation.md R19-R25): who holds issue, the events of a bundle boundary, fetch and skips
(02_bundle.md R36-R41), issue, and then the engines of the core and the end of the cycle. -/

namespace Sys2Proof.Machine

/-! ### Who holds issue (R19, R21, R323) -/

/-- May a context take issue in the present cycle: none does in the cycle in which one blocks, and that one does not in the next (R21)? -/
def Core.mayTake (x : Core) (c : Nat) : Bool :=
  match x.barred with
  | none => true
  | some (b, t) => t != x.cycle && !(b == c && (t + 1) % 2 ^ 64 == x.cycle)

/-- The first READY context of a core in the order index + 1, ..., index (modulo 4) (R21). -/
def nextReady (s : State) (g last : Nat) : Option Nat :=
  ((List.range 4).map (fun i => 4 * g + (last + 1 + i) % 4)).find? (fun c => (s.ctx c).st == .ready && (s.core g).mayTake c)

/-- TAKE_ISSUE: on a core without an ACTIVE context, the first READY one becomes ACTIVE (R21). -/
def takeIssue (s : State) (g : Nat) : State :=
  let x := s.core g
  if x.active.isSome then s
  else match nextReady s g x.last with
    | none => s
    | some c => (s.modCtx c (fun y => { y with st := .active, why := .none })).modCore g (fun x => { x with active := some c, hold := none, wait := none })

/-- GIVE_UP_ISSUE: the firmware's YIELD takes effect at a bundle boundary: issue passes as if the context had blocked, and it stays READY;
a freeze never changes the ACTIVE context, and the core issues nothing while a trap drains (R21, R22, R45, R323). -/
def giveUpIssue (s : State) (g : Nat) : State :=
  let x := s.core g
  match x.active with
  | none => s.modCore g (fun x => { x with yields := false })
  | some c =>
    if !x.yields || (s.ctx c).frz != 0 || (s.ctx c).trap.isSome then s
    else (barIssue (s.modCtx c (fun y => { y with st := .ready })) c).modCore g (fun x => { x with yields := false })

/-- Has the condition that a BLOCKED context waits for cleared (R20, R115, R195, R240, R241, R281, R293)? -/
def unblocked (s : State) (c : Nat) : Bool :=
  let x := s.ctx c
  match x.why with
  | .none => true
  | .queueFull => x.watch.isNone
  | .returnsFull => decide (x.aq.length < 16)
  | .aqEmpty => match x.aq with | e :: _ => e.arrived | [] => false
  | .rqEmpty => match x.rq with | e :: _ => e.arrived | [] => false
  | .token k => !x.tokPending k
  | .address => x.watch.isNone
  | .barrier => x.barPass.isSome
  | .maceFull => decide ((s.core (coreOf c)).mace.length < 8)
  | .samplerFull => decide ((s.core (coreOf c)).samp.length < 16)
  | .returnsReserved => decide ((s.core (coreOf c)).samp.length < 16) && decide (x.rq.length < 8)
  | .sequence u => match u with
    | 0 => decide (heldAnise s x.tid x.rank < 8)
    | 1 => decide (heldClove s x.tid x.rank < 4)
    | _ => decide (heldWalk s x.tid x.rank < 4)

/-- A BLOCKED context whose condition has cleared becomes READY (R19). -/
def wakeContext (s : State) (c : Nat) : State :=
  if (s.ctx c).st == .blocked && unblocked s c then s.modCtx c (fun x => { x with st := .ready, watch := none }) else s

/-! ### Fetch (R36-R41) -/

/-- The decoded slots of a context's next bundle. -/
def fetch (s : State) (c : Nat) : Option (List Instr) :=
  let x := s.ctx c
  match (s.seal x.handle).code[x.pc / 32]? with
  | none => none
  | some b => match decodeBundle b with
    | .ok is => some is
    | .error _ => none

/-- Does the BR slot of a bundle transfer control, with its guard as it reads now (R36)? -/
def transfers (s : State) (c : Nat) : List Instr → Bool
  | i :: _ =>
    readGuard s c i.guard && (match i with
      | .brJmp _ _ | .brCall _ _ | .brJmpr _ _ | .brRet _ | .brTret _ | .brExit _ => true
      | .brLoop _ l _ => decide (1 < (readLc s c l.toNat).toNat)
      | _ => false)
  | [] => false

/-- Is the bundle skipped: a non-NOP slot, and every non-NOP slot's guard false (R40)? -/
def skips (s : State) (c : Nat) (ops : List SlotOp) : Bool := !ops.isEmpty && ops.all (fun o => !readGuard s c o.guard)

/-- Were the guard predicates of a skipped bundle all settled two cycles ago (R41)? -/
def settledSkip (s : State) (c : Nat) (ops : List SlotOp) : Bool := ops.all (fun o => (s.ctx c).settled (.p o.guard.p.toNat))

/-- The next bundle that is not skipped without a cycle, and what is left of it. -/
inductive Fetched where
  /-- the slots that reach issue -/
  | slots (ops : List SlotOp)
  /-- sequential fetch would pass the end of the image (R36), at a bundle that events may be taken at: one that is not to be skipped (R40) -/
  | pastEnd (ev : Bool)
  /-- a skipped bundle that takes the cycle (R41) -/
  | skip
  /-- no bundle that a sealed image can hold -/
  | bad

/-- A bundle of a context is skipped (R40): the pc moves on, and a freeze in which it stood is over (R23). -/
def skipBundle (s : State) (c : Nat) : State :=
  let s := s.modCtx c (fun y => { y with pc := y.pc + 32, frz := 0, spent := 0, test := none })
  if (s.core (coreOf c)).wait.isNone then s else s.modCore (coreOf c) (fun g => { g with wait := none })

/-- Fetch from the context's pc, over the bundles that skip without a cycle; at most `n` of them. -/
def fetchFrom (c : Nat) : Nat → State → Fetched × State
  | 0, s => (.skip, s)
  | n + 1, s =>
    let x := s.ctx c
    match fetch s c with
    | none => (.bad, s)
    | some is =>
      let ops := bundleOps is
      if s.imageLen x.handle ≤ x.pc + 32 && !transfers s c is then (.pastEnd (!skips s c ops), s)
      else if skips s c ops then
        let s' := skipBundle s c
        if settledSkip s c ops then fetchFrom c n s' else (.skip, s')
      else (.slots ops, s)

/-- Does the fetch of a context's next bundle stand before it now: no trap is draining, no delay and no bubble runs (R38, R45, R136)? -/
def Context.atFetch (x : Context) : Bool := x.trap.isNone && x.delay == 0 && x.bubble == 0 && !x.exits

/-- BUNDLE_SKIP: the next bundle of the ACTIVE context is skipped, if it is one to skip (R40): without a cycle where its guards were settled
two cycles ago; otherwise the context holds issue for one cycle in which nothing issues (R41), kept as a bubble. -/
def bundleSkip (s : State) (g : Nat) : State :=
  match (s.core g).active with
  | none => s
  | some c =>
    let x := s.ctx c
    match fetch s c with
    | none => s
    | some is =>
      if !x.atFetch then s
      else if s.imageLen x.handle ≤ x.pc + 32 && !transfers s c is then
        if skips s c (bundleOps is) then takeTrap s c 9 (BitVec.ofNat 64 (s.imageLen x.handle)) x.handle x.pc else s
      else if skips s c (bundleOps is) then
        if settledSkip s c (bundleOps is) then skipBundle s c else (skipBundle s c).modCtx c (fun y => { y with bubble := 1 })
      else s

/-! ### Issue -/

/-- How many cycles a bundle of core g is still to wait for memory (R22): none that makes no access of the virtual space. -/
def memoryWait (s : State) (g c : Nat) (ops : List SlotOp) : Nat :=
  let x := s.core g
  if ops.any (fun o => (o.mem c s).isSome && readGuard s c o.guard) then x.wait.getD (x.lat.headD 0) else 0

/-- What the slots of a context's next bundle answer that prevents issue in the present cycle. -/
def answers (s : State) (c : Nat) (ops : List SlotOp) : List Verdict := (runSlots c ops (walkSlots c ops s)).2

/-- Does the bundle that stands at issue freeze the core in the present cycle: it waits for memory, or a slot of it waits for data and no walk has
ended absent (R22, R370)? -/
def freezesNow (s : State) (g c : Nat) (ops : List SlotOp) : Bool :=
  decide (0 < memoryWait s g c ops) || ((freezeSpent 0 (answers s c ops)).isSome && (absentOf (answers s c ops)).isNone)

/-- A bundle that reads memory may wait for it (R22): the latency list of the core says for how many cycles (DESIGN CHOICE, log entry 13). -/
def issueBundle (s : State) (g c : Nat) (ops : List SlotOp) : State :=
  let x := s.core g
  if x.wait.isNone && x.lat.isEmpty then issueSlots c ops s
  else
    let mem := ops.any (fun o => (o.mem c s).isSome && readGuard s c o.guard)
    if !mem then issueSlots c ops s
    else
      let w := x.wait.getD (x.lat.headD 0)
      let s := s.modCore g (fun x => { x with wait := some (w - 1), lat := if x.wait.isNone then x.lat.drop 1 else x.lat })
      if 0 < w then freezeCycle s c (s.ctx c).spent
      else
        let t := issueSlots c ops s
        if (t.ctx c).frz = 0 then t.modCore g (fun x => { x with wait := none }) else t

/-- Does the bundle that stands at issue bring about a containment unwind in this cycle: its data is there, and poison is the cause that is
taken, in a region of the context's level (R378, R381)? -/
def unwindsNow (s : State) (g c : Nat) (ops : List SlotOp) : Bool :=
  if 0 < memoryWait s g c ops then false
  else
    let vs := answers s c ops
    match freezeSpent 0 vs, takenOf vs with
    | none, some (.poison _ true _) => regionOpen (s.ctx c)
    | _, _ => false

/-- The untranslated store of the lowest address: the ring slot's own address, which a fault record and TINFO name (R369). -/
def lowestUnresolved (l : List Store) : Option Store :=
  l.foldl (fun r t => if t.pa.isSome then r else match r with
    | none => some t
    | some u => if t.va < u.va then some t else r) none

/-- The ring-slot stores of a context that have no place yet are translated again and performed before its next bundle (R369): an absent page
saves the task, a refused one discards them and traps at this boundary, where the context has not left it by a `br.exit`. The flag tells that the
boundary is spent. -/
def resolveStores (s : State) (c : Nat) : State × Bool :=
  match lowestUnresolved (s.ctx c).stores with
  | none => (s, false)
  | some t =>
    match translate s (dieOf (coreOf c)) (.core (coreOf c)) t.asid t.va .write false with
    | .ok pa _ s =>
      let s := flushStores (s.modCtx c (fun x => { x with stores := x.stores.map (fun u =>
        if u.pa.isNone && u.asid == t.asid && u.va / 4096 == t.va / 4096 then { u with pa := some (pa / 4096 * 4096 + u.va % 4096) } else u) })) c
      (s, !(s.ctx c).stores.isEmpty)
    | .absent l s => (pageFault s c t.asid t.va .write l false, true)
    | .wait => (s, true)
    | .refused s =>
      let u := s.modCtx c (fun x => { x with stores := x.stores.filter (fun u => u.pa.isSome) })
      if (s.ctx c).exits then (u, false) else (boundaryTrap u c 11 (BitVec.ofNat 64 t.va), true)

/-- A context whose access was answered ERROR traps with ACCESS at the bundle at which it stands (R367), also where a `br.exit` has issued there and
waits; ring-slot stores to that page are discarded, as those of a refused page are (R369; DEDUCED, log entry 25). -/
def refuseAccess (s : State) (c va : Nat) : State :=
  boundaryTrap (s.modCtx c (fun y => { y with
    refused := none, exits := false, stores := y.stores.filter (fun u => u.pa.isSome || u.va / 4096 != va / 4096) })) c 11 (BitVec.ofNat 64 va)

/-- The events that a context takes at a bundle boundary, in this order (log entry 23): an access answered ERROR (R367), a data-wait event that an
unwind came before (R381), a squash event (R305), ring-slot stores that wait for their page (R369). The flag tells that the cycle is spent. -/
def boundaryEvents (s : State) (c : Nat) : State × Bool :=
  let x := s.ctx c
  match x.refused with
  | some va => (refuseAccess s c va, true)
  | none =>
    if x.dwDue then (dataWait (s.modCtx c (fun y => { y with dwDue := false })) c, true)
    else if mayTakeSquash s c then (takeSquash s c (x.squash.getD 0), true) else resolveStores s c

/-- All that comes before fetch in a cycle of the ACTIVE context: a pending trap entry or unwind (R147, R380), a delay, of which each cycle
is a boundary for events (R38), a bubble (R136), a `br.exit` whose ring-slot stores wait for their page (R369). The flag tells that the cycle is spent. A handler's first bundle may issue in the cycle
after the one at whose end the last pending result has landed (DEDUCED, log entry 61). -/
def boundary (s : State) (c : Nat) : State × Bool :=
  let x := s.ctx c
  if x.trap.isSome then
    if x.pend.all (fun p => p.landed) then
      let s := enterPending s c
      (s, (s.ctx c).st != .active)
    else (s, true)
  else if x.exits then
    match x.refused with
    | some va => (refuseAccess s c va, true)
    | none =>
      match resolveStores s c with
      | (s, true) => (s, true)
      | (s, false) => (exitContext s c, true)
  else if 0 < x.delay then
    match boundaryEvents s c with
    | (s, true) => (s, true)
    | (s, false) => (s.modCtx c (fun y => { y with delay := y.delay - 1 }), true)
  else if 0 < x.bubble then (s.modCtx c (fun y => { y with bubble := y.bubble - 1 }), true)
  else (s, false)

/-- What the ACTIVE context does in a cycle. A skipped bundle is no place for an event (R40): events are taken at the bundle that reaches
issue, and after an unwind that it brings about in the same cycle (R381). -/
def issuePhase (s : State) (g c : Nat) : Except Fault State :=
  match boundary s c with
  | (s, true) => .ok s
  | (s, false) =>
    match fetchFrom c ((s.seal (s.ctx c).handle).code.length + 1) s with
    | (.bad, _) => .error .unsealed
    | (.skip, s) => .ok s
    | (.pastEnd ev, s) =>
      match if ev then boundaryEvents s c else (s, false) with
      | (s, true) => .ok s
      | (s, false) => let x := s.ctx c; .ok (takeTrap s c 9 (BitVec.ofNat 64 (s.imageLen x.handle)) x.handle x.pc)
    | (.slots ops, s) =>
      if (s.ctx c).squash.isSome && unwindsNow s g c ops then .ok (issueBundle s g c ops)
      else match boundaryEvents s c with
        | (s, true) => .ok s
        | (s, false) => .ok (issueBundle s g c ops)

/-! ### The end of a cycle -/

/-- Can a context issue no bundle in the present cycle: its trap drains, a delay or a bubble runs, or it exits? -/
def Context.idle (x : Context) : Bool := x.exits || decide (0 < x.delay) || decide (0 < x.bubble) || (x.trap.isSome && !x.pend.all (fun p => p.landed))

/-- Has the vector slot of a core nothing to do in the present cycle, so that the other engines may use the queues (R185)? -/
def State.vxIdle (s : State) (g : Nat) : Bool :=
  match (s.core g).active with
  | some c => (s.ctx c).idle && !(s.core g).yields
  | none => (List.range 4).all (fun i => (s.ctx (4 * g + i)).st != .ready || (s.ctx (4 * g + i)).idle)

/-- The context that has been ACTIVE in the present cycle: also one that has blocked in it (R21). -/
def Core.wasActive (x : Core) : Option Nat :=
  match x.active with
  | some c => some c
  | none => match x.barred with
    | some (c, t) => if t = x.cycle then some c else none
    | none => none

/-- EXPIRY: a context's count toward QUANT, of cycles in which another context of the core is READY (R323). -/
def countQuantum (s : State) (g : Nat) : State :=
  match (s.core g).wasActive with
  | none => s
  | some c =>
    let x := s.ctx c
    if x.quant = 0 || !((List.range 4).any (fun i => 4 * g + i != c && (s.ctx (4 * g + i)).st == .ready)) then s
    else if x.quant ≤ x.quota + 1 then
      postEvent (s.modCtx c (fun y => { y with quota := 0 })) (dieOf g) 3 x.tid c 0
    else s.modCtx c (fun y => { y with quota := y.quota + 1 })

/-- Commands of a core on their way to Anise and the walkers come nearer; those that arrive in one cycle take their places by their s a operand
and their context number (R261), or by the latter alone (R350). -/
def tickArrivals (s : State) (g : Nat) : State :=
  if s.anise.isEmpty && s.walks.isEmpty then s
  else { s with
    anise := arrivals s g (fun q o => decide (q.a.toNat < o.a.toNat) || (q.a == o.a && decide (q.ctx < o.ctx))) s.anise
    walks := arrivals s g (fun q o => decide (q.ctx < o.ctx)) s.walks }

/-- The log is cleared after every event that lands in the issue cycle of a `br.fevclr` (R152). -/
def clearLogs (s : State) (g : Nat) : State :=
  (List.range 4).foldl (fun s i =>
    if (s.ctx (4 * g + i)).fevClr then s.modCtx (4 * g + i) (fun x => { x.fevClear with fevClr := false }) else s) s

/-- The contexts of a core whose task a save has met in this cycle stop, after what they did in it; one that has exited stays so (14_dispatch.md
R325, R332; 16_faults.md R367). -/
def haltStops (s : State) (g : Nat) : State :=
  (List.range 4).foldl (fun s i =>
    let x := s.ctx (4 * g + i)
    if x.halt then (if x.st = .exited then s.modCtx (4 * g + i) (fun x => { x with halt := false }) else s.stopContext (4 * g + i)) else s) s

/-- The engines of a core and the end of the cycle: pending results age and land (R43), the clocks advance (R103, R121); a context that a save has met
in the cycle stops at the boundary that follows it (R326). -/
def endCycle (s : State) (g : Nat) : State :=
  let s := clearLogs ((queueEngines s g).modCore g (fun x => { x with engDone := false })) g
  let s := tickRows s g
  let s := s.modCore g (fun x => (((x.tickWins).tickBusy).tickPaths).tickTiles)
  let s := s.modCore g Core.tickSp
  let s := tickSampler (tickClove s g) g
  let s := s.modCore g Core.tickQueues
  let s := (List.range 4).foldl (fun s i => agePend s (4 * g + i)) s
  let s := countQuantum (tickArrivals s g) g
  let s := s.modCore g (fun x => { x with cycle := (x.cycle + 1) % 2 ^ 64, pts := if x.cycle % 16 = 15 then tick64 (x.pts + 1) else x.pts })
  let s := haltStops (s.modCore g (fun x => { x with tagWas := none, used := [] })) g
  (List.range 4).foldl (fun s i => wakeContext (lateArrival s (4 * g + i)) (4 * g + i)) s

/-- The tags are kept as they stand before the cycle's bundle, where Mace has work (04_memory.md R109). -/
def keepTags (s : State) (g : Nat) : State :=
  if (s.core g).mace.isEmpty then s else s.modCore g (fun x => { x with tagWas := some x.tag })

/-- One cycle of core g. -/
def coreCycle (s : State) (g : Nat) : Host.Outcome State Fault Refusal :=
  if 320 ≤ g then .fault .noCore
  else
    let s := takeIssue (giveUpIssue (keepTags s g) g) g
    match (s.core g).active with
    | none => .next (settleAll (endCycle s g))
    | some c => match issuePhase s g c with
      | .error f => .fault f
      | .ok s => .next (settleAll (endCycle (settleIssue s) g))

end Sys2Proof.Machine
end

