-- ==== Sys2Proof/Machine/Reliability.lean ====
section
/-! DEFINITION. Corrected and uncorrected errors and poisoning (17_reliability.md R374-R379), links and ports that lose lanes, retrain,
replay flits and advertise their cost (R389-R392, 18_host.md R397), and the external interrupts of the system cores (01_organisation.md R33). -/

namespace Sys2Proof.Machine

/-! ### Errors -/

/-- ERROR_CORRECTED: a corrected error is counted; ECNTC stops at 2^32 - 1 (R375, R382). -/
def errorCorrected (s : State) (die : Nat) : State :=
  if 2 ≤ die then s else s.modDie die (fun d => { d with ecntc := min (d.ecntc + 1) (2 ^ 32 - 1) })

/-- A new poisoning is counted on its die, and ELAST takes the word's address (R376). -/
def countPoison (s : State) (die : Nat) (addr : W64) : State :=
  s.modDie die (fun d => { d with ecntu := (d.ecntu + 1) % 2 ^ 32, elast := addr })

/-- Elements of a latch column that the i-th 8-byte word of the latch holds (DESIGN CHOICE, log entry 33): column and elements. -/
def latchWord (g : Core) (l i : Nat) : Nat × List Nat :=
  let f := Fmt.ofCode (g.tagOf l)
  let w := if g.tagOf l = 15 then 8 else f.width
  let cols := if f = .f64 ∧ g.tagOf l ≠ 15 then 32 else 64
  (i / cols % 32, (List.range (64 / w)).map (fun j => i % cols * (64 / w) + j))

/-- A list with the entry at a place replaced, longer lists only. -/
def putAt {α : Type} (l : List α) (i : Nat) (v : α) : List α := l.set i v

/-- A word of a core's own stores is marked poisoned, and its value becomes unspecified (R374, R376): space 1 scratchpad, 2 tile registers,
3 latches, 4 accumulator memory, 6 trellis table, each by 8-byte words. -/
def Core.poisonWord (g : Core) (space w v : Nat) : Core :=
  match space with
  | 1 => { g.setBad 1 w true with sp := SMap.set 0 g.sp w (BitVec.ofNat 64 v) }
  | 2 => { g.setBad 2 w true with tile := SMap.set 0 g.tile w (BitVec.ofNat 64 v) }
  | 3 =>
    let l := w / 2048
    let (n, ks) := latchWord g l (w % 2048)
    let col := g.latCol l n
    let g := ks.foldl (fun g k => g.setBad 3 (latPlace l n k) true) g
    { g with latch := SMap.set [] g.latch (l * 32 + n) (ks.foldl (fun c k => putAt c k (v / 2 ^ (8 * (k % 8)) % 2 ^ 64)) col) }
  | 4 => (((g.setCell (2 * w) v).setCell (2 * w + 1) (v / 2 ^ 32)).setBad 4 (2 * w % 131072) true).setBad 4 ((2 * w + 1) % 131072) true
  | _ => (List.range 4).foldl (fun g j =>
      { g.setBad 6 (4 * w + j) true with tab := SMap.set (0 : BitVec 16) g.tab (4 * w + j) (BitVec.ofNat 16 (v / 2 ^ (16 * j))) }) g

/-- Is a word of a core's own stores poisoned already? -/
def Core.wordPoisoned (g : Core) (space w : Nat) : Bool :=
  match space with
  | 3 => let (n, ks) := latchWord g (w / 2048) (w % 2048)
         ks.any (fun k => g.bad 3 (latPlace (w / 2048) n k))
  | 4 => g.bad 4 (2 * w % 131072) || g.bad 4 ((2 * w + 1) % 131072)
  | 6 => (List.range 4).any (fun j => g.bad 6 (4 * w + j))
  | _ => g.bad space w

/-- 8-byte words of a space of R379. -/
def spaceWords : Nat → Nat
  | 1 => 393216 | 2 => 32768 | 3 => 8192 | 4 => 65536 | 6 => 1024 | _ => 0

/-- A queue entry is poisoned as a whole (R374): place 16 * q plus its place from the oldest. -/
def poisonEntry (s : State) (die unit w : Nat) : State :=
  let qu := SMap.get Queue.init (s.core unit).queues (w / 16)
  match qu.entries[w % 16]? with
  | none => s
  | some e =>
    if e.poison then s
    else
      let (v, s) := s.drawFree 60
      let qu := { qu with entries := qu.entries.set (w % 16) { e with poison := true, val := BitVec.ofNat 2048 v } }
      countPoison (s.modCore unit (fun g => { g with queues := SMap.set Queue.init g.queues (w / 16) qu })) die (localAddr 5 unit w)

/-- The physical address of the page that a held translation gives a page number. -/
def Tlb.page (t : Tlb) : Nat := leafPa t.pte t.level (t.vpn * 4096) / 4096

/-- A virtual address that a table of a level, which serves the addresses from `va` on, maps to a physical one (16_faults.md R356, R357): an entry is
valid only where bit 0 of its first byte is listed. -/
def State.mappedIn (s : State) (pa : Nat) : Nat → Nat → Nat → Option Nat
  | 0, _, _ => none
  | level + 1, table, va =>
    (s.mem.filter (fun c => c.1 / 4096 == table && c.1 % 8 == 0 && c.2.getLsbD 0)).findSome? (fun c =>
      let p := s.word c.1
      let v := va + 2 ^ (12 + 9 * level) * (c.1 % 4096 / 8)
      if pbit p 1 || pbit p 2 || pbit p 3 then
        (if leafOk p level && decide (leafPa p level v ≤ pa) && decide (pa < leafPa p level v + 2 ^ (12 + 9 * level)) then some (v + (pa - leafPa p level v))
         else none)
      else s.mappedIn pa level (pppn p) v)

/-- A virtual address that the address spaces of a die's ASID table map to a physical one (16_faults.md R355, R357): a valid entry has bit 7 of its
eighth byte listed. -/
def State.mappedAt (s : State) (die pa : Nat) : Option Nat :=
  let base := (s.die die).asidtb.toNat % 2 ^ 48
  (s.mem.filter (fun c => decide (base ≤ c.1) && decide (c.1 < base + 2 ^ 20) && (c.1 - base) % 16 == 7 && c.2.getLsbD 7)).findSome? (fun c =>
    s.mappedIn pa 4 ((s.word (c.1 - 7)).toNat % 2 ^ 44) 0)

/-- The virtual address of a word of memory in a poison report (R379): one under which some agent holds its page, or the tables of its home die or of
the other map it; of a word that is mapped nowhere one with its page offset (a free value; DESIGN CHOICE, log entry 33). -/
def State.vaOf (s : State) (pa page : Nat) : Nat :=
  match s.tlbs.find? (fun t => t.page == pa / 4096) with
  | some t => sx48 (t.vpn % 2 ^ 36 * 4096 + pa % 4096)
  | none => sx48 (((s.mappedAt (homeDie pa) pa).or (s.mappedAt (1 - homeDie pa) pa)).getD (page % 2 ^ 36 * 4096 + pa % 4096))

/-- The L1F segment whose bytes stand at a place, and the place's offset in it (01_organisation.md R16, 04_memory.md R97). -/
def State.l1fOf (s : State) (pa : Nat) : Option (Segment × Nat) :=
  s.tasks.findSome? (fun t => (t.2.segs.find? (fun g => g.scope == 1 && decide (l1fPlace t.1 g 0 ≤ pa) && decide (pa < l1fPlace t.1 g g.bytes))).map
    (fun g => (g, pa - l1fPlace t.1 g 0)))

/-- An 8-byte word of memory or of the fused L1, by its place and its virtual address, becomes poisoned. -/
def poisonMem (s : State) (die pa va : Nat) : State :=
  if s.badAt pa 8 then s
  else
    let (v, s) := s.drawFree 61
    countPoison ((s.writeN pa 8 v).setBad pa true) die (vaWord va)

/-- POISONING: an uncorrectable error marks a word poisoned; its value is then unspecified, ECNTU counts it and ELAST names it (R376). Space 0
is memory at its home die, and the L1F segments at their clusters' die. -/
def poisoning (s : State) (die space unit w : Nat) : State :=
  if space = 0 then
    match s.l1fOf (8 * w) with
    | some (g, off) => if g.cluster / 20 = die then poisonMem s die (8 * w) (g.base + off) else s
    | none =>
      if memBytes ≤ 8 * w ∨ homeDie (8 * w) ≠ die then s
      else
        let (a, s) := s.drawFree 62
        poisonMem s die (8 * w) (s.vaOf (8 * w) a)
  else if 320 ≤ unit ∨ dieOf unit ≠ die then s
  else if space = 5 then poisonEntry s die unit w
  else if spaceWords space ≤ w ∨ (s.core unit).wordPoisoned space w = true then s
  else
    let (v, s) := s.drawFree 63
    countPoison (s.modCore unit (fun g => g.poisonWord space w v)) die (localAddr space unit (8 * w))

/-- PARITY_ERROR_KILL: a parity error in a task's registers, frame or snapshot latches kills the task with stamp POISON (R374, R378). -/
def parityError (s : State) (tid : Nat) : State := s.beginKill tid 8

/-! ### Links (R389-R392, R397). Links 0 to 47 join the dies, 48 to 59 are the GFT ports, 60 and 61 the host ports, 62 and 63 the storage
ports of the dies. -/

/-- Is a link enabled (R397), a GFT port only where the configuration allows it (R406) and not in PA3 (R404)? The die-to-die links train at boot stage 1 and at the exit from PA3 (R405, R407), and anew after that whenever they
lose lanes (R389). -/
def State.linkOn (s : State) (n : Nat) : Bool :=
  if n < 48 then s.pstate != 3 && (decide (1 ≤ (s.die 0).bootStage) || decide (1 ≤ (s.die 1).bootStage))
  else if n < 60 then s.pstate != 3 && s.gftAllowed.testBit (n - 48) && ((s.die 0).gften.testBit (n - 48) || (s.die 1).gften.testBit (n - 48))
  else if n < 62 then (s.die (n - 60)).perst
  else (s.die (n - 62)).storcfg.getLsbD 0

/-- The state in which a link comes out of training: a working half for each half that has not been lost (R389). -/
def Link.trained (l : Link) : Nat := 2 - l.lost.length

/-- When all 48 die-to-die links are down, ELAST receives all ones (R392), on both dies. -/
def noteAllDown (s : State) : State :=
  if (List.range 48).all (fun n => (s.link n).state == 0) then
    (s.modDie 0 (fun d => { d with elast := BitVec.allOnes 64 })).modDie 1 (fun d => { d with elast := BitVec.allOnes 64 })
  else s

/-- LANE_FAIL: the lane's half or group is dropped, and the link retrains on what remains; with nothing left it is down (R389, R391).
Lanes 0 to 3 are one half or group, 4 to 7 the other. -/
def laneFail (s : State) (n lane : Nat) : State :=
  let l := s.link n
  if 60 ≤ n ∨ 8 ≤ lane ∨ l.state = 0 ∨ l.lost.contains (lane / 4) = true then s
  else
    let l := { l with lost := lane / 4 :: l.lost }
    let s := s.modLink n (fun _ => { l with state := if l.trained = 0 then 0 else 3 })
    if n < 48 ∧ l.trained = 0 then noteAllDown s else s

/-- LINK_TRAINED: the training of an enabled link ends (R389, R397): it comes up with the halves that it has, and a port may instead fail to train and
stay down. Whether a port's partner answers, and the speed and width of a host or storage port, are choices from outside (DESIGN CHOICE, log
entry 34). -/
def linkTrained (s : State) (n : Nat) : State :=
  let l := s.link n
  if 64 ≤ n ∨ l.state ≠ 3 ∨ s.linkOn n = false then s
  else if n < 48 then noteAllDown (s.modLink n (fun l => { l with state := l.trained }))
  else
    let (fails, s) := s.drawFree 65
    if fails % 2 = 1 then s.modLink n (fun l => { l with state := 0 })
    else if n < 60 then s.modLink n (fun l => { l with state := l.trained })
    else
    let (v, s) := s.drawFree 64
    let s := s.modLink n (fun l => { l with state := 2 })
    if n < 62 then s.modDie (n - 60) (fun d => { d with hspeed := 4 + v % 3, hwidth := 2 + v / 3 % 3 })
    else s.modDie (n - 62) (fun d => { d with sspeed := 3 + v % 3 })

/-- FLIT_REPLAY: a flit that failed its check is replayed; REPLAY stops at 2^32 - 1 (R390, R391). -/
def flitReplay (s : State) (n : Nat) : State :=
  if 64 ≤ n ∨ ¬((s.link n).state = 1 ∨ (s.link n).state = 2) then s
  else s.modLink n (fun l => { l with replay := min (l.replay + 1) (2 ^ 32 - 1) })

/-- LSTAT.COST (R391). -/
def linkCost (n : Nat) (l : Link) : Nat :=
  if n < 48 then 0 else match l.state with | 2 => 1 | 1 => 2 | _ => 0xFFFF

/-- LSTAT.WGT (R391). -/
def Link.weight (l : Link) : Nat := match l.state with | 2 => 8 | 1 => 4 | _ => 0

/-- LWIN.WND (R391), for GFT ports. -/
def Link.window (l : Link) : Nat := match l.state with | 2 => l.wbase | 1 => l.wbase / 2 | _ => 0

/-- LSTAT (R391). -/
def linkStat (n : Nat) (l : Link) : W64 := BitVec.ofNat 64 (linkCost n l * 2 ^ 48 + l.weight * 2 ^ 40 + l.state % 4 * 2 ^ 32 + l.replay % 2 ^ 32)

/-- LWIN (R391): 0 for a die-to-die link. -/
def linkWin (n : Nat) (l : Link) : W64 := if n < 48 then 0 else BitVec.ofNat 64 (l.window * 2 ^ 32 + l.wbase % 2 ^ 32)

/-- ROUTE_ADVERTISEMENT: a GFT port's present cost is carried to its peers (R392). -/
def routeAdvert (s : State) (port : Nat) : State :=
  if 12 ≤ port then s else s.modLink (48 + port) (fun l => { l with advert := linkCost (48 + port) l })

/-- TRAINING_RETRY: an enabled port that is down trains again (R397). -/
def trainingRetry (s : State) (n : Nat) : State :=
  if 64 ≤ n ∨ (s.link n).state ≠ 0 ∨ s.linkOn n = false then s else s.modLink n (fun l => { l with state := 3 })

/-- A port is taken down (R397): it trains anew when it is enabled again. -/
def portDown (s : State) (n : Nat) : State := s.modLink n (fun l => { l with state := 0, lost := [] })

/-- A port whose enable bit becomes 1 begins training; one whose bit becomes 0 goes down (R397). -/
def portEnable (s : State) (n : Nat) (was on : Bool) : State :=
  if was == on then s else if on then s.modLink n (fun l => { l with state := 3 }) else portDown s n

/-- A write of GFTEN of a die (R400). -/
def gftWrite (s : State) (die v : Nat) : State :=
  let old := (List.range 12).map (fun p => s.linkOn (48 + p))
  let s := s.modDie die (fun d => { d with gften := v % 2 ^ 12 })
  (List.range 12).foldl (fun s p => portEnable s (48 + p) (old.getD p false) (s.linkOn (48 + p))) s

/-- GFT_PORT_ENABLE: bit p of GFTEN (R397, R400). -/
def gftPortEnable (s : State) (die port : Nat) (on : Bool) : State :=
  if 2 ≤ die ∨ 12 ≤ port then s
  else
    let v := (s.die die).gften
    gftWrite s die (if v.testBit port = on then v else if on then v + 2 ^ port else v - 2 ^ port)

/-- A write of STORCFG (R400): the enable bit starts or stops the storage port. -/
def storWrite (s : State) (die : Nat) (v : W64) : State :=
  let old := (s.die die).storcfg.getLsbD 0
  let v := v &&& 0xFFFF00000000001D
  let s := s.modDie die (fun d => { d with storcfg := v, sspeed := if v.getLsbD 0 then d.sspeed else 0 })
  portEnable s (62 + die) old (v.getLsbD 0)

/-- STORAGE_PORT_ENABLE (R397). -/
def storagePortEnable (s : State) (die : Nat) (on : Bool) : State :=
  if 2 ≤ die then s
  else
    let v := (s.die die).storcfg
    storWrite s die (if on then v ||| 1 else v &&& ~~~1)

/-- PERST_DEASSERT: the host port of a die begins training (R397). -/
def perstDeassert (s : State) (die : Nat) : State :=
  if 2 ≤ die ∨ (s.die die).perst = true then s
  else (s.modDie die (fun d => { d with perst := true })).modLink (60 + die) (fun l => { l with state := 3 })

/-! ### External interrupts of the system cores (R33): level-triggered sources -/

/-- Does a fault record that the kernel has not read name the core by FIRQ of its ASID (R364)? -/
def faultPending (s : State) (die h : Nat) : Bool :=
  let d := s.die die
  let n := (d.ftail + 2 ^ 16 - d.fhead) % 2 ^ 16
  (List.range n).any (fun i =>
    let a := fieldOf d.fring 47 0 + 32 * ((d.fhead + i) % 2 ^ 16 % 2 ^ d.frLog)
    let asid := fieldOf (s.word (a + 8)) 63 48
    fieldOf (s.word (d.asidtb.toNat % 2 ^ 48 + 16 * asid + 8)) 2 0 == h)

/-- SEIP of system core h of a die (R33): unread fault records, counted poisonings, an audit mismatch, a drive's interrupt. -/
def externalPending (s : State) (die h : Nat) : Bool :=
  let d := s.die die
  faultPending s die h || (d.ecntu != 0 && d.ecfg == h) || (die == 0 && s.mismatch && fieldOf s.sumcfg 39 37 == h)
  || (d.storIrq && fieldOf d.storcfg 4 2 == h)

/-- DRIVE_MSIX: a drive's MSI-X write interrupts the core that STORCFG.IRQ names (R400), while the storage port is up. -/
def driveMsix (s : State) (die : Nat) : State :=
  if 2 ≤ die ∨ (s.link (62 + die)).state ≠ 2 then s else s.modDie die (fun d => { d with storIrq := true })

end Sys2Proof.Machine
end

