-- ==== Sys2Proof/Machine/Ports.lean ====
section
/-! DEFINITION. The power states of the package (18_host.md R402-R405) and the requests that arrive at the host port, the network ports and
the storage ports (R398-R401). -/

namespace Sys2Proof.Machine

/-! ### Power (R402-R405) -/

/-- The latency tolerance that a host port last reported; none when it reports no requirement or is down (R403). -/
def Die.tolerance (d : Die) : Option Nat := if d.hspeed = 0 then none else d.ltr

/-- Λ of R403 in nanoseconds: 0xFFFF_FFFF means no limit. -/
def lambda (s : State) : Nat := min ((s.die 0).tolerance.getD 0xFFFFFFFF) ((s.die 1).tolerance.getD 0xFFFFFFFF)

/-- The exit latency of a power state in nanoseconds (R403). -/
def exitLatency : Nat → Nat
  | 0 => 0 | 1 => 2000 | 2 => 60000 | _ => 5000000

/-- Is a slot of a registered queue valid and not accepted: a claim from RIDX on whose valid word stands in the ring (R230, R404)? -/
def slotWaits (s : State) (a : Agent) (die asid line ring lsize size : Nat) : Bool :=
  let first := s.word (64 * line + 8)
  (List.range (min (2 ^ lsize) (s.word (64 * line) - first).toNat)).any (fun i =>
    let c := (first + BitVec.ofNat 64 i).toNat
    (match translate s die a asid (ring + size * (c % 2 ^ lsize)) .read false with
     | .ok pa _ _ => fieldOf (s.word pa) 63 40 == c % 2 ^ 24
     | _ => false))

/-- Is some engine of a die at work, or does a registered queue or the fault ring hold something (R404)? -/
def dieBusy (s : State) (die : Nat) : Bool :=
  let d := s.die die
  d.engines.any (fun e => !e.2.packets.isEmpty || e.2.queues.any (fun q => slotWaits s (.copy die e.1) die q.asid q.line q.ring q.lsize 64))
  || d.lqs.any (fun q => slotWaits s (.dispatch die) die q.asid q.line q.ring q.lsize 128)
  || d.recs.any (fun r => r.state != .finished) || !d.sealQueue.isEmpty || !d.dcmd.isEmpty || !d.tlbi.isEmpty || !d.quars.isEmpty
  || !d.faults.isEmpty || d.ftail != d.fhead

/-- Is the boot of a die over: its last stage is complete, or it has stopped (R407)? -/
def Die.booted (d : Die) : Bool := d.bootStop || decide (6 ≤ d.bootNext)

/-- The idle condition of PA1 and PA2 (R404); a package that still boots is not idle, so that TARGET is 0 at reset (R402; DEDUCED, log entry 53). -/
def packageIdle (s : State) : Bool :=
  (s.die 0).booted && (s.die 1).booted && s.bound.isEmpty && !dieBusy s 0 && !dieBusy s 1 && s.anise.isEmpty && s.walks.isEmpty && s.squashes.isEmpty && s.dwrites.isEmpty
  && s.cores.all (fun g => g.2.mace.isEmpty && g.2.clove.isEmpty && g.2.samp.isEmpty && g.2.tcmds.isEmpty)

/-- May the package enter a power state now (R403, R404)? -/
def mayEnter (s : State) (k : Nat) : Bool :=
  decide (exitLatency k ≤ lambda s) && (k == 0 || (packageIdle s && !s.hold)) &&
  (k != 3 || (s.hostP3 && s.kernP3 && s.tasks.all (fun t => t.2.state != 4)))

/-- TARGET: the deepest state that meets R403. -/
def powerTarget (s : State) : Nat := if mayEnter s 3 then 3 else if mayEnter s 2 then 2 else if mayEnter s 1 then 1 else 0

/-- What a die keeps over PA3 (R404, R405): BOOTSTAT, the host-interface and power windows, and the management core's own state. -/
def Die.sleep (d : Die) : Die :=
  { Die.init with
    hcfg := d.hcfg, hspeed := d.hspeed, hwidth := d.hwidth, hmsix := d.hmsix, ltr := d.ltr, perst := d.perst, bootCode := d.bootCode,
    bootStage := d.bootStage, bootStop := d.bootStop, bootNext := if d.bootStop then d.bootNext else 3, signKey := d.signKey,
    blocks := d.blocks, idhash := d.idhash, asleep := true, held := d.held }

/-- The first byte of the management core's own memory of a die (DESIGN CHOICE, log entry 35). -/
def ownBase (die : Nat) : Nat := 2 ^ 44 + 2 ^ 40 * die

/-- The package in PA3: BMEM, L2 and all other state are lost, GFT ports are down (R404). -/
def deepSleep (s : State) : State :=
  let down := (List.range 12).map (fun p => (48 + p, { Link.init with state := 0 }))
  let host := [60, 61].map (fun n => (n, s.link n))
  { State.reset with
    moves := s.moves, focus := s.focus, free := s.free, serial := s.serial, mem := s.mem.filter (fun c => decide (ownBase 0 ≤ c.1) && decide (c.1 < 2 ^ 50)),
    dies := [(0, (s.die 0).sleep), (1, (s.die 1).sleep)], links := down ++ host.filter (fun p => decide (p.2 ≠ Link.init)),
    harts := s.harts.filter (fun p => p.1 % 9 == 8), pstate := 3, hostP3 := s.hostP3, hold := s.hold, kernP3 := s.kernP3,
    flash := s.flash, floors := s.floors, powerLimit := s.powerLimit, gftAllowed := s.gftAllowed }

/-- POWER_STATE_ENTRY: the package enters TARGET when that is deeper than where it is (R404); the dwell times are time. -/
def powerEntry (s : State) : State :=
  let k := powerTarget s
  if k ≤ s.pstate then s else if k = 3 then deepSleep s else { s with pstate := k }

/-- GFT ports that were enabled in PA3, where they are down (R404), begin training (R397). -/
def startGft (s : State) : State :=
  (List.range 12).foldl (fun s p =>
    if s.linkOn (48 + p) then s.modLink (48 + p) (fun l => if l.state = 0 then { l with state := 3 } else l) else s) s

/-- Back to PA0 (R405): after PA3 the die-to-die links train again, with failure code 4 when none comes up, and boot goes on at stage 3. -/
def wakeUp (s : State) : State :=
  if s.pstate ≠ 3 then { s with pstate := 0 }
  else
    let s := startGft ((List.range 48).foldl (fun s n => s.modLink n (fun l => { l with state := l.trained })) { s with pstate := 0 })
    if (List.range 48).all (fun n => (s.link n).state == 0) then
      (s.modDie 0 (fun d => { d with bootCode := 4, bootStop := true })).modDie 1 (fun d => { d with bootCode := 4, bootStop := true })
    else s

/-- POWER_WAKE (R405): a TLP (0), a flit (1), a storage interrupt (2), a write of HOLD (3), a fall of Λ below the exit latency (4), or the
management firmware's timer (5) ends the state. -/
def powerWake (s : State) (ev : Nat) : State :=
  if s.pstate = 0 ∨ 5 < ev ∨ (ev = 4 ∧ exitLatency s.pstate ≤ lambda s) then s else wakeUp s

/-- LTR_MESSAGE: a host port reports its latency tolerance, the lower of its snoop and no-snoop values; 0xFFFF_FFFF is no requirement (R403).
A fall below the present exit latency wakes the package (R405). -/
def ltrMessage (s : State) (die ns : Nat) : State :=
  if 2 ≤ die ∨ (s.die die).hspeed = 0 then s
  else
    let s := s.modDie die (fun d => { d with ltr := if 0xFFFFFFFF ≤ ns then none else some ns })
    powerWake s 4

/-! ### Requests from outside (R398-R401) -/

/-- What an operation does to the old value of `size` bytes (R398). -/
def opResult (op : MemOp) (size : Nat) (old v cmp : Nat) : Nat :=
  match op with
  | .read => old
  | .write => v % 256 ^ size
  | .fetchAdd => (old + v) % 256 ^ size
  | .swap => v % 256 ^ size
  | .cas => if old = cmp % 256 ^ size then v % 256 ^ size else old

/-- The kind of access. -/
def opAcc : MemOp → Acc
  | .read => .read
  | .write => .write
  | _ => .rmw

/-- May a request of this size take place (R93, R98, R398)? A TLP that carries more, up to 512 bytes written or 4,096 read, is the accesses of its
words one after another in ascending order, each a step of its own (DEDUCED, log entry 34). -/
def opSizeOk (op : MemOp) (size addr : Nat) : Bool :=
  (match op with
   | .read | .write => size == 1 || size == 2 || size == 4 || size == 8
   | _ => size == 4 || size == 8) && addr % size == 0

/-- A request performed at a physical address as one point (R98, R99), a compare-and-swap that fails too (R101, R105): a word computed from a poisoned one stays poisoned (R377); the value
that a reader gets leaves the package. -/
def memAccess (s : State) (a : Agent) (pa size : Nat) (op : MemOp) (v cmp : W64) : State :=
  match op with
  | .read => s.loadHome a pa 1
  | .write => s.storePhys a pa size v.toNat
  | _ =>
    let (_, bad, s) := s.rmwPhys a pa size (fun old => opResult op size old v.toNat cmp.toNat)
    if bad && op != .swap then s.setBad pa true else s

/-- A request under translation at U level (R362): an absent or refused page performs nothing and writes a notice (R363); one whose home is out of
reach has not been performed yet (17_reliability.md R392). -/
def portAccess (s : State) (a : Agent) (die code asid va size : Nat) (op : MemOp) (v cmp : W64) : State :=
  if !opSizeOk op size va then s
  else match translate s die a asid va (opAcc op) false with
    | .wait => s
    | .refused s => notice s die code asid va (opAcc op) 0
    | .absent l s => notice s die code asid va (opAcc op) l
    | .ok pa _ s' => if s.reach die pa then memAccess s' a pa size op v cmp else s

/-- An access of the host at a die's port (R405): it wakes the package, and one that finds the die on its way from PA3 back to stage 4 of its boot is
held until then. Before stage 4 of its first boot a die serves none (R407). -/
def hostAccess (s : State) (die : Nat) (i : HostAccess) (run : State → State) : State :=
  if (s.die die).hspeed = 0 then s
  else
    let s := powerWake s 0
    if (s.die die).asleep then s.modDie die (fun d => { d with held := d.held ++ [i] })
    else if (s.die die).bootStage < 4 then s
    else run s

/-- A read, write or AtomicOp of the host through the aperture of a die (R399, R408). -/
def bar2Run (s : State) (die off : Nat) (op : MemOp) (size : Nat) (v cmp : W64) : State :=
  let d := s.die die
  if d.hcfg.getLsbD 0 then portAccess s (.host die) die 7 (fieldOf d.hcfg 63 48) (fieldOf d.hcfg 47 36 * 2 ^ 36 + off |> sx48) size op v cmp
  else if opSizeOk op size off then memAccess s (.host die) (die * (192 * 2 ^ 30) + off) size op v cmp
  else s

/-- BAR2_ACCESS (R396, R399, R408), once the die serves its BARs. -/
def bar2Access (s : State) (die off : Nat) (op : MemOp) (size : Nat) (v cmp : W64) : State :=
  if 2 ≤ die ∨ 2 ^ 36 < off + size then s
  else hostAccess s die (.bar2 off op size v cmp) (fun s => bar2Run s die off op size v cmp)

/-- Does some GFT port carry traffic? -/
def gftUp (s : State) : Bool := (List.range 12).any (fun p => (s.link (48 + p)).state == 1 || (s.link (48 + p)).state == 2)

/-- PEER_REQUEST (R401): a peer's request to a 48-bit virtual address under NASID; it wakes the package (R405), whose GFT ports are down in PA3 (R404). -/
def peerRequest (s : State) (die : Nat) (va : W64) (op : MemOp) (size : Nat) (v cmp : W64) : State :=
  if 2 ≤ die ∨ s.pstate = 3 ∨ gftUp s = false ∨ ((opAcc op) = .rmw ∧ size ≠ 8) then s
  else portAccess (powerWake s 1) (.net die) die 8 (fieldOf (s.die die).netcfg 63 48) (sx48 va.toNat) size op v cmp

/-- STORAGE_DMA (R366, R401): a drive's read or write under STASID; in a power state it waits for the exit (R404; DEDUCED, log entry 53). -/
def storageDma (s : State) (die : Nat) (va : W64) (op : MemOp) (size : Nat) (v : W64) : State :=
  if 2 ≤ die ∨ s.pstate ≠ 0 ∨ (s.link (62 + die)).state ≠ 2 ∨ (opAcc op) = .rmw then s
  else portAccess s (.stor die) die 9 (fieldOf (s.die die).storcfg 63 48) va.toNat size op v 0

/-- DRIVE_MSIX in a power state is a wake event (R405). -/
def driveInterrupt (s : State) (die : Nat) : State := driveMsix (powerWake s 2) die

end Sys2Proof.Machine
end

