-- ==== Sys2Proof/Machine/Boot.lean ====
section
/-! DEFINITION. Start-up: signed blocks, the stages of boot, the loading of the kernel, identity and attestation (18_host.md R406-R410). SHA-256
and RSASSA-PKCS1-v1_5 are taken from FIPS 180-4 and RFC 8017, which R406 names (PRESUMED, log entry 36). -/

namespace Sys2Proof.Machine

/-! ### SHA-256 -/

/-- The round constants. -/
def shaK : List Nat :=
  ([0x428A2F98, 0x71374491, 0xB5C0FBCF, 0xE9B5DBA5, 0x3956C25B, 0x59F111F1, 0x923F82A4, 0xAB1C5ED5] ++
   [0xD807AA98, 0x12835B01, 0x243185BE, 0x550C7DC3, 0x72BE5D74, 0x80DEB1FE, 0x9BDC06A7, 0xC19BF174] ++
   [0xE49B69C1, 0xEFBE4786, 0x0FC19DC6, 0x240CA1CC, 0x2DE92C6F, 0x4A7484AA, 0x5CB0A9DC, 0x76F988DA] ++
   [0x983E5152, 0xA831C66D, 0xB00327C8, 0xBF597FC7, 0xC6E00BF3, 0xD5A79147, 0x06CA6351, 0x14292967] ++
   [0x27B70A85, 0x2E1B2138, 0x4D2C6DFC, 0x53380D13, 0x650A7354, 0x766A0ABB, 0x81C2C92E, 0x92722C85] ++
   [0xA2BFE8A1, 0xA81A664B, 0xC24B8B70, 0xC76C51A3, 0xD192E819, 0xD6990624, 0xF40E3585, 0x106AA070] ++
   [0x19A4C116, 0x1E376C08, 0x2748774C, 0x34B0BCB5, 0x391C0CB3, 0x4ED8AA4A, 0x5B9CCA4F, 0x682E6FF3] ++
   [0x748F82EE, 0x78A5636F, 0x84C87814, 0x8CC70208, 0x90BEFFFA, 0xA4506CEB, 0xBEF9A3F7, 0xC67178F2])

/-- The initial hash value. -/
def shaH : List Nat := [0x6A09E667, 0xBB67AE85, 0x3C6EF372, 0xA54FF53A, 0x510E527F, 0x9B05688C, 0x1F83D9AB, 0x5BE0CD19]

/-- Rotate a 32-bit word right. -/
def rotr32 (x n : Nat) : Nat := x / 2 ^ n + x % 2 ^ n * 2 ^ (32 - n)

/-- The next word of the message schedule from the last sixteen, newest first. -/
def shaNext (w : List Nat) : Nat :=
  let a := w.getD 14 0
  let b := w.getD 1 0
  let s0 := rotr32 a 7 ^^^ rotr32 a 18 ^^^ a / 8
  let s1 := rotr32 b 17 ^^^ rotr32 b 19 ^^^ b / 2 ^ 10
  (w.getD 15 0 + s0 + w.getD 6 0 + s1) % 2 ^ 32

/-- The message schedule, newest first, after `n` more words. -/
def shaSchedule (w : List Nat) : Nat → List Nat
  | 0 => w
  | n + 1 => shaSchedule (shaNext w :: w) n

/-- One round on the eight working variables. -/
def shaRound (v : List Nat) (k w : Nat) : List Nat :=
  match v with
  | [a, b, c, d, e, f, g, h] =>
    let s1 := rotr32 e 6 ^^^ rotr32 e 11 ^^^ rotr32 e 25
    let ch := (e &&& f) ^^^ ((2 ^ 32 - 1 - e) &&& g)
    let t1 := h + s1 + ch + k + w
    let s0 := rotr32 a 2 ^^^ rotr32 a 13 ^^^ rotr32 a 22
    let mj := (a &&& b) ^^^ (a &&& c) ^^^ (b &&& c)
    [(t1 + s0 + mj) % 2 ^ 32, a, b, c, (d + t1) % 2 ^ 32, e, f, g]
  | v => v

/-- One 64-byte block, as sixteen words. -/
def shaBlock (h ws : List Nat) : List Nat :=
  let sched := (shaSchedule ws.reverse 48).reverse
  let v := (shaK.zip sched).foldl (fun v p => shaRound v p.1 p.2) h
  (h.zip v).map (fun p => (p.1 + p.2) % 2 ^ 32)

/-- A number from bytes, most significant first. -/
def beNat (l : List Nat) : Nat := l.foldl (fun n b => n * 256 + b) 0

/-- The bytes of a number, most significant first. -/
def beBytes (n len : Nat) : List Nat := (List.range len).map (fun i => n / 256 ^ (len - 1 - i) % 256)

/-- The padded message. -/
def shaPad (l : List Nat) : List Nat :=
  l ++ [0x80] ++ List.replicate ((119 - l.length % 64) % 64) 0 ++ beBytes (8 * l.length) 8

/-- All blocks of a padded message, at most `n` of them. -/
def shaBlocks (h l : List Nat) : Nat → List Nat
  | 0 => h
  | n + 1 =>
    if l.length < 64 then h
    else shaBlocks (shaBlock h ((List.range 16).map (fun i => beNat ((l.drop (4 * i)).take 4)))) (l.drop 64) n

/-- SHA-256, as a number whose most significant byte is the first byte of the hash. -/
def sha256 (l : List Nat) : Nat := (shaBlocks shaH (shaPad l) (l.length / 64 + 2)).foldl (fun n w => n * 2 ^ 32 + w) 0

/-! ### RSASSA-PKCS1-v1_5 with SHA-256 -/

/-- A number squared `n` times modulo m. -/
def squareMod (m x : Nat) : Nat → Nat
  | 0 => x % m
  | n + 1 => squareMod m (x * x % m) n

/-- The encoded message of a hash in 384 bytes. -/
def rsaMessage (h : Nat) : Nat :=
  beNat ([0, 1] ++ List.replicate 330 0xFF ++ [0] ++
    [0x30, 0x31, 0x30, 0x0d, 0x06, 0x09, 0x60, 0x86, 0x48, 0x01, 0x65, 0x03, 0x04, 0x02, 0x01, 0x05, 0x00, 0x04, 0x20] ++ beBytes h 32)

/-- Does a signature verify with public exponent 65,537? -/
def rsaVerify (m sig h : Nat) : Bool := decide (0 < m) && decide (sig < m) && squareMod m sig 16 * (sig % m) % m == rsaMessage h

/-- A power modulo m, of an exponent's low `n` bits. -/
def powMod (m b e : Nat) : Nat → Nat
  | 0 => 1 % m
  | n + 1 => let h := powMod m b (e / 2) n
             if e % 2 = 1 then h * h % m * b % m else h * h % m

/-- The signature of a message's hash by the identity key (R409, R410; RFC 8017 8.2.1). -/
def identitySign (h : Nat) : Nat := powMod (Config.identityKey 0 % 2 ^ 3072) (rsaMessage h) (Config.identityExponent 0 % 2 ^ 3072) 3072

/-! ### Signed blocks (R406) -/

/-- A signed block as it stands, byte by byte. -/
abbrev Signed := List Nat

/-- A little-endian field of a block. -/
def Signed.le (b : Signed) (pos n : Nat) : Nat := ((b.drop pos).take n).foldr (fun x r => x + 256 * r) 0

/-- TYPE of a block. -/
def Signed.kind (b : Signed) : Nat := Signed.le b 6 2
/-- LEN of a block. -/
def Signed.len (b : Signed) : Nat := Signed.le b 0 4
/-- VERSION of a block. -/
def Signed.version (b : Signed) : Nat := Signed.le b 8 8
/-- KHASH of a block. -/
def Signed.khash (b : Signed) : Nat := beNat ((b.drop 16).take 32)
/-- MOD of a block, as bytes. -/
def Signed.modulus (b : Signed) : List Nat := (b.drop 48).take 384
/-- The payload. -/
def Signed.payload (b : Signed) : List Nat := (b.drop 448).take (Signed.len b)
/-- The block with its signature, and nothing after it. -/
def Signed.whole (b : Signed) : Signed := b.take (448 + Signed.len b + 384)

/-- Why a block of a type is not accepted, as the failure code of R407: 1 key hash, 2 signature, 3 rollback; the last argument lists the key
hashes that the type allows. -/
def blockCode (b : Signed) (t floor : Nat) (keys : List Nat) : Option Nat :=
  if !keys.contains (Signed.khash b) || sha256 (Signed.modulus b) != Signed.khash b then some 1
  else if Signed.kind b != t || Signed.len b % 8 != 0 || decide (b.length < 448 + Signed.len b + 384)
    || !rsaVerify (beNat (Signed.modulus b)) (beNat ((b.drop (448 + Signed.len b)).take 384)) (sha256 (b.take (448 + Signed.len b))) then some 2
  else if Signed.version b < floor then some 3
  else none

/-- The key hashes that a block of a type may carry (R406): the root key, or the accepted signing key's for firmware and kernel. -/
def keysFor (d : Die) (t : Nat) : List Nat := Config.rootKeyHash :: (if t = 2 ∨ t = 3 then d.signKey.toList else [])

/-- A block of package flash (PRESUMED, log entry 36). -/
def State.flashBlock (s : State) (t : Nat) : Signed := (SMap.get [] s.flash t).map (fun b => b.toNat)

/-- A block is accepted: its hash and version are kept for the report, the floor of its type rises, and a TYPE 4 block names the signing
key by the hash that stands first in its payload (R406, R410); a TYPE 1 block gives the package power limit, 3,000 W at most, and the GFT ports
allowed (R406; their places in the payload PRESUMED, log entry 36). -/
def acceptBlock (s : State) (die t : Nat) (b : Signed) : State :=
  let s := s.modDie die (fun d => { d with
    blocks := SMap.put (SMap.del d.blocks t) t (sha256 (Signed.whole b), Signed.version b)
    signKey := if t = 4 then some (beNat ((Signed.payload b).take 32)) else d.signKey })
  { s with
    powerLimit := if t = 1 then min 3000 (Signed.le (Signed.payload b) 0 8) else s.powerLimit
    gftAllowed := if t = 1 then Signed.le (Signed.payload b) 8 8 % 2 ^ 12 else s.gftAllowed
    floors := SMap.set 0 s.floors t (max (SMap.get 0 s.floors t) (Signed.version b)) }

/-- A stage verifies one block: accepted, or the code of its failure. -/
def takeBlock (s : State) (die t : Nat) (b : Signed) : Except Nat State :=
  match blockCode b t (SMap.get 0 s.floors t) (keysFor (s.die die) t) with
  | some c => .error c
  | none => .ok (acceptBlock s die t b)

/-- KSRC of the configuration payload (R406; PRESUMED, log entry 36): 1 loads the kernel from the host. -/
def State.ksrc (s : State) : Bool := (Signed.payload (s.flashBlock 1)).getD 16 0 % 2 == 1

/-! ### The stages of boot (R407) -/

/-- A boot that stops: BOOTSTAT takes the code. -/
def bootFail (s : State) (die code : Nat) : State := s.modDie die (fun d => { d with bootCode := code, bootStop := true })

/-- A stage is complete: BOOTSTAT.STAGE names it. -/
def bootDone (s : State) (die n : Nat) : State := s.modDie die (fun d => { d with bootStage := n, bootNext := n + 1 })

/-- The die-to-die links train (R397, R407): each comes up with the halves that it has. -/
def trainLinks (s : State) : State :=
  (List.range 48).foldl (fun s n => s.modLink n (fun l => if l.state = 3 then { l with state := l.trained } else l)) s

/-- Are the die-to-die links up: at least one carries traffic? -/
def linksUp (s : State) : Bool := (List.range 48).any (fun n => (s.link n).state == 1 || (s.link n).state == 2)

/-- Bytes written one after another. -/
def State.putBytes (s : State) (pa : Nat) : List Nat → State
  | [] => s
  | b :: r => (s.setByte pa (BitVec.ofNat 8 b)).putBytes (pa + 1) r

/-- Stage 1: the TYPE 4 and TYPE 1 blocks, and the links. -/
def bootStage1 (s : State) (die : Nat) : State :=
  match takeBlock s die 4 (s.flashBlock 4) with
  | .error c => bootFail s die c
  | .ok s => match takeBlock s die 1 (s.flashBlock 1) with
    | .error c => bootFail s die c
    | .ok s =>
      let s := trainLinks s
      if linksUp s then bootDone s die 1 else bootFail s die 4

/-- Stage 2: the TYPE 2 block goes into the management core, which starts at its first byte (DESIGN CHOICE, log entry 35). A wrong key counts as a
signature that does not verify (R407 lists codes 2 and 3). -/
def bootStage2 (s : State) (die : Nat) : State :=
  let b := s.flashBlock 2
  match takeBlock s die 2 b with
  | .error c => bootFail s die (max 2 c)
  | .ok s =>
    let s := s.putBytes (ownBase die) (Signed.payload b)
    bootDone (s.setHart (9 * die + 8) { Hart.init with runs := true, pc := BitVec.ofNat 64 (ownBase die) }) die 2

/-- Stage 3: every BMEM and L2 word of the die is written (its value is that of memory never written, DESIGN CHOICE, log entry 2), and the identity is
derived: IDHASH is the hash of the public modulus (R409). Memory that cannot be written ends the boot with code 5 (R407); whether it can is a free
value (log entry 5). -/
def bootStage3 (s : State) (die : Nat) : State :=
  let (fails, s) := s.drawFree 66
  if fails % 2 = 1 then bootFail s die 5
  else
  let lo := die * (192 * 2 ^ 30)
  let hi := lo + 192 * 2 ^ 30
  let s : State := { s with mem := s.mem.filter (fun c => !(decide (lo ≤ c.1) && decide (c.1 < hi)))
                            memPoison := s.memPoison.filter (fun p => !(decide (lo ≤ 8 * p.1) && decide (8 * p.1 < hi))) }
  bootDone (s.modDie die (fun d => { d with idhash := sha256 (beBytes (Config.identityKey 0 % 2 ^ 3072) 384) })) die 3

/-- Where a die's kernel block stands: at the start of its own BMEM (R408). -/
def kernelBase (die : Nat) : Nat := die * (192 * 2 ^ 30)

/-- The kernel block in a die's own BMEM. -/
def kernelBlock (s : State) (die : Nat) : Signed :=
  let head := (List.range 448).map (fun i => (s.byte (kernelBase die + i)).toNat)
  (List.range (448 + Signed.len head + 384)).map (fun i => (s.byte (kernelBase die + i)).toNat)

/-- The eight system cores of a die start in machine mode at the kernel's entry, its first payload byte (R407; PRESUMED, log entry 36). -/
def startHarts (s : State) (die : Nat) : State :=
  (List.range 8).foldl (fun s h =>
    s.setHart (9 * die + h) { Hart.init with runs := true, pc := BitVec.ofNat 64 (kernelBase die + 448) }) s

/-- Stage 5 on a kernel block that stands in the die's BMEM. -/
def bootKernel (s : State) (die : Nat) : State :=
  match takeBlock s die 3 (kernelBlock s die) with
  | .error c => bootFail s die (max 2 c)
  | .ok s => bootDone (startHarts s die) die 5

/-- Stage 5: the kernel from flash, or from the host once KLOAD.GO has been written (R407, R408). -/
def bootStage5 (s : State) (die : Nat) : State :=
  if s.ksrc then (if (s.die die).kload then bootKernel s die else s)
  else
    let b := s.flashBlock 3
    if b.isEmpty then bootFail s die 6 else bootKernel (s.putBytes (kernelBase die) (Signed.whole b)) die

/-- BOOT: the next stage of a die's boot (R407): a die whose partner has stopped stops with code 7. Boot stands still in a power state (R405). From
stage 4 on BAR0 is served. -/
def bootStep (s : State) (die : Nat) : State :=
  let d := s.die die
  if 2 ≤ die ∨ s.pstate ≠ 0 ∨ d.bootStop = true ∨ 6 ≤ d.bootNext then s
  else if (s.die (1 - die)).bootStop then bootFail s die 7
  else match d.bootNext with
    | 1 => bootStage1 s die
    | 2 => bootStage2 s die
    | 3 => bootStage3 s die
    | 4 => (bootDone s die 4).modDie die (fun d => { d with asleep := false })
    | _ => bootStage5 s die

/-- KLOAD.GO: the host has placed the kernel block in the die's BMEM (R408). -/
def kloadGo (s : State) (die : Nat) : State := if 2 ≤ die then s else s.modDie die (fun d => { d with kload := true })

/-! ### Identity and attestation (R409, R410) -/

/-- BOOTSTAT. -/
def bootStat (d : Die) : W64 := BitVec.ofNat 64 (d.bootCode % 256 * 2 ^ 56 + d.bootStage % 256 * 2 ^ 48)

/-- The four words of a 32-byte value that stands in a register bank, first byte lowest (R409). -/
def hashWord (h i : Nat) : W64 := BitVec.ofNat 64 (Signed.le (beBytes h 32) (8 * i) 8)

/-- The nonce registers as bytes. -/
def nonceBytes (d : Die) : List Nat := wordBytes ((List.range 4).map (fun i => SMap.get 0 d.attn i))

/-- ATTESTATION_REQUEST: with no report being built, the firmware copies the nonce and sets BUSY (R410). -/
def attRequest (s : State) (die : Nat) : State :=
  if 2 ≤ die ∨ (s.die die).attCopy.isSome = true then s
  else s.modDie die (fun d => { d with attCopy := some (beNat (nonceBytes d)) })

/-- The report of R410 without its signature: 232 bytes. -/
def report (d : Die) (nonce : Nat) : List Nat :=
  let b (t : Nat) : Nat × Nat := SMap.get (0, 0) d.blocks t
  beBytes nonce 32 ++ beBytes d.idhash 32 ++ [4, 1, 2, 3].flatMap (fun t => beBytes (b t).1 32)
  ++ wordBytes ([4, 1, 2, 3].map (fun t => BitVec.ofNat 64 (b t).2)) ++ wordBytes [bootStat d]

/-- ATTESTATION_DONE: the report with its signature by the identity key stands in ATTBUF; DONE is set, then BUSY clears (R410). -/
def attFinish (s : State) (die : Nat) : State :=
  let d := s.die die
  match d.attCopy with
  | none => s
  | some n =>
    let body := report d n
    let bytes := body ++ beBytes (identitySign (sha256 body)) 384
    let buf := (List.range 77).foldl (fun m i => SMap.set (0 : W64) m i (BitVec.ofNat 64 (Signed.le bytes (8 * i) 8))) d.attbuf
    s.modDie die (fun d => { d with attbuf := buf, attDone := true, attCopy := none })

end Sys2Proof.Machine
end

