-- ==== Sys2Proof/Machine/Registers.lean ====
section
/-! DEFINITION. The register windows of a die (18_host.md R393-R396, R400, R402, R409; 02_bundle.md R53; 10_copy.md R229; 11_kvblocks.md R252;
14_dispatch.md R309, R319; 16_faults.md R354; 17_reliability.md R382, R391): what each register reads as, and what a write does, by writer. -/

namespace Sys2Proof.Machine

/-- The bits of a value that a register keeps. -/
def keep (v : W64) (m : Nat) : W64 := v &&& BitVec.ofNat 64 m

/-- A word from fields: pairs of place and value. -/
def pack (l : List (Nat × Nat)) : W64 := BitVec.ofNat 64 (l.foldl (fun n p => n + p.2 * 2 ^ p.1) 0)

/-! ### The device header and the capability list (R395, R396) -/

/-- The windows in the order of R394: offset, log2 of the size, identifier, version. -/
def windows : List (Nat × Nat × Nat × Nat) :=
  [(0x000000, 16, 0x0001, 1), (0x010000, 12, 0x0010, 1), (0x020000, 14, 0x0011, 1), (0x030000, 12, 0x0012, 1), (0x040000, 12, 0x0013, 1),
   (0x050000, 12, 0x0014, 1), (0x100000, 19, 0x0015, 1), (0x200000, 12, 0x0020, 1), (0x201000, 12, 0x0020, 2), (0x210000, 12, 0x0021, 1),
   (0x220000, 12, 0x0022, 1), (0x230000, 12, 0x0023, 1)]

/-- A word of the header or the list. -/
def headerRead (die w : Nat) : W64 :=
  if w = 0 then pack [(32, 0x960), (16, Config.stepping % 2 ^ 16), (8, die)]
  else if w = 1 then 0
  else match windows[(w - 2) / 2]? with
    | none => 0
    | some (base, lg, id, ver) =>
      if w % 2 = 0 then pack [(48, id), (32, ver), (24, lg), (0, if (w - 2) / 2 + 1 < windows.length then 8 * w + 16 else 0)]
      else pack [(0, base)]

/-! ### Reads -/

/-- The sealing window (R53): word w. -/
def sealRead (d : Die) (w : Nat) : W64 := if w = 2 then pack [(5, d.sealOvf.toNat), (0, 16 - d.sealQueue.length)] else 0

/-- A copy engine's window (R229). -/
def copyRead (e : Engine) (w : Nat) : W64 := if w = 2 then pack [(7, e.err.toNat), (0, e.queues.length)] else 0

/-- A pool's registers (R252). -/
def poolRead (p : Pool) : Nat → W64
  | 0 => pack [(48, p.asid), (31, p.en.toNat), (16, p.bpos), (0, p.bsz)]
  | 1 => pack [(0, p.base)]
  | 2 => pack [(0, p.nblk)]
  | 3 => pack [(0, p.pmeta)]
  | 4 => pack [(59, p.htLog), (0, p.ht)]
  | 5 => pack [(32, p.quar), (0, p.free)]
  | 6 => pack [(56, p.code), (0, p.eaddr)]
  | _ => 0

/-- The translation window (R354). -/
def translationRead (d : Die) : Nat → W64
  | 0 => d.asidtb
  | 2 => pack [(32, (!d.tlbi.isEmpty).toNat), (0, d.tlbSeq)]
  | 3 => d.fring
  | 4 => pack [(0, d.fhead)]
  | 5 => pack [(0, d.ftail)]
  | 7 => pack [(17, (d.ftail != d.fhead).toNat), (16, d.badr.toNat), (0, (d.faults.filter (fun f => f.fid.isSome)).length)]
  | _ => 0

/-- The reliability window (R382, R391): Sumac's registers stand in die 0's. -/
def reliabilityRead (s : State) (die w : Nat) : W64 :=
  let d := s.die die
  if 0x20 ≤ w ∧ w < 0x80 then (if w % 2 = 0 then linkStat ((w - 0x20) / 2) (s.link ((w - 0x20) / 2)) else linkWin ((w - 0x20) / 2) (s.link ((w - 0x20) / 2)))
  else if 0x80 ≤ w ∧ w < 0x98 then
    let n := 48 + (w - 0x80) / 2
    if w % 2 = 0 then linkStat n (s.link n) else linkWin n (s.link n)
  else match w with
    | 0 => pack [(0, d.ecntc)]
    | 1 => pack [(0, d.ecntu)]
    | 2 => d.elast
    | 3 => pack [(0, d.ecfg)]
    | 8 => if die = 0 then s.sumcfg else 0
    | 9 => if die = 0 then s.sumkey else 0
    | 10 => if die = 0 then s.sumring else 0
    | 11 => if die = 0 then pack [(0, s.sumhead)] else 0
    | 12 => if die = 0 then pack [(0, s.sumtail)] else 0
    | 13 => if die = 0 then s.sumseq else 0
    | _ => 0

/-- A task entry (R319). -/
def taskRead (t : Task) : Nat → W64
  | 0 => pack [(0, t.frb)]
  | 1 => pack [(0, t.fstr)]
  | 2 => pack [(0, t.segb)]
  | 3 => pack [(56, t.state), (0, t.live)]
  | _ => 0

/-- The dispatch window (R309, R319). -/
def dispatchRead (s : State) (die off : Nat) : W64 :=
  let d := s.die die
  if 0x10000 ≤ off ∧ off < 0x10000 + 64 * 640 then wordAt (SMap.get [] d.slots ((off - 0x10000) / 64)) (off % 64 / 8)
  else if 0x20000 ≤ off ∧ off < 0x60000 then taskRead (s.task ((off - 0x20000) / 64)) (off % 64 / 8)
  else match off / 8 with
    | 2 => pack [(17, d.lqLast), (9, d.lqErr.toNat), (0, d.lqs.length)]
    | 4 => d.dstat + BitVec.ofNat 64 d.dcmd.length
    | 5 => d.devq
    | _ => 0

/-- The host interface, versions 1 and 2 (R396). -/
def hostRead (d : Die) (v2 : Bool) : Nat → W64
  | 0 => d.hcfg
  | 1 => pack [(4, d.hwidth), (0, d.hspeed)]
  | 3 => if v2 then d.hmsix else 0
  | _ => 0

/-- The ports window (R400). -/
def portsRead (d : Die) : Nat → W64
  | 0 => d.netcfg
  | 1 => d.storcfg
  | 2 => pack [(0, d.gften)]
  | _ => 0

/-- The power window (R402): package registers. -/
def powerRead (s : State) : Nat → W64
  | 0 => pack [(4, powerTarget s), (0, s.pstate)]
  | 1 => pack [(1, s.hostP3.toNat), (0, s.hold.toNat)]
  | 2 => pack [(0, s.kernP3.toNat)]
  | 3 => pack [(0, lambda s)]
  | _ => 0

/-- The boot window (R409). -/
def bootRead (d : Die) (w : Nat) : W64 :=
  if w = 0 then bootStat d
  else if 4 ≤ w ∧ w < 8 then hashWord d.idhash (w - 4)
  else if 8 ≤ w ∧ w < 12 then SMap.get 0 d.attn (w - 8)
  else if w = 12 then pack [(2, d.attDone.toNat), (1, d.attCopy.isSome.toNat)]
  else if 32 ≤ w ∧ w < 128 then SMap.get 0 d.attbuf (w - 32)
  else 0

/-- The 8-byte register at an offset of a die's windows, 8-byte aligned (R394): reserved offsets read 0. -/
def registerRead (s : State) (die off : Nat) : W64 :=
  let d := s.die die
  if off < 0x10000 then headerRead die (off / 8)
  else if 0x10000 ≤ off ∧ off < 0x11000 then sealRead d ((off - 0x10000) / 8)
  else if 0x20000 ≤ off ∧ off < 0x20000 + 0x100 * 52 then copyRead (d.engine ((off - 0x20000) / 0x100)) (off % 0x100 / 8)
  else if 0x30000 ≤ off ∧ off < 0x30400 then poolRead (d.pool ((off - 0x30000) / 0x40)) (off % 0x40 / 8)
  else if 0x40000 ≤ off ∧ off < 0x41000 then translationRead d ((off - 0x40000) / 8)
  else if 0x50000 ≤ off ∧ off < 0x51000 then reliabilityRead s die ((off - 0x50000) / 8)
  else if 0x100000 ≤ off ∧ off < 0x180000 then dispatchRead s die (off - 0x100000)
  else if 0x200000 ≤ off ∧ off < 0x201000 then hostRead d false ((off - 0x200000) / 8)
  else if 0x201000 ≤ off ∧ off < 0x202000 then hostRead d true ((off - 0x201000) / 8)
  else if 0x210000 ≤ off ∧ off < 0x211000 then portsRead d ((off - 0x210000) / 8)
  else if 0x220000 ≤ off ∧ off < 0x221000 then powerRead s ((off - 0x220000) / 8)
  else if 0x230000 ≤ off ∧ off < 0x231000 then bootRead d ((off - 0x230000) / 8)
  else 0

/-! ### Writes -/

/-- The kernel or the management core. -/
def inside : Writer → Bool
  | .kernel | .management => true
  | _ => false

/-- A write into the sealing window (R53). -/
def sealWrite (s : State) (die asid w : Nat) (v : W64) : State :=
  match w with
  | 0 => sealSubmit s die asid v
  | 1 => sealRelease s v
  | 2 => if v.getLsbD 5 then s.modDie die (fun d => { d with sealOvf := false }) else s
  | _ => s

/-- A write into a copy engine's window (R229). -/
def copyWrite (s : State) (die eng asid w : Nat) (v : W64) : State :=
  match w with
  | 0 => cqAdd s die eng asid v
  | 1 => cqDel s die eng asid v
  | 2 => if v.getLsbD 7 then s.modEngine die eng (fun e => { e with err := false }) else s
  | _ => s

/-- The fields of PCFG but EN (R252). -/
def pcfgStore (s : State) (r : PoolRef) (v : W64) : State :=
  s.modPool r (fun p => { p with asid := fieldOf v 63 48, bpos := fieldOf v 18 16, bsz := fieldOf v 4 0 })

/-- A write into a pool's registers (R252, R253): fields other than EN and PERR are ignored while EN is 1. -/
def poolWrite (s : State) (r : PoolRef) (w : Nat) (v : W64) : State :=
  let p := s.poolAt r
  if w = 6 then s.modPool r (fun p => { p with code := fieldOf v 63 56, eaddr := fieldOf v 47 0 })
  else if p.en then (if w = 0 ∧ v.getLsbD 31 = false then poolDeregister s r else s)
  else match w with
    | 0 =>
      let s := pcfgStore s r v
      if v.getLsbD 31 then poolRegister s r else s
    | 1 => s.modPool r (fun p => { p with base := fieldOf v 47 0 })
    | 2 => s.modPool r (fun p => { p with nblk := fieldOf v 31 0 })
    | 3 => s.modPool r (fun p => { p with pmeta := fieldOf v 47 0 })
    | 4 => s.modPool r (fun p => { p with htLog := fieldOf v 63 59, ht := fieldOf v 47 0 })
    | _ => s

/-- A write into the translation window (R354). -/
def translationWrite (s : State) (die w : Nat) (v : W64) : State :=
  match w with
  | 0 => s.modDie die (fun d => { d with asidtb := keep v 0x0000FFFFFFF00000 })
  | 1 => tlbiWrite s die v
  | 3 => s.modDie die (fun d => { d with fring := keep v 0xF800FFFFFFFFFFFF })
  | 4 => s.modDie die (fun d => { d with fhead := fieldOf v 15 0 })
  | 6 => fresumeWrite s die v
  | 7 => if v.getLsbD 16 then s.modDie die (fun d => { d with badr := false }) else s
  | _ => s

/-- SUMCFG as stored: FRAC above 16 stores 16 (R382). -/
def sumcfgKept (v : W64) : W64 := (keep v 0xFFFFFFF000000000) ||| BitVec.ofNat 64 (min 16 (fieldOf v 4 0))

/-- A write into the reliability window (R382, R391). -/
def reliabilityWrite (s : State) (die w : Nat) (v : W64) : State :=
  if 0x80 ≤ w ∧ w < 0x98 ∧ w % 2 = 1 then s.modLink (48 + (w - 0x80) / 2) (fun l => { l with wbase := fieldOf v 31 0 })
  else match w with
    | 0 => s.modDie die (fun d => { d with ecntc := fieldOf v 31 0 })
    | 1 => s.modDie die (fun d => { d with ecntu := fieldOf v 31 0 })
    | 3 => s.modDie die (fun d => { d with ecfg := fieldOf v 2 0 })
    | 8 => if die = 0 then { s with sumcfg := sumcfgKept v } else s
    | 9 => if die = 0 then { s with sumkey := v } else s
    | 10 => if die = 0 then { s with sumring := keep v 0xF800FFFFFFFFFFFF } else s
    | 11 => if die = 0 then { s with sumhead := fieldOf v 15 0 } else s
    | _ => s

/-- The bits that a word of a bind record keeps (R319). -/
def bindKept : Nat → Nat
  | 0 => 0x8FFF8000FFFFFFFF | 1 => 0x03FFFFFF003FFFFF | 2 => 0 | 3 => 0 | _ => 0xFFFFFFFFFFFFFFFF

/-- A bind record with one word written; a record of zeros is as one never written. -/
def bindWrite (b : BindRec) (w : Nat) (v : W64) : BindRec :=
  let l := (List.range 8).map (fun i => if i = w then keep v (bindKept w) else wordAt b i)
  if l.all (fun x => x == 0) then [] else l

/-- A write into the dispatch window (R309, R319): DCMD, DEVQ and the two tables are the management core's. -/
def dispatchWindow (s : State) (die : Nat) (who : Writer) (asid off : Nat) (v : W64) : State :=
  let m := who == .management
  if 0x10000 ≤ off ∧ off < 0x10000 + 64 * 640 then
    let n := (off - 0x10000) / 64
    if m then s.modDie die (fun d => { d with slots := SMap.set [] d.slots n (bindWrite (SMap.get [] d.slots n) (off % 64 / 8) v) }) else s
  else if 0x20000 ≤ off ∧ off < 0x60000 then
    if !m then s
    else match off % 64 / 8 with
      | 0 => s.modTask ((off - 0x20000) / 64) (fun t => { t with frb := fieldOf v 47 0 })
      | 1 => s.modTask ((off - 0x20000) / 64) (fun t => { t with fstr := fieldOf v 31 0 })
      | 2 => s.modTask ((off - 0x20000) / 64) (fun t => { t with segb := fieldOf v 47 0 })
      | _ => s
  else match off / 8 with
    | 0 => lqAdd s die asid v
    | 1 => lqDel s die asid v
    | 2 => if v.getLsbD 9 then s.modDie die (fun d => { d with lqErr := false }) else s
    | 3 => if m then dcmdWrite s die v else s
    | 5 => if m then s.modDie die (fun d => { d with devq := keep v 0xF800FFFFFFFFFFFF }) else s
    | _ => s

/-- A write into the host interface (R396): both versions write the same registers. -/
def hostWrite (s : State) (die : Nat) (v2 : Bool) (w : Nat) (v : W64) : State :=
  match w with
  | 0 => s.modDie die (fun d => { d with hcfg := keep v 0xFFFFFFF000000001 })
  | 3 => if v2 then s.modDie die (fun d => { d with hmsix := keep v 0xFFFF }) else s
  | _ => s

/-- NETCFG as stored: PGSIZE 0 stores 1, above 4,096 stores 4,096; PEERNO at or above PGSIZE stores 0 (R400). -/
def netcfgKept (v : W64) : W64 :=
  let size := max 1 (min 4096 (fieldOf v 12 0))
  pack [(48, fieldOf v 63 48), (32, if fieldOf v 43 32 < size then fieldOf v 43 32 else 0), (0, size)]

/-- A write into the ports window (R400). -/
def portsWrite (s : State) (die w : Nat) (v : W64) : State :=
  match w with
  | 0 => s.modDie die (fun d => { d with netcfg := netcfgKept v })
  | 1 => storWrite s die v
  | 2 => gftWrite s die (fieldOf v 11 0)
  | _ => s

/-- A write into the power window (R402): only the host writes PCTL.P3OK, only the kernel PKRN; a write of HOLD is a wake event (R405). -/
def powerWrite (s : State) (who : Writer) (w : Nat) (v : W64) : State :=
  match w with
  | 1 =>
    let s := powerWake s 3
    { s with hold := v.getLsbD 0, hostP3 := if who == .host then v.getLsbD 1 else s.hostP3 }
  | 2 => if who == .kernel then { s with kernP3 := v.getLsbD 0 } else s
  | _ => s

/-- A write into the boot window (R409): the host and the kernel write ATTN and ATTCTL, the host KLOAD. -/
def bootWrite (s : State) (die : Nat) (who : Writer) (w : Nat) (v : W64) : State :=
  let hk := who == .host || who == .kernel
  if w = 1 then (if who == .host && v.getLsbD 0 then kloadGo s die else s)
  else if 8 ≤ w ∧ w < 12 then (if hk then s.modDie die (fun d => { d with attn := SMap.set 0 d.attn (w - 8) v }) else s)
  else if w = 12 then
    if !hk then s
    else
      let s := if v.getLsbD 2 then s.modDie die (fun d => { d with attDone := false }) else s
      if v.getLsbD 0 then attRequest s die else s
  else s

/-- Does a write of a register have to wait for memory that is out of reach (17_reliability.md R392): a registration, or the end of one? -/
def windowWaits (s : State) (die asid off : Nat) (v : W64) : Bool :=
  if 0x20000 ≤ off ∧ off < 0x20000 + 0x100 * 52 then cqWaits s die ((off - 0x20000) / 0x100) asid (off % 0x100 / 8) v
  else if 0x30000 ≤ off ∧ off < 0x30400 then
    off % 0x40 == 0 && v.getLsbD 31 && !(s.poolAt ⟨die, (off - 0x30000) / 0x40⟩).en &&
      poolWaits (pcfgStore s ⟨die, (off - 0x30000) / 0x40⟩ v) ⟨die, (off - 0x30000) / 0x40⟩
  else off == 0x100000 && lqWaits s die asid v

/-- A write of an 8-byte register by a writer, whose ASID serves the registers that name a virtual address (R394): an agent that is not
listed for the window changes nothing, and one that has to wait has not been performed yet. -/
def windowWrite (s : State) (die : Nat) (who : Writer) (asid off : Nat) (v : W64) : State :=
  if off % 8 ≠ 0 ∨ who = .other then s
  else if inside who && windowWaits s die asid off v then s
  else if 0x10000 ≤ off ∧ off < 0x11000 then (if inside who then sealWrite s die asid ((off - 0x10000) / 8) v else s)
  else if 0x20000 ≤ off ∧ off < 0x20000 + 0x100 * 52 then
    (if inside who then copyWrite s die ((off - 0x20000) / 0x100) asid (off % 0x100 / 8) v else s)
  else if 0x30000 ≤ off ∧ off < 0x30400 then (if inside who then poolWrite s ⟨die, (off - 0x30000) / 0x40⟩ (off % 0x40 / 8) v else s)
  else if 0x40000 ≤ off ∧ off < 0x41000 then (if inside who then translationWrite s die ((off - 0x40000) / 8) v else s)
  else if 0x50000 ≤ off ∧ off < 0x51000 then (if inside who then reliabilityWrite s die ((off - 0x50000) / 8) v else s)
  else if 0x100000 ≤ off ∧ off < 0x180000 then (if inside who then dispatchWindow s die who asid (off - 0x100000) v else s)
  else if 0x200000 ≤ off ∧ off < 0x201000 then hostWrite s die false ((off - 0x200000) / 8) v
  else if 0x201000 ≤ off ∧ off < 0x202000 then hostWrite s die true ((off - 0x201000) / 8) v
  else if 0x210000 ≤ off ∧ off < 0x211000 then (if inside who then portsWrite s die ((off - 0x210000) / 8) v else s)
  else if 0x220000 ≤ off ∧ off < 0x221000 then powerWrite s who ((off - 0x220000) / 8) v
  else if 0x230000 ≤ off ∧ off < 0x231000 then bootWrite s die who ((off - 0x230000) / 8) v
  else s

/-- ASID of a hart's satp. -/
def satpAsid (h : Hart) : Nat := fieldOf (SMap.get 0 h.csr 0x180) 59 44

/-- REGISTER_WRITE: a write of a register by the host through BAR0, once it is served, or by the kernel (as system core 0 of the die, which stands
still in a power state, R404) or the management core (R393, R394, R399). -/
def registerWrite (s : State) (die : Nat) (who : Writer) (off : Nat) (v : W64) : State :=
  if 2 ≤ die then s
  else match who with
    | .host => hostAccess s die (.reg off v) (fun s => windowWrite s die .host 0 off v)
    | .kernel => if s.pstate ≠ 0 then s else windowWrite s die .kernel (satpAsid (s.hart (9 * die))) off v
    | who => windowWrite s die who 0 off v

/-- The host writes KLOAD.GO (R408, R409): a write through BAR0 like any other, which wakes the package or is held (R405). -/
def kloadWrite (s : State) (die : Nat) : State := registerWrite s die .host 0x230008 1

/-- An access of the host that was held is performed (R405). -/
def performHeld (die : Nat) (s : State) (i : HostAccess) : State :=
  match i with
  | .bar2 off op size v cmp => bar2Access s die off op size v cmp
  | .reg off v => registerWrite s die .host off v

/-- The accesses of the host that waited for the exit from PA3 are performed in the order of their arrival, once the die serves its BARs again (R405). -/
def releaseHeld (s : State) (die : Nat) : State :=
  if (s.die die).asleep then s
  else (s.die die).held.foldl (performHeld die) (s.modDie die (fun d => { d with held := [] }))

/-- BOOT: the next stage of a die's boot (R407), and the accesses that waited for it. -/
def bootNow (s : State) (die : Nat) : State := releaseHeld (bootStep s die) die

end Sys2Proof.Machine
end

