-- ==== Sys2Proof/Machine/RvFloat.lean ====
section
/-! DEFINITION. Floating-point operations of the RISC-V harts (01_organisation.md R33, PRESUMED, log entry 6: F and D of the unprivileged ISA, version
20191213), with their accrued flags: bit 4 NV, 3 DZ, 2 OF, 1 UF, 0 NX. A format is `.f32` or `.f64`. -/

namespace Sys2Proof.Machine

/-- Does a magnitude k + r/d go up under a RISC-V rounding mode: 0 RNE, 1 RTZ, 2 RDN, 3 RUP, 4 RMM? -/
def rvUp (rm : Nat) (neg : Bool) (k r d : Nat) : Bool :=
  r != 0 && (match rm with
    | 0 => decide (d < 2 * r) || (2 * r == d && k % 2 == 1)
    | 1 => false
    | 2 => neg
    | 3 => !neg
    | _ => decide (d ≤ 2 * r))

/-- Does an overflow give infinity under a mode? -/
def rvOvfInf (rm : Nat) (neg : Bool) : Bool :=
  match rm with | 1 => false | 2 => neg | 3 => !neg | _ => true

/-- n/d * 2^e rounded into a format: the code and the flags OF, UF, NX; tininess is detected after rounding. -/
def rvPack (f : Fmt) (rm : Nat) (neg : Bool) (n d : Nat) (e : Int) : Nat × Nat :=
  if n = 0 then (f.signed neg 0, 0)
  else
    let E := expOf n d e
    let q := max E f.emin - f.mant
    let (k, r, D) := inUnits n d e q
    let k' := if rvUp rm neg k r D then k + 1 else k
    let code := (q - (f.emin - f.mant)).toNat * 2 ^ f.mant + k'
    let (k2, r2, D2) := inUnits n d e (E - f.mant)
    let tiny := decide (E < f.emin) && !(decide (E = f.emin - 1) && (if rvUp rm neg k2 r2 D2 then k2 + 1 else k2) == 2 ^ (f.mant + 1))
    if f.maxCode < code then (f.signed neg (if rvOvfInf rm neg then f.infCode else f.maxCode), 5)
    else (f.signed neg code, if r = 0 then 0 else if tiny then 3 else 1)

/-- Is a code a signalling NaN? -/
def sNan (f : Fmt) (c : Nat) : Bool := (f.decode c).isNan && c / 2 ^ (f.mant - 1) % 2 == 0

/-- NV for a signalling operand. -/
def nvIf (b : Bool) : Nat := if b then 16 else 0

/-- An exact value into a format. -/
def rvNum (f : Fmt) (rm : Nat) : Num → Nat × Nat
  | .nan => (f.nanCode, 0)
  | .inf s => (f.signed s f.infCode, 0)
  | .fin s m e => rvPack f rm s m 1 e

/-- The sum's sign rule needs only whether the mode is RDN. -/
def rvRM (rm : Nat) : RM := if rm = 2 then .rdn else .rne

/-- a + b. -/
def rvAdd (f : Fmt) (rm a b : Nat) : Nat × Nat :=
  let (x, i) := Num.add (rvRM rm) (f.decode a) (f.decode b)
  let (c, k) := rvNum f rm x
  (c, k ||| nvIf (i || sNan f a || sNan f b))

/-- The code with its sign turned. -/
def rvNeg (f : Fmt) (a : Nat) : Nat := a % 2 ^ f.width ^^^ f.signBit

/-- a - b. -/
def rvSub (f : Fmt) (rm a b : Nat) : Nat × Nat := rvAdd f rm a (rvNeg f b)

/-- a * b. -/
def rvMul (f : Fmt) (rm a b : Nat) : Nat × Nat :=
  let (x, i) := Num.mul (f.decode a) (f.decode b)
  let (c, k) := rvNum f rm x
  (c, k ||| nvIf (i || sNan f a || sNan f b))

/-- a / b. -/
def rvDiv (f : Fmt) (rm a b : Nat) : Nat × Nat :=
  let nv := nvIf (sNan f a || sNan f b)
  match f.decode a, f.decode b with
  | .nan, _ => (f.nanCode, nv)
  | _, .nan => (f.nanCode, nv)
  | .inf _, .inf _ => (f.nanCode, 16)
  | .inf s, .fin t _ _ => (f.signed (s != t) f.infCode, 0)
  | .fin s _ _, .inf t => (f.signed (s != t) 0, 0)
  | .fin s m e, .fin t n g =>
    if n = 0 then (if m = 0 then (f.nanCode, 16) else (f.signed (s != t) f.infCode, 8))
    else rvPack f rm (s != t) m n (e - g)

/-- Square root: enough bits of the root, and one more that tells whether it is inexact. -/
def rvSqrt (f : Fmt) (rm a : Nat) : Nat × Nat :=
  match f.decode a with
  | .nan => (f.nanCode, nvIf (sNan f a))
  | .inf s => if s then (f.nanCode, 16) else (f.infCode, 0)
  | .fin s m e =>
    if m = 0 then (f.signed s 0, 0)
    else if s then (f.nanCode, 16)
    else
      let sh := 130 + (e % 2).toNat
      let n := m * 2 ^ sh
      let r := Nat.sqrt n
      rvPack f rm false (2 * r + (if r * r = n then 0 else 1)) 1 ((e - (sh : Int)) / 2 - 1)

/-- a * b + c, one rounding. -/
def rvFma (f : Fmt) (rm a b c : Nat) : Nat × Nat :=
  let (p, i) := Num.mul (f.decode a) (f.decode b)
  let (x, j) := Num.add (rvRM rm) p (f.decode c)
  let (r, k) := rvNum f rm x
  (r, k ||| nvIf (i || j || sNan f a || sNan f b || sNan f c))

/-- Minimum or maximum: a NaN gives the other operand, -0 is below +0. -/
def rvMinMax (f : Fmt) (least : Bool) (a b : Nat) : Nat × Nat := (fminmax least f a b, nvIf (sNan f a || sNan f b))

/-- feq, flt, fle by function code 2, 1, 0. -/
def rvCmp (f : Fmt) (op a b : Nat) : Bool × Nat :=
  let x := f.decode a
  let y := f.decode b
  let nan := x.isNan || y.isNan
  match op with
  | 2 => (Num.eq x y, nvIf (sNan f a || sNan f b))
  | 1 => (Num.lt x y, nvIf nan)
  | _ => (!nan && !Num.lt y x, nvIf nan)

/-- fclass. -/
def rvClass (f : Fmt) (a : Nat) : Nat :=
  match f.decode a with
  | .nan => if sNan f a then 256 else 512
  | .inf s => if s then 1 else 128
  | .fin s m _ =>
    if m = 0 then (if s then 8 else 16)
    else if m < 2 ^ f.mant then (if s then 4 else 32)
    else if s then 2 else 64

/-- A value to an integer of `w` bits: out of range gives the nearest end and NV, NaN the largest. -/
def rvToInt (f : Fmt) (rm w : Nat) (sgn : Bool) (a : Nat) : Nat × Nat :=
  let hi : Int := if sgn then 2 ^ (w - 1) - 1 else 2 ^ w - 1
  let lo : Int := if sgn then -(2 ^ (w - 1)) else 0
  let out (i : Int) : Nat := (i.emod (2 ^ w)).toNat
  match f.decode a with
  | .nan => (out hi, 16)
  | .inf s => (out (if s then lo else hi), 16)
  | .fin s m e =>
    let (k, r, D) := inUnits m 1 e 0
    let k' := if rvUp rm s k r D then k + 1 else k
    let i : Int := if s then -(k' : Int) else k'
    if i < lo then (out lo, 16) else if hi < i then (out hi, 16) else (out i, if r = 0 then 0 else 1)

/-- An integer into a format. -/
def rvOfInt (f : Fmt) (rm : Nat) (i : Int) : Nat × Nat := rvPack f rm (decide (i < 0)) i.natAbs 1 0

/-- One format into another. -/
def rvCvt (src dst : Fmt) (rm a : Nat) : Nat × Nat :=
  let (c, k) := rvNum dst rm (src.decode a)
  (c, k ||| nvIf (sNan src a))

/-- An operand of a format in a 64-bit register: a single that is not NaN-boxed reads as the canonical NaN. -/
def unbox (f : Fmt) (v : W64) : Nat :=
  if f = .f32 then (if v.toNat / 2 ^ 32 = 2 ^ 32 - 1 then v.toNat % 2 ^ 32 else f.nanCode) else v.toNat

/-- A result of a format in a 64-bit register. -/
def boxed (f : Fmt) (c : Nat) : W64 := if f = .f32 then BitVec.ofNat 64 ((2 ^ 32 - 1) * 2 ^ 32 + c % 2 ^ 32) else BitVec.ofNat 64 c

end Sys2Proof.Machine
end

