-- ==== Sys2Proof/Machine/RvMachine.lean ====
section
/-! DEFINITION. The RISC-V harts of a die (01_organisation.md R33): control registers, traps and interrupts, Sv48 translation and memory. All
of it is taken from the unprivileged ISA 20191213 and the privileged architecture 20211203, which R33 names (PRESUMED, log entry 6). Harts 0 to 7 are
the system cores, hart 8 is the management core, which has M mode alone. -/

namespace Sys2Proof.Machine

/-- Why an instruction of a hart does not complete: a trap with its cause and value, or an access that has to wait; with the state that its page walks
leave (16_faults.md R359). -/
inductive RvStop where
  | trap (cause : Nat) (tval : W64) (s : State)
  | wait (s : State)
  deriving DecidableEq, Repr

/-- A hart by die and number. -/
def State.hartOf (s : State) (die n : Nat) : Hart := s.hart (9 * die + n)
/-- Replace a hart by die and number. -/
def State.setHartOf (s : State) (die n : Nat) (h : Hart) : State := s.setHart (9 * die + n) h
/-- Change a hart. -/
def State.modHart (s : State) (die n : Nat) (f : Hart → Hart) : State := s.setHartOf die n (f (s.hartOf die n))

/-- An integer register; x0 reads 0. -/
def Hart.reg (h : Hart) (r : Nat) : W64 := if r = 0 then 0 else SMap.get 0 h.x r
/-- Write an integer register; x0 discards. -/
def Hart.setReg (h : Hart) (r : Nat) (v : W64) : Hart := if r = 0 then h else { h with x := SMap.set 0 h.x r v }
/-- A control register as stored. -/
def Hart.raw (h : Hart) (n : Nat) : W64 := SMap.get 0 h.csr n
/-- Store a control register. -/
def Hart.setRaw (h : Hart) (n : Nat) (v : W64) : Hart := { h with csr := SMap.set 0 h.csr n v }
/-- A field of mstatus. -/
def Hart.st (h : Hart) (i : Nat) : Bool := (h.raw 0x300).getLsbD i
/-- mstatus.FS. -/
def Hart.fs (h : Hart) : Nat := fieldOf (h.raw 0x300) 14 13
/-- A floating-point register. -/
def Hart.freg (h : Hart) (r : Nat) : W64 := SMap.get 0 h.f r
/-- Write a floating-point register: FS becomes Dirty. -/
def Hart.setFreg (h : Hart) (r : Nat) (v : W64) : Hart :=
  let h : Hart := { h with f := SMap.set 0 h.f r v }
  h.setRaw 0x300 (h.raw 0x300 ||| 0x6000)
/-- Accrue floating-point flags. -/
def Hart.accrue (h : Hart) (k : Nat) : Hart :=
  if k = 0 then h else (h.setRaw 3 (h.raw 3 ||| BitVec.ofNat 64 k)).setRaw 0x300 (h.raw 0x300 ||| 0x6000)

/-! ### Traps -/

/-- Interrupts that wait: mip with the external interrupt of the device sources (R33). -/
def rvPending (s : State) (die n : Nat) : W64 :=
  let h := s.hartOf die n
  h.raw 0x344 ||| (if n < 8 ∧ externalPending s die n = true then 0x200 else 0)

/-- Trap entry (privileged architecture 3.1.7, 4.1.2): to S mode when the cause is delegated and the hart is not in M mode, else to M mode. -/
def rvTrap (h : Hart) (intr : Bool) (cause : Nat) (tval : W64) : Hart :=
  let code : W64 := BitVec.ofNat 64 (cause + (if intr then 2 ^ 63 else 0))
  let target (tvec : W64) : W64 :=
    let base := tvec &&& ~~~3#64
    if intr && tvec.getLsbD 0 then base + BitVec.ofNat 64 (4 * cause) else base
  let m := h.raw 0x300
  if h.mode < 3 ∧ (h.raw (if intr then 0x303 else 0x302)).getLsbD cause = true then
    let m' := setField (setField (setField m 8 8 h.mode) 5 5 (m.getLsbD 1).toNat) 1 1 0
    let h := (((h.setRaw 0x141 h.pc).setRaw 0x142 code).setRaw 0x143 tval).setRaw 0x300 m'
    { h with mode := 1, pc := target (h.raw 0x105) }
  else
    let m' := setField (setField (setField m 12 11 h.mode) 7 7 (m.getLsbD 3).toNat) 3 3 0
    let h := (((h.setRaw 0x341 h.pc).setRaw 0x342 code).setRaw 0x343 tval).setRaw 0x300 m'
    { h with mode := 3, pc := target (h.raw 0x305) }

/-- The interrupt that a hart takes now, by the order of the architecture: MEI, MSI, MTI, SEI, SSI, STI. -/
def rvInterrupt (s : State) (die n : Nat) : Option Nat :=
  let h := s.hartOf die n
  let p := rvPending s die n &&& h.raw 0x304
  let del := h.raw 0x303
  let mOn := h.mode < 3 || h.st 3
  let sOn := h.mode < 1 || (h.mode == 1 && h.st 1)
  match [11, 3, 7, 9, 1, 5].find? (fun i => p.getLsbD i && !del.getLsbD i && mOn) with
  | some i => some i
  | none => [11, 3, 7, 9, 1, 5].find? (fun i => p.getLsbD i && del.getLsbD i && sOn && decide (h.mode < 3))

/-- MRET: the mode and interrupt enable of MPP and MPIE, and MPP becomes the lowest mode of the hart, `low`; MPRV falls when the mode is below M. The
management core has M mode alone, and its MPP is 3 always (R33). -/
def rvMret (h : Hart) (low : Nat) : Hart :=
  let m := h.raw 0x300
  let mpp := max low (fieldOf m 12 11)
  let m' := setField (setField (setField m 3 3 (m.getLsbD 7).toNat) 7 7 1) 12 11 low
  let h := h.setRaw 0x300 (if mpp < 3 then setField m' 17 17 0 else m')
  { h with mode := mpp, pc := h.raw 0x341 }

/-- SRET: the mode and interrupt enable of SPP and SPIE. -/
def rvSret (h : Hart) : Hart :=
  let m := h.raw 0x300
  let m' := setField (setField (setField (setField m 1 1 (m.getLsbD 5).toNat) 5 5 1) 8 8 0) 17 17 0
  let h' := h.setRaw 0x300 m'
  { h' with mode := (m.getLsbD 8).toNat, pc := h.raw 0x141 }

/-! ### Control registers -/

/-- The bits of sstatus in mstatus: SIE, SPIE, SPP, FS, SUM, MXR. -/
def sstatusMask : Nat := 0xC6122

/-- What mstatus keeps: the system cores' fields; the management core's MIE, MPIE and FS. -/
def mstatusMask (n : Nat) : Nat := if n < 8 then 0x7E79AA else 0x6088

/-- mstatus as read: UXL and SXL are 2 on the system cores, MPP is 3 on the management core, SD tells a dirty FS. -/
def mstatusRead (h : Hart) (n : Nat) : W64 :=
  h.raw 0x300 ||| (if n < 8 then 0xA00000000 else 0x1800) ||| (if h.fs = 3 then 0x8000000000000000 else 0)

/-- Does a control register exist on the hart? -/
def csrExists (n c : Nat) : Bool :=
  c == 1 || c == 2 || c == 3 || (decide (0xC00 ≤ c) && decide (c ≤ 0xC1F)) || (decide (0xB00 ≤ c) && decide (c ≤ 0xB1F) && c != 0xB01)
  || [0x300, 0x301, 0x304, 0x305, 0x340, 0x341, 0x342, 0x343, 0x344, 0xF11, 0xF12, 0xF13, 0xF14, 0xF15, 0x320].contains c
  || (decide (0x323 ≤ c) && decide (c ≤ 0x33F)) || (decide (0x3A0 ≤ c) && decide (c ≤ 0x3EF) && !(decide (c < 0x3B0) && c % 2 == 1))
  || (decide (n < 8) && [0x302, 0x303, 0x306, 0x30A, 0x100, 0x104, 0x105, 0x106, 0x10A, 0x140, 0x141, 0x142, 0x143, 0x144, 0x180].contains c)

/-- May the hart reach a counter C00 to C1F in its mode? -/
def counterOk (h : Hart) (n c : Nat) : Bool :=
  n == 8 || ((h.mode == 3 || (h.raw 0x306).getLsbD (c % 32)) && (decide (1 ≤ h.mode) || (h.raw 0x106).getLsbD (c % 32)))

/-- The value of a control register. -/
def csrRead (s : State) (die n c : Nat) : W64 :=
  let h := s.hartOf die n
  match c with
  | 0x001 => h.raw 3 &&& 0x1F
  | 0x002 => (h.raw 3 >>> 5) &&& 7
  | 0x003 => h.raw 3
  | 0x300 => mstatusRead h n
  | 0x100 => keep (mstatusRead h n) (sstatusMask + 0x8000000300000000)
  | 0x301 => if n < 8 then 0x800000000014112D else 0x800000000000112D
  | 0x344 => rvPending s die n
  | 0x144 => rvPending s die n &&& h.raw 0x303
  | 0x104 => h.raw 0x304 &&& h.raw 0x303
  | 0xF14 => BitVec.ofNat 64 (9 * die + n)
  | 0xC00 => h.raw 0xB00
  | 0xC01 => h.raw 0xC01
  | 0xC02 => h.raw 0xB02
  | c => h.raw c

/-- mstatus after a write: MPP keeps its value on a write of 2, which is no mode. -/
def mstatusWrite (h : Hart) (n : Nat) (v : W64) : W64 :=
  let w := keep v (mstatusMask n)
  if fieldOf w 12 11 = 2 then setField w 12 11 (fieldOf (h.raw 0x300) 12 11) else w

/-- A control register is written. A value written to minstret stands in place of the increment of the instruction that writes it (unprivileged ISA 9.1),
which is still to come. -/
def csrWrite (s : State) (die n c : Nat) (v : W64) : State :=
  let h := s.hartOf die n
  let put (k : Nat) (w : W64) : State := s.setHartOf die n (h.setRaw k w)
  let fput (w : W64) : State := s.setHartOf die n ((h.setRaw 3 w).setRaw 0x300 (h.raw 0x300 ||| 0x6000))
  let part (old : W64) (m : W64) : W64 := (old &&& ~~~m) ||| (v &&& m)
  match c with
  | 0x001 => fput (part (h.raw 3) 0x1F)
  | 0x002 => fput ((h.raw 3 &&& 0x1F) ||| ((v &&& 7) <<< 5))
  | 0x003 => fput (v &&& 0xFF)
  | 0x300 => put 0x300 (mstatusWrite h n v)
  | 0x100 => put 0x300 (part (h.raw 0x300) (BitVec.ofNat 64 sstatusMask))
  | 0x302 => put c (keep v 0xB3FF)
  | 0x303 => put c (keep v 0x222)
  | 0x304 => put c (keep v (if n < 8 then 0xAAA else 0x888))
  | 0x104 => put 0x304 (part (h.raw 0x304) (h.raw 0x303))
  | 0x344 => put c (if n < 8 then keep v 0x222 else 0)
  | 0x144 => put 0x344 (part (h.raw 0x344) (h.raw 0x303 &&& 2))
  | 0x305 => if v.getLsbD 1 then s else put c v
  | 0x105 => if v.getLsbD 1 then s else put c v
  | 0x341 => put c (v &&& ~~~1#64)
  | 0x141 => put c (v &&& ~~~1#64)
  | 0x306 => put c (keep v 0xFFFFFFFF)
  | 0x106 => put c (keep v 0xFFFFFFFF)
  | 0x320 => put c (keep v 5)
  | 0x30A => put c (v &&& 1)
  | 0x10A => put c (v &&& 1)
  | 0x180 => if fieldOf v 63 60 = 0 ∨ fieldOf v 63 60 = 9 then put c v else s
  | 0x340 => put c v
  | 0x342 => put c v
  | 0x343 => put c v
  | 0x140 => put c v
  | 0x142 => put c v
  | 0x143 => put c v
  | 0xB00 => put c v
  | 0xB02 => put c (if (h.raw 0x320).getLsbD 2 then v else v - 1)
  | _ => s

/-- May the hart's instruction reach a control register: it exists, the mode is enough, a write is not to a read-only one, FS is on for the
floating-point ones, TVM lets S mode reach satp? -/
def csrOk (h : Hart) (n c : Nat) (wr : Bool) : Bool :=
  csrExists n c && decide (c / 256 % 4 ≤ h.mode) && !(wr && c / 1024 == 3) &&
  (if c ≤ 3 then h.fs != 0 else true) && (if 0xC00 ≤ c ∧ c ≤ 0xC1F then counterOk h n c else true) &&
  !(c == 0x180 && h.mode == 1 && h.st 20)

/-! ### Translation by Sv48 (R33, R353, R359) -/

/-- Kinds of access of a hart. -/
inductive RvAcc where
  | fetch | load | store
  deriving DecidableEq, Repr

/-- The page-fault cause of an access. -/
def RvAcc.pageFault : RvAcc → Nat
  | .fetch => 12 | .load => 13 | .store => 15
/-- The access-fault cause. -/
def RvAcc.accessFault : RvAcc → Nat
  | .fetch => 1 | .load => 5 | .store => 7

/-- A walk from satp, which also knows 512 GiB leaves at level 3; BYP and CNT of a non-leaf entry raise no exception (16_faults.md R356). -/
def rvWalk (s : State) (va root : Nat) : Walk :=
  let at3 := root * 4096 + 8 * (va / 2 ^ 39 % 512)
  if memBytes ≤ at3 then .refused
  else
    let p := s.word at3
    if pbit p 0 && (pbit p 1 || pbit p 2 || pbit p 3) then
      (if !(pbit p 2 && !pbit p 1) && p.extractLsb' 56 8 == 0 && pppn p % 2 ^ 27 == 0 then .leaf p 3 at3 else .refused)
    else walkWith 0x3FC s va 4 root

/-- The physical address under a leaf. -/
def rvLeafPa (p : W64) (level va : Nat) : Nat := if level = 3 then pppn p * 4096 + va % 2 ^ 39 else leafPa p level va

/-- Do a leaf's permissions allow the access in a mode, with SUM and MXR? -/
def rvPerm (p : W64) (a : RvAcc) (mode : Nat) (sum mxr : Bool) : Bool :=
  (match a with
   | .fetch => pbit p 3
   | .load => pbit p 1 || (mxr && pbit p 3)
   | .store => pbit p 2) &&
  (if mode = 0 then pbit p 4 else !pbit p 4 || (sum && a != .fetch))

/-- The physical address of an access: Bare in M mode and under satp.MODE 0, else Sv48; the reads of a walk are performed however it ends, a leaf's A, and
D for a store, are set by it (R359), and the core keeps the translation until SFENCE.VMA or TLBI (R360, R361). -/
def rvTranslate (s : State) (die n : Nat) (va : W64) (a : RvAcc) : Except RvStop (Nat × State) :=
  let h := s.hartOf die n
  let mode := if a != .fetch && h.mode == 3 && h.st 17 then fieldOf (h.raw 0x300) 12 11 else h.mode
  let satp := h.raw 0x180
  if n = 8 ∨ mode = 3 ∨ fieldOf satp 63 60 = 0 then .ok (va.toNat, s)
  else
    let bad (s : State) : Except RvStop (Nat × State) := .error (.trap a.pageFault va s)
    let ag : Agent := .hart die n
    let asid := fieldOf satp 59 44
    let v := va.toNat % 2 ^ 48
    if !canonical va.toNat || !l1fOk s ag asid v then bad s
    else
      let acc : Acc := if a = .store then .write else .read
      let use (p : W64) : Bool := rvPerm p a mode (h.st 18) (h.st 19)
      match s.tlbs.find? (fun x => x.agent = ag && x.asid == asid && x.vpn == v / 4096 && use x.pte && adBits x.pte acc == x.pte) with
      | some t => .ok (rvLeafPa t.pte t.level v, s)
      | none =>
        let reads := walkReads s v 4 (fieldOf satp 43 0)
        let u := s.readAll ag reads
        if !reads.all (s.reach die) then .error (.wait s)
        else match rvWalk s v (fieldOf satp 43 0) with
        | .leaf p level at_ =>
          if !use p then bad u
          else
            let p' := adBits p acc
            let s := if p' = p then u else u.storePhys ag at_ 8 p'.toNat
            let t : Tlb := ⟨ag, asid, v / 4096, level, p', at_⟩
            .ok (rvLeafPa p level v, { s with tlbs := t :: s.tlbs.filter (fun x => !(x.agent = ag && x.asid == asid && x.vpn == t.vpn)) })
        | _ => bad u

/-- SFENCE.VMA drops translations that this core holds (R361): of one page when rs1 names one, of one ASID when rs2 names one; global entries
stay in the second case. -/
def rvFence (s : State) (die n : Nat) (va asid : Option W64) : State :=
  { s with tlbs := s.tlbs.filter (fun t =>
      !(t.agent = .hart die n
        && (match va with | none => true | some v => t.vpn / 2 ^ t.shift == v.toNat % 2 ^ 48 / 4096 / 2 ^ t.shift)
        && (match asid with | none => true | some a => t.asid == a.toNat % 2 ^ 16 && !pbit t.pte 5))) }

/-! ### Memory -/

/-- The offset of a physical address in the register windows of the hart's die (R393). -/
def windowOff (die pa : Nat) : Option Nat :=
  let b := 0xFF00000000 + 0x1000000 * die
  if b ≤ pa ∧ pa < b + 0x1000000 then some (pa - b) else none

/-- Is a physical address memory for the hart: BMEM, or the management core's own memory (DESIGN CHOICE, log entry 35)? -/
def rvIsMem (die n pa size : Nat) : Bool :=
  decide (pa + size ≤ memBytes) || (n == 8 && decide (ownBase die ≤ pa) && decide (pa + size ≤ ownBase die + 2 ^ 40))

/-- A fetch of a half-word. -/
def rvFetch16 (s : State) (die n : Nat) (va : W64) : Except RvStop (Nat × State) := do
  let (pa, s) ← rvTranslate s die n va .fetch
  if !rvIsMem die n pa 2 then .error (.trap 1 va s)
  else if pa < memBytes && !s.reach die pa then .error (.wait s)
  else if s.badAt pa 2 then .error (.trap 1 va (s.loadHome (.hart die n) pa 1))
  else
    let (v, _, s) := s.loadPhys (.hart die n) pa 2 true
    .ok (v, s)

/-- A load of `size` bytes: aligned (R93), not poisoned (R377). The harts hold no L1 copies: every load is performed at the home L2 (DESIGN CHOICE,
log entry 62). A load of TLBSTAT lies after what the invalidations that SEQ counts have waited for (R361, 19_ordering.md R411). -/
def rvLoad (s : State) (die n : Nat) (va : W64) (size : Nat) : Except RvStop (Nat × Nat × State) :=
  if va.toNat % size ≠ 0 then .error (.trap 4 va s)
  else do
    let (pa, s) ← rvTranslate s die n va .load
    match windowOff die pa with
    | some off =>
      .ok (pa, (registerRead s die (off / 8 * 8)).toNat / 256 ^ (off % 8) % 256 ^ size,
        if off / 8 * 8 = 0x40010 then s.raise (.hart die n) (s.die die).tlbTs else s)
    | none =>
      if !rvIsMem die n pa size then .error (.trap 5 va s)
      else if pa < memBytes && !s.reach die pa then .error (.wait s)
      else if s.badAt pa size then .error (.trap 5 va (s.loadHome (.hart die n) pa 1))
      else
        let (v, _, s) := s.loadPhys (.hart die n) pa size true
        .ok (pa, v, s)

/-- The place of an AMO of `size` bytes in memory, with the checks of a store and of a load (R93, R105, R377). -/
def rvAmoPlace (s : State) (die n : Nat) (va : W64) (size : Nat) : Except RvStop (Nat × State) :=
  if va.toNat % size ≠ 0 then .error (.trap 6 va s)
  else do
    let (pa, s) ← rvTranslate s die n va .store
    if (windowOff die pa).isSome || !rvIsMem die n pa size then .error (.trap 7 va s)
    else if pa < memBytes && !s.reach die pa then .error (.wait s)
    else if s.badAt pa size then .error (.trap 7 va s)
    else .ok (pa, s)

/-- A store of `size` bytes. A register takes whole 8-byte writes; a write of TLBI that finds 16 waiting stalls the core (R361), and so does a registration whose descriptor
or tables are out of reach (R392). -/
def rvStore (s : State) (die n : Nat) (va : W64) (size v : Nat) : Except RvStop State :=
  if va.toNat % size ≠ 0 then .error (.trap 6 va s)
  else do
    let (pa, s) ← rvTranslate s die n va .store
    match windowOff die pa with
    | some off =>
      if size ≠ 8 then .ok s
      else if windowWaits s die (if n = 8 then 0 else satpAsid (s.hartOf die n)) off (BitVec.ofNat 64 v) then .error (.wait s)
      else if off = 0x40008 ∧ 16 ≤ (s.die die).tlbi.length then .error (.wait s)
      else .ok (windowWrite s die (if n = 8 then .management else .kernel) (if n = 8 then 0 else satpAsid (s.hartOf die n)) off (BitVec.ofNat 64 v))
    | none =>
      if !rvIsMem die n pa size then .error (.trap 7 va s)
      else if pa < memBytes && !s.reach die pa then .error (.wait s)
      else .ok (s.storePhys (.hart die n) pa size v)

end Sys2Proof.Machine
end

