-- ==== Sys2Proof/Machine/RvExec.lean ====
section
/-! DEFINITION. The instructions of RV64GC with the privileged instructions (01_organisation.md R33, PRESUMED, log entry 6): the expansion of compressed
words, the meaning of each 32-bit word, and one step of a hart. -/

namespace Sys2Proof.Machine

/-! ### Fields of a 32-bit word -/

/-- Bits hi to lo of a word. -/
def bits (w hi lo : Nat) : Nat := w / 2 ^ lo % 2 ^ (hi + 1 - lo)
/-- A field of `n` bits, sign-extended to 64. -/
def sext (n v : Nat) : W64 := BitVec.ofInt 64 (signedOf n v)
/-- I-type immediate. -/
def immI (w : Nat) : W64 := sext 12 (bits w 31 20)
/-- S-type immediate. -/
def immS (w : Nat) : W64 := sext 12 (bits w 31 25 * 32 + bits w 11 7)
/-- B-type immediate. -/
def immB (w : Nat) : W64 := sext 13 (bits w 31 31 * 4096 + bits w 7 7 * 2048 + bits w 30 25 * 32 + bits w 11 8 * 2)
/-- U-type immediate. -/
def immU (w : Nat) : W64 := sext 32 (bits w 31 12 * 4096)
/-- J-type immediate. -/
def immJ (w : Nat) : W64 := sext 21 (bits w 31 31 * 2 ^ 20 + bits w 19 12 * 4096 + bits w 20 20 * 2048 + bits w 30 21 * 2)

/-! ### Compressed words -/

/-- An R-type word. -/
def encR (f7 rs2 rs1 f3 rd op : Nat) : Nat := f7 * 2 ^ 25 + rs2 * 2 ^ 20 + rs1 * 2 ^ 15 + f3 * 2 ^ 12 + rd * 2 ^ 7 + op
/-- An I-type word. -/
def encI (imm rs1 f3 rd op : Nat) : Nat := imm % 4096 * 2 ^ 20 + rs1 * 2 ^ 15 + f3 * 2 ^ 12 + rd * 2 ^ 7 + op
/-- An S-type word. -/
def encS (imm rs2 rs1 f3 op : Nat) : Nat := encR (imm / 32 % 128) rs2 rs1 f3 (imm % 32) op
/-- A B-type word from a 13-bit offset. -/
def encB (imm rs2 rs1 f3 : Nat) : Nat := encR (imm / 4096 % 2 * 64 + imm / 32 % 64) rs2 rs1 f3 (imm / 2 % 16 * 2 + imm / 2048 % 2) 0x63
/-- A J-type word from a 21-bit offset. -/
def encJ (imm rd : Nat) : Nat :=
  imm / 2 ^ 20 % 2 * 2 ^ 31 + imm / 2 % 1024 * 2 ^ 21 + imm / 2048 % 2 * 2 ^ 20 + imm / 4096 % 256 * 4096 + rd * 128 + 0x6F
/-- A 6-bit immediate widened to 12 bits. -/
def imm6 (c : Nat) : Nat := let v := bits c 12 12 * 32 + bits c 6 2; if 32 ≤ v then v + 4096 - 64 else v
/-- A value of `n` bits widened to `m` bits by its sign. -/
def widen (n m v : Nat) : Nat := if 2 ^ (n - 1) ≤ v then v + 2 ^ m - 2 ^ n else v

/-- Quadrant 0. -/
def expandC0 (c : Nat) : Option Nat :=
  let rd := 8 + bits c 4 2
  let rs := 8 + bits c 9 7
  let ud := bits c 12 10 * 8 + bits c 6 5 * 64
  let uw := bits c 12 10 * 8 + bits c 6 6 * 4 + bits c 5 5 * 64
  match bits c 15 13 with
  | 0 =>
    let imm := bits c 12 11 * 16 + bits c 10 7 * 64 + bits c 6 6 * 4 + bits c 5 5 * 8
    if imm = 0 then none else some (encI imm 2 0 rd 0x13)
  | 1 => some (encI ud rs 3 rd 0x07)
  | 2 => some (encI uw rs 2 rd 0x03)
  | 3 => some (encI ud rs 3 rd 0x03)
  | 5 => some (encS ud rd rs 3 0x27)
  | 6 => some (encS uw rd rs 2 0x23)
  | 7 => some (encS ud rd rs 3 0x23)
  | _ => none

/-- Quadrant 1. -/
def expandC1 (c : Nat) : Option Nat :=
  let r := bits c 11 7
  let rd := 8 + bits c 9 7
  let rs2 := 8 + bits c 4 2
  let sh := bits c 12 12 * 32 + bits c 6 2
  let j := widen 12 21 (bits c 12 12 * 2048 + bits c 11 11 * 16 + bits c 10 9 * 256 + bits c 8 8 * 1024 + bits c 7 7 * 64 + bits c 6 6 * 128
    + bits c 5 3 * 2 + bits c 2 2 * 32)
  let b := widen 9 13 (bits c 12 12 * 256 + bits c 11 10 * 8 + bits c 6 5 * 64 + bits c 4 3 * 2 + bits c 2 2 * 32)
  match bits c 15 13 with
  | 0 => some (encI (imm6 c) r 0 r 0x13)
  | 1 => if r = 0 then none else some (encI (imm6 c) r 0 r 0x1B)
  | 2 => some (encI (imm6 c) 0 0 r 0x13)
  | 3 =>
    if r = 2 then
      let imm := bits c 12 12 * 512 + bits c 6 6 * 16 + bits c 5 5 * 64 + bits c 4 3 * 128 + bits c 2 2 * 32
      if imm = 0 then none else some (encI (widen 10 12 imm) 2 0 2 0x13)
    else if sh = 0 then none
    else some (widen 6 20 sh * 4096 + r * 128 + 0x37)
  | 4 => match bits c 11 10 with
    | 0 => some (encI sh rd 5 rd 0x13)
    | 1 => some (encI (sh + 0x400) rd 5 rd 0x13)
    | 2 => some (encI (imm6 c) rd 7 rd 0x13)
    | _ => match bits c 12 12 * 4 + bits c 6 5 with
      | 0 => some (encR 0x20 rs2 rd 0 rd 0x33)
      | 1 => some (encR 0 rs2 rd 4 rd 0x33)
      | 2 => some (encR 0 rs2 rd 6 rd 0x33)
      | 3 => some (encR 0 rs2 rd 7 rd 0x33)
      | 4 => some (encR 0x20 rs2 rd 0 rd 0x3B)
      | 5 => some (encR 0 rs2 rd 0 rd 0x3B)
      | _ => none
  | 5 => some (encJ j 0)
  | 6 => some (encB b 0 rd 0)
  | _ => some (encB b 0 rd 1)

/-- Quadrant 2. -/
def expandC2 (c : Nat) : Option Nat :=
  let r := bits c 11 7
  let rs2 := bits c 6 2
  let sh := bits c 12 12 * 32 + bits c 6 2
  let ld := bits c 12 12 * 32 + bits c 6 5 * 8 + bits c 4 2 * 64
  let lw := bits c 12 12 * 32 + bits c 6 4 * 4 + bits c 3 2 * 64
  let sd := bits c 12 10 * 8 + bits c 9 7 * 64
  let sw := bits c 12 9 * 4 + bits c 8 7 * 64
  match bits c 15 13 with
  | 0 => some (encI sh r 1 r 0x13)
  | 1 => some (encI ld 2 3 r 0x07)
  | 2 => if r = 0 then none else some (encI lw 2 2 r 0x03)
  | 3 => if r = 0 then none else some (encI ld 2 3 r 0x03)
  | 4 =>
    if bits c 12 12 = 0 then
      (if rs2 = 0 then (if r = 0 then none else some (encI 0 r 0 0 0x67)) else some (encR 0 rs2 0 0 r 0x33))
    else if rs2 = 0 then (if r = 0 then some 0x00100073 else some (encI 0 r 0 1 0x67))
    else some (encR 0 rs2 r 0 r 0x33)
  | 5 => some (encS sd rs2 2 3 0x27)
  | 6 => some (encS sw rs2 2 2 0x23)
  | _ => some (encS sd rs2 2 3 0x23)

/-- The 32-bit word that a compressed word stands for. -/
def expandC (c : Nat) : Option Nat :=
  match c % 4 with
  | 0 => expandC0 c
  | 1 => expandC1 c
  | _ => expandC2 c

/-! ### Integer operations -/

/-- A 32-bit result, sign-extended. -/
def sx32 (v : W64) : W64 := (v.extractLsb' 0 32).signExtend 64

/-- OP and OP-IMM by funct3, with the alternate of funct7 bit 5. -/
def rvAlu (f3 : Nat) (alt : Bool) (a b : W64) : W64 :=
  match f3 with
  | 0 => if alt then a - b else a + b
  | 1 => a <<< (b.toNat % 64)
  | 2 => if a.slt b then 1 else 0
  | 3 => if a.ult b then 1 else 0
  | 4 => a ^^^ b
  | 5 => if alt then a.sshiftRight (b.toNat % 64) else a >>> (b.toNat % 64)
  | 6 => a ||| b
  | _ => a &&& b

/-- The 32-bit forms: add, sub, sll, srl, sra. -/
def rvAluW (f3 : Nat) (alt : Bool) (a b : W64) : Option W64 :=
  let x := a.extractLsb' 0 32
  match f3 with
  | 0 => some (sx32 (if alt then a - b else a + b))
  | 1 => some ((x <<< (b.toNat % 32)).signExtend 64)
  | 5 => some ((if alt then x.sshiftRight (b.toNat % 32) else x >>> (b.toNat % 32)).signExtend 64)
  | _ => none

/-- The M extension by funct3. -/
def rvMulDiv (f3 : Nat) (a b : W64) : W64 :=
  match f3 with
  | 0 => a * b
  | 1 => BitVec.ofInt 64 (a.toInt * b.toInt / 2 ^ 64)
  | 2 => BitVec.ofInt 64 (a.toInt * (b.toNat : Int) / 2 ^ 64)
  | 3 => BitVec.ofNat 64 (a.toNat * b.toNat / 2 ^ 64)
  | 4 => if b = 0 then BitVec.allOnes 64 else a.sdiv b
  | 5 => if b = 0 then BitVec.allOnes 64 else a.udiv b
  | 6 => if b = 0 then a else a.srem b
  | _ => if b = 0 then a else a.umod b

/-- The 32-bit forms of the M extension. -/
def rvMulDivW (f3 : Nat) (a b : W64) : Option W64 :=
  let x := a.extractLsb' 0 32
  let y := b.extractLsb' 0 32
  match f3 with
  | 0 => some ((x * y).signExtend 64)
  | 4 => some ((if y = 0 then BitVec.allOnes 32 else x.sdiv y).signExtend 64)
  | 5 => some ((if y = 0 then BitVec.allOnes 32 else x.udiv y).signExtend 64)
  | 6 => some ((if y = 0 then x else x.srem y).signExtend 64)
  | 7 => some ((if y = 0 then x else x.umod y).signExtend 64)
  | _ => none

/-- The condition of a branch by funct3. -/
def rvBranch (f3 : Nat) (a b : W64) : Option Bool :=
  match f3 with
  | 0 => some (a == b) | 1 => some (a != b) | 4 => some (a.slt b) | 5 => some (!a.slt b) | 6 => some (a.ult b) | 7 => some (!a.ult b)
  | _ => none

/-- A loaded value widened by funct3: 0 to 3 signed, 4 to 6 unsigned. -/
def rvWiden (f3 v : Nat) : W64 :=
  match f3 with
  | 0 => sext 8 v | 1 => sext 16 v | 2 => sext 32 v | _ => BitVec.ofNat 64 v

/-- The new value of an AMO by funct5. -/
def rvAmo (f5 size : Nat) (old v : W64) : Option W64 :=
  let w (x : W64) : W64 := if size = 4 then sx32 x else x
  let u (x : W64) : Nat := x.toNat % 256 ^ size
  match f5 with
  | 1 => some v
  | 0 => some (old + v)
  | 4 => some (old ^^^ v)
  | 12 => some (old &&& v)
  | 8 => some (old ||| v)
  | 16 => some (if (w old).slt (w v) then old else v)
  | 20 => some (if (w v).slt (w old) then old else v)
  | 24 => some (if u old < u v then old else v)
  | 28 => some (if u v < u old then old else v)
  | _ => none

/-! ### Execution -/

/-- What an instruction does: the state after it, whose pc is set already, or a stop. -/
abbrev RvRes := Except RvStop State

/-- The illegal-instruction exception. -/
def rvIllegal (s : State) (w : Nat) : RvRes := .error (.trap 2 (BitVec.ofNat 64 w) s)

/-- Write rd and go on after the instruction. -/
def rvDone (s : State) (die n len rd : Nat) (v : W64) : RvRes :=
  .ok (s.modHart die n (fun h => { (h.setReg rd v) with pc := h.pc + BitVec.ofNat 64 len }))

/-- Write a floating-point register with accrued flags and go on. -/
def rvDoneF (s : State) (die n len rd flags : Nat) (v : W64) : RvRes :=
  .ok (s.modHart die n (fun h => { ((h.setFreg rd v).accrue flags) with pc := h.pc + BitVec.ofNat 64 len }))

/-- Write an integer register from a floating-point operation. -/
def rvDoneX (s : State) (die n len rd flags : Nat) (v : W64) : RvRes :=
  .ok (s.modHart die n (fun h => { ((h.setReg rd v).accrue flags) with pc := h.pc + BitVec.ofNat 64 len }))

/-- The Zicsr instructions: the old value goes to rd; a set or clear with source 0 does not write. -/
def rvCsr (s : State) (die n len w : Nat) : RvRes :=
  let h := s.hartOf die n
  let f3 := bits w 14 12
  let c := bits w 31 20
  let rs := bits w 19 15
  let src : W64 := if 4 ≤ f3 then BitVec.ofNat 64 rs else h.reg rs
  let wr := f3 % 4 == 1 || rs != 0
  if !csrOk h n c wr then rvIllegal s w
  else
    let old := csrRead s die n c
    let base := if c = 0x344 then h.raw 0x344 else old
    let new := match f3 % 4 with | 1 => src | 2 => base ||| src | _ => base &&& ~~~src
    let s := if wr then csrWrite s die n c new else s
    rvDone s die n len (bits w 11 7) old

/-- SYSTEM with funct3 0. WFI is illegal in U mode, and in S mode under TW; elsewhere it is a NOP (PRESUMED, log entry 6). -/
def rvSystem (s : State) (die n len w : Nat) : RvRes :=
  let h := s.hartOf die n
  if bits w 31 25 = 0x09 ∧ bits w 11 7 = 0 then
    if n = 8 ∨ h.mode = 0 ∨ (h.mode = 1 ∧ h.st 20 = true) then rvIllegal s w
    else
      let r1 := bits w 19 15
      let r2 := bits w 24 20
      rvDone (rvFence s die n (if r1 = 0 then none else some (h.reg r1)) (if r2 = 0 then none else some (h.reg r2))) die n len 0 0
  else match w with
    | 0x00000073 => .error (.trap (if h.mode = 0 then 8 else if h.mode = 1 then 9 else 11) 0 s)
    | 0x00100073 => .error (.trap 3 h.pc s)
    | 0x30200073 => if h.mode = 3 then .ok (s.setHartOf die n (rvMret h (if n = 8 then 3 else 0))) else rvIllegal s w
    | 0x10200073 =>
      if n = 8 ∨ h.mode = 0 ∨ (h.mode = 1 ∧ h.st 22 = true) then rvIllegal s w else .ok (s.setHartOf die n (rvSret h))
    | 0x10500073 => if h.mode < 3 ∧ (h.st 21 = true ∨ h.mode = 0) then rvIllegal s w else rvDone s die n len 0 0
    | _ => rvIllegal s w

/-- The A extension: LR, SC and the AMOs, each one point in the order of R99 (R98, R105). -/
def rvAtomic (s : State) (die n len w : Nat) : RvRes :=
  let h := s.hartOf die n
  let size := if bits w 14 12 = 2 then 4 else 8
  let va := h.reg (bits w 19 15)
  let v := h.reg (bits w 24 20)
  let rd := bits w 11 7
  let f5 := bits w 31 27
  let wide (x : Nat) : W64 := if size = 4 then sext 32 x else BitVec.ofNat 64 x
  if bits w 14 12 ≠ 2 ∧ bits w 14 12 ≠ 3 then rvIllegal s w
  else if f5 = 2 then
    if bits w 24 20 ≠ 0 then rvIllegal s w
    else do
      let (pa, x, s) ← rvLoad s die n va size
      if (windowOff die pa).isSome then .error (.trap 5 va s)
      else rvDone (s.modHart die n (fun h => { h with held := some (pa / 64) })) die n len rd (wide x)
  else if f5 = 3 then
    if va.toNat % size ≠ 0 then .error (.trap 6 va s)
    else do
      let (pa, s') ← rvTranslate s die n va .store
      if (windowOff die pa).isSome then .error (.trap 7 va s')
      else if !rvIsMem die n pa size then .error (.trap 7 va s')
      else if h.held = some (pa / 64) then
        if pa < memBytes && !s'.reach die pa then .error (.wait s')
        else
          let s' := (s'.storePhys (.hart die n) pa size v.toNat).modHart die n (fun h => { h with held := none })
          rvDone s' die n len rd 0
      else rvDone (s'.modHart die n (fun h => { h with held := none })) die n len rd 1
  else match rvAmo f5 size 0 0 with
    | none => rvIllegal s w
    | some _ => do
      let (pa, s) ← rvAmoPlace s die n va size
      let (x, _, s) := s.rmwPhys (.hart die n) pa size (fun x => ((rvAmo f5 size (wide x) v).getD 0).toNat)
      rvDone s die n len rd (wide x)

/-- The rounding mode of a floating-point word: DYN takes frm; 5 and 6, and such a frm, are illegal. -/
def rvMode (h : Hart) (w : Nat) : Option Nat :=
  let m := bits w 14 12
  let m := if m = 7 then fieldOf (h.raw 3) 7 5 else m
  if m ≤ 4 then some m else none

/-- FMADD, FMSUB, FNMSUB, FNMADD by opcode. -/
def rvFused (s : State) (die n len w : Nat) : RvRes :=
  let h := s.hartOf die n
  let f : Fmt := if bits w 26 25 = 0 then .f32 else .f64
  match rvMode h w with
  | none => rvIllegal s w
  | some rm =>
    if 1 < bits w 26 25 then rvIllegal s w
    else
      let a := unbox f (h.freg (bits w 19 15))
      let b := unbox f (h.freg (bits w 24 20))
      let c := unbox f (h.freg (bits w 31 27))
      let (r, k) := match bits w 6 2 with
        | 16 => rvFma f rm a b c
        | 17 => rvFma f rm a b (rvNeg f c)
        | 18 => rvFma f rm (rvNeg f a) b c
        | _ => rvFma f rm (rvNeg f a) b (rvNeg f c)
      rvDoneF s die n len (bits w 11 7) k (boxed f r)

/-- OP-FP. -/
def rvFloat (s : State) (die n len w : Nat) : RvRes :=
  let h := s.hartOf die n
  let f : Fmt := if bits w 25 25 = 0 then .f32 else .f64
  let rd := bits w 11 7
  let r2 := bits w 24 20
  let f3 := bits w 14 12
  let xa := h.reg (bits w 19 15)
  let va := h.freg (bits w 19 15)
  let a := unbox f va
  let b := unbox f (h.freg r2)
  let rm := (rvMode h w).getD 9
  let out (p : Nat × Nat) : RvRes := if rm = 9 then rvIllegal s w else rvDoneF s die n len rd p.2 (boxed f p.1)
  if bits w 26 26 ≠ 0 then rvIllegal s w
  else match bits w 31 27 with
    | 0 => out (rvAdd f rm a b)
    | 1 => out (rvSub f rm a b)
    | 2 => out (rvMul f rm a b)
    | 3 => out (rvDiv f rm a b)
    | 11 => if r2 = 0 then out (rvSqrt f rm a) else rvIllegal s w
    | 4 =>
      let sb := b / f.signBit % 2
      let sa := a / f.signBit % 2
      let sg := match f3 with | 0 => sb | 1 => 1 - sb | _ => (sa + sb) % 2
      if 2 < f3 then rvIllegal s w else rvDoneF s die n len rd 0 (boxed f (a % f.signBit + sg * f.signBit))
    | 5 =>
      let (c, k) := rvMinMax f (f3 == 0) a b
      if 1 < f3 then rvIllegal s w else rvDoneF s die n len rd k (boxed f c)
    | 8 =>
      if f = .f32 ∧ r2 = 1 then out (rvCvt .f64 .f32 rm (unbox .f64 va))
      else if f = .f64 ∧ r2 = 0 then out (rvCvt .f32 .f64 rm (unbox .f32 va))
      else rvIllegal s w
    | 20 =>
      let (c, k) := rvCmp f f3 a b
      if 2 < f3 then rvIllegal s w else rvDoneX s die n len rd k (if c then 1 else 0)
    | 24 =>
      if rm = 9 ∨ 3 < r2 then rvIllegal s w
      else
        let (c, k) := rvToInt f rm (if r2 < 2 then 32 else 64) (r2 % 2 == 0) a
        rvDoneX s die n len rd k (if r2 < 2 then sext 32 c else BitVec.ofNat 64 c)
    | 26 =>
      let i : Int := match r2 with
        | 0 => signedOf 32 xa.toNat | 1 => (xa.toNat % 2 ^ 32 : Nat) | 2 => xa.toInt | _ => (xa.toNat : Int)
      if 3 < r2 then rvIllegal s w else out (rvOfInt f rm i)
    | 28 =>
      if r2 ≠ 0 ∨ 1 < f3 then rvIllegal s w
      else if f3 = 1 then rvDoneX s die n len rd 0 (BitVec.ofNat 64 (rvClass f a))
      else rvDoneX s die n len rd 0 (if f = .f32 then sext 32 (va.toNat % 2 ^ 32) else va)
    | 30 => if r2 ≠ 0 ∨ f3 ≠ 0 then rvIllegal s w else rvDoneF s die n len rd 0 (if f = .f32 then boxed .f32 xa.toNat else xa)
    | _ => rvIllegal s w

/-- A 32-bit word of `len` bytes in memory (2 for a compressed one) is executed at the hart's pc. -/
def rvExec (s : State) (die n len w : Nat) : RvRes :=
  let h := s.hartOf die n
  let rd := bits w 11 7
  let f3 := bits w 14 12
  let f7 := bits w 31 25
  let a := h.reg (bits w 19 15)
  let b := h.reg (bits w 24 20)
  let next := h.pc + BitVec.ofNat 64 len
  let jump (rd : Nat) (t : W64) : RvRes := .ok (s.modHart die n (fun h => { (h.setReg rd next) with pc := t }))
  let need (r : RvRes) : RvRes := if h.fs = 0 then rvIllegal s w else r
  match bits w 6 0 with
  | 0x37 => rvDone s die n len rd (immU w)
  | 0x17 => rvDone s die n len rd (h.pc + immU w)
  | 0x6F => jump rd (h.pc + immJ w)
  | 0x67 => if f3 = 0 then jump rd ((a + immI w) &&& ~~~1#64) else rvIllegal s w
  | 0x63 => match rvBranch f3 a b with
    | none => rvIllegal s w
    | some t => .ok (s.modHart die n (fun h => { h with pc := if t then h.pc + immB w else next }))
  | 0x03 =>
    if f3 = 7 then rvIllegal s w
    else do
      let (_, v, s) ← rvLoad s die n (a + immI w) (2 ^ (f3 % 4))
      rvDone s die n len rd (rvWiden f3 v)
  | 0x23 =>
    if 3 < f3 then rvIllegal s w
    else do
      let s ← rvStore s die n (a + immS w) (2 ^ f3) b.toNat
      rvDone s die n len 0 0
  | 0x13 =>
    if f3 = 1 ∧ bits w 31 26 ≠ 0 then rvIllegal s w
    else if f3 = 5 ∧ bits w 31 26 ≠ 0 ∧ bits w 31 26 ≠ 16 then rvIllegal s w
    else rvDone s die n len rd (rvAlu f3 (f3 == 5 && bits w 30 30 == 1) a (if f3 = 1 ∨ f3 = 5 then BitVec.ofNat 64 (bits w 25 20) else immI w))
  | 0x1B =>
    if (f3 = 1 ∧ f7 ≠ 0) ∨ (f3 = 5 ∧ f7 ≠ 0 ∧ f7 ≠ 32) then rvIllegal s w
    else match rvAluW f3 (f3 == 5 && f7 == 32) a (if f3 = 0 then immI w else BitVec.ofNat 64 (bits w 24 20)) with
      | none => rvIllegal s w
      | some v => rvDone s die n len rd v
  | 0x33 =>
    if f7 = 1 then rvDone s die n len rd (rvMulDiv f3 a b)
    else if f7 = 0 ∨ (f7 = 32 ∧ (f3 = 0 ∨ f3 = 5)) then rvDone s die n len rd (rvAlu f3 (f7 == 32) a b)
    else rvIllegal s w
  | 0x3B =>
    match (if f7 = 1 then rvMulDivW f3 a b else if f7 = 0 ∨ (f7 = 32 ∧ (f3 = 0 ∨ f3 = 5)) then rvAluW f3 (f7 == 32) a b else none) with
    | none => rvIllegal s w
    | some v => rvDone s die n len rd v
  | 0x0F => if f3 ≤ 1 then rvDone s die n len 0 0 else rvIllegal s w
  | 0x73 => if f3 = 0 then rvSystem s die n len w else if f3 = 4 then rvIllegal s w else rvCsr s die n len w
  | 0x2F => rvAtomic s die n len w
  | 0x07 =>
    if f3 ≠ 2 ∧ f3 ≠ 3 then rvIllegal s w
    else need (do
      let (_, v, s) ← rvLoad s die n (a + immI w) (2 ^ f3)
      rvDoneF s die n len rd 0 (boxed (if f3 = 2 then .f32 else .f64) v))
  | 0x27 =>
    if f3 ≠ 2 ∧ f3 ≠ 3 then rvIllegal s w
    else need (do
      let s ← rvStore s die n (a + immS w) (2 ^ f3) (h.freg (bits w 24 20)).toNat
      rvDone s die n len 0 0)
  | 0x43 => need (rvFused s die n len w)
  | 0x47 => need (rvFused s die n len w)
  | 0x4B => need (rvFused s die n len w)
  | 0x4F => need (rvFused s die n len w)
  | 0x53 => need (rvFloat s die n len w)
  | _ => rvIllegal s w

/-- The instruction at the hart's pc: its length, its bits as they stand, and its word, two half-words or one that expands. -/
def rvFetch (s : State) (die n : Nat) : Except RvStop (Nat × Nat × Nat × State) := do
  let h := s.hartOf die n
  let (lo, s) ← rvFetch16 s die n h.pc
  if lo % 4 = 3 then
    let (hi, s) ← rvFetch16 s die n (h.pc + 2)
    .ok (4, lo + 65536 * hi, lo + 65536 * hi, s)
  else match expandC lo with
    | some w => .ok (2, lo, w, s)
    | none => .error (.trap 2 (BitVec.ofNat 64 lo) s)

/-- The instruction at the hart's pc is executed; an illegal one gives its bits as they stand in memory, a compressed one its 16 (privileged architecture
3.1.16). -/
def rvRun (s : State) (die n : Nat) : RvRes := do
  let (len, raw, w, s) ← rvFetch s die n
  match rvExec s die n len w with
  | .error (.trap 2 _ t) => .error (.trap 2 (BitVec.ofNat 64 raw) t)
  | r => r

/-- The counters advance by one instruction, unless they are inhibited. -/
def rvTick (h : Hart) (retired : Bool) : Hart :=
  let h := if (h.raw 0x320).getLsbD 0 then h else h.setRaw 0xB00 (h.raw 0xB00 + 1)
  let h := h.setRaw 0xC01 (h.raw 0xC01 + 1)
  if retired && !(h.raw 0x320).getLsbD 2 then h.setRaw 0xB02 (h.raw 0xB02 + 1) else h

/-- A system core that takes an external interrupt ends the sources that have no register of their own to clear: the drive's interrupt and
the audit mismatch that name it (DESIGN CHOICE, log entry 37). -/
def endExternal (s : State) (die n : Nat) : State :=
  let d := s.die die
  let s := if d.storIrq && fieldOf d.storcfg 4 2 == n then s.modDie die (fun d => { d with storIrq := false }) else s
  if die == 0 && s.mismatch && fieldOf s.sumcfg 39 37 == n then { s with mismatch := false } else s

/-- SYSTEM_CORE_INSTRUCTION: a running hart takes a waiting interrupt, or executes the instruction at its pc, or traps. The system cores'
clocks stop in the power states PA1 to PA3 (R404). -/
def hartStep (s : State) (die n : Nat) : State :=
  let h := s.hartOf die n
  if 2 ≤ die ∨ 9 ≤ n ∨ h.runs = false ∨ (n < 8 ∧ s.pstate ≠ 0) then s
  else match rvInterrupt s die n with
    | some c =>
      let s := s.modHart die n (fun h => rvTrap h true c 0)
      if c = 9 then endExternal s die n else s
    | none =>
      match rvRun s die n with
      | .ok s => s.modHart die n (fun h => rvTick h true)
      | .error (.wait s) => s
      | .error (.trap c v s) => s.modHart die n (fun h => rvTick (rvTrap h false c v) false)

end Sys2Proof.Machine
end

