-- ==== Sys2Proof/Machine/CoreSteps.lean ====
section
/-! DEFINITION. Device steps of a compute core as steps of their own (95_what_each_step_holds.md): each happens when the rule that governs it
allows it, and otherwise changes nothing (DESIGN CHOICE, log entry 16). A core's own cycle (Cycle.lean) takes the same steps in their time. -/

namespace Sys2Proof.Machine

/-- A device step is whole: the kills and unwinds that it begins are settled in it (R330, R380). -/
def stepDone (s : State) : Host.Outcome State Fault Refusal := .next (settleAll s)

/-- BUNDLE_SKIP (R40). -/
def execBundleSkip (g : Nat) (s : State) : Host.Outcome State Fault Refusal := stepDone (bundleSkip s g)

/-- TAKE_ISSUE (R21), on a core that exists. -/
def execTakeIssue (g : Nat) (s : State) : Host.Outcome State Fault Refusal := stepDone (takeIssue s g)

/-- A result of a context lands, unless a save has captured it (R43, 14_dispatch.md R326, R327). -/
def landNow (s : State) (c k : Nat) : State := if (s.ctx c).captured then s else landAt s c k

/-- EXPOSED_RESULT_LAND: the k-th pending result of a context lands, within its bound (R43, R44). -/
def execExposedResultLand (c k : Nat) (s : State) : Host.Outcome State Fault Refusal := stepDone (landNow s c k)

/-- Does the next bundle of a context, which has been frozen, freeze the core in the present cycle as well (R370)? -/
def stillFrozen (s : State) (c : Nat) : Bool :=
  match fetch s c with
  | none => false
  | some is => (s.ctx c).atFetch && !skips s c (bundleOps is) && freezesNow s (coreOf c) c (bundleOps is)

/-- The data-wait event of a context whose bundle has been frozen for WLIM cycles and is frozen in this one too (R23); where its data has arrived, the
bundle issues instead (R370). -/
def dataWaitDue (s : State) (c : Nat) : State :=
  let x := s.ctx c
  let lim := (x.sysReg 0x003).toNat % 2 ^ 32
  if x.st = .active ∧ lim ≠ 0 ∧ x.frz = lim ∧ stillFrozen s c = true then freezeCycle s c x.spent else s

/-- DATA_WAIT_EVENT (R23). -/
def execDataWaitEvent (c : Nat) (s : State) : Host.Outcome State Fault Refusal := stepDone (dataWaitDue s c)

/-- A trap entry whose drain is over takes place (R147). -/
def trapDue (s : State) (c : Nat) : State :=
  let x := s.ctx c
  if x.st = .active ∧ x.pend.all (fun p => p.landed) = true then enterPending s c else s

/-- TRAP_ENTRY (R147). -/
def execTrapEntry (c : Nat) (s : State) : Host.Outcome State Fault Refusal := stepDone (trapDue s c)

/-- STORE_PERFORMED: the oldest issued store of a context is performed at its home L2 (R131, R132). -/
def execStorePerformed (c : Nat) (s : State) : Host.Outcome State Fault Refusal := stepDone (performStore s c)

/-- The clock of an agent rises by 1, by the code under which it is kept (R103): a core's by the core's number. -/
def ptsTick (s : State) (g : Nat) : State :=
  if g < 320 then s.modCore g (fun x => { x with pts := tick64 (x.pts + 1) })
  else if agentCodes.contains g then { s with pts := SMap.set 0 s.pts g (tick64 (SMap.get 0 s.pts g + 1)) }
  else s

/-- PTS_TICK (R103). -/
def execPtsTick (g : Nat) (s : State) : Host.Outcome State Fault Refusal := stepDone (ptsTick s g)

/-- WATCH_WAKE: a context whose watch has been met, or whose other condition has cleared, becomes READY (R19, R138). -/
def execWatchWake (c : Nat) (s : State) : Host.Outcome State Fault Refusal := stepDone (wakeContext s c)

/-- SCRATCHPAD_WRITE_PERFORMED: the k-th pending write of a core is performed (R107). -/
def execScratchpadWritePerformed (g k : Nat) (s : State) : Host.Outcome State Fault Refusal := stepDone (s.modCore g (fun x => x.performSp k))

/-- TILE_COMMAND_DONE (R163). -/
def execTileCommandDone (g k : Nat) (s : State) : Host.Outcome State Fault Refusal := stepDone (s.modCore g (fun x => x.finishTile k))

/-- The ACTIVE context consumes poison inside a region of its level: it unwinds (R378, R380). -/
def unwindNow (s : State) (c : Nat) (addr : W64) : State :=
  let x := s.ctx c
  if x.st = .active ∧ x.trap = none ∧ regionOpen x = true then beginUnwind s c addr else s

/-- CONTAINMENT_UNWIND (R151, R380). -/
def execContainmentUnwind (c : Nat) (addr : W64) (s : State) : Host.Outcome State Fault Refusal := stepDone (unwindNow s c addr)

/-! ### Mace, the matrix engine and windows -/

/-- MACE_COMMAND_START (R195). -/
def execMaceCommandStart (g : Nat) (s : State) : Host.Outcome State Fault Refusal := stepDone (maceStart s g)

/-- Have the `latq` and `accq` of a core had their cycle (R185, R218, R222)? -/
def Core.queuesDone (g : Core) : Bool := g.latqs.all (fun o => o.did) && g.accqs.all (fun o => o.did)

/-- The running `mdec` pushes one entry, of two in a cycle at most (R200), after the vector slot's push of the cycle (R185); with no entry that it
can push, nothing happens. -/
def macePushOne (s : State) (g : Nat) : State :=
  match (s.core g).mace with
  | [] => s
  | m :: _ =>
    if m.started && !m.load && m.lag == 0 && decide (0 < (s.core g).macePushes) && s.vxIdle g && (s.core g).queuesDone then
      let t := macePushStep s g 1
      if (t.core g).queue m.q = (s.core g).queue m.q then s else t.modCore g (fun x => { x with pushes := x.pushes + 1 })
    else s

/-- MACE_ENTRY_PUSH (R200). -/
def execMaceEntryPush (g : Nat) (s : State) : Host.Outcome State Fault Refusal := stepDone (macePushOne s g)

/-- MACE_COMMAND_RETIRE (R200). -/
def execMaceCommandRetire (g : Nat) (s : State) : Host.Outcome State Fault Refusal := stepDone (maceRetire s g)

/-- The Mace commands of a task that is killed, or that meets R29, are cancelled (R202). -/
def maceCancelDue (s : State) (g tid : Nat) : State :=
  let t := s.task tid
  if t.state = 5 ∨ mayComplete s tid = true then maceCancel s g tid else s

/-- MACE_CANCEL (R202). -/
def execMaceCancel (g tid : Nat) (s : State) : Host.Outcome State Fault Refusal := stepDone (maceCancelDue s g tid)

/-- MMA_ROW_LAND: the k-th row write of a core, in its cycle (R217). -/
def execMmaRowLand (g k : Nat) (s : State) : Host.Outcome State Fault Refusal := stepDone (rowLand s g k)

/-- The k-th `latq` of a core takes its cycle, after the vector slot's pop and the earlier ones (R185, R218). -/
def latqDue (s : State) (g k : Nat) : State :=
  let os := (s.core g).latqs
  match os[k]? with
  | none => s
  | some o =>
    if o.did || (s.core g).engDone || !s.vxIdle g || (os.take k).any (fun p => !p.did) then s
    else match latqStep s g o with
      | (s, some o) => s.modCore g (fun x => { x with latqs := x.latqs.set k { o with did := true } })
      | (s, none) => s.modCore g (fun x => { x with latqs := x.latqs.eraseIdx k })

/-- LATQ_POP (R218). -/
def execLatqPop (g k : Nat) (s : State) : Host.Outcome State Fault Refusal := stepDone (latqDue s g k)

/-- TILE_PATH_DONE: the k-th `latt` or `ttr` of a core writes, in its cycle (R219). -/
def execTilePathDone (g k : Nat) (s : State) : Host.Outcome State Fault Refusal := stepDone (s.modCore g (fun x => x.pathDone k))

/-- ACCZ_ROW_WRITE: the k-th row write of a core, in its cycle (R221). -/
def execAcczRowWrite (g k : Nat) (s : State) : Host.Outcome State Fault Refusal := stepDone (rowLand s g k)

/-- The k-th `accq` of a core takes its cycle, after the `latq` and the earlier ones (R185, R222). -/
def accqDue (s : State) (g k : Nat) : State :=
  let x := s.core g
  match x.accqs[k]? with
  | none => s
  | some o =>
    if o.did || x.engDone || !s.vxIdle g || x.latqs.any (fun p => !p.did) || (x.accqs.take k).any (fun p => !p.did) then s
    else match x.accqStep o with
      | (x, some o) => s.setCore g { x with accqs := x.accqs.set k { o with did := true } }
      | (x, none) => s.setCore g { x with accqs := x.accqs.eraseIdx k }

/-- ACCQ_PUSH (R222). -/
def execAccqPush (g k : Nat) (s : State) : Host.Outcome State Fault Refusal := stepDone (accqDue s g k)

/-- The k-th window of a core, in one of its cycles, adds its next row pair (R215). -/
def windowDue (s : State) (g k : Nat) : State :=
  let x := s.core g
  match x.wins[k]? with
  | none => s
  | some w =>
    if w.did || decide (1 < w.start) || decide ((w.rows + 1) / 2 ≤ w.next) then s
    else
      let (x, w) := x.windowAdd w
      s.setCore g { x with wins := x.wins.set k { w with start := 0, did := true } }

/-- WINDOW_CYCLE_ADD (R215). -/
def execWindowCycleAdd (g k : Nat) (s : State) : Host.Outcome State Fault Refusal := stepDone (windowDue s g k)

/-- LATCH_ENTRY_LAND: a result that a save captured lands after the restore (R327). -/
def execLatchEntryLand (c k : Nat) (s : State) : Host.Outcome State Fault Refusal := stepDone (landNow s c k)

/-- GIVE_UP_ISSUE (R21, R323). -/
def execGiveUpIssue (g : Nat) (s : State) : Host.Outcome State Fault Refusal := stepDone (giveUpIssue s g)

/-- The quantum of the ACTIVE context ends (R323). -/
def expiryDue (s : State) (c : Nat) : State :=
  let x := s.ctx c
  let g := coreOf c
  if (s.core g).wasActive = some c ∧ x.quant ≠ 0 ∧ x.quant ≤ x.quota + 1 then countQuantum s g else s

/-- EXPIRY (R323). -/
def execExpiry (c : Nat) (s : State) : Host.Outcome State Fault Refusal := stepDone (expiryDue s c)

end Sys2Proof.Machine
end

