-- ==== Sys2Proof/Machine/EngineSteps.lean ====
section
/-! DEFINITION. Device steps of the sealing engine, the copy engines, Anise, Clove, the samplers and the schedule walkers, as steps of their
own (95_what_each_step_holds.md). -/

namespace Sys2Proof.Machine

/-! ### Sealing (02_bundle.md) -/

/-- SEALSUB (R53). -/
def execSealsub (die asid : Nat) (v : W64) (s : State) : Host.Outcome State Fault Refusal := stepDone (if die < 2 then sealSubmit s die asid v else s)
/-- SEAL_REQUEST (R54-R57). -/
def execSealRequest (die : Nat) (s : State) : Host.Outcome State Fault Refusal := stepDone (sealPerform s die)
/-- SEALREL (R57). -/
def execSealrel (_die : Nat) (v : W64) (s : State) : Host.Outcome State Fault Refusal := stepDone (sealRelease s v)

/-! ### Copy engines (10_copy.md) -/

/-- CQADD (R229). -/
def execCqadd (die eng asid : Nat) (v : W64) (s : State) : Host.Outcome State Fault Refusal :=
  stepDone (if die < 2 ∧ eng < 52 then cqAdd s die eng asid v else s)
/-- CQDEL (R229). -/
def execCqdel (die eng asid : Nat) (v : W64) (s : State) : Host.Outcome State Fault Refusal :=
  stepDone (if die < 2 ∧ eng < 52 then cqDel s die eng asid v else s)
/-- PACKET_ACCEPT (R231, R235): the next claim of an engine's k-th queue. -/
def execPacketAccept (die eng k : Nat) (s : State) : Host.Outcome State Fault Refusal := stepDone (packetAccept s die eng k)
/-- PACKET_START (R237): an engine's k-th packet. -/
def execPacketStart (die eng k : Nat) (s : State) : Host.Outcome State Fault Refusal := stepDone (packetStart s die eng k)
/-- PACKET_WORD (R238). -/
def execPacketWord (die eng k : Nat) (s : State) : Host.Outcome State Fault Refusal := stepDone (packetWord s die eng k)
/-- PACKET_COMPLETE (R239). -/
def execPacketComplete (die eng k : Nat) (s : State) : Host.Outcome State Fault Refusal := stepDone (packetComplete s die eng k)

/-! ### Anise (11_kvblocks.md) -/

/-- POOL_REGISTER (R253). -/
def execPoolRegister (die pool : Nat) (s : State) : Host.Outcome State Fault Refusal :=
  stepDone (if die < 2 ∧ pool < 16 then poolRegister s ⟨die, pool⟩ else s)
/-- POOL_DEREGISTER (R253). -/
def execPoolDeregister (die pool : Nat) (s : State) : Host.Outcome State Fault Refusal :=
  stepDone (if die < 2 ∧ pool < 16 then poolDeregister s ⟨die, pool⟩ else s)
/-- ANISE_COMMAND_TURN (R261). -/
def execAniseCommandTurn (die k : Nat) (s : State) : Host.Outcome State Fault Refusal := stepDone (aniseCommandTurn s die k)
/-- QUARANTINE_EXIT (R267). -/
def execQuarantineExit (die k : Nat) (s : State) : Host.Outcome State Fault Refusal := stepDone (quarExit s die k)

/-! ### Clove, samplers, speculation, walkers -/

/-- CLOVE_COMMAND_START (12_grammar.md R281). -/
def execCloveCommandStart (g k : Nat) (s : State) : Host.Outcome State Fault Refusal := stepDone (cloveTurn s g k)
/-- SAMPLER_COMMAND_COMPLETE (13_sampling.md R293). -/
def execSamplerCommandComplete (g : Nat) (s : State) : Host.Outcome State Fault Refusal := stepDone (sampComplete s g)
/-- SQUASH_TURN (R302, R304): the k-th command of Anise, if it is a squash. -/
def execSquashTurn (die k : Nat) (s : State) : Host.Outcome State Fault Refusal := stepDone (squashTurn s die k)
/-- Does a context stand at a bundle boundary at which it takes a squash event: between the cycles of a delay (R38), or at a bundle that is not
skipped (R40) and that brings about no unwind first (R381); not after its `br.exit`, and with no event due that comes before (log entry 23)? -/
def atBoundary (s : State) (c : Nat) : Bool :=
  let x := s.ctx c
  !x.exits && x.refused.isNone && !x.dwDue && (decide (0 < x.delay) || (x.bubble == 0 && (match fetch s c with
    | none => false
    | some is => !skips s c (bundleOps is) && !unwindsNow s (coreOf c) c (bundleOps is))))

/-- A context that may takes its squash event (R305). -/
def squashDue (s : State) (c : Nat) : State :=
  if mayTakeSquash s c && atBoundary s c then takeSquash s c ((s.ctx c).squash.getD 0) else s
/-- SQUASH_EVENT (R305). -/
def execSquashEvent (c : Nat) (s : State) : Host.Outcome State Fault Refusal := stepDone (squashDue s c)
/-- SQUASH_TOKEN_DONE (R306). -/
def execSquashTokenDone (k : Nat) (s : State) : Host.Outcome State Fault Refusal := stepDone (squashTokenDone s k)
/-- WALKER_COMMAND_START (15_schedule.md R350). -/
def execWalkerCommandStart (cl k : Nat) (s : State) : Host.Outcome State Fault Refusal := stepDone (walkerCommandStart s cl k)

end Sys2Proof.Machine
end

