-- ==== Sys2Proof/Machine/DispatchSteps.lean ====
section
/-! DEFINITION. Device steps of the dispatch hardware and of translation, as steps of their own (95_what_each_step_holds.md). -/

namespace Sys2Proof.Machine

/-- PGSIZE of a die: the packages of the peer group (18_host.md R400). -/
def peers (s : State) (die : Nat) : Nat := fieldOf (s.die die).netcfg 12 0

/-- LQADD (R309). -/
def execLqadd (die asid : Nat) (v : W64) (s : State) : Host.Outcome State Fault Refusal := stepDone (if die < 2 then lqAdd s die asid v else s)
/-- LQDEL (R309). -/
def execLqdel (die asid : Nat) (v : W64) (s : State) : Host.Outcome State Fault Refusal := stepDone (if die < 2 then lqDel s die asid v else s)
/-- LAUNCH_ACCEPT (R310, R312): the next claim of a die's k-th queue. -/
def execLaunchAccept (die k : Nat) (s : State) : Host.Outcome State Fault Refusal := stepDone (launchAccept s die k (peers s die))
/-- ELIGIBLE (R316, R317): a die's k-th record. -/
def execEligible (die k : Nat) (s : State) : Host.Outcome State Fault Refusal := stepDone (eligibleStep s die k)
/-- BIND (R320): the head command of a die. -/
def execBind (die : Nat) (s : State) : Host.Outcome State Fault Refusal := stepDone (perform s die 1)
/-- ARM (R322). -/
def execArm (die : Nat) (s : State) : Host.Outcome State Fault Refusal := stepDone (perform s die 2)
/-- ARMED_BIND (R322): a die's k-th queue. -/
def execArmedBind (die k : Nat) (s : State) : Host.Outcome State Fault Refusal := stepDone (armedBind s die k)
/-- PREEMPT (R325). -/
def execPreempt (die : Nat) (s : State) : Host.Outcome State Fault Refusal := stepDone (perform s die 3)
/-- SAVE (R325, R326). -/
def execSave (tid : Nat) (s : State) : Host.Outcome State Fault Refusal := stepDone (saveStep s tid)
/-- RESTORE (R329). -/
def execRestore (die : Nat) (s : State) : Host.Outcome State Fault Refusal := stepDone (perform s die 4)
/-- KILL (R330). -/
def execKill (die : Nat) (s : State) : Host.Outcome State Fault Refusal := stepDone (perform s die 5)
/-- YIELD (R323). -/
def execYield (die : Nat) (s : State) : Host.Outcome State Fault Refusal := stepDone (perform s die 6)
/-- CANCEL (R331). -/
def execCancel (die : Nat) (s : State) : Host.Outcome State Fault Refusal := stepDone (perform s die 7)
/-- TASK_COMPLETION (R324). -/
def execTaskCompletion (tid : Nat) (s : State) : Host.Outcome State Fault Refusal := stepDone (completeTask s tid)

/-! ### Translation (16_faults.md) -/

/-- TLBI (R361). -/
def execTlbi (die : Nat) (v : W64) (s : State) : Host.Outcome State Fault Refusal := stepDone (if die < 2 then tlbiWrite s die v else s)
/-- TLBI_COMPLETE (R361). -/
def execTlbiComplete (die : Nat) (s : State) : Host.Outcome State Fault Refusal := stepDone (tlbiDone s die)
/-- PAGE_WALK (R357-R359). -/
def execPageWalk (die asid : Nat) (va : W64) (wr kl : Bool) (s : State) : Host.Outcome State Fault Refusal :=
  stepDone (if die < 2 then walkStep s die asid va.toNat wr kl else s)
/-- FAULT_RECORD_WRITE (R363, R364). -/
def execFaultRecordWrite (die : Nat) (s : State) : Host.Outcome State Fault Refusal := stepDone (faultRecord s die)
/-- FRESUME_FILLED (R365). -/
def execFresumeFilled (die fid : Nat) (s : State) : Host.Outcome State Fault Refusal := stepDone (if die < 2 then fresume s die fid false else s)
/-- FRESUME_ERROR (R365). -/
def execFresumeError (die fid : Nat) (s : State) : Host.Outcome State Fault Refusal := stepDone (if die < 2 then fresume s die fid true else s)

end Sys2Proof.Machine
end

