-- ==== Sys2Proof/Machine/SystemSteps.lean ====
section
/-! DEFINITION. Device steps of reliability, links, ports, power, start-up, register windows and system cores, as steps of their own
(95_what_each_step_holds.md). -/

namespace Sys2Proof.Machine

/-- ERROR_CORRECTED (R375). -/
def execErrorCorrected (die : Nat) (s : State) : Host.Outcome State Fault Refusal := stepDone (errorCorrected s die)
/-- POISONING (R376). -/
def execPoisoning (die space unit word : Nat) (s : State) : Host.Outcome State Fault Refusal := stepDone (poisoning s die space unit word)
/-- PARITY_ERROR_KILL (R374, R378). -/
def execParityErrorKill (tid : Nat) (s : State) : Host.Outcome State Fault Refusal := stepDone (parityError s tid)
/-- LANE_FAIL (R389). -/
def execLaneFail (link lane : Nat) (s : State) : Host.Outcome State Fault Refusal := stepDone (laneFail s link lane)
/-- LINK_TRAINED (R389, R397). -/
def execLinkTrained (link : Nat) (s : State) : Host.Outcome State Fault Refusal := stepDone (linkTrained s link)
/-- FLIT_REPLAY (R390). -/
def execFlitReplay (link : Nat) (s : State) : Host.Outcome State Fault Refusal := stepDone (flitReplay s link)
/-- ROUTE_ADVERTISEMENT (R392). -/
def execRouteAdvertisement (port : Nat) (s : State) : Host.Outcome State Fault Refusal := stepDone (routeAdvert s port)
/-- PERST_DEASSERT (R397). -/
def execPerstDeassert (die : Nat) (s : State) : Host.Outcome State Fault Refusal := stepDone (perstDeassert s die)
/-- STORAGE_PORT_ENABLE (R397). -/
def execStoragePortEnable (die : Nat) (on : Bool) (s : State) : Host.Outcome State Fault Refusal := stepDone (storagePortEnable s die on)
/-- GFT_PORT_ENABLE (R397). -/
def execGftPortEnable (die port : Nat) (on : Bool) (s : State) : Host.Outcome State Fault Refusal := stepDone (gftPortEnable s die port on)
/-- TRAINING_RETRY (R397). -/
def execTrainingRetry (link : Nat) (s : State) : Host.Outcome State Fault Refusal := stepDone (trainingRetry s link)
/-- BAR2_ACCESS (R399). -/
def execBar2Access (die off : Nat) (op : MemOp) (size : Nat) (v cmp : W64) (s : State) : Host.Outcome State Fault Refusal :=
  stepDone (bar2Access s die off op size v cmp)
/-- PEER_REQUEST (R401). -/
def execPeerRequest (die : Nat) (va : W64) (op : MemOp) (size : Nat) (v cmp : W64) (s : State) : Host.Outcome State Fault Refusal :=
  stepDone (peerRequest s die va op size v cmp)
/-- STORAGE_DMA (R401). -/
def execStorageDma (die : Nat) (va : W64) (op : MemOp) (size : Nat) (v : W64) (s : State) : Host.Outcome State Fault Refusal :=
  stepDone (storageDma s die va op size v)
/-- DRIVE_MSIX (R400). -/
def execDriveMsix (die : Nat) (s : State) : Host.Outcome State Fault Refusal := stepDone (driveInterrupt s die)
/-- LTR_MESSAGE (R403). -/
def execLtrMessage (die ns : Nat) (s : State) : Host.Outcome State Fault Refusal := stepDone (ltrMessage s die ns)
/-- POWER_STATE_ENTRY (R404). -/
def execPowerStateEntry (s : State) : Host.Outcome State Fault Refusal := stepDone (powerEntry s)
/-- POWER_WAKE (R405). -/
def execPowerWake (ev : Nat) (s : State) : Host.Outcome State Fault Refusal := stepDone (powerWake s ev)
/-- BOOT (R407). -/
def execBoot (die : Nat) (s : State) : Host.Outcome State Fault Refusal := stepDone (bootNow s die)
/-- KLOAD_GO (R408). -/
def execKloadGo (die : Nat) (s : State) : Host.Outcome State Fault Refusal := stepDone (kloadWrite s die)
/-- ATTESTATION_REQUEST (R410). -/
def execAttestationRequest (die : Nat) (s : State) : Host.Outcome State Fault Refusal := stepDone (attRequest s die)
/-- ATTESTATION_DONE (R410). -/
def execAttestationDone (die : Nat) (s : State) : Host.Outcome State Fault Refusal := stepDone (attFinish s die)
/-- REGISTER_WRITE (R394). -/
def execRegisterWrite (die : Nat) (who : Writer) (off : Nat) (v : W64) (s : State) : Host.Outcome State Fault Refusal :=
  stepDone (registerWrite s die who off v)
/-- SYSTEM_CORE_INSTRUCTION (R33). -/
def execSystemCoreInstruction (die hart : Nat) (s : State) : Host.Outcome State Fault Refusal := stepDone (hartStep s die hart)

end Sys2Proof.Machine
end

