-- ==== Sys2Proof/Machine/Dispatch.lean ====
section
/-! DEFINITION. One arm for each row of spec/opcode_table.json. -/

namespace Sys2Proof.Machine

/-- The meaning of an instruction in a state. -/
def exec (i : Instr) (s : State) : Host.Outcome State Fault Refusal :=
  match i with
  | .brNop => Sys2Proof.Machine.execBrNop s
  | .brJmp g o => Sys2Proof.Machine.execBrJmp g o s
  | .brCall g o => Sys2Proof.Machine.execBrCall g o s
  | .brJmpr g a => Sys2Proof.Machine.execBrJmpr g a s
  | .brRet g => Sys2Proof.Machine.execBrRet g s
  | .brLoop g l o => Sys2Proof.Machine.execBrLoop g l o s
  | .brLset g l a => Sys2Proof.Machine.execBrLset g l a s
  | .brDelay n => Sys2Proof.Machine.execBrDelay n s
  | .brWaita g a b cd => Sys2Proof.Machine.execBrWaita g a b cd s
  | .brTokw g k => Sys2Proof.Machine.execBrTokw g k s
  | .brPload g a => Sys2Proof.Machine.execBrPload g a s
  | .brEarly g => Sys2Proof.Machine.execBrEarly g s
  | .brExit g => Sys2Proof.Machine.execBrExit g s
  | .brSys g n => Sys2Proof.Machine.execBrSys g n s
  | .brTret g => Sys2Proof.Machine.execBrTret g s
  | .brCrgnOpen o => Sys2Proof.Machine.execBrCrgnOpen o s
  | .brCrgnClose => Sys2Proof.Machine.execBrCrgnClose s
  | .brBrk g n => Sys2Proof.Machine.execBrBrk g n s
  | .brBar g a => Sys2Proof.Machine.execBrBar g a s
  | .brFevclr g => Sys2Proof.Machine.execBrFevclr g s
  | .saNop => Sys2Proof.Machine.execSaNop s
  | .sbNop => Sys2Proof.Machine.execSbNop s
  | .saAdd u g d a b => Sys2Proof.Machine.execSaAdd u g d a b s
  | .saSub u g d a b => Sys2Proof.Machine.execSaSub u g d a b s
  | .saMul u g d a b => Sys2Proof.Machine.execSaMul u g d a b s
  | .saMulh u g d a b x => Sys2Proof.Machine.execSaMulh u g d a b x s
  | .saDiv u g d a b x => Sys2Proof.Machine.execSaDiv u g d a b x s
  | .saRem u g d a b x => Sys2Proof.Machine.execSaRem u g d a b x s
  | .saAnd u g d a b => Sys2Proof.Machine.execSaAnd u g d a b s
  | .saOr u g d a b => Sys2Proof.Machine.execSaOr u g d a b s
  | .saXor u g d a b => Sys2Proof.Machine.execSaXor u g d a b s
  | .saShl u g d a b => Sys2Proof.Machine.execSaShl u g d a b s
  | .saShr u g d a b => Sys2Proof.Machine.execSaShr u g d a b s
  | .saSra u g d a b => Sys2Proof.Machine.execSaSra u g d a b s
  | .saMin u g d a b x => Sys2Proof.Machine.execSaMin u g d a b x s
  | .saMax u g d a b x => Sys2Proof.Machine.execSaMax u g d a b x s
  | .saCmp u g p a b cd => Sys2Proof.Machine.execSaCmp u g p a b cd s
  | .saPand u g d a b => Sys2Proof.Machine.execSaPand u g d a b s
  | .saPor u g d a b => Sys2Proof.Machine.execSaPor u g d a b s
  | .saPxor u g d a b => Sys2Proof.Machine.execSaPxor u g d a b s
  | .saMovi u g d n => Sys2Proof.Machine.execSaMovi u g d n s
  | .saMovh u g d n => Sys2Proof.Machine.execSaMovh u g d n s
  | .saAddi u g d n => Sys2Proof.Machine.execSaAddi u g d n s
  | .saLdB64 u g d a b => Sys2Proof.Machine.execSaLdB64 u g d a b s
  | .saLdB32 u g d a b x => Sys2Proof.Machine.execSaLdB32 u g d a b x s
  | .saLdB16 u g d a b x => Sys2Proof.Machine.execSaLdB16 u g d a b x s
  | .saLdB8 u g d a b x => Sys2Proof.Machine.execSaLdB8 u g d a b x s
  | .saStB64 u g d a b => Sys2Proof.Machine.execSaStB64 u g d a b s
  | .saStB32 u g d a b => Sys2Proof.Machine.execSaStB32 u g d a b s
  | .saStB16 u g d a b => Sys2Proof.Machine.execSaStB16 u g d a b s
  | .saStB8 u g d a b => Sys2Proof.Machine.execSaStB8 u g d a b s
  | .saFaddF64 u g d a b => Sys2Proof.Machine.execSaFaddF64 u g d a b s
  | .saFsubF64 u g d a b => Sys2Proof.Machine.execSaFsubF64 u g d a b s
  | .saFmulF64 u g d a b => Sys2Proof.Machine.execSaFmulF64 u g d a b s
  | .saFdivF64 u g d a b => Sys2Proof.Machine.execSaFdivF64 u g d a b s
  | .saFaddF32 u g d a b => Sys2Proof.Machine.execSaFaddF32 u g d a b s
  | .saFsubF32 u g d a b => Sys2Proof.Machine.execSaFsubF32 u g d a b s
  | .saFmulF32 u g d a b => Sys2Proof.Machine.execSaFmulF32 u g d a b s
  | .saFdivF32 u g d a b => Sys2Proof.Machine.execSaFdivF32 u g d a b s
  | .saFcvt u g d a f t rn => Sys2Proof.Machine.execSaFcvt u g d a f t rn s
  | .saFcmpF64 u g p a b cd => Sys2Proof.Machine.execSaFcmpF64 u g p a b cd s
  | .saFcmpF32 u g p a b cd => Sys2Proof.Machine.execSaFcmpF32 u g p a b cd s
  | .saMfsr u g d n => Sys2Proof.Machine.execSaMfsr u g d n s
  | .saMtsr u g a n => Sys2Proof.Machine.execSaMtsr u g a n s
  | .saTshape u g t a => Sys2Proof.Machine.execSaTshape u g t a s
  | .ldNop => Sys2Proof.Machine.execLdNop s
  | .ldW g d b m o => Sys2Proof.Machine.execLdW g d b m o s
  | .stW g d b m o => Sys2Proof.Machine.execStW g d b m o s
  | .ldRow g d b m o => Sys2Proof.Machine.execLdRow g d b m o s
  | .stRow g d b m o => Sys2Proof.Machine.execStRow g d b m o s
  | .ldCol g d b m o => Sys2Proof.Machine.execLdCol g d b m o s
  | .stCol g d b m o => Sys2Proof.Machine.execStCol g d b m o s
  | .ldTile g t b m => Sys2Proof.Machine.execLdTile g t b m s
  | .stTile g t b m => Sys2Proof.Machine.execStTile g t b m s
  | .ldAcc g r b m n => Sys2Proof.Machine.execLdAcc g r b m n s
  | .stAcc g r b m n => Sys2Proof.Machine.execStAcc g r b m n s
  | .ldTagsetFull g b n => Sys2Proof.Machine.execLdTagsetFull g b n s
  | .ldTagsetEmpty g b n => Sys2Proof.Machine.execLdTagsetEmpty g b n s
  | .vxNop => Sys2Proof.Machine.execVxNop s
  | .vxAdd g d a b t => Sys2Proof.Machine.execVxAdd g d a b t s
  | .vxSub g d a b t => Sys2Proof.Machine.execVxSub g d a b t s
  | .vxMul g d a b t => Sys2Proof.Machine.execVxMul g d a b t s
  | .vxFmaF32 g d a b e => Sys2Proof.Machine.execVxFmaF32 g d a b e s
  | .vxFmaF64 g d a b e => Sys2Proof.Machine.execVxFmaF64 g d a b e s
  | .vxFmaF16 g d a b e => Sys2Proof.Machine.execVxFmaF16 g d a b e s
  | .vxFmaBf16 g d a b e => Sys2Proof.Machine.execVxFmaBf16 g d a b e s
  | .vxMin g d a b t => Sys2Proof.Machine.execVxMin g d a b t s
  | .vxMax g d a b t => Sys2Proof.Machine.execVxMax g d a b t s
  | .vxAbs g d a t => Sys2Proof.Machine.execVxAbs g d a t s
  | .vxAnd g d a b => Sys2Proof.Machine.execVxAnd g d a b s
  | .vxOr g d a b => Sys2Proof.Machine.execVxOr g d a b s
  | .vxXor g d a b => Sys2Proof.Machine.execVxXor g d a b s
  | .vxShl g d a b t => Sys2Proof.Machine.execVxShl g d a b t s
  | .vxShr g d a b t => Sys2Proof.Machine.execVxShr g d a b t s
  | .vxCmp g m a b cd t => Sys2Proof.Machine.execVxCmp g m a b cd t s
  | .vxSel g d a b m => Sys2Proof.Machine.execVxSel g d a b m s
  | .vxPerm g d a b t => Sys2Proof.Machine.execVxPerm g d a b t s
  | .vxBcast g d a t => Sys2Proof.Machine.execVxBcast g d a t s
  | .vxMovi g d n => Sys2Proof.Machine.execVxMovi g d n s
  | .vxRedsum g d a b t => Sys2Proof.Machine.execVxRedsum g d a b t s
  | .vxRedmax g d a b t => Sys2Proof.Machine.execVxRedmax g d a b t s
  | .vxExp g d a => Sys2Proof.Machine.execVxExp g d a s
  | .vxRcp g d a => Sys2Proof.Machine.execVxRcp g d a s
  | .vxRsqrt g d a => Sys2Proof.Machine.execVxRsqrt g d a s
  | .vxCvt g d a f t => Sys2Proof.Machine.execVxCvt g d a f t s
  | .vxCvts g d a f t => Sys2Proof.Machine.execVxCvts g d a f t s
  | .vxAmax g d a b t => Sys2Proof.Machine.execVxAmax g d a b t s
  | .vxScale g d a b t => Sys2Proof.Machine.execVxScale g d a b t s
  | .vxPush g v q => Sys2Proof.Machine.execVxPush g v q s
  | .vxPop g v q => Sys2Proof.Machine.execVxPop g v q s
  | .vxRand g d a b t => Sys2Proof.Machine.execVxRand g d a b t s
  | .vxAcs g d a b t => Sys2Proof.Machine.execVxAcs g d a b t s
  | .vxTval g d a t => Sys2Proof.Machine.execVxTval g d a t s
  | .vxMov g d a => Sys2Proof.Machine.execVxMov g d a s
  | .vxExt g d a l t => Sys2Proof.Machine.execVxExt g d a l t s
  | .mxNop => Sys2Proof.Machine.execMxNop s
  | .mxMma g l a r t o => Sys2Proof.Machine.execMxMma g l a r t o s
  | .mxLatq g l q => Sys2Proof.Machine.execMxLatq g l q s
  | .mxLatt g l a => Sys2Proof.Machine.execMxLatt g l a s
  | .mxTtr g d a => Sys2Proof.Machine.execMxTtr g d a s
  | .mxAccz g r n => Sys2Proof.Machine.execMxAccz g r n s
  | .mxAccq g r n q => Sys2Proof.Machine.execMxAccq g r n q s
  | .dxNop => Sys2Proof.Machine.execDxNop s
  | .dxCpost g a b k => Sys2Proof.Machine.execDxCpost g a b k s
  | .dxKdep g a b e => Sys2Proof.Machine.execDxKdep g a b e s
  | .dxAqpop g d => Sys2Proof.Machine.execDxAqpop g d s
  | .dxQcfgCfg g q a => Sys2Proof.Machine.execDxQcfgCfg g q a s
  | .dxQcfgCal g q a => Sys2Proof.Machine.execDxQcfgCal g q a s
  | .dxQcfgKey g q a => Sys2Proof.Machine.execDxQcfgKey g q a s
  | .dxQcfgCtr g q a => Sys2Proof.Machine.execDxQcfgCtr g q a s
  | .dxQstep g q a => Sys2Proof.Machine.execDxQstep g q a s
  | .dxQstepWsat g q a => Sys2Proof.Machine.execDxQstepWsat g q a s
  | .dxQstepFlush g q a => Sys2Proof.Machine.execDxQstepFlush g q a s
  | .dxQrdCfg g q d => Sys2Proof.Machine.execDxQrdCfg g q d s
  | .dxQrdCal g q d => Sys2Proof.Machine.execDxQrdCal g q d s
  | .dxQrdAmax g q d => Sys2Proof.Machine.execDxQrdAmax g q d s
  | .dxQrdSat g q d => Sys2Proof.Machine.execDxQrdSat g q d s
  | .dxMdec g b t q k => Sys2Proof.Machine.execDxMdec g b t q k s
  | .dxTdefWa g t a => Sys2Proof.Machine.execDxTdefWa g t a s
  | .dxTdefWb g t a => Sys2Proof.Machine.execDxTdefWb g t a s
  | .dxTdefRa g t a => Sys2Proof.Machine.execDxTdefRa g t a s
  | .dxTdefRb g t a => Sys2Proof.Machine.execDxTdefRb g t a s
  | .dxTload g a b k => Sys2Proof.Machine.execDxTload g a b k s
  | .sqNop => Sys2Proof.Machine.execSqNop s
  | .sqSmerge g v b m => Sys2Proof.Machine.execSqSmerge g v b m s
  | .sqSclr g => Sys2Proof.Machine.execSqSclr g s
  | .sqStemp g a => Sys2Proof.Machine.execSqStemp g a s
  | .sqStopk g a => Sys2Proof.Machine.execSqStopk g a s
  | .sqStopp g a => Sys2Proof.Machine.execSqStopp g a s
  | .sqSdraw g a b => Sys2Proof.Machine.execSqSdraw g a b s
  | .sqSdrawLin g a b => Sys2Proof.Machine.execSqSdrawLin g a b s
  | .sqSgetVal g a => Sys2Proof.Machine.execSqSgetVal g a s
  | .sqSgetIdx g a => Sys2Proof.Machine.execSqSgetIdx g a s
  | .sqSgetProb g a => Sys2Proof.Machine.execSqSgetProb g a s
  | .sqSgetTprob g a => Sys2Proof.Machine.execSqSgetTprob g a s
  | .sqSgetSum g => Sys2Proof.Machine.execSqSgetSum g s
  | .sqBalloc g d a => Sys2Proof.Machine.execSqBalloc g d a s
  | .sqBfree g a k => Sys2Proof.Machine.execSqBfree g a k s
  | .sqBfreeAcq g a k => Sys2Proof.Machine.execSqBfreeAcq g a k s
  | .sqKvapp g a b k => Sys2Proof.Machine.execSqKvapp g a b k s
  | .sqKvappList g a b k => Sys2Proof.Machine.execSqKvappList g a b k s
  | .sqKvfork g a b k => Sys2Proof.Machine.execSqKvfork g a b k s
  | .sqKvroll g a k => Sys2Proof.Machine.execSqKvroll g a k s
  | .sqKvcommit g a b k => Sys2Proof.Machine.execSqKvcommit g a b k s
  | .sqKvwinGet g d a => Sys2Proof.Machine.execSqKvwinGet g d a s
  | .sqKvwinSet g d a b => Sys2Proof.Machine.execSqKvwinSet g d a b s
  | .sqSquash g a b k => Sys2Proof.Machine.execSqSquash g a b k s
  | .sqGbind g a b k => Sys2Proof.Machine.execSqGbind g a b k s
  | .sqGbindReset g a b k => Sys2Proof.Machine.execSqGbindReset g a b k s
  | .sqGbindDrop g a k => Sys2Proof.Machine.execSqGbindDrop g a k s
  | .sqGstep g a b k => Sys2Proof.Machine.execSqGstep g a b k s
  | .sqGmask g a b k => Sys2Proof.Machine.execSqGmask g a b k s
  | .sqGfork g a b k => Sys2Proof.Machine.execSqGfork g a b k s
  | .sqGrollEnt g a b k => Sys2Proof.Machine.execSqGrollEnt g a b k s
  | .sqGrollPos g a b k => Sys2Proof.Machine.execSqGrollPos g a b k s
  | .sqGcommit g a b k => Sys2Proof.Machine.execSqGcommit g a b k s
  | .sqItnext g d a b => Sys2Proof.Machine.execSqItnext g d a b s
  | .sqItdone g a b k => Sys2Proof.Machine.execSqItdone g a b k s
  | .sqItyield g a b k => Sys2Proof.Machine.execSqItyield g a b k s
  | .sqSchw g a b k => Sys2Proof.Machine.execSqSchw g a b k s
  | .sqRpop g d => Sys2Proof.Machine.execSqRpop g d s
  | .bundleSkip g => Sys2Proof.Machine.execBundleSkip g s
  | .takeIssue g => Sys2Proof.Machine.execTakeIssue g s
  | .exposedResultLand c k => Sys2Proof.Machine.execExposedResultLand c k s
  | .dataWaitEvent c => Sys2Proof.Machine.execDataWaitEvent c s
  | .trapEntry c => Sys2Proof.Machine.execTrapEntry c s
  | .storePerformed c => Sys2Proof.Machine.execStorePerformed c s
  | .ptsTick g => Sys2Proof.Machine.execPtsTick g s
  | .watchWake c => Sys2Proof.Machine.execWatchWake c s
  | .scratchpadWritePerformed g k => Sys2Proof.Machine.execScratchpadWritePerformed g k s
  | .tileCommandDone g k => Sys2Proof.Machine.execTileCommandDone g k s
  | .containmentUnwind c addr => Sys2Proof.Machine.execContainmentUnwind c addr s
  | .sealsub die asid v => Sys2Proof.Machine.execSealsub die asid v s
  | .sealRequest die => Sys2Proof.Machine.execSealRequest die s
  | .sealrel die v => Sys2Proof.Machine.execSealrel die v s
  | .maceCommandStart g => Sys2Proof.Machine.execMaceCommandStart g s
  | .maceEntryPush g => Sys2Proof.Machine.execMaceEntryPush g s
  | .maceCommandRetire g => Sys2Proof.Machine.execMaceCommandRetire g s
  | .maceCancel g tid => Sys2Proof.Machine.execMaceCancel g tid s
  | .mmaRowLand g k => Sys2Proof.Machine.execMmaRowLand g k s
  | .latqPop g k => Sys2Proof.Machine.execLatqPop g k s
  | .tilePathDone g k => Sys2Proof.Machine.execTilePathDone g k s
  | .acczRowWrite g k => Sys2Proof.Machine.execAcczRowWrite g k s
  | .accqPush g k => Sys2Proof.Machine.execAccqPush g k s
  | .windowCycleAdd g k => Sys2Proof.Machine.execWindowCycleAdd g k s
  | .cqadd die eng asid v => Sys2Proof.Machine.execCqadd die eng asid v s
  | .cqdel die eng asid v => Sys2Proof.Machine.execCqdel die eng asid v s
  | .packetAccept die eng k => Sys2Proof.Machine.execPacketAccept die eng k s
  | .packetStart die eng k => Sys2Proof.Machine.execPacketStart die eng k s
  | .packetWord die eng k => Sys2Proof.Machine.execPacketWord die eng k s
  | .packetComplete die eng k => Sys2Proof.Machine.execPacketComplete die eng k s
  | .poolRegister die pool => Sys2Proof.Machine.execPoolRegister die pool s
  | .poolDeregister die pool => Sys2Proof.Machine.execPoolDeregister die pool s
  | .aniseCommandTurn die k => Sys2Proof.Machine.execAniseCommandTurn die k s
  | .quarantineExit die k => Sys2Proof.Machine.execQuarantineExit die k s
  | .cloveCommandStart g k => Sys2Proof.Machine.execCloveCommandStart g k s
  | .samplerCommandComplete g => Sys2Proof.Machine.execSamplerCommandComplete g s
  | .squashTurn die k => Sys2Proof.Machine.execSquashTurn die k s
  | .squashEvent c => Sys2Proof.Machine.execSquashEvent c s
  | .squashTokenDone k => Sys2Proof.Machine.execSquashTokenDone k s
  | .walkerCommandStart cl k => Sys2Proof.Machine.execWalkerCommandStart cl k s
  | .lqadd die asid v => Sys2Proof.Machine.execLqadd die asid v s
  | .lqdel die asid v => Sys2Proof.Machine.execLqdel die asid v s
  | .launchAccept die k => Sys2Proof.Machine.execLaunchAccept die k s
  | .eligible die k => Sys2Proof.Machine.execEligible die k s
  | .bind die => Sys2Proof.Machine.execBind die s
  | .arm die => Sys2Proof.Machine.execArm die s
  | .armedBind die k => Sys2Proof.Machine.execArmedBind die k s
  | .preempt die => Sys2Proof.Machine.execPreempt die s
  | .save tid => Sys2Proof.Machine.execSave tid s
  | .restore die => Sys2Proof.Machine.execRestore die s
  | .latchEntryLand c k => Sys2Proof.Machine.execLatchEntryLand c k s
  | .kill die => Sys2Proof.Machine.execKill die s
  | .yield die => Sys2Proof.Machine.execYield die s
  | .giveUpIssue g => Sys2Proof.Machine.execGiveUpIssue g s
  | .cancel die => Sys2Proof.Machine.execCancel die s
  | .expiry c => Sys2Proof.Machine.execExpiry c s
  | .taskCompletion tid => Sys2Proof.Machine.execTaskCompletion tid s
  | .tlbi die v => Sys2Proof.Machine.execTlbi die v s
  | .tlbiComplete die => Sys2Proof.Machine.execTlbiComplete die s
  | .pageWalk die asid va wr kl => Sys2Proof.Machine.execPageWalk die asid va wr kl s
  | .faultRecordWrite die => Sys2Proof.Machine.execFaultRecordWrite die s
  | .fresumeFilled die fid => Sys2Proof.Machine.execFresumeFilled die fid s
  | .fresumeError die fid => Sys2Proof.Machine.execFresumeError die fid s
  | .errorCorrected die => Sys2Proof.Machine.execErrorCorrected die s
  | .poisoning die space unit word => Sys2Proof.Machine.execPoisoning die space unit word s
  | .parityErrorKill tid => Sys2Proof.Machine.execParityErrorKill tid s
  | .laneFail link lane => Sys2Proof.Machine.execLaneFail link lane s
  | .linkTrained link => Sys2Proof.Machine.execLinkTrained link s
  | .flitReplay link => Sys2Proof.Machine.execFlitReplay link s
  | .routeAdvertisement port => Sys2Proof.Machine.execRouteAdvertisement port s
  | .perstDeassert die => Sys2Proof.Machine.execPerstDeassert die s
  | .storagePortEnable die on => Sys2Proof.Machine.execStoragePortEnable die on s
  | .gftPortEnable die port on => Sys2Proof.Machine.execGftPortEnable die port on s
  | .trainingRetry link => Sys2Proof.Machine.execTrainingRetry link s
  | .bar2Access die off op size v cmp => Sys2Proof.Machine.execBar2Access die off op size v cmp s
  | .peerRequest die va op size v cmp => Sys2Proof.Machine.execPeerRequest die va op size v cmp s
  | .storageDma die va op size v => Sys2Proof.Machine.execStorageDma die va op size v s
  | .driveMsix die => Sys2Proof.Machine.execDriveMsix die s
  | .ltrMessage die ns => Sys2Proof.Machine.execLtrMessage die ns s
  | .powerStateEntry => Sys2Proof.Machine.execPowerStateEntry s
  | .powerWake ev => Sys2Proof.Machine.execPowerWake ev s
  | .boot die => Sys2Proof.Machine.execBoot die s
  | .kloadGo die => Sys2Proof.Machine.execKloadGo die s
  | .attestationRequest die => Sys2Proof.Machine.execAttestationRequest die s
  | .attestationDone die => Sys2Proof.Machine.execAttestationDone die s
  | .registerWrite die who off v => Sys2Proof.Machine.execRegisterWrite die who off v s
  | .systemCoreInstruction die hart => Sys2Proof.Machine.execSystemCoreInstruction die hart s

end Sys2Proof.Machine
end

