-- ==== Sys2Proof/Machine/Advance.lean ====
section
/-! DEFINITION. What the rest of the package does beside a core's cycle when no move is given (DESIGN CHOICE, log entry 4): each agent takes one step of its
own work in a fixed order. Any other order is open to the list of moves. And the state in which a given slot word is fetched next. -/

namespace Sys2Proof.Machine

/-- Each context with an issued store has its oldest performed (R131). -/
def advanceStores (s : State) : State :=
  s.ctxs.foldl (fun (s : State) (c : Nat × Context) => if c.2.stores.isEmpty then s else performStore s c.1) s

/-- The first command of Anise that may take its turn at a die takes it (R261). -/
def advanceAnise (s : State) (die : Nat) : State :=
  match (List.range s.anise.length).find? (fun k => mayTurn s s.anise k (fun o => aniseDie s o == die) (aniseConflict s)) with
  | some k => aniseCommandTurn s die k
  | none => s

/-- The first command of the schedule walkers that may take its turn takes it (R350). -/
def advanceWalks (s : State) : State :=
  match (List.range s.walks.length).find? (fun k => match s.walks[k]? with
    | some q => mayTurn s s.walks k (fun o => walkCluster s o == walkCluster s q) walkConflict
    | none => false) with
  | some k => match s.walks[k]? with
    | some q => walkerCommandStart s (walkCluster s q) k
    | none => s
  | none => s

/-- The dispatch hardware of a die: held events, acceptance, eligibility, the head command, armed queues (R310-R322). -/
def advanceDispatch (s : State) (die : Nat) : State :=
  let s := flushEvents s die (s.die die).events.length
  let s := (List.range (s.die die).lqs.length).foldl (fun s k => launchAccept s die k (peers s die)) s
  let s := (List.range (s.die die).recs.length).foldl (fun s k => eligibleStep s die k) s
  let s := match (s.die die).dcmd with | q :: _ => perform s die q.op | [] => s
  (List.range (s.die die).lqs.length).foldl (fun s k => armedBind s die k) s

/-- Fault records, invalidations, seal requests and quarantine of a die. -/
def advanceService (s : State) (die : Nat) : State :=
  let s := tlbiDone (sealPerform (faultRecord s die) die) die
  if (s.die die).quars.isEmpty then s else quarExit s die 0

/-- The agents of a listed die. -/
def advanceDie (s : State) (die : Nat) : State :=
  let s := (s.die die).engines.foldl (fun (s : State) (e : Nat × Engine) => engineAuto s die e.1) s
  advanceService (advanceDispatch (advanceAnise s die) die) die

/-- Saves and completions of the tasks (R324, R325). -/
def advanceTasks (s : State) : State :=
  s.tasks.foldl (fun (s : State) (t : Nat × Task) => completeTask (saveStep s t.1) t.1) s

/-- The running harts execute one instruction each (R33). -/
def advanceHarts (s : State) : State := s.harts.foldl (fun (s : State) (h : Nat × Hart) => hartStep s (h.1 / 9) (h.1 % 9)) s

/-- The next core in focus: the next one with a bound context, in rising order and round to the first. -/
def nextFocus (s : State) : Nat :=
  match s.bound.find? (fun p => decide (s.focus < coreOf p.1)) with
  | some p => coreOf p.1
  | none => match s.bound with
    | p :: _ => coreOf p.1
    | [] => s.focus

/-- Every 16 cycles of the lowest core that has a bound context, the clocks of all other agents rise by a tick (R103; DESIGN CHOICE, log
entry 8). -/
def advanceClocks (s : State) : State :=
  let first := match s.bound with | p :: _ => coreOf p.1 | [] => s.focus
  if s.focus = first ∧ (s.core first).cycle % 16 = 15 then
    { s with pts := agentCodes.foldl (fun m c => SMap.set 0 m c (tick64 (SMap.get 0 m c + 1))) s.pts }
  else s

/-- One round of all agents but the core in focus. -/
def advance (s : State) : State :=
  let s := advanceStores (advanceClocks s)
  let s := (s.dies.map Prod.fst).foldl advanceDie s
  let s := advanceWalks s
  let s := if s.squashes.isEmpty then s else squashTokenDone s 0
  let s := settleAll (advanceHarts (advanceTasks s))
  { s with focus := nextFocus s }

/-! ### A slot word fetched next -/

/-- The level table of a task of one context: one level of count 1 with domain CONTEXT and scope SCRATCH (R11). -/
def loneWords : List W64 := [0, BitVec.ofNat 64 (2 ^ 52)] ++ List.replicate 6 0 ++ [1] ++ List.replicate 7 0

/-- A bundle of one slot word, and a bundle that exits. -/
def loneImage (b : Bundle) : List Bundle := [b, BitVec.ofNat 256 0x01800000]

/-- The state with a bundle where context 0 of core 0 fetches next: its image is sealed under handle 1, task 0 is bound with this one context,
which holds issue and owns the matrix state of its core, and no move stands before it (DEDUCED, log entry 10). -/
def placeBundle (s : State) (b : Bundle) : State :=
  let x := s.ctx 0
  let s := s.setCtx 0 { x with st := .active, why := .none, tid := 0, rank := 0, handle := 1, pc := 0, delay := 0, bubble := 0, trap := none,
                               squash := none, refused := none, frz := 0, spent := 0, stores := [], asks := [], test := none, due := none,
                               barPass := none, barIn := none, dwDue := false, exits := false, halt := false }
  let s := s.modCore 0 (fun g => { g with active := some 0, yields := false, wait := none, lat := [], hold := none, owner := some 0, xcl := some 0 })
  let s := s.setTask 0 { Task.init with state := 2, live := 1, words := loneWords, handle := 1 }
  { s with moves := [], focus := 0, pstate := 0, seals := SMap.put (SMap.del s.seals 1) 1 ⟨loneImage b, false⟩ }

end Sys2Proof.Machine
end

