-- ==== Sys2Proof/Machine/Step.lean ====
section
/-! DEFINITION. One step of the machine (DESIGN CHOICE, log entry 4): the next move of the list, or, with no move given, one cycle of the core in focus and one
round of every other agent. -/

namespace Sys2Proof.Machine

/-- An agent's own move. In a power state the cores' clocks stop (18_host.md R404). -/
def performMove (m : Move) (s : State) : Host.Outcome State Fault Refusal :=
  match m with
  | .core g => if s.pstate = 0 then coreCycle s g else .next s
  | .event i => exec i s
  | .evictL1 g line => .next (s.modCore g (fun x => { x with l1 := x.l1.filter (fun y => y.line != line) }))
  | .evictTlb k => .next (s.evictTlb k)

/-- One step. In a power state the cores' clocks stop (18_host.md R404). -/
def step (s : State) : Host.Outcome State Fault Refusal :=
  match s.moves with
  | m :: r => performMove m { s with moves := r }
  | [] =>
    if s.pstate ≠ 0 then .next (advance s)
    else match coreCycle s s.focus with
      | .next t => .next (advance t)
      | .fault f => .fault f
      | .refused r => .refused r

/-- The state with a table word stored where the next step fetches: a word of 32 bits stands alone in its slot's bundle, one of 256 bits is
the bundle (log entries 10 (DEDUCED) and 11 (DESIGN CHOICE)). -/
def State.withFetchWord (s : State) (nbits w : Nat) : State :=
  match tableBundle nbits w with
  | some b => placeBundle s b
  | none => s

end Sys2Proof.Machine
end

