-- ==== Sys2Proof/Safety.lean ====
section
/-! DEFINITION. What a run may rely on, in the terms the statements use: the states in which a context can issue a bundle, the state after
it, the canonical form of memory, and the frames of the instructions. -/

namespace Sys2Proof.Machine

/-- Nothing that a bundle begins is left to settle: no unwind (17_reliability.md R380) and no kill (14_dispatch.md R330). -/
structure State.Calm (s : State) : Prop where
  noUnwind : s.unwinds = []
  noKill : ∀ p ∈ s.tasks, p.2.state ≠ 5

/-- Nothing that a step begins is left to settle: also no write of the dispatch hardware waits (16_faults.md R362, 17_reliability.md R392). -/
structure State.Still (s : State) : Prop extends State.Calm s where
  noWrite : s.dwrites = []

/-- Context c holds issue on the core in focus (01_organisation.md R21), between two bundles. -/
structure Acts (s : State) (c : Nat) : Prop extends State.Calm s where
  acting : s.acting = some c
  between : (s.ctx c).nxt = .seq

/-- The context after a bundle that has issued and does not transfer control: the pc is at the next bundle (02_bundle.md R36), its freeze
count is over (R23), its SR draws are counted (03_numbers.md R77), and no test, no interrupted delay and no barrier is held any more (05_control.md
R137, R140, 02_bundle.md R38). -/
def Context.afterBundle (x : Context) : Context :=
  { x with nxt := .seq, frz := 0, spent := 0, order := x.order + 1, srUsed := 0, test := none, due := none, barPass := none, barIn := none,
           pc := x.pc + 32 }

/-- The state after such a bundle of context c whose slots have had their effects: the tagged writes of the scratchpad are performed (04_memory.md
R109), and the counter of free values moves on (DESIGN CHOICE, log entry 5). -/
def issuedNext (s : State) (c : Nat) : State := (({ s with free := s.free + 1 } : State).performTagged (coreOf c)).modCtx c Context.afterBundle

/-- The state after a bundle of context c that goes on at `pc`, after `bubbles` cycles (05_control.md R134, R136). -/
def jumpNext (s : State) (c pc bubbles : Nat) : State :=
  (issuedNext s c).modCtx c (fun x => { x with pc := pc, bubble := bubbles })

/-- The memory is in canonical form: addresses strictly rising, no listed byte 0. -/
def State.MemOk (s : State) : Prop := Memory.wf s.mem = true

/-- Every byte of memory reads as before. -/
def State.SameMemory (s t : State) : Prop := ∀ a, t.byte a = s.byte a

/-- Every context but c is as before, every core but c's, every die, task, seal record, frame and link; memory reads as before. -/
structure OnlyContext (s t : State) (c : Nat) : Prop where
  ctxs : ∀ e, e ≠ c → t.ctx e = s.ctx e
  cores : ∀ g, g ≠ coreOf c → t.core g = s.core g
  dies : t.dies = s.dies
  tasks : t.tasks = s.tasks
  seals : t.seals = s.seals
  frames : t.frames = s.frames
  mem : s.SameMemory t

/-- The registers of a context are as before: results are exposed, and reach a register only when they land (02_bundle.md R43). -/
structure SameRegisters (x y : Context) : Prop where
  sr : y.sr = x.sr
  pr : y.pr = x.pr
  lc : y.lc = x.lc
  vr : y.vr = x.vr
  vm : y.vm = x.vm
  sys : y.sys = x.sys
  tok : y.tok = x.tok
  att : y.att = x.att
  cand : y.cand = x.cand

/-- The core is at rest for a bundle at once: no latency is imposed on its reads (DESIGN CHOICE, log entry 13), no packet of work yields its issue. -/
structure Core.Ready (g : Core) (c : Nat) : Prop where
  active : g.active = some c
  noYield : g.yields = false
  noLatency : g.lat = []
  noWait : g.wait = none

/-- Nothing stands before the fetch of the ACTIVE context's next bundle (05_control.md R143, R147, 16_faults.md R367, R369, R370,
13_sampling.md R305, 02_bundle.md R38, 05_control.md R136). -/
structure Context.AtBundle (x : Context) : Prop where
  noTrap : x.trap = none
  noRefusal : x.refused = none
  noWaitDue : x.dwDue = false
  noSquash : x.squash = none
  placed : ∀ t ∈ x.stores, t.pa.isSome = true
  noDelay : x.delay = 0
  noBubble : x.bubble = 0
  noExit : x.exits = false

/-- Core g moves in the step from s, in the state u: the core that the next move names, or with no move given the one in focus (DESIGN CHOICE,
log entry 4); none does in a power state (18_host.md R404). -/
def CoreMoves (s : State) (g : Nat) (u : State) : Prop :=
  s.pstate = 0 ∧ ((s.moves = [] ∧ g = s.focus ∧ u = s) ∨ ∃ r, s.moves = .core g :: r ∧ u = { s with moves := r })

/-- The context that holds issue on core g in this cycle, which has passed its bundle boundary in it, finds at its pc, after the bundles that it
skips, no bundle that a sealed image can hold (02_bundle.md R52, R55). -/
def FetchesNoBundle (u : State) (g : Nat) : Prop :=
  let v := takeIssue (giveUpIssue (keepTags u g) g) g
  ∃ c w, (v.core g).active = some c ∧ boundary v c = (w, false) ∧
    (fetchFrom c ((w.seal (w.ctx c).handle).code.length + 1) w).1 = .bad

/-- The state in which context c has trapped at its present bundle with a cause that prevents issue (05_control.md R146, R147): the trap is
taken, and what it begins is settled. -/
def trapped (s : State) (c code : Nat) (info : W64) : State := settleIssue (takeTrap s c code info (s.ctx c).handle (s.ctx c).pc)

/-- Context c has become BLOCKED at its present bundle, which has not issued (01_organisation.md R20, R21): it gives up issue, and its
place and its registers are as before. -/
structure BlocksOn (s t : State) (c : Nat) (why : Block) : Prop where
  st : (t.ctx c).st = .blocked
  why : (t.ctx c).why = why
  pc : (t.ctx c).pc = (s.ctx c).pc
  handle : (t.ctx c).handle = (s.ctx c).handle
  idle : (t.core (coreOf c)).active = none
  regs : SameRegisters (s.ctx c) (t.ctx c)

/-- A handler can be entered with a cause at once: nothing is pending, no handler is active, and the vector stands in an image
(05_control.md R147, R149). -/
structure HandlerReady (s : State) (c code : Nat) : Prop where
  drained : ∀ p ∈ (s.ctx c).pend, p.landed = true
  noHandler : ((s.ctx c).sysReg 0x044).getLsbD 1 = false
  vector : (((s.ctx c).sysReg 0x040).extractLsb' 11 13).toNat * 2048 + 64 * code < s.imageLen (((s.ctx c).sysReg 0x040) >>> 52).toNat

/-- The registers that a trap entry writes (05_control.md R147): TPC, TCAUSE, TINFO, TPRIV, the level, and the place of execution; the
others are as before. -/
structure Entered (s t : State) (c code : Nat) (info : W64) (handle pc : Nat) : Prop where
  tpc : (t.ctx c).sysReg 0x041 = place handle pc
  tcause : (t.ctx c).sysReg 0x042 = BitVec.ofNat 64 code
  tinfo : (t.ctx c).sysReg 0x043 = info
  tpriv : (t.ctx c).sysReg 0x044 = if (s.ctx c).kLevel then 3 else 2
  level : (t.ctx c).kLevel = true
  image : (t.ctx c).handle = (((s.ctx c).sysReg 0x040) >>> 52).toNat
  vector : (t.ctx c).pc = (((s.ctx c).sysReg 0x040).extractLsb' 11 13).toNat * 2048 + 64 * code
  scalar : (t.ctx c).sr = (s.ctx c).sr
  predicates : (t.ctx c).pr = (s.ctx c).pr
  tvb : (t.ctx c).sysReg 0x040 = (s.ctx c).sysReg 0x040
  scratch : (t.ctx c).sysReg 0x045 = (s.ctx c).sysReg 0x045 ∧ (t.ctx c).sysReg 0x046 = (s.ctx c).sysReg 0x046
  noHold : (t.core (coreOf c)).hold = none

/-- The bundle in which an instruction stands alone: its own slot holds it, the others NOP (02_bundle.md R34, R37). -/
def aloneIn (sl : Nat) (i : Instr) : List Instr := (List.range 8).map (fun n => if n = sl then i else (slotAt n).nop)

end Sys2Proof.Machine
end

