-- ==== Sys2Proof/Certificates/Slice0/Obligations.lean ====
section
/-! DEFINITION. The statements for the provers, from the numbered rules of spec/. -/

open Sys2Proof Sys2Proof.Machine

/-! ### The step and the bundle -/

/-- A step runs the decoded instruction. When the bundle at the ACTIVE context's pc decodes to instruction i alone in its slot, the guard is
true, the bundle is not the image's last, and nothing stands before its fetch, then the step is exec of i (the core's tags kept first, for Mace's
tests in this cycle, R109), the end of the core's cycle (engines, clocks, results that land), and the round of the other agents (DESIGN CHOICE, log
entry 4). -/
def Obligations.StepRunsDecodedBundle : Prop :=
  ∀ (s t : State) (c sl : Nat) (b : Bundle) (i : Instr),
    Acts s c → s.moves = [] → s.pstate = 0 → s.focus < 320 → (s.core s.focus).Ready c → (s.ctx c).AtBundle →
    (s.seal (s.ctx c).handle).code[(s.ctx c).pc / 32]? = some b → sl < 8 → decodeBundle b = .ok (aloneIn sl i) → i.isNop = false →
    readGuard s c i.guard = true → (s.ctx c).pc + 32 < s.imageLen (s.ctx c).handle → exec i (keepTags s s.focus) = .next t →
    step s = .next (advance (settleAll (endCycle t s.focus)))

/-- A slot whose guard is false has no effect (R39), whatever the instruction: the bundle in which it stands alone changes nothing of the
machine but the context's place; and so has the NOP of every slot (R37). -/
def Obligations.FalseGuardsAndNopsHaveNoEffect : Prop :=
  ∀ (s : State) (c : Nat) (i : Instr), Acts s c →
    (∀ o, slotOp i = some o → i.isNop = false → readGuard s c i.guard = false → exec i s = .next (issuedNext s c)) ∧
    (i ∈ [Instr.brNop, .saNop, .sbNop, .ldNop, .vxNop, .mxNop, .dxNop, .sqNop] → exec i s = .next (issuedNext s c))

/-- A bundle issues whole or not at all (R9): where a later slot of the bundle does not let it issue, an earlier slot's effect is not there
either: the outcome depends on the state before the bundle alone, in which the bundle's accesses have been translated (R359). Here a slot that
would issue with any effect t, beside one that traps. -/
def Obligations.BundleIsWholeOrNothing : Prop :=
  ∀ (s t : State) (c code : Nat) (info : W64) (o p : SlotOp),
    let w := walkSlots c [o, p] s
    readGuard w c o.guard = true → o.run c w = .issued t → readGuard t c p.guard = true → p.run c t = .trap code info →
    issueSlots c [o, p] s = takeTrap w c code info (w.ctx c).handle (w.ctx c).pc

/-- No instruction of the table is refused, and none stops the machine: each has a next state from every state. -/
def Obligations.EveryInstructionAnswersNext : Prop := ∀ (i : Instr) (s : State), ∃ t, exec i s = .next t

/-- A step stops for two reasons only, neither of which a sealed image on an existing core can bring about: the core that moves is none of the
320 (R4), exactly then with `noCore`; or the context that holds issue on it, at its bundle boundary, would fetch what no sealed image holds
(R52, R55), exactly then with `unsealed`. Every other step has a next state. A step is never refused. Which core moves is the model's choice
(DESIGN CHOICE, log entry 4). -/
def Obligations.StepStopsOnlyOutsideTheMachine : Prop :=
  ∀ (s : State),
    (step s = .fault .noCore ↔ ∃ g u, CoreMoves s g u ∧ 320 ≤ g) ∧
    (step s = .fault .unsealed ↔ ∃ g u, CoreMoves s g u ∧ g < 320 ∧ FetchesNoBundle u g) ∧
    ((∃ t, step s = .next t) ∨ step s = .fault .noCore ∨ step s = .fault .unsealed)

/-! ### Encodings -/

/-- Words that the spec writes out, in their slots: each decodes to the instruction it stands for (the examples of R122 to R152 and of the
other cells' entries). -/
def Obligations.SpecWordsDecode : Prop :=
  (decodeSlot .sa 0x20228C38).toOption = some (.saAdd .a ⟨2, false⟩ 5 6 7) ∧
  (decodeSlot .sa 0x05218020).toOption = some (.saMfsr .a ⟨0, false⟩ 3 4) ∧
  (decodeSlot .sa 0x01E620A8).toOption = some (.saCmp .a ⟨0, false⟩ 3 4 5 2) ∧
  (decodeSlot .sb 0x03428C00).toOption = some (.saStB64 .b ⟨0, false⟩ 5 6 0) ∧
  (decodeSlot .br 0x003FFFFC).toOption = some (.brJmp ⟨0, false⟩ (-4)) ∧
  (decodeSlot .br 0x00AFFFFD).toOption = some (.brLoop ⟨0, false⟩ 1 (-3)) ∧
  (decodeSlot .ld 0x01620B00).toOption = some (.ldTagsetFull ⟨0, false⟩ 4 5) ∧
  (decodeSlot .dx 0x004110C0).toOption = some (.dxKdep ⟨0, false⟩ 1 2 3) ∧
  (decodeSlot .sq 0x01030E00).toOption = some (.sqBalloc ⟨0, false⟩ 6 7) ∧
  (decodeSlot .sq 0x01A41460).toOption = some (.sqKvcommit ⟨0, false⟩ 8 10 6)

/-- DECODE AND ENCODE AGREE, for every slot instruction: the word that the format table gives a well-formed instruction decodes to that
instruction, with every operand at every value. -/
def Obligations.DecodeOfEncode : Prop :=
  ∀ (i : Instr) (sl : Slot) (w : SlotWord), i.wellFormed = true → encode i = some (sl, w) → decodeSlot sl w = .ok i

/-- ENCODE AND DECODE AGREE the other way round: no two words of a slot are one instruction, and every bit of a word that decodes is what
the encoding says: what decodes from a word encodes to that word, and is well formed as far as the checks of R55 go. -/
def Obligations.EncodeOfDecode : Prop :=
  ∀ (i : Instr) (sl : Slot) (w : SlotWord), decodeSlot sl w = .ok i → encode i = some (sl, w) ∧ i.guard.ok = true ∧ i.rangeOk = true ∧ i.holdOk = true

/-! ### Scalar engines -/

/-- R126, every row of its table, in both units: the result, its event and its latency bound, with the flags as the table words them:
IOVF exactly when the signed result lies outside 64 bits, DZ exactly on a division by zero. -/
def Obligations.ScalarIntegerResults : Prop :=
  ∀ (s : State) (c : Nat) (u : SUnit) (g : Guard) (d a b : BitVec 6), Acts s c → readGuard s c g = true →
    let x := readS s c a.toNat
    let y := readS s c b.toNat
    let out (v : W64) (bound : Nat) (ev : Cats) : Host.Outcome State Fault Refusal :=
      .next (issuedNext (expose s c (SUnit.slot u) (.s d.toNat) v.toNat bound ev) c)
    let iovf (p : Int) : Cats := if p < -(2 ^ 63) ∨ 2 ^ 63 ≤ p then catIOVF else 0
    let dz : Cats := if y = 0 then catDZ else 0
    let srr (i : Instr) (opc : BitVec 6) (q : BitVec 3) : Prop :=
      encode i = some (if u = .a then .sa else .sb, header g opc (d ++ a ++ b ++ q))
    (∀ q : BitVec 3, srr (.saAdd u g d a b) 1 0 ∧ srr (.saSub u g d a b) 2 0 ∧ srr (.saMul u g d a b) 3 0 ∧ srr (.saMulh u g d a b q) 4 q ∧
      srr (.saDiv u g d a b q) 5 q ∧ srr (.saRem u g d a b q) 6 q ∧ srr (.saAnd u g d a b) 7 0 ∧ srr (.saOr u g d a b) 8 0 ∧
      srr (.saXor u g d a b) 9 0 ∧ srr (.saShl u g d a b) 10 0 ∧ srr (.saShr u g d a b) 11 0 ∧ srr (.saSra u g d a b) 12 0 ∧
      srr (.saMin u g d a b q) 13 q ∧ srr (.saMax u g d a b q) 14 q) ∧
    (decodeSlot .sa 0x20228C38).toOption = some (.saAdd .a ⟨2, false⟩ 5 6 7) ∧
    exec (.saAdd u g d a b) s = out (x + y) 1 (iovf (x.toInt + y.toInt)) ∧
    exec (.saSub u g d a b) s = out (x - y) 1 (iovf (x.toInt - y.toInt)) ∧
    exec (.saMul u g d a b) s = out (x * y) 3 (iovf (x.toInt * y.toInt)) ∧
    exec (.saMulh u g d a b 0) s = out (BitVec.ofInt 64 (x.toInt * y.toInt / 2 ^ 64)) 3 0 ∧
    exec (.saMulh u g d a b 1) s = out (BitVec.ofNat 64 (x.toNat * y.toNat / 2 ^ 64)) 3 0 ∧
    exec (.saMulh u g d a b 2) s = out (BitVec.ofInt 64 (x.toInt * y.toNat / 2 ^ 64)) 3 0 ∧
    exec (.saDiv u g d a b 0) s = out (if y = 0 then BitVec.allOnes 64 else BitVec.ofInt 64 (x.toInt.tdiv y.toInt)) 20
      (if y ≠ 0 ∧ x.toInt = -(2 ^ 63) ∧ y.toInt = -1 then catIOVF else dz) ∧
    exec (.saDiv u g d a b 1) s = out (if y = 0 then BitVec.allOnes 64 else x / y) 20 dz ∧
    exec (.saRem u g d a b 0) s = out (if y = 0 then x else BitVec.ofInt 64 (x.toInt.tmod y.toInt)) 20 dz ∧
    exec (.saRem u g d a b 1) s = out (if y = 0 then x else x % y) 20 dz ∧
    exec (.saAnd u g d a b) s = out (x &&& y) 1 0 ∧
    exec (.saOr u g d a b) s = out (x ||| y) 1 0 ∧
    exec (.saXor u g d a b) s = out (x ^^^ y) 1 0 ∧
    exec (.saShl u g d a b) s = out (x <<< (y.toNat % 64)) 1 0 ∧
    exec (.saShr u g d a b) s = out (x >>> (y.toNat % 64)) 1 0 ∧
    exec (.saSra u g d a b) s = out (x.sshiftRight (y.toNat % 64)) 1 0 ∧
    exec (.saMin u g d a b 0) s = out (if y.toInt < x.toInt then y else x) 1 0 ∧
    exec (.saMin u g d a b 1) s = out (if y.toNat < x.toNat then y else x) 1 0 ∧
    exec (.saMax u g d a b 0) s = out (if x.toInt < y.toInt then y else x) 1 0 ∧
    exec (.saMax u g d a b 1) s = out (if x.toNat < y.toNat then y else x) 1 0

/-- R127: `movi` writes the sign-extended immediate, `movh` shifts its register left by 15 and puts the immediate below, `addi` adds the
sign-extended immediate with IOVF on signed overflow; one `movi` and four `movh` build any 64-bit value. -/
def Obligations.ScalarImmediates : Prop :=
  ∀ (s : State) (c : Nat) (u : SUnit) (g : Guard) (d : BitVec 6) (i : BitVec 15), Acts s c → readGuard s c g = true →
    let x := readS s c d.toNat
    let out (v : W64) (ev : Cats) : Host.Outcome State Fault Refusal :=
      .next (issuedNext (expose s c (SUnit.slot u) (.s d.toNat) v.toNat 1 ev) c)
    let si (i : Instr) (opc : BitVec 6) (f : BitVec 21) : Prop := encode i = some (if u = .a then .sa else .sb, header g opc f)
    si (.saMovi u g d i) 19 (d ++ i) ∧ si (.saMovh u g d i) 20 (d ++ i) ∧ si (.saAddi u g d i) 21 (d ++ i) ∧
    (decodeSlot .sa 0x0264FFFF).toOption = some (.saMovi .a ⟨0, false⟩ 9 (-1)) ∧
    (decodeSlot .sa 0x02849234).toOption = some (.saMovh .a ⟨0, false⟩ 9 0x1234) ∧
    let low (i : BitVec 15) : W64 := BitVec.ofInt 64 i.toInt
    let high (x : W64) (i : BitVec 15) : W64 := BitVec.ofNat 64 (x.toNat * 2 ^ 15 % 2 ^ 64 + i.toNat)
    exec (.saMovi u g d i) s = out (low i) 0 ∧
    exec (.saMovh u g d i) s = out (high x i) 0 ∧
    (∀ v : W64, ∃ i0 i1 i2 i3 i4 : BitVec 15, high (high (high (high (low i0) i1) i2) i3) i4 = v) ∧
    exec (.saAddi u g d i) s = out (BitVec.ofInt 64 (x.toInt + i.toInt))
      (if x.toInt + i.toInt < -(2 ^ 63) ∨ 2 ^ 63 ≤ x.toInt + i.toInt then catIOVF else 0)

/-- R123 to R125: the integer compare writes the condition of its code, the predicate operations combine two predicates, `pxor` with p0 is
the inverse; the floating compares record no event. -/
def Obligations.ComparesAndPredicates : Prop :=
  ∀ (s : State) (c : Nat) (u : SUnit) (g : Guard) (p q r : BitVec 4) (a b : BitVec 6), Acts s c → readGuard s c g = true →
    let x := readS s c a.toNat
    let y := readS s c b.toNat
    let out (v : Bool) : Host.Outcome State Fault Refusal :=
      .next (issuedNext (expose s c (SUnit.slot u) (.p p.toNat) v.toNat 1 0) c)
    let sp (i : Instr) (opc : BitVec 6) : Prop :=
      encode i = some (if u = .a then .sa else .sb, header g opc (p ++ q ++ r ++ (0 : BitVec 9)))
    sp (.saPand u g p q r) 16 ∧ sp (.saPor u g p q r) 17 ∧ sp (.saPxor u g p q r) 18 ∧
    (decodeSlot .sa 0x02084600).toOption = some (.saPand .a ⟨0, false⟩ 4 2 3) ∧
    (∀ t, readP t c 0 = true) ∧
    exec (.saCmp u g p a b 0) s = out (decide (x = y)) ∧
    exec (.saCmp u g p a b 1) s = out (decide (x ≠ y)) ∧
    exec (.saCmp u g p a b 2) s = out (decide (x.toInt < y.toInt)) ∧
    exec (.saCmp u g p a b 3) s = out (decide (y.toInt ≤ x.toInt)) ∧
    exec (.saCmp u g p a b 4) s = out (decide (x.toNat < y.toNat)) ∧
    exec (.saCmp u g p a b 5) s = out (decide (y.toNat ≤ x.toNat)) ∧
    exec (.saCmp u g p a b 6) s = out (decide (x.toInt ≤ y.toInt)) ∧
    exec (.saCmp u g p a b 7) s = out (decide (x.toNat ≤ y.toNat)) ∧
    (∀ cd, exec (.saFcmpF64 u g p a b cd) s = out (condFloat .f64 cd.toNat x.toNat y.toNat)) ∧
    (∀ cd, exec (.saFcmpF32 u g p a b cd) s = out (condFloat .f32 cd.toNat (x.toNat % 2 ^ 32) (y.toNat % 2 ^ 32))) ∧
    exec (.saPand u g p q r) s = out (readP s c q.toNat && readP s c r.toNat) ∧
    exec (.saPor u g p q r) s = out (readP s c q.toNat || readP s c r.toNat) ∧
    exec (.saPxor u g p q r) s = out (readP s c q.toNat != readP s c r.toNat) ∧
    exec (.saPxor u g p q 0) s = out (!readP s c q.toNat)

/-- R128 and R129, every row: the rounded result of the operation on the operands of its format under FRM (`fcvt`: under the mode that it
names), bits above it zero (INT32 and INT8 results of `fcvt` sign-extended), with its events and its latency bound. Under SR one draw is
taken (R77), under another mode none; that an `fcvt` takes its draw also where it is exact or keeps its format is the model's choice (DESIGN
CHOICE, log entry 64). -/
def Obligations.ScalarFloatResults : Prop :=
  ∀ (s : State) (c : Nat) (u : SUnit) (g : Guard) (d a b : BitVec 6), Acts s c → readGuard s c g = true →
    let dr := (readDraws s c).get 0
    let x := (readS s c a.toNat).toNat
    let y := (readS s c b.toNat).toNat
    let out (rm : RM) (v : Nat × Cats) (bound : Nat) : Host.Outcome State Fault Refusal :=
      .next (issuedNext (expose (if rm = .sr then useDraws s c (SUnit.slot u) 1 .sr else s) c (SUnit.slot u) (.s d.toNat) (v.1 % 2 ^ 64) bound v.2) c)
    let frm := readFrm s c
    exec (.saFaddF64 u g d a b) s = out frm (fadd .f64 frm dr x y) 4 ∧
    exec (.saFsubF64 u g d a b) s = out frm (fsub .f64 frm dr x y) 4 ∧
    exec (.saFmulF64 u g d a b) s = out frm (fmul .f64 frm dr x y) 4 ∧
    exec (.saFdivF64 u g d a b) s = out frm (fdiv .f64 frm dr x y) 20 ∧
    exec (.saFaddF32 u g d a b) s = out frm (fadd .f32 frm dr (x % 2 ^ 32) (y % 2 ^ 32)) 4 ∧
    exec (.saFsubF32 u g d a b) s = out frm (fsub .f32 frm dr (x % 2 ^ 32) (y % 2 ^ 32)) 4 ∧
    exec (.saFmulF32 u g d a b) s = out frm (fmul .f32 frm dr (x % 2 ^ 32) (y % 2 ^ 32)) 4 ∧
    exec (.saFdivF32 u g d a b) s = out frm (fdiv .f32 frm dr (x % 2 ^ 32) (y % 2 ^ 32)) 12 ∧
    (∀ f t rn : BitVec 3,
      let dst := Fmt.ofCode t.toNat
      let rm := if rn = 5 then frm else RM.ofCode rn.toNat
      let v := fconvert (Fmt.ofCode f.toNat) dst rm false dr (x % 2 ^ (Fmt.ofCode f.toNat).width)
      exec (.saFcvt u g d a f t rn) s =
        out rm ((if dst.isInt then BitVec.ofInt 64 (signedOf dst.width v.1) else BitVec.ofNat 64 v.1).toNat, v.2) 3)

/-- R122: `mfsr` puts a system register into a scalar register with bound 1, at K level every one, at U level every one but the K registers
(R120); `mtsr` puts a scalar register into a system register with bound 1, as it stores it: FRM only legal codes (R69), reserved bits 0 (R121),
LC0 to LC3 the loop counters. In an auditable task a write of FRM is ignored (R384). At U level a K register, and a write of WLIM, traps with
cause PRIV and TINFO the register number, and the bundle does not issue. -/
def Obligations.SystemRegisterMoves : Prop :=
  ∀ (s : State) (c : Nat) (u : SUnit) (g : Guard) (r : BitVec 6) (n : BitVec 12), Acts s c → readGuard s c g = true →
    let kOnly : Prop := 0x040 ≤ n.toNat ∧ n.toNat ≤ 0x046
    let k := (s.ctx c).kLevel
    let v := readS s c r.toNat
    let out (d : Dst) (w : Nat) : Host.Outcome State Fault Refusal := .next (issuedNext (expose s c (SUnit.slot u) d w 1 0) c)
    (k = true ∨ ¬kOnly → exec (.saMfsr u g r n) s = out (.s r.toNat) (readSys s c n.toNat).toNat) ∧
    (k = true ∨ (¬kOnly ∧ n.toNat ≠ 0x003) → 0x008 ≤ n.toNat ∧ n.toNat ≤ 0x00B →
      exec (.saMtsr u g r n) s = out (.lc (n.toNat - 8)) (v.toNat % 2 ^ 32)) ∧
    (k = true ∨ (¬kOnly ∧ n.toNat ≠ 0x003) → ¬(0x008 ≤ n.toNat ∧ n.toNat ≤ 0x00B) → ¬(n.toNat = 0 ∧ (s.task (s.ctx c).tid).aud = true) →
      exec (.saMtsr u g r n) s = out (.sys n.toNat) (sysStore n.toNat v).toNat) ∧
    (n.toNat = 0 → (s.task (s.ctx c).tid).aud = true → exec (.saMtsr u g r n) s = .next (issuedNext s c)) ∧
    (k = false → kOnly → exec (.saMfsr u g r n) s = .next (trapped s c 3 (n.setWidth 64))) ∧
    (k = false → kOnly ∨ n.toNat = 0x003 → exec (.saMtsr u g r n) s = .next (trapped s c 3 (n.setWidth 64))) ∧
    (∀ w : W64, sysStore 0x000 w = (if 5 ≤ w.toNat % 8 then 0 else w &&& 7) ∧ sysStore 0x003 w = w &&& 0xFFFFFFFF ∧
      sysStore 0x040 w = w &&& 0xFFF0000000FFF800 ∧ sysStore 0x041 w = w &&& 0xFFF0000000FFFFE0 ∧ sysStore 0x042 w = w &&& 0x1F ∧
      sysStore 0x044 w = w &&& 3 ∧ sysStore 0x001 w = w ∧ sysStore 0x045 w = w)

/-- R133: the matrix owner writes a tile shape whose fields are in range; an illegal value traps with cause TSHAPE and TINFO the value, and
a context that is not the owner traps with cause NOTOWNER, the shape unchanged. That NOTOWNER comes first where the value is illegal as well is
the model's choice (DEDUCED, log entry 65). -/
def Obligations.TileShapeWrite : Prop :=
  ∀ (s : State) (c : Nat) (g : Guard) (t : BitVec 4) (a : BitVec 6), Acts s c → readGuard s c g = true →
    let v := readS s c a.toNat
    let ok : Prop := v.toNat / 2 ^ 20 = 0 ∧ v.toNat / 2 ^ 15 % 2 = 0 ∧ v.toNat / 2 ^ 6 % 4 = 0 ∧ v.toNat / 2 ^ 16 % 16 ≤ 9 ∧
      1 ≤ v.toNat / 2 ^ 8 % 128 ∧ v.toNat / 2 ^ 8 % 128 ≤ 64 ∧ 1 ≤ v.toNat % 64 ∧ v.toNat % 64 ≤ 32
    ((s.core (coreOf c)).owner = some c → ok → exec (.saTshape .a g t a) s = .next (issuedNext (expose s c 1 (.ts t.toNat) v.toNat 1 0) c)) ∧
    ((s.core (coreOf c)).owner = some c → ¬ok → exec (.saTshape .a g t a) s = .next (trapped s c 5 v)) ∧
    ((s.core (coreOf c)).owner ≠ some c → exec (.saTshape .a g t a) s = .next (trapped s c 4 1))

/-- R130 and R131: a load of each size, at an aligned canonical address whose page allows it, with no earlier store of the context waiting
and no poison, exposes the bytes, zero- or sign-extended, with bound 2: those at the physical address, or at the owning slice of an L1F segment
(R97). -/
def Obligations.ScalarLoads : Prop :=
  ∀ (s s' s'' : State) (c pa v : Nat) (pte : W64) (u : SUnit) (g : Guard) (d a b : BitVec 6) (n : Nat) (x : BitVec 3),
    Acts s c → readGuard s c g = true →
    let va := (readS s c a.toNat + readS s c b.toNat).toNat
    let at_ := s'.placeOf (s.asidOf c) va pa
    let out (w : W64) : Host.Outcome State Fault Refusal := .next (settleIssue (issuedNext (expose s'' c (SUnit.slot u) (.s d.toNat) w.toNat 2 0) c))
    canonical va = true → va % n = 0 →
    translate s (dieOf (coreOf c)) (.core (coreOf c)) (s.asidOf c) va .read (s.ctx c).kLevel = .ok pa pte s' →
    (s'.ctx c).stores = [] → s'.reach (dieOf (coreOf c)) at_ = true →
    s'.loadPhys (.core (coreOf c)) at_ n (pteBypass pte || decide (memBytes ≤ at_)) = (v, false, s'') → (s''.ctx c).nxt = .seq →
    (n = 8 → exec (.saLdB64 u g d a b) s = out (BitVec.ofNat 64 v)) ∧
    (n = 4 → exec (.saLdB32 u g d a b x) s = out (if x = 1 then BitVec.ofInt 64 (signedOf 32 v) else BitVec.ofNat 64 v)) ∧
    (n = 2 → exec (.saLdB16 u g d a b x) s = out (if x = 1 then BitVec.ofInt 64 (signedOf 16 v) else BitVec.ofNat 64 v)) ∧
    (n = 1 → exec (.saLdB8 u g d a b x) s = out (if x = 1 then BitVec.ofInt 64 (signedOf 8 v) else BitVec.ofNat 64 v))

/-- R130 and R131: a store of each size is translated, and then waits as the youngest issued store of its context, of which 16 are held;
memory is not yet written. -/
def Obligations.ScalarStores : Prop :=
  ∀ (s s' : State) (c pa : Nat) (pte : W64) (u : SUnit) (g : Guard) (d a b : BitVec 6) (n : Nat), Acts s c → readGuard s c g = true →
    let va := (readS s c a.toNat + readS s c b.toNat).toNat
    let v := (readS s c d.toNat).toNat % 2 ^ (8 * n)
    let out : Host.Outcome State Fault Refusal :=
      .next (settleIssue (issuedNext (s'.modCtx c (fun x => { x with
        stores := x.stores ++ [⟨some (s'.placeOf (s.asidOf c) va pa), va, s.asidOf c, n, v⟩] })) c))
    canonical va = true → va % n = 0 →
    translate s (dieOf (coreOf c)) (.core (coreOf c)) (s.asidOf c) va .write (s.ctx c).kLevel = .ok pa pte s' →
    (s'.ctx c).stores.length < 16 → (s'.ctx c).nxt = .seq →
    (n = 8 → exec (.saStB64 u g d a b) s = out) ∧ (n = 4 → exec (.saStB32 u g d a b) s = out) ∧
    (n = 2 → exec (.saStB16 u g d a b) s = out) ∧ (n = 1 → exec (.saStB8 u g d a b) s = out)

/-- R130: an address that is not canonical or not naturally aligned traps with cause ALIGN and TINFO the address, a load like a store, and
the bundle does not issue. -/
def Obligations.MisalignedAccessTraps : Prop :=
  ∀ (s : State) (c : Nat) (u : SUnit) (g : Guard) (d a b : BitVec 6) (x : BitVec 3), Acts s c → readGuard s c g = true →
    let va := readS s c a.toNat + readS s c b.toNat
    let out : Host.Outcome State Fault Refusal := .next (trapped s c 10 va)
    let bad (n : Nat) : Prop := canonical va.toNat = false ∨ va.toNat % n ≠ 0
    (bad 8 → exec (.saLdB64 u g d a b) s = out ∧ exec (.saStB64 u g d a b) s = out) ∧
    (bad 4 → exec (.saLdB32 u g d a b x) s = out ∧ exec (.saStB32 u g d a b) s = out) ∧
    (bad 2 → exec (.saLdB16 u g d a b x) s = out ∧ exec (.saStB16 u g d a b) s = out) ∧
    (bad 1 → exec (.saLdB8 u g d a b x) s = out ∧ exec (.saStB8 u g d a b) s = out)

/-! ### Control -/

/-- R134, R36 and R136: the four branches go to their targets, `call` with PC + 32 for s62; a relative one after no bubble where its guard was
settled two cycles ago and after one otherwise, a register one after two. A target at or beyond the image's end traps with cause FETCH and
TINFO the target. -/
def Obligations.BranchesTransferControl : Prop :=
  ∀ (s : State) (c : Nat) (g : Guard) (o : BitVec 21) (a : BitVec 6), Acts s c → readGuard s c g = true →
    let x := s.ctx c
    let rel := ((x.pc : Int) + 32 * o.toInt).toNat
    let reg (v : W64) : Nat := v.toNat % 2 ^ 24 - v.toNat % 32
    let bub := if x.settled (.p g.p.toNat) then 0 else 1
    let inside (t : Nat) : Prop := t < s.imageLen x.handle
    let fetchTrap (t : Nat) : Host.Outcome State Fault Refusal := .next (trapped s c 9 (BitVec.ofNat 64 t))
    (inside rel → exec (.brJmp g o) s = .next (jumpNext s c rel bub) ∧
      exec (.brCall g o) s = .next (jumpNext (expose s c 0 (.s 62) ((x.pc + 32) % 2 ^ 64) 1 0) c rel bub)) ∧
    (¬inside rel → exec (.brJmp g o) s = fetchTrap rel ∧ exec (.brCall g o) s = fetchTrap rel) ∧
    (inside (reg (readS s c a.toNat)) → exec (.brJmpr g a) s = .next (jumpNext s c (reg (readS s c a.toNat)) 2)) ∧
    (¬inside (reg (readS s c a.toNat)) → exec (.brJmpr g a) s = fetchTrap (reg (readS s c a.toNat))) ∧
    (inside (reg (readS s c 62)) → exec (.brRet g) s = .next (jumpNext s c (reg (readS s c 62)) 2)) ∧
    (¬inside (reg (readS s c 62)) → exec (.brRet g) s = fetchTrap (reg (readS s c 62)))

/-- R135: `lset` writes lc, `loop` counts it down and branches while it was above 1, and falls through with lc 0 otherwise. -/
def Obligations.LoopsCountDown : Prop :=
  ∀ (s : State) (c : Nat) (g : Guard) (l : BitVec 2) (o : BitVec 19) (a : BitVec 6), Acts s c → readGuard s c g = true →
    let x := s.ctx c
    let v := (readLc s c l.toNat).toNat
    let rel := ((x.pc : Int) + 32 * o.toInt).toNat
    let bub := if x.settled (.p g.p.toNat) && x.settled (.lc l.toNat) then 0 else 1
    exec (.brLset g l a) s = .next (issuedNext (expose s c 0 (.lc l.toNat) ((readS s c a.toNat).toNat % 2 ^ 32) 1 0) c) ∧
    (v ≤ 1 → exec (.brLoop g l o) s = .next (issuedNext (expose s c 0 (.lc l.toNat) 0 1 0) c)) ∧
    (1 < v → rel < s.imageLen x.handle → exec (.brLoop g l o) s = .next (jumpNext (expose s c 0 (.lc l.toNat) (v - 1) 1 0) c rel bub)) ∧
    (1 < v → s.imageLen x.handle ≤ rel → exec (.brLoop g l o) s = .next (trapped s c 9 (BitVec.ofNat 64 rel)))

/-- R38 and R152: `delay` holds issue for n cycles, this one included, and then goes on, an interrupted one for what it has left; `fevclr` clears
FEVA, FEVS and FEVF and no other register. -/
def Obligations.DelayAndLogClear : Prop :=
  ∀ (s : State) (c : Nat) (g : Guard) (n : BitVec 16), Acts s c →
    ((s.ctx c).due = none → exec (.brDelay n) s = .next ((issuedNext s c).modCtx c (fun x => { x with delay := n.toNat - 1 }))) ∧
    (∀ m, (s.ctx c).due = some m → exec (.brDelay n) s = .next ((issuedNext s c).modCtx c (fun x => { x with delay := m - 1 }))) ∧
    (readGuard s c g = true → ∃ t, exec (.brFevclr g) s = .next t ∧ (t.ctx c).pc = (s.ctx c).pc + 32 ∧
      (∀ r, (t.ctx c).sysReg r = if r = 0x004 ∨ r = 0x005 ∨ r = 0x006 then 0 else (s.ctx c).sysReg r) ∧
      (t.ctx c).sr = (s.ctx c).sr ∧ (t.ctx c).pr = (s.ctx c).pr ∧ (t.ctx c).pend = (s.ctx c).pend)

/-- R145 and R147: a system call and a breakpoint issue, and then the context enters its handler: with cause SYS or BRK, TINFO the number,
and the next bundle as the place of resumption. -/
def Obligations.SystemCallsEnterTheHandler : Prop :=
  ∀ (s : State) (c : Nat) (g : Guard) (n : BitVec 15), Acts s c → readGuard s c g = true →
    (HandlerReady s c 1 → ∃ t, exec (.brSys g n) s = .next t ∧ Entered s t c 1 (n.setWidth 64) (s.ctx c).handle ((s.ctx c).pc + 32)) ∧
    (HandlerReady s c 2 → ∃ t, exec (.brBrk g n) s = .next t ∧ Entered s t c 2 (n.setWidth 64) (s.ctx c).handle ((s.ctx c).pc + 32))

/-- R147, in general: a trap taken while nothing is pending writes the trap registers and goes to the vector of its cause; taken while
results are pending, it waits for them, and nothing but its note changes. -/
def Obligations.TrapEntryWritesTheTrapRegisters : Prop :=
  ∀ (s : State) (c code : Nat) (info : W64) (handle pc : Nat),
    (HandlerReady s c code → Entered s (takeTrap s c code info handle pc) c code info handle pc) ∧
    ((∃ p ∈ (s.ctx c).pend, p.landed = false) →
      let t := takeTrap s c code info handle pc
      (t.ctx c).trap = some ⟨code, info, handle, pc⟩ ∧ (t.ctx c).pc = (s.ctx c).pc ∧ SameRegisters (s.ctx c) (t.ctx c) ∧ s.SameMemory t)

/-- R149: a trap while a handler is active, or whose vector stands in no image, is a double trap: its task is killed with code 12. -/
def Obligations.DoubleTrapKills : Prop :=
  ∀ (s : State) (c code : Nat) (info : W64) (handle pc : Nat),
    (∀ p ∈ (s.ctx c).pend, p.landed = true) → (s.task (s.ctx c).tid).state = 2 → (s.task (s.ctx c).tid).kill = none →
    (((s.ctx c).sysReg 0x044).getLsbD 1 = true ∨
      s.imageLen (((s.ctx c).sysReg 0x040) >>> 52).toNat ≤ (((s.ctx c).sysReg 0x040).extractLsb' 11 13).toNat * 2048 + 64 * code) →
    let t := takeTrap s c code info handle pc
    (t.task (s.ctx c).tid).state = 5 ∧ (t.task (s.ctx c).tid).kill = some 12

/-- R148: at K level `tret` goes to TPC in its image, to the level of TPRIV.PREV, with no handler active, after two bubbles; a TPC outside
its image traps with cause FETCH; at U level it traps with cause PRIV. -/
def Obligations.TrapReturnRestoresTheLevel : Prop :=
  ∀ (s : State) (c : Nat) (g : Guard), Acts s c → readGuard s c g = true →
    let tpc := readSys s c 0x041
    let h := (tpc >>> 52).toNat
    let p := tpc.toNat % 2 ^ 24 - tpc.toNat % 32
    let prev := ((s.ctx c).sysReg 0x044).getLsbD 0
    encode (.brTret g) = some (.br, header g 14 0) ∧
    (decodeSlot .br 0x01C00000).toOption = some (.brTret ⟨0, false⟩) ∧
    ((s.ctx c).kLevel = true → p < s.imageLen h → ∃ t, exec (.brTret g) s = .next t ∧
      (t.ctx c).handle = h ∧ (t.ctx c).pc = p ∧ (t.ctx c).bubble = 2 ∧ (t.ctx c).kLevel = prev ∧
      (t.ctx c).sysReg 0x044 = (if prev then 1 else 0) ∧ (t.ctx c).sr = (s.ctx c).sr ∧ (t.ctx c).pr = (s.ctx c).pr ∧
      (∀ r, r ≠ 0x03A → r ≠ 0x044 → (t.ctx c).sysReg r = (s.ctx c).sysReg r)) ∧
    ((s.ctx c).kLevel = true → s.imageLen h ≤ p → exec (.brTret g) s = .next (trapped s c 9 (BitVec.ofNat 64 p))) ∧
    ((s.ctx c).kLevel = false → exec (.brTret g) s = .next (trapped s c 3 0))

/-- R150: `crgn.open` puts its handler, at the level of now, into CRH of the depth j and makes the depth j + 1; `crgn.close` makes it j - 1;
opening at depth 4 and closing at depth 0 trap with cause CRDEPTH and TINFO the depth. -/
def Obligations.ContainmentRegionsNest : Prop :=
  ∀ (s : State) (c : Nat) (o : BitVec 21), Acts s c →
    let x := s.ctx c
    let j := (x.sysReg 0x048).toNat
    (j < 4 → ∃ t, exec (.brCrgnOpen o) s = .next t ∧ (t.ctx c).pc = x.pc + 32 ∧ (t.ctx c).sysReg 0x048 = BitVec.ofNat 64 (j + 1) ∧
      (t.ctx c).sysReg (0x04C + j) =
        (place x.handle ((x.pc : Int) + 32 * o.toInt).toNat ||| (if x.kLevel then 1#64 <<< 51 else 0)) ∧
      (∀ r, r ≠ 0x048 → r ≠ 0x04C + j → (t.ctx c).sysReg r = x.sysReg r)) ∧
    (0 < j → ∃ t, exec .brCrgnClose s = .next t ∧ (t.ctx c).pc = x.pc + 32 ∧ (t.ctx c).sysReg 0x048 = BitVec.ofNat 64 (j - 1) ∧
      (∀ r, r ≠ 0x048 → (t.ctx c).sysReg r = x.sysReg r)) ∧
    (j = 4 → exec (.brCrgnOpen o) s = .next (trapped s c 12 4)) ∧
    (j = 0 → exec .brCrgnClose s = .next (trapped s c 12 0))

/-- R139 and R140: `tokw` goes on when its token is done, after the effects of the token's producer, and blocks while it is pending; `bar` of
a group of one, and of a member whose generation is complete, goes on; a level that is absent or has domain PEER traps with cause BARLVL; a
member of a larger group blocks and has arrived. -/
def Obligations.TokenWaitAndBarrier : Prop :=
  ∀ (s : State) (c : Nat) (g : Guard) (k : BitVec 5) (a : BitVec 6), Acts s c → readGuard s c g = true →
    (s.core (coreOf c)).active = some c →
    let x := s.ctx c
    let v := readS s c a.toNat
    let ws := (s.task x.tid).words
    let valid : Prop := v.toNat ≤ 7 ∧ v.toNat < levels ws ∧ lvDom ws v.toNat ≠ 5
    (x.tokPending k.toNat = false → exec (.brTokw g k) s = .next (issuedNext (s.raise (.core (coreOf c)) (SMap.get 0 x.tokTs k.toNat)) c)) ∧
    (x.tokPending k.toNat = true → ∃ t, exec (.brTokw g k) s = .next t ∧ BlocksOn s t c (.token k.toNat)) ∧
    (valid → x.barPass = some v.toNat → exec (.brBar g a) s = .next (issuedNext (s.modCtx c (fun y => { y with barPass := none })) c)) ∧
    (valid → x.barPass ≠ some v.toNat → sizeBelow ws (v.toNat + 1) = 1 → exec (.brBar g a) s = .next (issuedNext s c)) ∧
    (valid → x.barPass ≠ some v.toNat → sizeBelow ws (v.toNat + 1) ≠ 1 → x.stores = [] → (s.task x.tid).bars = [] → (s.task x.tid).gone = [] →
      ∃ t, exec (.brBar g a) s = .next t ∧ BlocksOn s t c .barrier ∧
        (t.task x.tid).bars = [⟨v.toNat, groupOf ws v.toNat x.rank, [x.rank]⟩]) ∧
    (¬valid → exec (.brBar g a) s = .next (trapped s c 14 v))

/-- R143, R28, R30 to R32 and R132: `early` triggers the context's group, once, its earlier stores first; without a trigger level nothing. The last
group's trigger raises the trigger counter of the task's record by 1, after the task's accesses, and the record has triggered. `exit` makes the context
EXITED, its pending results and any watch discarded, and its task counts it gone; its stores are performed, those whose home is out of reach later, and
those of a ring slot whose page is absent first, until when it does not exit; a group triggers when its last context is gone, and not before; a
barrier for which it was the last member to wait for completes, and another stays open. The model's choice: that stores whose home is out of reach hold
up neither (DEDUCED, log entry 25). -/
def Obligations.EarlyTriggerAndExit : Prop :=
  ∀ (s : State) (c : Nat) (g : Guard), Acts s c → readGuard s c g = true → (s.core (coreOf c)).active = some c →
    let x := s.ctx c
    let k := s.task x.tid
    let f := flushStores s c
    (x.stores = [] → f = s) ∧
    (trigLevel k.words = none → exec (.brEarly g) s = .next (issuedNext f c)) ∧
    (∀ lv, trigLevel k.words = some lv →
      let n := sizeBelow k.words (lv + 1)
      let grp := groupOf k.words lv x.rank
      (grp ∈ k.triggered → exec (.brEarly g) s = .next (issuedNext f c)) ∧
      (grp ∉ k.triggered → k.triggered.length + 1 < taskSize k.words / n →
        exec (.brEarly g) s = .next (issuedNext (f.modTask x.tid (fun y => { y with triggered := y.triggered ++ [grp] })) c)) ∧
      (grp ∉ k.triggered → taskSize k.words / n ≤ k.triggered.length + 1 → k.tDone = false →
        (∀ p ∈ f.bound, p.2.tid = x.tid → f.stuck p.1 = false) →
        let a := f.modTask x.tid (fun y => { y with triggered := y.triggered ++ [grp], tDone := true })
        let b := a.modDie k.die (fun d => { d with recs := d.recs.map (fun r => if r.serial = k.rec_ then { r with trig := true } else r) })
        let u := b.raise (.dispatch k.die) (b.taskTs x.tid)
        let va := (wordAt k.words 6).toNat % 2 ^ 48
        (va = 0 → exec (.brEarly g) s = .next (issuedNext u c)) ∧
        (∀ pa p t, va ≠ 0 → translate u k.die (.dispatch k.die) k.asid (sx48 va) .rmw false = .ok pa p t → u.reach k.die pa = true →
          exec (.brEarly g) s = .next (issuedNext (t.rmwPhys (.dispatch k.die) pa 8 (fun v => (v + 1) % 2 ^ 64)).2.2 c))) ∧
      (grp < taskSize k.words / max 1 n → (∀ p ∈ x.stores, p.pa.isSome = true) → ∃ t, exec (.brExit g) s = .next t ∧ (t.ctx c).st = .exited ∧
        (∀ h ∈ k.triggered, h ∈ (t.task x.tid).triggered) ∧
        ((∀ j, j < n → grp * n + j = x.rank ∨ grp * n + j ∈ k.gone) → grp ∈ (t.task x.tid).triggered) ∧
        ((∃ j, j < n ∧ grp * n + j ≠ x.rank ∧ grp * n + j ∉ k.gone) → grp ∉ k.triggered → grp ∉ (t.task x.tid).triggered))) ∧
    (trigLevel k.words = none → (∀ p ∈ x.stores, p.pa.isSome = true) → ∃ t, exec (.brExit g) s = .next t ∧ (t.ctx c).st = .exited ∧ (t.ctx c).pend = [] ∧
      (t.ctx c).watch = none ∧ (t.task x.tid).live = k.live - 1 ∧ (t.task x.tid).gone = k.gone ++ [x.rank] ∧
      (t.core (coreOf c)).active = none ∧ (t.core (coreOf c)).last = c % 4 ∧
      ((∀ p ∈ x.stores, ∀ pa, p.pa = some pa → s.reach (dieOf (coreOf c)) pa = true) → (t.ctx c).stores = []) ∧
      (∀ p r pa, x.stores = p :: r → p.pa = some pa → s.reach (dieOf (coreOf c)) pa = false → (t.ctx c).stores = x.stores) ∧
      (∀ b ∈ k.bars, (∀ y ∈ k.bars, y.level = b.level → y.group = b.group → y = b) →
        let members := groupRanks k.words b.level b.group
        ((∀ r ∈ members, r ∈ b.arrived ∨ r ∈ k.gone ∨ r = x.rank) → b.arrived ≠ [] → ∀ y ∈ (t.task x.tid).bars, ¬(y.level = b.level ∧ y.group = b.group)) ∧
        ((∃ r ∈ members, r ∉ b.arrived ∧ r ∉ k.gone ∧ r ≠ x.rank) → b ∈ (t.task x.tid).bars))) ∧
    (x.st = .active → (∃ p ∈ x.stores, p.pa = none) → ∃ t, exec (.brExit g) s = .next t ∧ (t.ctx c).st = .active ∧ (t.ctx c).exits = true ∧
      (t.task x.tid).gone = k.gone ∧ (t.task x.tid).triggered = k.triggered)

/-- R137 and R142: `waita` freezes in the cycle in which it first reaches issue; in a later cycle it reads its word at the home L2, or the owning
slice, with lease 0 and tests it, a failing test registering its watch; once the value has returned, the bundle issues where the test held and
blocks where it did not. `pload` puts the low byte of a word into p8 to p15. The reads are those of an aligned canonical address whose page
allows them, with no store of the context waiting and no poison. -/
def Obligations.WaitsAndPredicateLoads : Prop :=
  ∀ (s s' : State) (c pa : Nat) (pte : W64) (g : Guard) (a b : BitVec 6) (cd : BitVec 3), Acts s c → readGuard s c g = true →
    (s.core (coreOf c)).active = some c →
    let x := s.ctx c
    let va := (readS s c a.toNat).toNat
    let at_ := s'.placeOf (s.asidOf c) va pa
    canonical va = true → va % 8 = 0 →
    translate s (dieOf (coreOf c)) (.core (coreOf c)) (s.asidOf c) va .read x.kLevel = .ok pa pte s' →
    (s'.ctx c).stores = [] → s'.reach (dieOf (coreOf c)) at_ = true → (x.sysReg 0x003).toNat % 2 ^ 32 = 0 →
    let t := s'.loadHome (.core (coreOf c)) at_ 0
    let holds := condInt cd.toNat (s'.word at_) (readS s c b.toNat)
    (x.test = some true → (s'.ctx c).nxt = .seq → exec (.brWaita g a b cd) s = .next (settleIssue (issuedNext s' c))) ∧
    (x.test = some false → ∃ u, exec (.brWaita g a b cd) s = .next u ∧ BlocksOn s u c .address ∧ (u.ctx c).watch = (s'.ctx c).watch) ∧
    (x.test = none → x.frz = 0 → s'.badAt at_ 8 = false →
      ∃ u, exec (.brWaita g a b cd) s = .next u ∧ (u.ctx c).frz = 1 ∧ (u.ctx c).pc = x.pc ∧ (u.ctx c).test = none) ∧
    (x.test = none → x.frz ≠ 0 → s'.badAt at_ 8 = false →
      ∃ u, exec (.brWaita g a b cd) s = .next u ∧ (u.ctx c).test = some holds ∧ (u.ctx c).pc = x.pc ∧ (u.ctx c).frz = x.frz + 1 ∧
        (holds = false → (u.ctx c).watch = some (at_ / 64)) ∧ u.lines = t.lines) ∧
    (∀ v u, s'.loadPhys (.core (coreOf c)) at_ 8 (pteBypass pte || decide (memBytes ≤ at_)) = (v, false, u) → (u.ctx c).nxt = .seq →
      exec (.brPload g a) s =
        .next (settleIssue (issuedNext ((List.range 8).foldl (fun t j => expose t c 0 (.p (8 + j)) (v.testBit j).toNat 2 0) u) c)))

/-! ### Scratchpad -/

/-- R156, R158 and R160: `ld.w`, `ld.row` and `ld.col`, in the cycle in which they may go: their words, found by the window wrap, 8, 8 or 768
bytes apart, are exposed with bounds 3, 4 and 4, the tags change as the mode says (R108), and their banks serve no other agent in the cycle (R157). With LINES 0 every word reads 0. -/
def Obligations.ScratchpadLoads : Prop :=
  ∀ (s : State) (c : Nat) (g : Guard) (d b : BitVec 6) (m : BitVec 2) (o : BitVec 7), Acts s c → readGuard s c g = true →
    let x := s.ctx c
    let k := s.core (coreOf c)
    let base (unit : Nat) : Nat := ((readS s c b.toNat).toNat + unit * o.toNat) % 2 ^ 22
    let place (unit step j : Nat) : Nat := x.wrapWord (base unit + step * j)
    let row (unit step n : Nat) : List Nat := (List.range n).map (place unit step)
    let goes (ws : List Nat) : Prop :=
      accessWait k m.toNat x.spent (maxSame (ws.map k.bank) - 1) ws = none ∧ ∀ w ∈ ws, k.bad 1 w = false
    let held (w : Nat) : W64 := SMap.get 0 k.sp w
    let out (ws : List Nat) (r : Dst) (v bound : Nat) : Host.Outcome State Fault Refusal :=
      .next (issuedNext (expose (s.setCore (coreOf c) ((k.tagAfter m.toNat ws).use ws)) c 3 r v bound 0) c)
    (x.spLines ≠ 0 → goes (row 8 8 1) → exec (.ldW g d b m o) s = out (row 8 8 1) (.s d.toNat) (held (place 8 8 0)).toNat 3) ∧
    (x.spLines ≠ 0 → goes (row 256 8 32) →
      exec (.ldRow g d b m o) s = out (row 256 8 32) (.v d.toNat) (wordsVec ((row 256 8 32).map held)).toNat 4) ∧
    (x.spLines ≠ 0 → goes (row 8 768 32) →
      exec (.ldCol g d b m o) s = out (row 8 768 32) (.v d.toNat) (wordsVec ((row 8 768 32).map held)).toNat 4) ∧
    (x.spLines = 0 → exec (.ldW g d b m o) s = .next (issuedNext (expose s c 3 (.s d.toNat) 0 3 0) c) ∧
      exec (.ldRow g d b m o) s = .next (issuedNext (expose s c 3 (.v d.toNat) 0 4 0) c) ∧
      exec (.ldCol g d b m o) s = .next (issuedNext (expose s c 3 (.v d.toNat) 0 4 0) c))

/-- R107 to R109 and R160: `st.w`, `st.row` and `st.col`, in the cycle in which they may go: their words join the writes that wait to be
performed, a plain write for at most 2 cycles; a tagged one is performed as its bundle issues, its data and its tag in one step. With LINES 0
every write is discarded. -/
def Obligations.ScratchpadStores : Prop :=
  ∀ (s : State) (c : Nat) (g : Guard) (d b : BitVec 6) (m : BitVec 2) (o : BitVec 7), Acts s c → readGuard s c g = true →
    let x := s.ctx c
    let k := s.core (coreOf c)
    let base (unit : Nat) : Nat := ((readS s c b.toNat).toNat + unit * o.toNat) % 2 ^ 22
    let row (unit step n : Nat) : List Nat := (List.range n).map (fun j => x.wrapWord (base unit + step * j))
    let goes (ws : List Nat) : Prop := accessWait k m.toNat x.spent (maxSame (ws.map k.bank) - 1) ws = none
    let out (ws : List Nat) (vs : List W64) : Host.Outcome State Fault Refusal :=
      .next (issuedNext (s.setCore (coreOf c) { k.use ws with
        spw := k.spw ++ (ws.zip vs).map (fun p => ⟨p.1, p.2, if m = 2 then some false else if m = 3 then some true else none, 0, if m = 0 then 2 else 0⟩) }) c)
    let words := (List.range 32).map (fun j => (readV s c d.toNat).extractLsb' (64 * j) 64)
    (x.spLines ≠ 0 → goes (row 8 8 1) → exec (.stW g d b m o) s = out (row 8 8 1) [readS s c d.toNat]) ∧
    (x.spLines ≠ 0 → goes (row 8 8 1) → m ≠ 0 → (∀ w ∈ k.spw, w.bound ≠ 0) → ∃ t, exec (.stW g d b m o) s = .next t ∧
      ∀ w ∈ row 8 8 1, SMap.get 0 (t.core (coreOf c)).sp w = readS s c d.toNat ∧ (t.core (coreOf c)).bad 1 w = false ∧
        (m = 2 → SMap.get false (t.core (coreOf c)).tag w = false) ∧ (m = 3 → SMap.get false (t.core (coreOf c)).tag w = true) ∧
        (m = 1 → SMap.get false (t.core (coreOf c)).tag w = SMap.get false k.tag w)) ∧
    (x.spLines ≠ 0 → goes (row 256 8 32) → exec (.stRow g d b m o) s = out (row 256 8 32) words) ∧
    (x.spLines ≠ 0 → goes (row 8 768 32) → exec (.stCol g d b m o) s = out (row 8 768 32) words) ∧
    (x.spLines = 0 → exec (.stW g d b m o) s = .next (issuedNext s c) ∧ exec (.stRow g d b m o) s = .next (issuedNext s c) ∧
      exec (.stCol g d b m o) s = .next (issuedNext s c))

/-- R161 to R164: a tile command of the matrix owner whose region's banks, tags, resources and port are free joins the commands that are
moving their regions, holds its banks, marks its tile or rows busy for N + 2 cycles, and changes the tags at issue; a context that is not the
owner traps with cause NOTOWNER, and an `ld.acc` whose write-port cycles meet a registered window with cause SCHEDV (R216; which window's number TINFO
gives, DESIGN CHOICE, log entry 72). In a window of no lines a command has no bank and no tag, its reads give 0 and its writes are discarded (R156;
that it takes its time there is DEDUCED, log entry 66). `tagset` sets the tags of its words, of none where LINES is 0. -/
def Obligations.TileCommandsAndTagSet : Prop :=
  ∀ (s : State) (c : Nat) (g : Guard) (t : BitVec 4) (r b n : BitVec 6) (m : BitVec 2) (rows : BitVec 7), Acts s c → readGuard s c g = true →
    let x := s.ctx c
    let k := s.core (coreOf c)
    let base := (readS s c b.toNat).toNat
    let tp := tilePlaces t.toNat (readTs s c t.toNat)
    let ar := (List.range (rows.toNat + 1)).map (fun i => ((readS s c r.toNat).toNat % 4096 + i) % 4096)
    let ap := ar.flatMap (fun y => (List.range 16).map (fun j => y * 16 + j))
    let words (ps : List Nat) : List Nat := (List.range ps.length).map (fun j => if x.spLines = 0 then spWords + j else x.wrapWord (base + 8 * j))
    let own (ps : List Nat) : List Nat := if x.spLines = 0 then [] else words ps
    let banks (ps : List Nat) : List Nat := ((own ps).map k.bank).eraseDups
    let N (ps : List Nat) : Nat := regionCycles k (words ps) (ps.length / 32 + 1)
    let open_ (ps : List Nat) : Prop := k.locked (banks ps) = false ∧ k.tagsMeet m.toNat (own ps) = true
    let begun (load acc : Bool) (ps : List Nat) (res : List Res) : Host.Outcome State Fault Refusal :=
      let k' := (k.tagAfter m.toNat (own ps)).mark res load (N ps + 2)
      .next (issuedNext (s.setCore (coreOf c) { k' with
        tcmds := k'.tcmds ++ [⟨load, acc, ps.zip (words ps), chunkCycles k' ((words ps).take 32) + 1, banks ps, x.tid⟩] }) c)
    (k.owner = some c → open_ tp → k.free [] [.tile t.toNat] [] = true →
      exec (.ldTile g t b m) s = begun true false tp [.tile t.toNat]) ∧
    (k.owner = some c → open_ tp → k.free [] [.tile t.toNat] [] = true →
      exec (.stTile g t b m) s = begun false false tp [.tile t.toNat]) ∧
    (k.owner = some c → open_ ap → k.free [] (ar.map .row) [] = true →
      portCheck k 3 ((List.range (N ap)).map (fun i => i + 1)) = none → exec (.ldAcc g r b m rows) s = begun true true ap (ar.map .row)) ∧
    (∀ j i w, k.owner = some c → open_ ap → k.free [] (ar.map .row) [] = true → j < N ap → (∀ i, i < N ap → i + 1 ∉ k.claims) →
      k.wins[i]? = some w → j + 1 ∈ w.cycles → (∀ n w, n < i → k.wins[n]? = some w → j + 1 ∉ w.cycles) → (∀ n, n < j → ∀ w ∈ k.wins, n + 1 ∉ w.cycles) →
      exec (.ldAcc g r b m rows) s = .next (trapped s c 6 (BitVec.ofNat 64 (3 * 2 ^ 36 + i * 2 ^ 32 + (j + 1) % 2 ^ 32)))) ∧
    (k.owner = some c → open_ ap → k.free [] (ar.map .row) [] = true →
      exec (.stAcc g r b m rows) s = begun false true ap (ar.map .row)) ∧
    (k.owner ≠ some c → ∀ i ∈ [Instr.ldTile g t b m, .stTile g t b m, .ldAcc g r b m rows, .stAcc g r b m rows],
      exec i s = .next (trapped s c 4 3)) ∧
    (let cnt := min (readS s c n.toNat).toNat 4096
     let ws := if x.spLines = 0 then [] else (List.range cnt).map (fun j => x.wrapWord (base + 8 * j))
     accessWait k 0 x.spent ((cnt + 255) / 256 - 1) ws = none →
       exec (.ldTagsetFull g b n) s = .next (issuedNext (s.setCore (coreOf c) (k.setTags ws true)) c) ∧
       exec (.ldTagsetEmpty g b n) s = .next (issuedNext (s.setCore (coreOf c) (k.setTags ws false)) c))

/-! ### Vector engine -/

/-- R169, R170 and R171, element by element: sums, differences, products, fused multiply-adds, the smaller and the larger element, and
magnitudes. Integer elements wrap with IOVF outside the type's range, the magnitude of the most negative one too; floating ones round under FRM,
element i with draw i under SR, and record what their rounding records; the smaller and the larger element record nothing. The operands may be hold operands (R47);
the bound is that of the row, 2 more for FP64; bits of a lane above the type's width are 0. -/
def Obligations.VectorArithmetic : Prop :=
  ∀ (s : State) (c : Nat) (g : Guard) (d a b : BitVec 6) (t : BitVec 3) (dd : BitVec 5) (e : BitVec 4), Acts s c → readGuard s c g = true →
    let f := Fmt.ofCode t.toNat
    let va := (readHeld2 s c a b).1
    let vb := (readHeld2 s c a b).2.1
    let s' := (readHeld2 s c a b).2.2
    let rm := readFrm s c
    let dr (i : Nat) : W64 := (readDraws s c).get i
    let gives (i : Instr) (s' : State) (d bound : Nat) (f : Fmt) (el : Nat → Nat × Cats) : Prop :=
      let l := (List.range f.lanes).map el
      exec i s = .next (issuedNext (expose s' c 4 (.v d) (ofElems f (l.map Prod.fst)).toNat bound (l.foldr (fun p ev => p.2 ||| ev) 0)) c)
    let drawn (s' : State) (f : Fmt) : State := if f.isInt then s' else useDraws s' c 4 f.lanes rm
    let x (i : Nat) : Nat := elem f va i
    let y (i : Nat) : Nat := elem f vb i
    let ix (i : Nat) : Int := signedOf f.width (x i)
    let iy (i : Nat) : Int := signedOf f.width (y i)
    let wrap (v : Int) : Nat × Cats :=
      ((v.emod (2 ^ f.width)).toNat, if v < -(2 ^ (f.width - 1)) ∨ 2 ^ (f.width - 1) ≤ v then catIOVF else 0)
    let slow (f : Fmt) (n : Nat) : Nat := if f = .f64 then n + 2 else n
    gives (.vxAdd g d a b t) (drawn s' f) d.toNat (slow f 2) f (fun i => if f.isInt then wrap (ix i + iy i) else fadd f rm (dr i) (x i) (y i)) ∧
    gives (.vxSub g d a b t) (drawn s' f) d.toNat (slow f 2) f (fun i => if f.isInt then wrap (ix i - iy i) else fsub f rm (dr i) (x i) (y i)) ∧
    gives (.vxMul g d a b t) (drawn s' f) d.toNat (slow f 3) f (fun i => if f.isInt then wrap (ix i * iy i) else fmul f rm (dr i) (x i) (y i)) ∧
    gives (.vxMin g d a b t) s' d.toNat (slow f 2) f
      (fun i => (if f.isInt then (if ix i < iy i then x i else y i) else fminmax true f (x i) (y i), 0)) ∧
    gives (.vxMax g d a b t) s' d.toNat (slow f 2) f
      (fun i => (if f.isInt then (if ix i < iy i then y i else x i) else fminmax false f (x i) (y i), 0)) ∧
    (∀ p ∈ [(Instr.vxFmaF32 g dd a b e, Fmt.f32, 4), (.vxFmaF64 g dd a b e, .f64, 6), (.vxFmaF16 g dd a b e, .f16, 4), (.vxFmaBf16 g dd a b e, .bf16, 4)],
      gives p.1 (useDraws s' c 4 p.2.1.lanes rm) dd.toNat p.2.2 p.2.1
        (fun i => ffma p.2.1 rm (dr i) (elem p.2.1 va i) (elem p.2.1 vb i) (elem p.2.1 (readV s c e.toNat) i))) ∧
    gives (.vxAbs g d a t) (readHeld s c a).2 d.toNat 2 f
      (fun i => let y := elem f (readHeld s c a).1 i
        if f.isInt then ((signedOf f.width y).natAbs, if signedOf f.width y = -(2 ^ (f.width - 1)) then catIOVF else 0)
        else (if (f.decode y).isNan then f.nanCode else y % 2 ^ (f.width - 1), 0))

/-- R171 to R177: bitwise operations on all 2,048 bits, shifts that give 0 from the element's width on, comparisons into a mask, selection by
mask bits, permutation, broadcasts, the copy, and the extraction of one element. -/
def Obligations.VectorBitsAndMoves : Prop :=
  ∀ (s : State) (c : Nat) (g : Guard) (d a b l : BitVec 6) (t cd m : BitVec 3) (i15 : BitVec 15), Acts s c → readGuard s c g = true →
    let f := Fmt.ofCode t.toNat
    let va := (readHeld2 s c a b).1
    let vb := (readHeld2 s c a b).2.1
    let s' := (readHeld2 s c a b).2.2
    let out (s' : State) (r : Dst) (v bound : Nat) : Host.Outcome State Fault Refusal := .next (issuedNext (expose s' c 4 r v bound 0) c)
    let gives (i : Instr) (s' : State) (f : Fmt) (bound : Nat) (el : Nat → Nat) : Prop :=
      exec i s = out s' (.v d.toNat) (ofElems f ((List.range f.lanes).map (fun n => el n % 2 ^ f.width))).toNat bound
    encode (.vxSel g d a b m) = some (.vx, header g 17 (d ++ a ++ b ++ m)) ∧
    (decodeSlot .vx 0x02230E42).toOption = some (.vxSel ⟨0, false⟩ 6 7 8 2) ∧
    exec (.vxAnd g d a b) s = out s' (.v d.toNat) (va &&& vb).toNat 2 ∧
    exec (.vxOr g d a b) s = out s' (.v d.toNat) (va ||| vb).toNat 2 ∧
    exec (.vxXor g d a b) s = out s' (.v d.toNat) (va ^^^ vb).toNat 2 ∧
    gives (.vxShl g d a b t) s' f 2 (fun i => let n := elem f vb i % 64; if f.width ≤ n then 0 else elem f va i * 2 ^ n) ∧
    gives (.vxShr g d a b t) s' f 2 (fun i => let n := elem f vb i % 64; if f.width ≤ n then 0 else elem f va i / 2 ^ n) ∧
    exec (.vxCmp g m a b cd t) s = out s' (.vm m.toNat) (maskOf (if f = .f64 then 2 else 1) ((List.range f.lanes).map (fun i =>
      if f.isInt then condInt cd.toNat (BitVec.ofInt 64 (signedOf f.width (elem f va i))) (BitVec.ofInt 64 (signedOf f.width (elem f vb i)))
      else condFloat f cd.toNat (elem f va i) (elem f vb i)))) 2 ∧
    gives (.vxSel g d a b m) s' .i32 2 (fun i => if (readVm s c m.toNat).getLsbD i then elem .i32 va i else elem .i32 vb i) ∧
    (t ≠ 1 → gives (.vxPerm g d a b t) s' .i32 3 (fun i => elem .i32 va (elem .i32 vb i % 64))) ∧
    (t = 1 → gives (.vxPerm g d a b t) s' .f64 3 (fun i => elem .f64 va (elem .i32 vb (2 * i) % 32))) ∧
    gives (.vxBcast g d a t) s f 2 (fun _ => (readS s c a.toNat).toNat) ∧
    gives (.vxMovi g d i15) s .i32 2 (fun _ => (i15.signExtend 32).toNat) ∧
    exec (.vxMov g d a) s = out (readHeld s c a).2 (.v d.toNat) (readHeld s c a).1.toNat 1 ∧
    exec (.vxExt g d a l t) s = out (readHeld s c a).2 (.s d.toNat)
      (let x := elem f (readHeld s c a).1 l.toNat
       if f.isInt then BitVec.ofInt 64 (signedOf f.width x) else BitVec.ofNat 64 x).toNat 3

/-- R86 and R178 to R180, R186 to R188: reductions in the tree order, disabled elements as the identity; approximations, conversions and
random values element by element; `acs` keeps the smaller of two sums and says which; `tval` gives the values of a HASHED definition, and 0
for F4B8. Each with the events of its elements (of its steps, for a reduction), `redmax`, `amax`, `scale`, `rand` and `tval` with none. Of the
approximations, the special values: NaN, infinities, zeros, and exact powers; which result inside the error bound another operand gives is open (DESIGN CHOICE, log
entry 9). -/
def Obligations.VectorFunctions : Prop :=
  ∀ (s : State) (c : Nat) (g : Guard) (d a b : BitVec 6) (t : BitVec 3) (p q : BitVec 4), Acts s c → readGuard s c g = true →
    let f := Fmt.ofCode t.toNat
    let h := readHeld s c a
    let va := (readHeld2 s c a b).1
    let vb := (readHeld2 s c a b).2.1
    let s' := (readHeld2 s c a b).2.2
    let rm := readFrm s c
    let dr (i : Nat) : W64 := (readDraws s c).get i
    let vm := readVm s c (b.toNat % 8)
    let gives (i : Instr) (s' : State) (f : Fmt) (bound : Nat) (l : List (Nat × Cats)) : Prop :=
      exec i s = .next (issuedNext (expose s' c 4 (.v d.toNat) (ofElems f (l.map Prod.fst)).toNat bound (l.foldr (fun p ev => p.2 ||| ev) 0)) c)
    let slow (n : Nat) : Nat := if f = .f64 then n + 2 else n
    let kept (ident : Nat) : List Nat := (List.range f.lanes).map (fun i => if vm.getLsbD (if f = .f64 then 2 * i else i) then elem f h.1 i else ident)
    let each (n : Nat) (el : Nat → Nat × Cats) : List (Nat × Cats) := (List.range n).map el
    gives (.vxRedsum g d a b t) (if f.isInt then h.2 else useDraws h.2 c 4 (f.lanes - 1) rm) f (slow 8)
      [tree (fun j x y => if f.isInt then intWrap f.width (signedOf f.width x + signedOf f.width y) else fadd f rm (dr j) x y) 0
        (kept (if f.isInt then 0 else f.signBit)) 6] ∧
    gives (.vxRedmax g d a b t) h.2 f (slow 8)
      [((tree (fun _ x y => (if f.isInt then (if signedOf f.width x < signedOf f.width y then y else x) else fminmax false f x y, 0)) 0
        (kept (if f.isInt then f.signBit else f.signed true f.infCode)) 6).1, 0)] ∧
    gives (.vxExp g d a) h.2 .f32 6 (each 64 (fun i => expElem (elem .f32 h.1 i))) ∧
    gives (.vxRcp g d a) h.2 .f32 6 (each 64 (fun i => rcpElem (elem .f32 h.1 i))) ∧
    gives (.vxRsqrt g d a) h.2 .f32 6 (each 64 (fun i => rsqrtElem (elem .f32 h.1 i))) ∧
    (expElem 0x7FC00000 = (Fmt.f32.nanCode, 0) ∧ expElem 0x7F800000 = (0x7F800000, 0) ∧ expElem 0xFF800000 = (0, 0) ∧
      expElem 0 = (0x3F800000, 0) ∧ expElem 0x80000000 = (0x3F800000, 0) ∧ expElem 0x40400000 = (0x41000000, 0) ∧ expElem 0x43000000 = (0x7F800000, catOVF) ∧
      rcpElem 0x7FC00000 = (Fmt.f32.nanCode, 0) ∧ rcpElem 0x7F800000 = (0, 0) ∧ rcpElem 0xFF800000 = (0x80000000, 0) ∧
      rcpElem 0 = (0x7F800000, catDZ) ∧ rcpElem 0x80000000 = (0xFF800000, catDZ) ∧
      rsqrtElem 0x7FC00000 = (Fmt.f32.nanCode, 0) ∧ rsqrtElem 0x7F800000 = (0, 0) ∧ rsqrtElem 0xFF800000 = (Fmt.f32.nanCode, catINV) ∧
      rsqrtElem 0 = (0x7F800000, catDZ) ∧ rsqrtElem 0x80000000 = (0xFF800000, catDZ) ∧ rsqrtElem 0xBF800000 = (Fmt.f32.nanCode, catINV)) ∧
    (let src := Fmt.ofCode p.toNat
     let dst := Fmt.ofCode q.toNat
     let n := if src = .f64 ∨ dst = .f64 then 32 else 64
     gives (.vxCvt g d a p q) (useDraws h.2 c 4 n rm) dst 3 (each n (fun i => fconvert src dst rm false (dr i) (elem src h.1 i))) ∧
     gives (.vxCvts g d a p q) (useDraws h.2 c 4 n rm) dst 3 (each n (fun i => fconvert src dst rm true (dr i) (elem src h.1 i)))) ∧
    gives (.vxAmax g d a b t) s' .f32 6 [((elems f va).foldl (fun m x =>
      if (f.decode x).isNan then m else fminmax false .f32 m ((f.decode x).abs.pack .f32 .rup false 0).1) (elem .f32 vb 0), 0)] ∧
    (let sc := rowScale (t == 0) (elem .f32 va 0) (elem .f32 vb 0)
     gives (.vxScale g d a b t) s' .f32 4 [(sc, 0), ((fdiv .f32 .rne 0 0x3F800000 sc).1, 0)]) ∧
    gives (.vxRand g d a b t) s f 4 (each f.lanes (fun i =>
      let x := draw (readS s c a.toNat) (readS s c b.toNat + BitVec.ofNat 64 i)
      (match f with
       | .i32 => x.toNat / 2 ^ 32
       | .f64 => fracCode .f64 (x.toNat / 2 ^ 11) 53
       | _ => fracCode .f32 (x.toNat / 2 ^ 40) 24, 0))) ∧
    (let n := 2 ^ t.toNat
     gives (.vxAcs g d a b t) s' .f32 3 (each n (fun i => ((acsState va vb n i).1, (acsState va vb n i).2.2)) ++ List.replicate (32 - n) (0, 0) ++
       each n (fun i => ((acsState va vb n i).2.1, 0)))) ∧
    (tdMode ((s.core (coreOf c)).tdaOf t.toNat) = 1 → gives (.vxTval g d a t) h.2 .f32 4 (each 64 (fun i =>
      (((hashVal (elem .i32 h.1 i % 2 ^ tdL ((s.core (coreOf c)).tdaOf t.toNat))).pack .f32 .rne false 0).1, 0)))) ∧
    (tdMode ((s.core (coreOf c)).tdaOf t.toNat) = 2 → gives (.vxTval g d a t) h.2 .f32 4 []) ∧
    (tdMode ((s.core (coreOf c)).tdaOf t.toNat) = 0 → (s.core (coreOf c)).mace = [] → (∀ w, (s.core (coreOf c)).bad 6 w = false) →
      gives (.vxTval g d a t) h.2 .f32 4 (each 64 (fun i => ((fconvert .f16 .f32 .rne false 0 (SMap.get (0 : BitVec 16) (s.core (coreOf c)).tab
        (tabPlace ((s.core (coreOf c)).tdaOf t.toNat) (elem .i32 h.1 i % 2 ^ tdL ((s.core (coreOf c)).tdaOf t.toNat)))).toNat).1, 0))))

/-- R183 to R185: a push appends its vector to a queue that has room in this cycle, and freezes otherwise; a pop takes the oldest data entry
with its conversion, and freezes where there is none. -/
def Obligations.QueuePushAndPop : Prop :=
  ∀ (s : State) (c : Nat) (g : Guard) (v : BitVec 6) (q : BitVec 3), Acts s c → readGuard s c g = true →
    let k := s.core (coreOf c)
    let qu := k.queue q.toNat
    let h := readHeld s c v
    (qu.entries.length + qu.freed < 16 → exec (.vxPush g v q) s =
      .next (issuedNext (h.2.setCore (coreOf c) ((h.2.core (coreOf c)).setQueue q.toNat (qu.push h.1 false))) c)) ∧
    (16 ≤ qu.entries.length + qu.freed → ((s.ctx c).sysReg 0x003).toNat % 2 ^ 32 = 0 →
      exec (.vxPush g v q) s = .next (s.modCtx c (fun y => { y with frz := y.frz + 1 }))) ∧
    (∀ ps qu', qu.pop = some (ps, false, qu') → exec (.vxPop g v q) s =
      .next (issuedNext (expose (s.setCore (coreOf c) (k.setQueue q.toNat qu')) c 4 (.v v.toNat)
        (ofElems (Fmt.ofCode qu.sink) (ps.map (fun p => p.code))).toNat 4 (poppedCats ps)) c)) ∧
    (qu.pop = none → ((s.ctx c).sysReg 0x003).toNat % 2 ^ 32 = 0 →
      exec (.vxPop g v q) s = .next (s.modCtx c (fun y => { y with frz := y.frz + 1 })))

/-! ### Matrix engine -/

/-- R217 to R222, for the matrix owner when sources, destinations and ports are free (R212): `mma` sends one row write per tile row, row m after
D + m cycles with the 32 column sums of that row, and marks its rows write-busy until they have landed, its tile, its latch and the feed read-busy for M cycles; `latq` tags
its latch with the queue's sink type and begins to pop; `latt` and `ttr` take the tile path for 33 cycles, and mark what they read and write; `accz` writes zeros, two
rows or one FP64 row a cycle, and marks them; `accq` begins to push, and with a count of 0 does nothing. A context that is not the owner traps with cause
NOTOWNER. An `mma` whose latch holds no operand or one of another class, an `mma` or `latt` of FP64 from a tile with RB above 32, a `latq` of an INT32 or
INT4 sink, and a `latt` of such a tile trap with cause TSHAPE and TINFO the shape, or the latch's or queue's type under bit 63 (R223); an `mma` or `accz` of
which a write-port cycle meets a registered window traps with cause SCHEDV and TINFO the kind, the window and the first such cycle (R216). The model's
choices: which window's number it is (DESIGN CHOICE, log entry 72), and that a shape fault waits for no port and a tag fault comes first (DESIGN CHOICE,
log entry 82). -/
def Obligations.MatrixInstructions : Prop :=
  ∀ (s : State) (c : Nat) (g : Guard) (l : BitVec 2) (a d : BitVec 4) (r n : BitVec 6) (t q : BitVec 3) (o : BitVec 2),
    Acts s c → readGuard s c g = true →
    let k := s.core (coreOf c)
    let out (k' : Core) : Host.Outcome State Fault Refusal := .next (issuedNext (s.setCore (coreOf c) k') c)
    let fa := mmaFmt t.toNat
    let shape := readTs s c a.toNat
    let ty := Fmt.ofCode (tsType shape)
    let M := tsRows shape
    let row := (readS s c r.toNat).toNat
    let D := if t = 1 then 48 else 40
    let at_ := evPlace s c 5
    let mrows := (List.range M).flatMap (fun i => (viewRows (t == 1) row i).map Res.row)
    let busy (write : Bool) (left : Nat) (rs : List Res) : List Busy := rs.map (fun x => ⟨x, write, left⟩)
    let mmaFree : Prop := k.free [.tile a.toNat, .latch l.toNat] mrows [.feed] = true
    let tagFits : Prop := k.tagOf l.toNat ≠ 15 ∧ classOf (Fmt.ofCode (k.tagOf l.toNat)) = classOf fa
    let tshape (v : W64) : Host.Outcome State Fault Refusal := .next (trapped s c 5 v)
    -- the i-th window is the first that holds the port cycle `p m`, which is the first of the n claimed ones that a window holds; none is claimed yet
    let meets (n : Nat) (p : Nat → Nat) (m i : Nat) : Prop :=
      m < n ∧ (∀ j, j < n → p j ∉ k.claims) ∧ (∃ w, k.wins[i]? = some w ∧ p m ∈ w.cycles) ∧
      (∀ j w, j < i → k.wins[j]? = some w → p m ∉ w.cycles) ∧ (∀ j, j < m → ∀ w ∈ k.wins, p j ∉ w.cycles)
    let schedv (kind i cycle : Nat) : Host.Outcome State Fault Refusal :=
      .next (trapped s c 6 (BitVec.ofNat 64 (kind * 2 ^ 36 + i * 2 ^ 32 + cycle % 2 ^ 32)))
    (k.owner = some c → mmaFree → ¬tagFits → exec (.mxMma g l a r t o) s = tshape (BitVec.ofNat 64 (2 ^ 63 + k.tagOf l.toNat * 256 + t.toNat))) ∧
    (k.owner = some c → mmaFree → tagFits → t = 1 → 32 < tsRb shape → exec (.mxMma g l a r t o) s = tshape shape) ∧
    (∀ m i, k.owner = some c → mmaFree → tagFits → ¬(t = 1 ∧ 32 < tsRb shape) → meets M (fun m => D + m) m i →
      exec (.mxMma g l a r t o) s = schedv 1 i (D + m)) ∧
    (k.owner = some c → k.free [] [.latch l.toNat] [.pop] = true → (k.queue q.toNat).sink = 4 ∨ (k.queue q.toNat).sink = 9 →
      exec (.mxLatq g l q) s = tshape (BitVec.ofNat 64 (2 ^ 63 + (k.queue q.toNat).sink * 256))) ∧
    (k.owner = some c → k.free [.tile a.toNat] [.latch l.toNat] [.path] = true →
      tsType shape = 4 ∨ tsType shape = 9 ∨ (tsType shape = 1 ∧ 32 < tsRb shape) → exec (.mxLatt g l a) s = tshape shape) ∧
    (k.owner = some c → k.free [.tile a.toNat, .latch l.toNat] mrows [.feed] = true → k.tagOf l.toNat ≠ 15 →
      classOf (Fmt.ofCode (k.tagOf l.toNat)) = classOf fa → ¬(t = 1 ∧ 32 < tsRb shape) →
      portCheck k 1 ((List.range M).map (fun m => D + m)) = none →
      exec (.mxMma g l a r t o) s = out { k with
        busy := k.busy ++ (List.range M).flatMap (fun m => busy true (D + m + 1) ((viewRows (t == 1) row m).map Res.row)) ++
          busy false M [.tile a.toNat, .latch l.toNat, .feed]
        rows := k.rows ++ (List.range M).map (fun m =>
          let x := mmaRow k a.toNat l.toNat shape fa (Fmt.ofCode (k.tagOf l.toNat)) m
          ⟨D + m, (viewRows (t == 1) row m).headD 0, if t = 1 then 1 else if t = 5 then 4 else 0, o == 1, x.1, x.2.1, x.2.2, at_⟩) }) ∧
    (k.owner = some c → k.free [] [.latch l.toNat] [.pop] = true → (k.queue q.toNat).sink ≠ 4 → (k.queue q.toNat).sink ≠ 9 →
      exec (.mxLatq g l q) s =
        (let K := 32 * lanesOf (Fmt.ofCode (k.queue q.toNat).sink)
         out { k with latTag := SMap.set 15 k.latTag l.toNat (k.queue q.toNat).sink
                      latqs := k.latqs ++ [⟨l.toNat, q.toNat, K, 32 * K, 0, [], false, at_, false⟩] })) ∧
    (k.owner = some c → k.free [.tile a.toNat] [.latch l.toNat] [.path] = true → tsType shape ≠ 4 → tsType shape ≠ 9 →
      ¬(tsType shape = 1 ∧ 32 < tsRb shape) →
      exec (.mxLatt g l a) s = out { k with
        busy := k.busy ++ busy true 33 [.latch l.toNat] ++ busy false 33 [.tile a.toNat, .path]
        latTag := SMap.set 15 k.latTag l.toNat (tsType shape)
        paths := k.paths ++ [⟨33, true, l.toNat, (List.range 32).map (fun n => (List.range (32 * lanesOf ty)).map (tileElem k a.toNat shape ty.width n)), [],
          (List.range 32).flatMap (fun n => ((List.range (32 * lanesOf ty)).filter (tileElemBad k a.toNat shape ty.width n)).map (latPlace l.toNat n))⟩] }) ∧
    (k.owner = some c → k.writeBusy (.tile a.toNat) = false → k.writeBusy (.tile d.toNat) = false → k.readBusy (.tile d.toNat) = false →
      k.readBusy .path = false →
      exec (.mxTtr g d a) s = out { k with
        busy := k.busy ++ busy true 33 [.tile d.toNat] ++ busy false 33 [.tile a.toNat, .path]
        paths := k.paths ++ [⟨33, false, d.toNat, [], (List.range 32).flatMap (fun i =>
            let v := packLanes ty.width ((List.range 32).map (fun j => tileElem k a.toNat shape ty.width j i))
            (List.range 64).map (fun b => BitVec.ofNat 64 (v / 2 ^ (64 * b)))),
          (List.range 32).flatMap (fun i => ((List.range 32).filter (fun j => tileElemBad k a.toNat shape ty.width j i)).map
            (fun j => d.toNat * 2048 + i * 64 + j * ty.width / 64))⟩] }) ∧
    (let two := (readS s c n.toNat).getLsbD 16
     let cnt := min ((readS s c n.toNat).toNat % 2 ^ 13) (if two then 2048 else 4096)
     let rows := (List.range cnt).flatMap (viewRows two row)
     let cyc := if two then cnt else (cnt + 1) / 2
     let both (j : Nat) : Bool := two || decide (2 * j + 1 < cnt)
     let first (j : Nat) : Nat := if two then 2 * ((row + j) % 2048) else (row + 2 * j) % 4096
     (∀ m i, k.owner = some c → k.free [] (rows.map Res.row) [] = true → meets cyc (fun j => 1 + j) m i →
       exec (.mxAccz g r n) s = schedv 2 i (1 + m)) ∧
     (k.owner = some c → k.free [] (rows.map Res.row) [] = true → portCheck k 2 ((List.range cyc).map (fun j => 1 + j)) = none →
       exec (.mxAccz g r n) s = out { k with
         busy := k.busy ++ (List.range cyc).flatMap (fun j => busy true (j + 2)
           (.row (first j) :: if both j then [.row (if two then first j + 1 else (row + 2 * j + 1) % 4096)] else []))
         rows := k.rows ++ (List.range cyc).map (fun j =>
           let len := if both j then 64 else 32
           ⟨1 + j, first j, 4, false, List.replicate len 0, List.replicate len false, 0, at_⟩) }) ∧
     (k.owner = some c → k.free (rows.map Res.row) [] [.push] = true → cnt ≠ 0 → exec (.mxAccq g r n q) s =
       out { k with accqs := k.accqs ++ [⟨q.toNat, row % (if two then 2048 else 4096), cnt, two, 2, (s.ctx c).tid, false⟩] }) ∧
     (k.owner = some c → k.free (rows.map Res.row) [] [.push] = true → cnt = 0 → exec (.mxAccq g r n q) s = .next (issuedNext s c))) ∧
    (k.owner ≠ some c → ∀ i ∈ [Instr.mxMma g l a r t o, .mxLatq g l q, .mxLatt g l a, .mxTtr g d a, .mxAccz g r n, .mxAccq g r n q],
      exec i s = .next (trapped s c 4 5))

/-! ### Queues, trellis, attach set, copy posts -/

/-- R81, R82, R244 and R245: a queue-control action follows the queue engines' pops and pushes of its cycle and changes its queue alone: `qcfg`
writes the configuration with its corrections, and flushes where SIDE or ROWN changes; QCAL (-128 and -127 store -126), QKEY and QCTR; `qstep`
takes the calibration step: QCAL becomes 2^k for the greatest k with QAMAX * 2^k at most the sink's largest value, -126 if there is none, and stays where QAMAX is 0
or infinite; or it writes QSAT, or discards every entry; `qrd` exposes a register with bound 2. -/
def Obligations.QueueControl : Prop :=
  ∀ (s : State) (c : Nat) (g : Guard) (q : BitVec 3) (a : BitVec 6), Acts s c → readGuard s c g = true →
    let u := queueEngines s (coreOf c)
    let qu := (u.core (coreOf c)).queue q.toNat
    let v := readS s c a.toNat
    let wrote (qu' : Queue) : Host.Outcome State Fault Refusal := .next (issuedNext (u.modCore (coreOf c) (fun k => k.setQueue q.toNat qu')) c)
    let read (w : W64) : Host.Outcome State Fault Refusal := .next (issuedNext (expose u c 6 (.s a.toNat) w.toNat 2 0) c)
    let side := v.getLsbD 15
    let rown := if side = true ∧ v.toNat / 2 ^ 16 % 256 = 0 then 1 else v.toNat / 2 ^ 16 % 256
    let cfg : Queue := { qu with
      src := if v.toNat % 16 ≤ 9 then v.toNat % 16 else 0
      sink := if v.toNat / 2 ^ 4 % 16 ≤ 9 then v.toNat / 2 ^ 4 % 16 else 0
      rnd := if v.toNat / 2 ^ 11 % 8 ≤ 4 then v.toNat / 2 ^ 11 % 8 else 0
      sat := v.getLsbD 14, side := side, rown := rown }
    let sink := Fmt.ofCode qu.sink
    let most : Sys2Proof.Machine.Num := if sink.isInt then .fin false (2 ^ (sink.width - 1) - 1) 0 else sink.decode sink.maxCode
    let above (k : Int) : Prop := Sys2Proof.Machine.Num.lt most (Sys2Proof.Machine.Num.mul (Fmt.decode .f32 qu.amax.toNat) (.fin false 1 k)).1 = true
    exec (.dxQcfgCfg g q a) s =
      wrote (if side ≠ qu.side ∨ rown ≠ qu.rown then { cfg with entries := [], rowLeft := 0, scale := 0x3F800000, scaleBad := false } else cfg) ∧
    exec (.dxQcfgCal g q a) s = wrote { qu with cal := if (v.setWidth 8).toInt < -126 then BitVec.ofInt 8 (-126) else v.setWidth 8 } ∧
    exec (.dxQcfgKey g q a) s = wrote { qu with key := v } ∧
    exec (.dxQcfgCtr g q a) s = wrote { qu with ctr := v } ∧
    (qu.amax = 0 ∨ qu.amax = 0x7F800000 → exec (.dxQstep g q a) s = wrote { qu with amax := 0 }) ∧
    (qu.amax ≠ 0 → qu.amax ≠ 0x7F800000 → ∃ k : Int, exec (.dxQstep g q a) s = wrote { qu with cal := BitVec.ofInt 8 k, amax := 0 } ∧
      -126 ≤ k ∧ k ≤ 127 ∧ (k = -126 ∨ ¬above k) ∧ ∀ j, k < j → j ≤ 127 → above j) ∧
    exec (.dxQstepWsat g q a) s = wrote { qu with nsat := v.setWidth 32 } ∧
    exec (.dxQstepFlush g q a) s = wrote { qu with entries := [], rowLeft := 0, scale := 0x3F800000, scaleBad := false } ∧
    exec (.dxQrdCfg g q a) s = read (BitVec.ofNat 64 ((qu.side && qu.rowLeft == 0).toNat * 2 ^ 40 + qu.entries.length * 2 ^ 32 + qu.rown * 2 ^ 16 +
      qu.side.toNat * 2 ^ 15 + qu.sat.toNat * 2 ^ 14 + qu.rnd * 2 ^ 11 + qu.sink * 2 ^ 4 + qu.src)) ∧
    exec (.dxQrdCal g q a) s = read (qu.cal.setWidth 64) ∧
    exec (.dxQrdAmax g q a) s = read (qu.amax.setWidth 64) ∧
    exec (.dxQrdSat g q a) s = read (qu.nsat.setWidth 64)

/-- R190, R195 to R197 and R199: definitions are written with their corrections (L from 3 to 16, 12 at most for a table; MODE 3 as 0; OUT 2 or 3, else 2; S
even, from 2 to 1,024; every step from 1 to 4) and read with bound 2; a decode and a table load enter the Mace queue while it holds fewer than 8,
with their operands and definitions of now, take the attach set, and make their token pending; a full queue and a pending token block. That the running
command is one of the 8 is the model's choice (DESIGN CHOICE, log entry 70). -/
def Obligations.TrellisCells : Prop :=
  ∀ (s : State) (c : Nat) (g : Guard) (t q : BitVec 3) (a b : BitVec 6) (k : BitVec 5), Acts s c → readGuard s c g = true →
    (s.core (coreOf c)).active = some c →
    let x := s.ctx c
    let h := s.core (coreOf c)
    let cw := readS s c b.toNat
    let v := readS s c a.toNat
    let taken := s.modCtx c (fun x => { (x.tokPend k.toNat) with att := [] })
    let joins (m : MaceCmd) : Host.Outcome State Fault Refusal :=
      .next (issuedNext (taken.modCore (coreOf c) (fun h => { h with mace := h.mace ++ [m] })) c)
    let mode := if v.toNat / 2 ^ 8 % 4 = 3 then 0 else v.toNat / 2 ^ 8 % 4
    let bits := min (if mode = 0 then 12 else 16) (max 3 (v.toNat % 32))
    let out := if v.toNat / 2 ^ 16 % 16 = 3 then 3 else 2
    let size := max 2 (min 1024 (v.toNat / 2 ^ 32 % 2 ^ 11 / 2 * 2))
    let tda : W64 := BitVec.ofNat 64 (v.toNat / 2 ^ 52 * 2 ^ 52 + size * 2 ^ 32 + out * 2 ^ 16 + mode * 2 ^ 8 + bits)
    let tdb : W64 := BitVec.ofNat 64 (v.toNat / 2 ^ 32 % 8 * 2 ^ 32 +
      packLanes 4 ((List.range 8).map (fun j => max 1 (min 4 (v.toNat / 2 ^ (4 * j) % 16)))))
    exec (.dxTdefWa g t a) s = .next (issuedNext (s.modCore (coreOf c) (fun h => { h with tda := SMap.set tdaReset h.tda t.toNat tda })) c) ∧
    exec (.dxTdefWb g t a) s = .next (issuedNext (s.modCore (coreOf c) (fun h => { h with tdb := SMap.set tdbReset h.tdb t.toNat tdb })) c) ∧
    exec (.dxTdefRa g t a) s = .next (issuedNext (expose s c 6 (.s a.toNat) (h.tdaOf t.toNat).toNat 2 0) c) ∧
    exec (.dxTdefRb g t a) s = .next (issuedNext (expose s c 6 (.s a.toNat) (h.tdbOf t.toNat).toNat 2 0) c) ∧
    (x.tokPending k.toNat = false → h.mace.length < 8 →
      exec (.dxMdec g b t q k) s = joins ⟨false, x.tid, x.rank, x.order, k.toNat, x.deps, q.toNat, cw, cw.toNat % 2 ^ 22 / 8, h.tdaOf t.toNat,
        h.tdbOf t.toNat, 3, false, 2, 0, 0, 0, [], false, []⟩ ∧
      exec (.dxTload g a b k) s = joins ⟨true, x.tid, x.rank, x.order, k.toNat, x.deps, 0, cw, v.toNat % 2 ^ 22 / 8, 0, 0, 3,
        false, 0, 0, 0, 0, [], false, []⟩) ∧
    (x.tokPending k.toNat = false → 8 ≤ h.mace.length → ∀ i ∈ [Instr.dxMdec g b t q k, .dxTload g a b k],
      ∃ u, exec i s = .next u ∧ BlocksOn s u c .maceFull) ∧
    (x.tokPending k.toNat = true → ∀ i ∈ [Instr.dxMdec g b t q k, .dxTload g a b k], ∃ u, exec i s = .next u ∧ BlocksOn s u c (.token k.toNat))

/-- R242, R243 and R300: `kdep` sets the attach set; `aqpop` and `rpop` take the oldest entry of their return queue once its value has
arrived, with bound 2, and block until then. -/
def Obligations.AttachSetAndReturns : Prop :=
  ∀ (s : State) (c : Nat) (g : Guard) (k1 k2 k3 : BitVec 5) (d : BitVec 6), Acts s c → readGuard s c g = true →
    (s.core (coreOf c)).active = some c →
    let x := s.ctx c
    (∀ t, readS t c 0 = 0) ∧
    exec (.dxKdep g k1 k2 k3) s = .next (issuedNext (s.modCtx c (fun x => { x with att := [k1.toNat, k2.toNat, k3.toNat] })) c) ∧
    (∀ e r, x.aq = e :: r → e.arrived = true →
      exec (.dxAqpop g d) s = .next (issuedNext (expose (s.modCtx c (fun x => { x with aq := r })) c 6 (.s d.toNat) e.val.toNat 2 0) c)) ∧
    (∀ e r, x.rq = e :: r → e.arrived = true →
      exec (.sqRpop g d) s = .next (issuedNext (expose (s.modCtx c (fun x => { x with rq := r })) c 7 (.s d.toNat) e.val.toNat 2 0) c)) ∧
    ((∀ e r, x.aq = e :: r → e.arrived = false) → ∃ u, exec (.dxAqpop g d) s = .next u ∧ BlocksOn s u c .aqEmpty) ∧
    ((∀ e r, x.rq = e :: r → e.arrived = false) → ∃ u, exec (.sqRpop g d) s = .next u ∧ BlocksOn s u c .rqEmpty)

/-- R215, R230, R241, R242, R313 and R369: `cpost` on a registered queue that has room, its descriptor and its image not poisoned and its image's banks
not locked: it claims WIDX, which rises by one, the claim is noted, an image with DSP 2 registers its window, the attach set is cleared, the token is
pending, and a return entry is reserved for an amo (with LINES 0 the image is zeros). The image, with its sequence number, token, attach set and
context, waits in the context's stores to the slot, word 0 last, at the place that the ring's page has; with no place where that page is absent; where
it is refused, the context is to take ACCESS and nothing is stored. A pending token and a full queue block, the latter with a watch on its line; a line of no
queue traps with cause ACCESS; a misaligned descriptor with cause ALIGN; a window that clashes with cause SCHEDV (R216). That the window is that of the unchecked image is the model's choice (DEDUCED, log
entry 15). -/
def Obligations.CopyPost : Prop :=
  ∀ (s s' : State) (c pa : Nat) (pte : W64) (g : Guard) (a b : BitVec 6) (k : BitVec 5), Acts s c → readGuard s c g = true →
    (s.core (coreOf c)).active = some c →
    let va := (readS s c a.toNat).toNat
    let free : Prop := (s.ctx c).tokPending k.toNat = false
    let blocks : Prop := (s.ctx c).tokPending k.toNat = true → ∃ u, exec (.dxCpost g a b k) s = .next u ∧ BlocksOn s u c (.token k.toNat)
    (canonical va = false ∨ va % 64 ≠ 0 → (free → exec (.dxCpost g a b k) s = .next (trapped s c 10 (BitVec.ofNat 64 va))) ∧ blocks) ∧
    (canonical va = true → va % 64 = 0 →
      translate s (dieOf (coreOf c)) (.core (coreOf c)) (s.asidOf c) va .rmw (s.ctx c).kLevel = .ok pa pte s' →
      (s'.qheads.find? (fun p => p.1 == pa / 64) = none → (free → exec (.dxCpost g a b k) s = .next (trapped s' c 11 (BitVec.ofNat 64 va))) ∧ blocks) ∧
      (∀ h, s'.qheads.find? (fun p => p.1 == pa / 64) = some (pa / 64, h) → s'.reach (dieOf (coreOf c)) pa = true → (s'.ctx c).stores = [] →
        (s'.core (coreOf c)).locked ((imageWords s' c b h.words).map (s'.core (coreOf c)).bank) = false → blocks) ∧
      (∀ h ws, s'.qheads.find? (fun p => p.1 == pa / 64) = some (pa / 64, h) → s'.reach (dieOf (coreOf c)) pa = true → s'.badAt pa 16 = false →
        (s'.ctx c).stores = [] → free →
        let n := if h.launch then 16 else 8
        (s'.core (coreOf c)).locked ((imageWords s' c b n).map (s'.core (coreOf c)).bank) = false →
        readImage s' c b n = .ok ws →
        (2 ^ h.lsize ≤ (s'.word pa - s'.word (pa + 8)).toNat →
          ∃ u, exec (.dxCpost g a b k) s = .next u ∧ BlocksOn s u c .queueFull ∧ (u.ctx c).watch = some (pa / 64)) ∧
        (∀ w info, (s'.word pa - s'.word (pa + 8)).toNat < 2 ^ h.lsize → h.launch = false → fieldOf (wordAt ws 0) 19 16 ≠ 8 → imageWindow ws = some w →
          windowClash (s'.core (coreOf c)) w.1 w.2.2.1 = some info → exec (.dxCpost g a b k) s = .next (trapped s' c 6 info)) ∧
        ((s'.word pa - s'.word (pa + 8)).toNat < 2 ^ h.lsize →
          (h.launch = false → fieldOf (wordAt ws 0) 19 16 = 8 → (s'.ctx c).aq.length < 16) →
          (h.launch = false → ∀ w, imageWindow ws = some w → windowClash (s'.core (coreOf c)) w.1 w.2.2.1 = none) →
          let x := s'.ctx c
          let seq := (s'.word pa).toNat
          let img := stampImage ws h.launch (seq % 2 ^ 24) k.toNat c x.att
          let slot := h.ring + (if h.launch then 128 else 64) * (seq % 2 ^ h.lsize)
          let amo := !h.launch && fieldOf (wordAt ws 0) 19 16 == 8
          let risen := s'.storePhys (.core (coreOf c)) pa 8 ((seq + 1) % 2 ^ 64)
          let windowed := match (if h.launch then none else imageWindow ws) with
            | none => risen
            | some (off, row, rows, fmt) => risen.modCore (coreOf c) (fun y =>
                { y with wins := y.wins ++ [(⟨off, row, rows, 0, fmt, x.tid, x.rank, seq, pa / 64, [], false, false⟩ : Window)] })
          let claimed := ({ windowed with claims := windowed.claims ++
              [(⟨pa / 64, seq, x.tid, x.rank, x.order, k.toNat, x.deps, false, false⟩ : Claim)] } : State).modCtx c (fun y => { (y.tokPend k.toNat) with
            att := [], posted := if h.launch then y.posted else y.posted + 1, aq := if amo then y.aq ++ [(⟨pa / 64, seq, false, 0⟩ : AqEntry)] else y.aq })
          let done (t : State) (st : List Store) : Prop := exec (.dxCpost g a b k) s =
            .next (settleIssue (finishIssue (t.modCtx c (fun y => { y with stores := y.stores ++ st })) c))
          claimed.word pa = s'.word pa + 1 ∧ (claimed.ctx c).stores = [] ∧ (k ≠ 0 → (claimed.ctx c).tokPending k.toNat = true) ∧
          ((s.ctx c).spLines = 0 → ws = List.replicate n 0) ∧
          (∀ p pe t, translate claimed (dieOf (coreOf c)) (.core (coreOf c)) h.asid slot .write false = .ok p pe t →
            done t (slotStores img (some p) slot h.asid)) ∧
          (∀ l t, translate claimed (dieOf (coreOf c)) (.core (coreOf c)) h.asid slot .write false = .absent l t →
            done t (slotStores img none slot h.asid)) ∧
          (∀ t, translate claimed (dieOf (coreOf c)) (.core (coreOf c)) h.asid slot .write false = .refused t → exec (.dxCpost g a b k) s =
            .next (settleIssue (finishIssue (t.modCtx c (fun y => { y with refused := some slot })) c)))))) ∧
    (∀ i j v w, ((slotStores (i :: j) none v w).map (fun t => (t.va, t.val))).getLast? = some (v, i.toNat) ∧
      (slotStores (i :: j) none v w).length = j.length + 1)

/-! ### Sequence engines and the sampler -/

/-- R112, R115, R116, R250, R262, R281 and R350: the twenty commands that produce a token. A pending token blocks, and so does a context
that holds as many commands of the unit as R262, R281 and R350 allow; otherwise the context's stores are performed first, the command with
its operands, its level and the attach set of now joins its unit, the attach set is empty, and the token is pending. How many cycles a
command is on its way to Anise (1 at least) or a walker (3 at least) is a free value (log entry 27); Clove starts none before issue + 3. -/
def Obligations.TokenCommandsAreSent : Prop :=
  ∀ (s : State) (c : Nat) (g : Guard) (a b : BitVec 6) (k : BitVec 5), Acts s c → readGuard s c g = true →
    (s.core (coreOf c)).active = some c → s.stuck c = false →
    let x := s.ctx c
    let f := flushStores s c
    let u : State := { f.modCtx c (fun x => { (x.tokPend k.toNat) with att := [] }) with serial := f.serial + 1 }
    let va := readS s c a.toNat
    let vb := readS s c b.toNat
    let way (base : Nat) : Nat := base + Config.freeValue (f.serial + 1) 261
    let cmd (op y wait : Nat) (w : W64) : SqCmd := ⟨f.serial + 1, op, y, coreOf c, x.tid, x.rank, c, x.order, s.asidOf c, x.kLevel, va, w, k.toNat,
      x.deps, wait, false, [], 0, (x.handle, x.pc), f.ptsOf (.core (coreOf c)), false⟩
    let anise : List (Instr × SqCmd) :=
      [(.sqBfree g a k, cmd 9 0 (way 1) 0), (.sqBfreeAcq g a k, cmd 9 1 (way 1) 0), (.sqKvapp g a b k, cmd 10 0 (way 1) vb),
       (.sqKvappList g a b k, cmd 10 1 (way 1) vb), (.sqKvfork g a b k, cmd 11 0 (way 1) vb), (.sqKvroll g a k, cmd 12 0 (way 1) 0),
       (.sqKvcommit g a b k, cmd 13 0 (way 1) vb), (.sqSquash g a b k, cmd 15 0 (way 1) vb)]
    let clove : List (Instr × SqCmd) :=
      [(.sqGbind g a b k, cmd 16 0 3 vb), (.sqGbindReset g a b k, cmd 16 1 3 vb), (.sqGbindDrop g a k, cmd 16 2 3 0), (.sqGstep g a b k, cmd 17 0 3 vb),
       (.sqGmask g a b k, cmd 18 0 3 vb), (.sqGfork g a b k, cmd 19 0 3 vb), (.sqGrollEnt g a b k, cmd 20 0 3 vb), (.sqGrollPos g a b k, cmd 20 1 3 vb),
       (.sqGcommit g a b k, cmd 21 0 3 vb)]
    let walker : List (Instr × SqCmd) :=
      [(.sqItdone g a b k, cmd 23 0 (way 3) vb), (.sqItyield g a b k, cmd 24 0 (way 3) vb), (.sqSchw g a b k, cmd 25 0 (way 3) vb)]
    (x.tokPending k.toNat = true → ∀ p ∈ anise ++ clove ++ walker, ∃ t, exec p.1 s = .next t ∧ BlocksOn s t c (.token k.toNat)) ∧
    (x.tokPending k.toNat = false →
      (8 ≤ heldAnise s x.tid x.rank → ∀ p ∈ anise, ∃ t, exec p.1 s = .next t ∧ BlocksOn s t c (.sequence 0)) ∧
      (4 ≤ heldClove s x.tid x.rank → ∀ p ∈ clove, ∃ t, exec p.1 s = .next t ∧ BlocksOn s t c (.sequence 1)) ∧
      (4 ≤ heldWalk s x.tid x.rank → ∀ p ∈ walker, ∃ t, exec p.1 s = .next t ∧ BlocksOn s t c (.sequence 2)) ∧
      (heldAnise s x.tid x.rank < 8 → ∀ p ∈ anise, exec p.1 s = .next (issuedNext { u with anise := u.anise ++ [p.2] } c)) ∧
      (heldClove s x.tid x.rank < 4 → ∀ p ∈ clove,
        exec p.1 s = .next (issuedNext (u.modCore (coreOf c) (fun h => { h with clove := h.clove ++ [p.2] })) c)) ∧
      (heldWalk s x.tid x.rank < 4 → ∀ p ∈ walker, exec p.1 s = .next (issuedNext { u with walks := u.walks ++ [p.2] } c)))

/-- R263, R270 and R348: a command with a reply is sent once, after the context's stores, and its bundle waits for the reply; while none has
come it goes on waiting; and when the reply is there the bundle issues, the reply lands in its register with bound 2, and is kept no
longer; what the command has written comes before the core's later accesses. -/
def Obligations.RepliesAreAskedForOnceAndLand : Prop :=
  ∀ (s : State) (c : Nat) (g : Guard) (d a b : BitVec 6), Acts s c → readGuard s c g = true →
    let x := s.ctx c
    let asked (op : Nat) : Option Ask := x.asks.find? (fun y => y.handle == x.handle && y.pc == x.pc && y.op == op)
    let va := readS s c a.toNat
    let vb := readS s c b.toNat
    let anise : List (Instr × Nat × Nat × W64) := [(.sqBalloc g d a, 8, 0, 0), (.sqKvwinGet g d a, 14, 0, 0), (.sqKvwinSet g d a b, 14, 1, vb)]
    let walker : Instr × Nat × Nat × W64 := (.sqItnext g d a b, 22, 0, vb)
    (∀ p ∈ walker :: anise, ∀ r, asked p.2.1 = some r →
      (∀ v, r.reply = some v → exec p.1 s = .next (issuedNext (expose
        ((s.modCtx c (fun z => { z with asks := z.asks.filter (fun y => y.serial != r.serial) })).raise (.core (coreOf c)) r.ts)
        c 7 (.s d.toNat) v.toNat 2 0) c)) ∧
      (r.reply = none → (x.sysReg 0x003).toNat % 2 ^ 32 = 0 → exec p.1 s = .next (s.modCtx c (fun z => { z with frz := z.frz + 1 })))) ∧
    (x.stores = [] → (x.sysReg 0x003).toNat % 2 ^ 32 = 0 →
      let sent (p : Instr × Nat × Nat × W64) (t : State) (q : SqCmd) : Prop :=
        exec p.1 s = .next t ∧ q.op = p.2.1 ∧ q.x = p.2.2.1 ∧ q.a = va ∧ q.b = p.2.2.2 ∧ q.serial = s.serial + 1 ∧ q.deps = [] ∧
        (t.ctx c).asks = ⟨x.handle, x.pc, s.serial + 1, p.2.1, none, 0⟩ :: x.asks ∧ (t.ctx c).pc = x.pc ∧ (t.ctx c).frz = x.frz + 1
      (heldAnise s x.tid x.rank < 8 → ∀ p ∈ anise, asked p.2.1 = none → ∃ t q, sent p t q ∧ t.anise = s.anise ++ [q] ∧ t.walks = s.walks) ∧
      (heldWalk s x.tid x.rank < 4 → asked 22 = none → ∃ t q, sent walker t q ∧ t.walks = s.walks ++ [q] ∧ t.anise = s.anise))

/-- R291, R292 and R295 to R299: what a sampler command does to its context's candidate file, and the value it returns. -/
def Sys2Proof.SampledValues : Prop :=
  ∀ (q : SampCmd) (f : CandFile),
    let w := sums 0 f.logits
    let first (n h : Cand) : Bool := Num.lt (f32 h.val) (f32 n.val) || (!Num.lt (f32 n.val) (f32 h.val) && decide (n.idx.toNat < h.idx.toNat))
    let insert (n : Cand) (l : List Cand) : List Cand := l.takeWhile (fun h => !first n h) ++ n :: l.dropWhile (fun h => !first n h)
    let code (x : W64) : Nat := x.toNat % 2 ^ 32
    let finite (x : Nat) : Prop := x ≠ 0x7F800000 ∧ isNan32 x = false ∧ Num.lt (.fin false 0 0) (Fmt.decode .f32 x) = true
    (q.op = 1 →
      let kept := (List.range 64).filter (fun i => !isNan32 (elem .f32 q.v i) && q.keep.getLsbD i)
      let all := kept.foldl (fun l i => insert ⟨BitVec.ofNat 32 (elem .f32 q.v i), BitVec.ofNat 32 (q.a.toNat + i)⟩ l) f.entries
      q.effect f = { f with entries := all.take 64, k := 64 }) ∧
    (q.op = 2 → (q.effect f).entries = [] ∧ (q.effect f).k = 64 ∧ (q.effect f).beta = 0x3F800000) ∧
    (q.op = 3 → (finite (code q.a) → q.effect f = { f with beta := q.a.setWidth 32 }) ∧ (¬ finite (code q.a) → q.effect f = { f with beta := 0x7F800000 })) ∧
    (q.op = 4 → q.effect f = if q.a = 0 then f else { f with k := min f.k q.a.toNat }) ∧
    (q.op = 5 →
      let e := min f.entries.length f.k
      let t := Fmt.decode .f32 (fmul .f32 .rne 0 (code q.a) (w.getLastD 0)).1
      (isNan32 (code q.a) = true ∨ Num.lt (Fmt.decode .f32 (code q.a)) (.fin false 1 0) = false ∨ e = 0 ∨ ¬ finite (w.getLastD 0) → q.effect f = f) ∧
      (∀ m c, isNan32 (code q.a) = false → Num.lt (Fmt.decode .f32 (code q.a)) (.fin false 1 0) = true → e ≠ 0 → finite (w.getLastD 0) →
        w[m]? = some c → Num.lt (Fmt.decode .f32 c) t = false → (∀ j d, j < m → w[j]? = some d → Num.lt (Fmt.decode .f32 d) t = true) →
        q.effect f = { f with k := m + 1 })) ∧
    (6 ≤ q.op → q.effect f = f) ∧ (q.op < 6 → q.value f = none) ∧
    (q.op = 6 →
      let cs := sums 0 (if q.x = 1 then f.linear else f.logits)
      let e := min f.entries.length f.k
      let t := Fmt.decode .f32 ((Machine.Num.mul (.fin false (fieldOf (draw q.a q.b) 63 40) (-24)) (Fmt.decode .f32 (cs.getLastD 0))).1.pack .f32 .rdn false 0).1
      (e = 0 ∨ ¬ finite (cs.getLastD 0) → q.value f = some (BitVec.allOnes 64)) ∧
      (∀ i c x, e ≠ 0 → finite (cs.getLastD 0) → cs[i]? = some c → Num.lt t (Fmt.decode .f32 c) = true →
        (∀ j d, j < i → cs[j]? = some d → Num.lt t (Fmt.decode .f32 d) = false) → f.entries[i]? = some x →
        q.value f = some (BitVec.ofNat 64 (i * 2 ^ 32 + x.idx.toNat)))) ∧
    (q.op = 7 →
      let e := q.a.toNat % 64
      let elig := min f.entries.length f.k
      let s := w.getLastD 0
      let prob (n : Nat) : Nat := if elig ≤ n then 0 else if s = 0x7F800000 ∨ isNan32 s = true then 0x7FC00000 else if s = 0 then 0
        else (fdiv .f32 .rne 0 (f.logits.getD n 0) s).1
      (q.x = 0 → q.value f = some (((f.entries.map Cand.val)[e]?.getD 0).setWidth 64)) ∧
      (q.x = 1 → q.value f = some (((f.entries.map Cand.idx)[e]?.getD 0xFFFFFFFF).setWidth 64)) ∧
      (q.x = 2 → q.value f = some (BitVec.ofNat 64 (prob e))) ∧
      (q.x = 3 → (∀ i x, i < elig → f.entries[i]? = some x → x.idx.toNat = q.a.toNat % 2 ^ 32 →
          (∀ j y, j < i → f.entries[j]? = some y → y.idx.toNat ≠ q.a.toNat % 2 ^ 32) → q.value f = some (BitVec.ofNat 64 (prob i))) ∧
        ((∀ j y, j < elig → f.entries[j]? = some y → y.idx.toNat ≠ q.a.toNat % 2 ^ 32) → q.value f = some 0)) ∧
      (q.x = 4 → q.value f = some (BitVec.ofNat 64 s)))

/-- R293 to R299: a sampler cell joins the queue of its core's sampler while that holds fewer than 16; `sdraw` and `sget` reserve an entry of
the return queue, and block, as a full queue does, while eight are reserved; `smerge` alone takes the attach set. What a command does to the
candidate file when it completes (R291, R292: the kept lanes in their order, the top K and P, the temperature), and the value that a draw or a read of it
returns. -/
def Obligations.SamplerCells : Prop :=
  SampledValues ∧
  ∀ (s : State) (c : Nat) (g : Guard) (v a b : BitVec 6), Acts s c → readGuard s c g = true → (s.core (coreOf c)).active = some c →
    let x := s.ctx c
    let va := readS s c a.toNat
    let vb := readS s c b.toNat
    let cmd (op y : Nat) (p q : W64) : SampCmd := ⟨s.serial + 1, op, y, x.tid, x.rank, x.order, 0, p, q, false, [], true, none, 0⟩
    let joins (q : SampCmd) : State :=
      ({ s with serial := s.serial + 1 } : State).modCore (coreOf c) (fun h => { h with samp := h.samp ++ [q] })
    let plain : List (Instr × SampCmd) :=
      [(.sqSclr g, cmd 2 0 0 0), (.sqStemp g a, cmd 3 0 va 0), (.sqStopk g a, cmd 4 0 va 0), (.sqStopp g a, cmd 5 0 va 0)]
    let valued : List (Instr × SampCmd) :=
      [(.sqSdraw g a b, cmd 6 0 va vb), (.sqSdrawLin g a b, cmd 6 1 va vb), (.sqSgetVal g a, cmd 7 0 va 0), (.sqSgetIdx g a, cmd 7 1 va 0),
       (.sqSgetProb g a, cmd 7 2 va 0), (.sqSgetTprob g a, cmd 7 3 va 0), (.sqSgetSum g, cmd 7 4 0 0)]
    ((s.core (coreOf c)).samp.length < 16 →
      (∀ p ∈ plain, exec p.1 s = .next (issuedNext (joins p.2) c)) ∧
      exec (.sqSmerge g v a b) s = .next (issuedNext
        ((joins ⟨s.serial + 1, 1, 0, x.tid, x.rank, x.order, readV s c v.toNat, va, vb, b != 0, x.deps, true, none, 0⟩).modCtx c
          (fun z => { z with att := [] })) c) ∧
      (x.rq.length < 8 → ∀ p ∈ valued, exec p.1 s = .next (issuedNext
        ((joins p.2).modCtx c (fun z => { z with rq := z.rq ++ [⟨0, s.serial + 1, false, 0⟩] })) c))) ∧
    (8 ≤ x.rq.length → ∀ p ∈ valued, ∃ t, exec p.1 s = .next t ∧ BlocksOn s t c .returnsReserved) ∧
    (16 ≤ (s.core (coreOf c)).samp.length →
      (∀ i ∈ plain.map Prod.fst ++ [Instr.sqSmerge g v a b], ∃ t, exec i s = .next t ∧ BlocksOn s t c .samplerFull) ∧
      (x.rq.length < 8 → ∀ p ∈ valued, ∃ t, exec p.1 s = .next t ∧ BlocksOn s t c .samplerFull))

/-! ### Device steps: compute cores -/

/-- R19, R21, R22, R40, R41, R45, R103, R138 and R323: TAKE_ISSUE makes the first READY context after the last one ACTIVE; none takes issue in the cycle in which
one blocks, nor that one in the next. GIVE_UP_ISSUE takes effect at a bundle boundary: it waits for a freeze and for the drain of a trap to end. A
bundle whose guards are all false is skipped, without a cycle where they were settled two cycles ago, else for one; a BLOCKED context wakes when its
condition has cleared, and not before; the clock of a core, and of any other agent that keeps one, rises by 1, in 64 bits (R101). That a drain holds up
GIVE_UP_ISSUE is the model's reading (DEDUCED, log entry 23). -/
def Obligations.IssuePassesAmongContexts : Prop :=
  ∀ (s : State) (c : Nat), coreOf c < 320 →
    let g := coreOf c
    let h := s.core g
    let x := s.ctx c
    let skipped := (s.modCtx c (fun y => { y with pc := y.pc + 32, frz := 0, spent := 0, test := none })).modCore g (fun y => { y with wait := none })
    (h.active = none → h.last < 4 → x.st = .ready → h.mayTake c = true →
      (∀ e, coreOf e = g → (s.ctx e).st = .ready → h.mayTake e = true → (c + 3 - h.last) % 4 ≤ (e + 3 - h.last) % 4) →
      exec (.takeIssue g) s = .next (settleAll ((s.modCtx c (fun y => { y with st := .active, why := .none })).modCore g
        (fun y => { y with active := some c, hold := none, wait := none })))) ∧
    (∀ e, h.mayTake e = false ↔ ∃ b t, h.barred = some (b, t) ∧ (t = h.cycle ∨ (b = e ∧ (t + 1) % 2 ^ 64 = h.cycle))) ∧
    (h.active = some c → h.yields = true → x.frz = 0 → x.trap = none →
      exec (.giveUpIssue g) s = .next (settleAll ((s.modCtx c (fun y => { y with st := .ready })).modCore g
        (fun y => { y with active := none, last := c % 4, hold := none, wait := none, yields := false, barred := some (c, y.cycle) })))) ∧
    (h.active = some c → h.yields = true → x.frz ≠ 0 ∨ x.trap ≠ none → exec (.giveUpIssue g) s = .next (settleAll s)) ∧
    (∀ is, h.active = some c → fetch s c = some is → x.trap = none → x.exits = false → x.delay = 0 → x.bubble = 0 → x.pc + 32 < s.imageLen x.handle →
      skips s c (bundleOps is) = true → h.wait = none →
      (settledSkip s c (bundleOps is) = true → exec (.bundleSkip g) s = .next (settleAll skipped)) ∧
      (settledSkip s c (bundleOps is) = false → exec (.bundleSkip g) s = .next (settleAll (skipped.modCtx c (fun y => { y with bubble := 1 }))))) ∧
    (x.st = .blocked → unblocked s c = true →
      exec (.watchWake c) s = .next (settleAll (s.modCtx c (fun y => { y with st := .ready, watch := none })))) ∧
    (x.st = .blocked → unblocked s c = false → exec (.watchWake c) s = .next (settleAll s)) ∧
    exec (.ptsTick g) s = .next (settleAll (s.modCore g (fun y => { y with pts := (y.pts + 1) % 2 ^ 64 }))) ∧
    (∀ n ∈ agentCodes, exec (.ptsTick n) s = .next (settleAll { s with pts := SMap.set 0 s.pts n ((SMap.get 0 s.pts n + 1) % 2 ^ 64) }))

/-- R39, R43, R44, R48, R89, R107, R131, R132, R163 and R327: a pending result lands in its register, scalar, predicate, vector, mask, loop counter, system
register or tile shape, and in no other, one for s0, p0 or vm0 or one that a later write has overtaken in none, and overtakes the earlier writes of its
register; its events set their flags; a scratchpad write gives its word its value, and earlier writes of that word count as performed; a tile command in its
last cycle moves its last words; the oldest store of a context is performed, in its bytes and no others. -/
def Obligations.PendingWorkLands : Prop :=
  ∀ (s : State) (c k : Nat), s.Still →
    let g := coreOf c
    let h := s.core g
    let x := s.ctx c
    (∀ p, x.pend[k]? = some p → x.captured = false → p.landed = false →
      let into (d : Dst) : Prop := p.dead = false ∧ p.dst = d
      ∃ t, exec (.exposedResultLand c k) s = .next t ∧ exec (.latchEntryLand c k) s = .next t ∧
        (∀ m, (into (.s m) → m ≠ 0 → SMap.get 0 (t.ctx c).sr m = BitVec.ofNat 64 p.val) ∧ (¬into (.s m) ∨ m = 0 → SMap.get 0 (t.ctx c).sr m = SMap.get 0 x.sr m)) ∧
        (∀ m, m < 16 → (into (.p m) → m ≠ 0 → (t.ctx c).pr.getLsbD m = decide (p.val ≠ 0)) ∧
          (¬into (.p m) ∨ m = 0 → (t.ctx c).pr.getLsbD m = x.pr.getLsbD m)) ∧
        (∀ m, (into (.v m) → SMap.get 0 (t.ctx c).vr m = BitVec.ofNat 2048 p.val) ∧ (¬into (.v m) → SMap.get 0 (t.ctx c).vr m = SMap.get 0 x.vr m)) ∧
        (∀ m, (into (.vm m) → m ≠ 0 → SMap.get 0 (t.ctx c).vm m = BitVec.ofNat 64 p.val) ∧ (¬into (.vm m) ∨ m = 0 → SMap.get 0 (t.ctx c).vm m = SMap.get 0 x.vm m)) ∧
        (∀ m, (into (.lc m) → SMap.get 0 (t.ctx c).lc m = BitVec.ofNat 64 (p.val % 2 ^ 32)) ∧ (¬into (.lc m) → SMap.get 0 (t.ctx c).lc m = SMap.get 0 x.lc m)) ∧
        (∀ m, p.ev = 0 ∨ ¬(m = 0x004 ∨ m = 0x005 ∨ m = 0x006) →
          (into (.sys m) → (t.ctx c).sysReg m = BitVec.ofNat 64 p.val) ∧ (¬into (.sys m) → (t.ctx c).sysReg m = x.sysReg m)) ∧
        (p.ev ≠ 0 → ¬into (.sys 0x006) → (t.ctx c).sysReg 0x006 = x.sysReg 0x006 ||| p.ev.setWidth 64) ∧
        (∀ m, (into (.ts m) → SMap.get tsReset (t.core g).ts m = BitVec.ofNat 64 p.val) ∧ (¬into (.ts m) → SMap.get tsReset (t.core g).ts m = SMap.get tsReset h.ts m)) ∧
        s.SameMemory t ∧ (t.ctx c).pend[k]? = some { p with landed := true } ∧
        (∀ j q, j < k → (t.ctx c).pend[j]? = some q → q.dst = p.dst → q.landed = true ∨ q.dead = true)) ∧
    (∀ w, h.spw[k]? = some w →
      ∃ t, exec (.scratchpadWritePerformed g k) s = .next t ∧ s.SameMemory t ∧
        (∀ a, SMap.get 0 (t.core g).sp a = if a = w.word then w.val else SMap.get 0 h.sp a) ∧
        (t.core g).spw = (h.spw.take k).filter (fun y => y.word != w.word) ++ h.spw.drop (k + 1)) ∧
    (∀ w, h.tcmds[k]? = some w → w.chunk ≤ 1 → w.words.length ≤ 32 →
      ∃ t, exec (.tileCommandDone g k) s = .next t ∧ s.SameMemory t ∧ (t.core g).tcmds = h.tcmds.eraseIdx k ∧
        (w.load = true → w.acc = false → (w.words.map Prod.fst).Nodup →
          ∀ p ∈ w.words, SMap.get 0 (t.core g).tile p.1 = if p.2 < spWords then SMap.get 0 h.sp p.2 else 0) ∧
        (w.load = true → w.acc = true → (w.words.map Prod.fst).Nodup →
          ∀ p ∈ w.words, SMap.get 0 (t.core g).acc (2 * p.1) + 2 ^ 32 * SMap.get 0 (t.core g).acc (2 * p.1 + 1) =
            if p.2 < spWords then (SMap.get 0 h.sp p.2).toNat else 0) ∧
        (w.load = false → w.acc = false → (w.words.map Prod.snd).Nodup →
          ∀ p ∈ w.words, SMap.get 0 (t.core g).sp p.2 = if p.2 < spWords then SMap.get 0 h.tile p.1 else SMap.get 0 h.sp p.2) ∧
        (w.load = false → w.acc = true → (w.words.map Prod.snd).Nodup → ∀ p ∈ w.words, p.2 < spWords →
          SMap.get 0 (t.core g).sp p.2 = BitVec.ofNat 64 (SMap.get 0 h.acc (2 * p.1) + 2 ^ 32 * SMap.get 0 h.acc (2 * p.1 + 1)))) ∧
    (∀ st r pa, x.stores = st :: r → st.pa = some pa → s.reach (dieOf g) pa = true →
      ∃ t, exec (.storePerformed c) s = .next t ∧ (t.ctx c).stores = r ∧ t.readN pa st.size = st.val % 256 ^ st.size ∧
        (∀ a, a < pa ∨ pa + st.size ≤ a → t.byte a = s.byte a))

/-- R23, R147, R151, R305, R323 and R370: the events of a context. A data wait that has lasted WLIM cycles, of a bundle that is frozen in this one too,
traps with cause DWAIT and TINFO WLIM, or, where the launch queue asks for it, saves the task; a trap that waited for the drain enters its handler; an unwind goes to the innermost
region's handler; a squash event enters the handler with cause SQUASH, at a bundle that is not skipped (R40) and brings about no unwind (R381); the
end of a quantum, counted in the cycles in which another context of the core is READY, posts EXPIRY: in the next slot of the event ring where that is
free, and held otherwise. That a slot is free while its word 0 is 0 is the model's reading (DEDUCED, log entry 19). -/
def Obligations.EventsOfAContext : Prop :=
  ∀ (s : State) (c : Nat), s.Still →
    let g := coreOf c
    let x := s.ctx c
    let k := s.task x.tid
    let lim := (x.sysReg 0x003).toNat % 2 ^ 32
    (x.st = .active → lim ≠ 0 → x.frz = lim → stillFrozen s c = true → k.dws = false → HandlerReady s c 7 →
      ∃ t, exec (.dataWaitEvent c) s = .next t ∧ Entered s t c 7 (x.sysReg 0x003) x.handle x.pc) ∧
    (x.st = .active → lim ≠ 0 → x.frz = lim → stillFrozen s c = true → k.dws = true → k.state = 2 →
      ∃ t, exec (.dataWaitEvent c) s = .next t ∧ (t.task x.tid).state = 3 ∧ (t.task x.tid).saving = some 2 ∧ (t.ctx c).pc = x.pc) ∧
    (∀ p, x.st = .active → x.trap = some p → p.code ≠ 32 → HandlerReady s c p.code →
      ∃ t, exec (.trapEntry c) s = .next t ∧ Entered s t c p.code p.info p.handle p.pc ∧ (t.ctx c).trap = none) ∧
    (∀ addr, x.st = .active → x.trap = none → (∀ p ∈ x.pend, p.landed = true) →
      let d := (x.sysReg 0x048).toNat
      let h := x.sysReg (0x04C + (d - 1))
      d ≠ 0 → h.getLsbD 51 = x.kLevel → ((x.sysReg 0x044).getLsbD 1 = true → x.trapOrder < x.crOrder.getD (d - 1) 0) →
      ∃ u, exec (.containmentUnwind c addr) s = .next (settleAll u) ∧ (u.ctx c).sysReg 0x049 = place x.handle x.pc ∧
        (u.ctx c).sysReg 0x04A = addr ∧ (u.ctx c).sysReg 0x048 = BitVec.ofNat 64 (d - 1) ∧ (u.ctx c).handle = (h >>> 52).toNat ∧
        (u.ctx c).pc = h.toNat % 2 ^ 24 ∧ (u.ctx c).kLevel = x.kLevel ∧ (u.ctx c).att = [] ∧ (u.ctx c).sr = x.sr ∧
        u.unwinds = [(x.tid, x.rank, x.crOrder.getD (d - 1) 0)]) ∧
    (∀ v is, x.st = .active → x.trap = none → x.squash = some v → x.refused = none → x.dwDue = false → x.exits = false → x.delay = 0 → x.bubble = 0 →
      HandlerReady s c 8 → fetch s c = some is →
      skips s c (bundleOps is) = false → unwindsNow s g c (bundleOps is) = false →
      ∃ t, exec (.squashEvent c) s = .next t ∧ Entered s t c 8 v x.handle x.pc ∧ (t.ctx c).squash = none) ∧
    ((s.core g).wasActive = some c → x.quant ≠ 0 → x.quant ≤ x.quota + 1 → (∃ e, e ≠ c ∧ coreOf e = g ∧ (s.ctx e).st = .ready) →
      let w0 : W64 := BitVec.ofNat 64 (3 * 2 ^ 56 + x.tid % 4096 * 2 ^ 44 + c % 2 ^ 44)
      let at_ := (s.die (dieOf g)).evAt
      (evRoom s (dieOf g) = true ↔ s.reach (dieOf g) at_ = true ∧ 4 ≤ (s.die (dieOf g)).evLog ∧ (s.die (dieOf g)).evLog ≤ 16 ∧ at_ + 16 ≤ memBytes ∧
        s.word at_ = 0) ∧
      (evRoom s (dieOf g) = true → (s.die (dieOf g)).events = [] → ∃ u, exec (.expiry c) s = .next (settleAll u) ∧ (u.ctx c).quota = 0 ∧
        u.word at_ = w0 ∧ u.word (at_ + 8) = 0 ∧ (∀ a, a < at_ ∨ at_ + 16 ≤ a → u.byte a = s.byte a) ∧ (u.die (dieOf g)).events = [] ∧
        (u.die (dieOf g)).evIndex = (s.die (dieOf g)).evIndex + 1) ∧
      (evRoom s (dieOf g) = false → exec (.expiry c) s = .next (settleAll ((s.modCtx c (fun y => { y with quota := 0 })).modDie (dieOf g) (fun d =>
        { d with events := d.events ++ [⟨w0, 0⟩] })))))

/-! ### Device steps: the matrix engine and Mace -/

/-- R215, R217, R218, R219, R221 and R222: in its cycle a row write of `mma` or `accz` lands, `accz` with plain overwriting; a `latq` takes the
entry it needs, after the vector slot's pop of its cycle (R185); a tile-path operation writes its tile; an `accq` pushes its next row; a window adds its
row pair, or has missed it. A value that lands by adding leaves the sum with what the place held: INT32 modulo 2^32, FP32 and FP64 rounded to nearest. -/
def Obligations.MatrixWorkLands : Prop :=
  ∀ (s : State) (g k : Nat),
    let h := s.core g
    let cell (y : Core) (i : Nat) : Nat := SMap.get 0 y.acc (i % 131072)
    let narrow (fmt : Nat) (add : Bool) (old v : Nat) : Nat :=
      if add = false then v % 2 ^ 32 else if fmt = 4 then ((signedOf 32 old + signedOf 32 v).emod (2 ^ 32)).toNat else (fadd .f32 .rne 0 old v).1 % 2 ^ 32
    let wide (add : Bool) (old v : Nat) : Nat := if add = false then v % 2 ^ 64 else (fadd .f64 .rne 0 old v).1 % 2 ^ 64
    let landed (y : Core) (fmt row : Nat) (add : Bool) (vals : List Nat) : Prop :=
      (fmt ≠ 1 → vals.length ≤ 64 → ∀ n v, vals[n]? = some v → cell y (row * 32 + n) = narrow fmt add (cell h (row * 32 + n)) v) ∧
      (fmt = 1 → vals.length ≤ 32 → ∀ n v, vals[n]? = some v → cell y (row * 32 + 2 * n) + 2 ^ 32 * cell y (row * 32 + 2 * n + 1) =
        wide add (cell h (row * 32 + 2 * n) + 2 ^ 32 * cell h (row * 32 + 2 * n + 1)) v)
    (∀ w, h.rows[k]? = some w → w.left ≤ 1 →
      ∃ t, exec (.mmaRowLand g k) s = .next (settleAll t) ∧ exec (.acczRowWrite g k) s = .next (settleAll t) ∧
        t.core g = (Core.landValues { h with rows := h.rows.eraseIdx k } w.fmt w.row w.add 0 w.vals w.bad).1 ∧
        landed (t.core g) w.fmt w.row w.add w.vals) ∧
    (∀ o, h.latqs[k]? = some o → o.did = false → h.engDone = false → s.vxIdle g = true → (∀ p ∈ h.latqs.take k, p.did = true) → o.flight = [] → o.next < o.need →
      (o.begun = false → exec (.latqPop g k) s =
        .next (settleAll (s.modCore g (fun y => { y with latqs := y.latqs.set k { o with begun := true, did := true } })))) ∧
      (∀ ps bad q, o.begun = true → (h.queue o.q).pop = some (ps, bad, q) → o.need - o.next ≤ ps.length →
        ∃ t, exec (.latqPop g k) s = .next (settleAll t) ∧ (t.core g).queue o.q = q ∧
          (t.core g).latqs = h.latqs.set k { o with
            next := o.need, did := true,
            flight := [⟨2, o.next, (ps.map (fun p => p.code)).take (o.need - o.next), bad, poppedCats ps⟩] })) ∧
    (∀ p, h.paths[k]? = some p → p.left ≤ 1 →
      ∃ t, exec (.tilePathDone g k) s = .next (settleAll t) ∧ (t.core g).paths = h.paths.eraseIdx k ∧
        (p.latch = false → ∀ n w, p.words[n]? = some w → SMap.get 0 (t.core g).tile (p.dest * 2048 + n) = w) ∧
        (p.latch = true → ∀ n col, p.cols[n]? = some col → SMap.get [] (t.core g).latch (p.dest * 32 + n) = col)) ∧
    (∀ o, h.accqs[k]? = some o → o.did = false → h.engDone = false → s.vxIdle g = true → (∀ p ∈ h.latqs, p.did = true) → (∀ p ∈ h.accqs.take k, p.did = true) →
      o.wait = 0 → (h.queue o.q).full = false → (h.queue o.q).nside = false →
      ∃ t, exec (.accqPush g k) s = .next (settleAll t) ∧ (t.core g).queue o.q = (h.queue o.q).push (accqEntry h o).1 (accqEntry h o).2 ∧
        (t.core g).accqs = if o.left ≤ 1 then h.accqs.eraseIdx k
          else h.accqs.set k { o with row := (o.row + 1) % (if o.two then 2048 else 4096), left := o.left - 1, did := true }) ∧
    (∀ w, h.wins[k]? = some w → w.did = false → w.start ≤ 1 → w.next < (w.rows + 1) / 2 →
      (w.ready = [] → exec (.windowCycleAdd g k) s =
        .next (settleAll (s.modCore g (fun y => { y with wins := y.wins.set k { w with next := w.next + 1, missed := true, start := 0, did := true } })))) ∧
      (∀ c0 b0 c1 b1, w.ready = [(2 * w.next, c0, b0), (2 * w.next + 1, c1, b1)] → 2 * w.next + 2 ≤ w.rows →
        ∃ y : Core, exec (.windowCycleAdd g k) s =
          .next (settleAll (s.setCore g { y with wins := y.wins.set k { w with next := w.next + 1, start := 0, did := true } })) ∧
        (w.fmt ≠ 1 → y = (h.landValues w.fmt (w.row + 2 * w.next) true 0 (c0 ++ c1) (b0 ++ b1)).1 ∧ landed y w.fmt (w.row + 2 * w.next) true (c0 ++ c1)) ∧
        (w.fmt = 1 → landed y 1 (w.row + 2 * w.next) true
          ((List.range 32).map (fun n => (c0 ++ c1).getD (2 * n) 0 + 2 ^ 32 * (c0 ++ c1).getD (2 * n + 1) 0)))))

/-- R195, R198, R200 and R202: the oldest Mace command starts when its cycle has come and its tokens are done; a full entry is pushed into its
queue, two a cycle at most and none after the second of a pair, after the vector slot's push and the matrix engine's (R185); a finished command
retires with its token, not in the cycle of its last push; the commands of a task that is killed or meets R29 are cancelled, and no others, and after a
cancelled head the next command starts a cycle later at the earliest. That a cancelled command's partly filled entry is dropped at once is the model's
choice (DESIGN CHOICE, log entry 70). -/
def Obligations.MaceCommandsRun : Prop :=
  ∀ (s : State) (g tid : Nat),
    let h := s.core g
    (∀ m r, h.mace = m :: r →
      (m.started = false → m.wait = 0 → s.depsDone m.tid m.rank m.deps = true →
        exec (.maceCommandStart g) s = .next (settleAll (s.modCore g (fun y => { y with mace := { m with started := true } :: r })))) ∧
      (m.started = false → s.depsDone m.tid m.rank m.deps = false → exec (.maceCommandStart g) s = .next (settleAll s)) ∧
      (m.started = true → m.load = false → m.lag = 0 → 0 < h.macePushes → s.vxIdle g = true → (∀ o ∈ h.latqs, o.did = true) → (∀ o ∈ h.accqs, o.did = true) → m.spent = true → m.lanes ≠ [] → m.lanes.length ≤ 64 →
        (h.queue m.q).full = false → (h.queue m.q).nside = false →
        ∃ t, exec (.maceEntryPush g) s = .next (settleAll t) ∧ (t.core g).mace = { m with lanes := [], bad := false } :: r ∧
          (t.core g).pushes = h.pushes + 1 ∧
          (t.core g).queue m.q = (h.queue m.q).pushMace (ofLanes (m.lanes ++ List.replicate (64 - m.lanes.length) 0)) (tdMode m.tda == 2)
            (tdOut m.tda) m.bad) ∧
      (m.started = true → m.finished = true → h.pushes = 0 →
        ∃ t, exec (.maceCommandRetire g) s = .next (settleAll t) ∧ (t.core g).mace.length = r.length ∧
          (∀ n l, r = n :: l → (t.core g).mace = { n with wait := max n.wait 1 } :: l) ∧
          (∀ c, s.whereIs m.tid m.rank = some c → (t.ctx c).tokPending m.tok = false))) ∧
    ((s.task tid).state = 5 ∨ mayComplete s tid = true →
      let kept := h.mace.filter (fun m => m.tid != tid)
      ∃ u, exec (.maceCancel g tid) s = .next (settleAll u) ∧ (∀ m, h.mace.head? = some m → m.tid ≠ tid → (u.core g).mace = kept) ∧
        (∀ m, h.mace.head? = some m → m.tid = tid → (u.core g).mace = (kept.take 1).map (fun n => { n with wait := max n.wait 1 }) ++ kept.drop 1)) ∧
    ((s.task tid).state ≠ 5 → mayComplete s tid = false → exec (.maceCancel g tid) s = .next (settleAll s))

/-! ### Device steps: sealing and copying -/

/-- R53 to R57 and R377: an aligned SEALSUB queues, a seventeenth sets OVF. The oldest request is read; an image whose bundles all pass the checks
is sealed under a free handle and reported with it; one that has an offence is reported with the first, and nothing is sealed; a request with a
poisoned word before a readable RPT is reported with STATUS 3; a report is HANDLE and then word 0, and none where RPT is misaligned. SEALREL releases its record, and the released ones that no bound or saved task uses are freed.
The model's choices: that the request's own ASID is found under that of SEALSUB's writer (DEDUCED, log entry 46); that an unaligned SEALSUB does
nothing, that a report at a misaligned RPT is left out, that a new image takes the lowest free handle, and the KIND of a report with STATUS 3 (DESIGN
CHOICE, log entry 22). -/
def Obligations.SealingEngine : Prop :=
  ∀ (s : State) (die asid : Nat) (v : W64), die < 2 →
    let d := s.die die
    (v.toNat % 64 = 0 → d.sealQueue.length < 16 → exec (.sealsub die asid v) s =
      .next (settleAll (s.modDie die (fun d => { d with sealQueue := d.sealQueue ++ [(v.toNat, asid)] })))) ∧
    (v.toNat % 64 = 0 → 16 ≤ d.sealQueue.length →
      exec (.sealsub die asid v) s = .next (settleAll (s.modDie die (fun d => { d with sealOvf := true })))) ∧
    (v.toNat % 64 ≠ 0 → exec (.sealsub die asid v) s = .next (settleAll s)) ∧
    (∀ va n r x xb xc s0 a ab ac s1 p pc s2,
      d.sealQueue = (va, n) :: r →
      (cReadIn ⟨.seal die, die, n, false⟩ (va + 8) 8).on (s.modDie die (fun d => { d with sealQueue := r })) = .ok ((x, xb, xc), s0) →
      let w : Via := ⟨.seal die, die, if xb then n else fieldOf (BitVec.ofNat 64 x) 47 32, false⟩
      (cReadIn w va 8).on s0 = .ok ((a, ab, ac), s1) → (cReadIn w (va + 16) 8).on s1 = .ok ((p, false, pc), s2) →
      let src := a % 2 ^ 64
      let len := x % 2 ^ 32
      let rpt := p % 2 ^ 64
      (∀ h, xb = false → ab = false → freeHandle s2 = some h → src % 32 = 0 → 0 < len → len ≤ 524288 →
        (1 ≤ h ∧ h ≤ 4095 ∧ (∀ y ∈ s2.seals, y.1 ≠ h) ∧ (∀ m, 1 ≤ m → m < h → ∃ y ∈ s2.seals, y.1 = m)) ∧
        (∀ code s3 u, (readCode w len src len 0).on s2 = .ok (.ok code, s3) →
          sealReport { s3 with seals := SMap.put (SMap.del s3.seals h) h ⟨code, false⟩ } w rpt 1 0 0 0 h = some u →
          exec (.sealRequest die) s = .next (settleAll u) ∧ code.length = len ∧ u.seals = SMap.put (SMap.del s3.seals h) h ⟨code, false⟩) ∧
        (∀ i k o s3 u, (readCode w len src len 0).on s2 = .ok (.error (i, k, o), s3) → sealReport s3 w rpt 2 k o i 0 = some u →
          exec (.sealRequest die) s = .next (settleAll u) ∧ (∃ b, bundleOffence i len b = some (k, o)) ∧ u.seals = s3.seals)) ∧
      (xb = true ∨ ab = true → p < 2 ^ 64 → ∀ u, sealReport s2 w rpt 3 0 1 0 0 = some u → exec (.sealRequest die) s = .next (settleAll u)) ∧
      (∀ (u : State) st sl kd bd h, rpt % 16 ≠ 0 → sealReport u w rpt st sl kd bd h = some u) ∧
      (∀ (u : State) st sl kd bd h u1 u2, rpt % 16 = 0 → (eWrite w (rpt + 8) (BitVec.ofNat 64 h)).on u = .ok ((), u1) →
        (eWrite w rpt (BitVec.ofNat 64 (st * 2 ^ 62 + sl * 2 ^ 59 + kd * 2 ^ 56 + bd))).on u1 = .ok ((), u2) → sealReport u w rpt st sl kd bd h = some u2)) ∧
    let named := s.seals.map (fun p => if p.1 = fieldOf v 11 0 then (p.1, { p.2 with released := true }) else p)
    exec (.sealrel die v) s = .next (settleAll { s with seals := named.filter (fun p => !(p.2.released && !s.usesSeal p.1)) })

/-- R233, R238 and R240: what an access of a payload reads and writes, within the bytes whose pages are translated. A copy moves the bytes it has read,
a fill the bytes of its 8-byte pattern, an arithmetic packet combines one element with the old one, and an amo is one point that keeps the old value. -/
def Sys2Proof.PayloadMoves : Prop :=
  ∀ (p : Packet) (w : Via) (u : State),
    let i := p.done / p.len
    let off := p.done % p.len
    let d := (if p.dsp = 1 then p.dst % 2 ^ 22 + i * p.dstr else (p.dst + i * p.dstr) % 2 ^ 64) + off
    let n := if p.arith = true ∧ p.dsp ≠ 2 then p.fmt.width / 8 else min (8 - (if p.dsp = 0 then d % 8 else 0)) (p.len - off)
    let bytes : List Nat := if p.op = 1 then (List.range n).map (fun j => p.src / 2 ^ (8 * ((p.done + j) % 8)) % 256) else (p.buf.take n).map Prod.fst
    let v := bytes.foldr (fun x a => x + 256 * a) 0
    let bad := p.op ≠ 1 ∧ ∃ x ∈ p.buf.take n, x.2 = true
    let comb (old : Nat) : Nat :=
      if p.arith = false then v
      else if p.op = 4 then (if p.fmt.isInt then (old + v) % 2 ^ p.fmt.width else (fadd p.fmt .rne 0 old v).1)
      else fminmax (p.op == 5) p.fmt old v
    p.arith = decide (p.op = 4 ∨ p.op = 5 ∨ p.op = 6) ∧
    (p.op ≠ 8 → p.done + n ≤ p.ahead → p.op = 1 ∨ n ≤ p.buf.length →
      (p.dsp = 0 → p.arith = false → ∀ pa pte t, (eTrans w (d % 2 ^ 64) .write).on u = .ok ((pa, pte), t) →
        ∃ q z, (payloadStep p w).on u = .ok (q, z) ∧ q.done = p.done + n ∧ q.buf = p.buf.drop n ∧ (q.bad = true ↔ p.bad = true ∨ bad) ∧
          z.readN pa n = v % 256 ^ n ∧ ∀ a, a < pa ∨ pa + n ≤ a → z.byte a = t.byte a) ∧
      (p.dsp = 0 → p.arith = true → ∀ pa pte t, (eTrans w (d % 2 ^ 64) .rmw).on u = .ok ((pa, pte), t) →
        ∃ q z, (payloadStep p w).on u = .ok (q, z) ∧ q.done = p.done + n ∧ q.buf = p.buf.drop n ∧
          (q.bad = true ↔ p.bad = true ∨ bad ∨ t.badAt pa n = true) ∧
          z.readN pa n = comb (t.readN pa n) % 256 ^ n ∧ ∀ a, a < pa ∨ pa + n ≤ a → z.byte a = t.byte a) ∧
      (let c := p.dst / 2 ^ 32 % 2 ^ 9
       let g := u.core c
       let old := SMap.get 0 g.sp (d / 8)
       p.dsp = 1 → p.bounds = [] → g.locked [g.bank (d / 8)] = false →
        ∃ q z, (payloadStep p w).on u = .ok (q, z) ∧ q.done = p.done + n ∧ q.buf = p.buf.drop n ∧
          SMap.get 0 (z.core c).sp (d / 8) = setField old (8 * (d % 8) + 8 * n - 1) (8 * (d % 8)) (comb (old.toNat / 2 ^ (8 * (d % 8)) % 2 ^ (8 * n))) ∧
          (∀ j, j ≠ d / 8 → SMap.get 0 (z.core c).sp j = SMap.get 0 g.sp j) ∧ (∀ e, e ≠ c → z.core e = u.core e) ∧
          (p.cact = 3 → p.ckv = false → d % 8 + n = 8 → SMap.get false (z.core c).tag (d / 8) = true)) ∧
      (p.dsp = 3 → ∃ q, (payloadStep p w).on u = .ok (q, u) ∧ q.done = p.done + n ∧ q.buf = p.buf.drop n) ∧
      (p.dsp = 2 → ∃ q z, (payloadStep p w).on u = .ok (q, z) ∧ q.done = p.done + n ∧ q.buf = p.buf.drop n ∧
        let cells := p.row ++ [v % 2 ^ 32, v / 2 ^ 32]
        (off + n ≠ p.len → q.row = cells ∧ z = u) ∧
        (off + n = p.len → q.row = [] ∧ ∀ x ∈ (u.core (p.dst / 2 ^ 32 % 2 ^ 9)).wins, x.desc = p.line → x.seq = p.seq →
          ∃ y ∈ (z.core (p.dst / 2 ^ 32 % 2 ^ 9)).wins, y.row = x.row ∧ ∃ bads, y.ready = x.ready ++ [(i, cells, bads)]))) ∧
    (let pos := p.done + p.buf.length
     let a := (if p.ssp = 1 then p.src % 2 ^ 22 else p.src) + (if p.op = 3 then p.gidx.headD 0 * p.len else pos / p.len * p.sstr)
     let b := (if p.ssp = 1 then a else a % 2 ^ 64) + pos % p.len
     let k := min (8 - b % 8) (p.len - pos % p.len)
     p.op ≠ 1 → p.op ≠ 8 → p.done + n ≤ p.ahead → p.buf.length < n →
      (p.ssp = 0 → ∀ x bd kl t, (cReadIn w (b % 2 ^ 64) k).on u = .ok ((x, bd, kl), t) →
        ∃ q, (payloadStep p w).on u = .ok (q, t) ∧ q.done = p.done ∧ q.buf = p.buf ++ (List.range k).map (fun j => (x / 2 ^ (8 * j) % 256, bd))) ∧
      (p.ssp = 1 → a + p.len ≤ 0x300000 → let c := p.src / 2 ^ 32 % 2 ^ 9
        (u.core c).locked [(u.core c).bank (b / 8)] = false →
        ∃ q z, (payloadStep p w).on u = .ok (q, z) ∧ q.done = p.done ∧
          q.buf = p.buf ++ (List.range k).map (fun j =>
            ((SMap.get 0 (u.core c).sp (b / 8)).toNat / 2 ^ (8 * (b % 8)) / 2 ^ (8 * j) % 256, (u.core c).bad 1 (b / 8))) ∧
          (∀ j, SMap.get 0 (z.core c).sp j = SMap.get 0 (u.core c).sp j))) ∧
    (let len := 8 * p.len
     let x := p.src % 2 ^ len
     let new (old : Nat) : Nat :=
       if p.aop = 0 then (old + x) % 2 ^ len else if p.aop = 1 then x else if p.aop = 2 then (if old = p.aux % 2 ^ len then x else old)
       else if p.aop = 3 then (if signedOf len x < signedOf len old then x else old) else (if signedOf len old < signedOf len x then x else old)
     (p.dsp = 0 → ∀ pa pte t, (eTrans w p.dst .rmw).on u = .ok ((pa, pte), t) → t.badAt pa p.len = false →
        ∃ q z, (amoStep p w).on u = .ok (q, z) ∧ q.old = BitVec.ofNat 64 (t.readN pa p.len) ∧ q.done = p.done + p.len ∧
          z.readN pa p.len = new (t.readN pa p.len) % 256 ^ p.len ∧ ∀ a, a < pa ∨ pa + p.len ≤ a → z.byte a = t.byte a) ∧
     (p.dsp = 1 → p.bounds = [] →
        let c := p.dst / 2 ^ 32 % 2 ^ 9
        let a := p.dst % 2 ^ 22
        let word := SMap.get 0 (u.core c).sp (a / 8)
        let old := word.toNat / 2 ^ (8 * (a % 8)) % 2 ^ (8 * p.len)
        (u.core c).locked [(u.core c).bank (a / 8)] = false → (u.core c).bad 1 (a / 8) = false →
        ∃ q z, (amoStep p w).on u = .ok (q, z) ∧ q.old = BitVec.ofNat 64 old ∧ q.done = p.done + p.len ∧
          SMap.get 0 (z.core c).sp (a / 8) = setField word (8 * (a % 8) + 8 * p.len - 1) (8 * (a % 8)) (new old)))

/-- R112, R229, R231, R233 and R235 to R240: the steps of a copy engine. A queue is registered from its descriptor, or ERR is set; CQDEL of a queue
without claims removes it; the next claim is accepted, and RIDX rises; a packet starts with its first access when its tokens are done and
fewer than 8 run, in a slot that no other has; an access of payload reads a source word or writes what its operation gives, and moves the packet
on, and the last one completes it; a packet that is complete
retires with its token, and one that ends with an error leaves its stamp in LASTERR. The model's choices: the address space of the descriptor's
read (DEDUCED, log entry 46), the extension of the ring's address (DEDUCED, log entry 54), the accesses that read WIDX, RIDX and a removed
queue (DEDUCED, log entry 43), and what of a removed queue stays (DEDUCED, log entry 56). -/
def Obligations.CopyEngineSteps : Prop :=
  PayloadMoves ∧
  ∀ (s : State) (die eng asid k : Nat) (v : W64), die < 2 → eng < 52 →
    let e := s.engine die eng
    let ag : Agent := .copy die eng
    (64 ≤ e.queues.length ∨ v.toNat % 64 ≠ 0 →
      exec (.cqadd die eng asid v) s = .next (settleAll (s.modEngine die eng (fun e => { e with err := true })))) ∧
    (∀ pa pte s1 ws s2, e.queues.length < 64 → v.toNat % 64 = 0 →
      (eTrans ⟨ag, die, asid, false⟩ v.toNat .read).on s = .ok ((pa, pte), s1) → (eReads ⟨ag, die, asid, false⟩ v.toNat 4).on s1 = .ok (ws, s2) →
      let ls := fieldOf (wordAt ws 3) 4 0
      let q : CopyQueue := { desc := v.toNat, line := pa / 64, regAsid := asid, asid := fieldOf (wordAt ws 2) 63 48,
                             ring := sx48 (fieldOf (wordAt ws 2) 47 0), lsize := ls }
      let h : QHead := { launch := false, die := die, eng := eng, desc := v.toNat, ring := q.ring, lsize := ls, asid := q.asid }
      let u := s2.modEngine die eng (fun e => { e with queues := e.queues.filter (fun x => x.line != pa / 64) ++ [q] })
      4 ≤ ls → ls ≤ 16 →
      exec (.cqadd die eng asid v) s = .next (settleAll { u with qheads := SMap.put (SMap.del s2.qheads (pa / 64)) (pa / 64) h })) ∧
    (∀ q, e.queues.find? (fun q => q.desc == v.toNat && q.regAsid == asid) = some q → s.word (64 * q.line) = s.word (64 * q.line + 8) →
      s.reach die (64 * q.line) = true →
      let u := (s.loadHome ag (64 * q.line) 1).modEngine die eng (fun e =>
        { e with queues := e.queues.filter (fun x => x.line != q.line), cancels := e.cancels.filter (fun x => x.1 != q.line),
                 unread := e.unread.filter (fun x => x.line != q.line) })
      exec (.cqdel die eng asid v) s =
        .next (settleAll { u with qheads := SMap.del s.qheads q.line, claims := s.claims.filter (fun x => x.line != q.line) })) ∧
    (e.unread = [] → testAllUnread s die eng = s) ∧
    (∀ q s1 p, ((testAllUnread s die eng).engine die eng).queues[k]? = some q →
      let a := testAllUnread s die eng
      let c := (a.word (64 * q.line + 8)).toNat
      (a.word (64 * q.line)).toNat ≠ c → a.reach die (64 * q.line) = true → readSlot (a.loadHome ag (64 * q.line) 1) die eng q c false = some (s1, p) →
      exec (.packetAccept die eng k) s = .next (settleAll (addPacket (s1.storePhys ag (64 * q.line + 8) 8 ((c + 1) % 2 ^ 64)) die eng q p)) ∧
      p.seq = c ∧ (p.phase = .waiting ∨ ∃ code, p.phase = .stamp code)) ∧
    (∀ p, e.packets[k]? = some p →
      let access (q : Packet) (t : State) := (if q.op = 8 then amoStep q (q.via die eng) else payloadStep q (q.via die eng)).on t
      let moved (r : Packet) (t : State) : State :=
        let r := if r.total ≤ r.done then { r with phase := .complete } else r
        let t := t.modPacket die eng p.serial (fun _ => r)
        if r.op = 8 then giveReturn t r r.old else t
      (p.phase = .waiting → s.depsDone p.tid p.rank p.deps = true → (∀ o ∈ e.packets.take k, o.line = p.line → o.started = true) →
        (e.packets.filter (fun o => o.fault)).length < 8 → p.heldBySave s = false →
        ∃ slot, slot < 8 ∧ (∀ o ∈ e.packets, o.fault = true → o.slot ≠ slot) ∧
          let q := { p with phase := .payload, fault := true, slot := slot }
          ∀ r u, access q ((s.raise ag (s.depTs p.tid p.rank p.deps)).modPacket die eng p.serial (fun _ => q)) = .ok (r, u) →
            exec (.packetStart die eng k) s = .next (settleAll (moved r u))) ∧
      (p.phase = .waiting → s.depsDone p.tid p.rank p.deps = false → exec (.packetStart die eng k) s = .next (settleAll s)) ∧
      (p.phase = .payload → p.stopped = false → p.total ≤ p.done →
        exec (.packetWord die eng k) s = .next (settleAll (s.modPacket die eng p.serial (fun x => { x with phase := .complete })))) ∧
      (∀ r u, p.phase = .payload → p.stopped = false → p.done < p.total → access p s = .ok (r, u) →
        exec (.packetWord die eng k) s = .next (settleAll (moved r u))) ∧
      (p.phase = .complete → p.stopped = false → p.bad = false → p.ckv = false → p.dsp ≠ 2 → p.cact = 0 →
        let u := retirePacket s die eng p
        exec (.packetComplete die eng k) s = .next (settleAll u) ∧ (u.engine die eng).packets = e.packets.filter (fun x => x.serial != p.serial) ∧
          (∀ c, p.cpost = true → p.retired = false → s.whereIs p.tid p.rank = some c →
            (u.ctx c).tokPending p.ptok = false ∧ (u.ctx c).posted = (s.ctx c).posted - 1)) ∧
      (∀ code, p.phase = .stamp code → p.stopped = false → p.stampAt = 0 → s.reach die (64 * p.line) = true →
        let u := s.storePhys ag (64 * p.line + 32) 8 (p.stamp code).toNat
        exec (.packetComplete die eng k) s = .next (settleAll (retirePacket (giveReturn u p (p.stamp code)) die eng p)) ∧
          u.word (64 * p.line + 32) = p.stamp code))

/-! ### Device steps: Anise, Clove, the samplers, speculation and the walkers -/

/-- A command reads the sequence record at an address: its fields where R256 has them, in a registered KV pool of the context's space, whole (R258). -/
def Sys2Proof.ReadsRecord (u : State) (q : SqCmd) (die : Nat) (a : W64) (r : SeqRec) (t : State) : Prop :=
  ∃ ws, (eReads ⟨.anise die, die, q.asid, q.k⟩ a.toNat 6).on u = .ok (ws, t) ∧ canonical a.toNat = true ∧ a.toNat % 256 = 0 ∧
    r = ⟨a.toNat, fieldOf (wordAt ws 0) 31 0, fieldOf (wordAt ws 0) 63 32, fieldOf (wordAt ws 1) 36 32, fieldOf (wordAt ws 1) 31 0,
         sx48 (fieldOf (wordAt ws 2) 47 0), fieldOf (wordAt ws 3) 63 32, fieldOf (wordAt ws 3) 31 0, wordAt ws 4, ⟨.anise die, die, q.asid, q.k⟩,
         ⟨fieldOf (wordAt ws 1) 36 32 % 32 / 16, fieldOf (wordAt ws 1) 36 32 % 16⟩, r.per, r.bsz⟩ ∧
    (t.poolAt r.pr).en = true ∧ (t.poolAt r.pr).asid = q.asid ∧ (t.poolAt r.pr).bpos ≠ 0 ∧ r.per = 16 * 2 ^ ((t.poolAt r.pr).bpos - 1) ∧
    r.bsz = (t.poolAt r.pr).bsz ∧ r.clen ≤ r.tlen ∧ r.tlen - r.clen ≤ 16 ∧ r.nblk = (r.tlen + r.per - 1) / r.per ∧ r.nblk ≤ r.btcap ∧
    r.wstart ≤ r.clen ∧ r.btab % 64 = 0

/-- An entry of a record's block table is read: KEY and the second word (R257). -/
def Sys2Proof.ReadsEntry (u : State) (r : SeqRec) (j : Nat) (key x : W64) (t : State) : Prop :=
  ∃ s, (eRead r.via (r.btab + 16 * j)).on u = .ok (key, s) ∧ (eRead r.via (r.btab + 16 * j + 8)).on s = .ok (x, t)

/-- R255, R260, R268: a block is taken, released, referenced and copied, and a key inserted. -/
def Sys2Proof.BlockOps : Prop :=
  (∀ (u : State) (r : PoolRef) (k : Bool),
    let p := u.poolAt r
    let v := poolVia r p k
    let at_ (a : Nat) := sx48 p.pmeta + 8 * ((a - p.base) / 2 ^ p.bsz)
    (∀ i ms t t1, p.free ≠ 0 → i < p.nblk → (eReads v (sx48 p.pmeta) (i + 1)).on u = .ok (ms, t) →
      (∀ j, j < i → fieldOf (wordAt ms j) 63 62 ≠ 0) → fieldOf (wordAt ms i) 63 62 = 0 →
      (eWrite v (sx48 p.pmeta + 8 * i) 0x4000000000000001).on t = .ok ((), t1) →
      (allocate r k).on u = .ok (p.base + i * 2 ^ p.bsz, t1.modPool r (fun p => { p with free := p.free - 1 }))) ∧
    (p.free = 0 → ∃ e, (allocate r k).on u = .error e ∧ e.halt = .fail 3) ∧
    (∀ a key, p.holds a = false → (release r k a key).on u = .ok ((), u) ∧ (addRef r k a).on u = .ok ((), u)) ∧
    (∀ a key m t t1, p.holds a = true → (eRead v (at_ a)).on u = .ok (m, t) →
      (m.toNat + 1 < 2 ^ 64 → (eWrite v (at_ a) (setField m 31 0 (m.toNat + 1))).on t = .ok ((), t1) → (addRef r k a).on u = .ok ((), t1)) ∧
      (2 ≤ m.toNat % 2 ^ 32 → (eWrite v (at_ a) (setField m 31 0 (m.toNat % 2 ^ 32 - 1))).on t = .ok ((), t1) →
        (release r k a key).on u = .ok ((), t1)) ∧
      (m.toNat % 2 ^ 32 = 1 → (eWrite v (at_ a) 0x8000000000000000).on t = .ok ((), t1) →
        let slot := sx48 p.ht + 32 * (key.toNat % 2 ^ p.htLog)
        (p.htLog = 0 → (release r k a key).on u = (quarantine r a).on t1) ∧
        (∀ w t2 t3 t4, p.htLog ≠ 0 → (eRead v (slot + 8)).on t1 = .ok (w, t2) → (eRead v slot).on t2 = .ok (key, t3) → fieldOf w 63 62 ≠ 0 →
          w.toNat % 2 ^ 48 = a % 2 ^ 48 → (eWrites v slot [0, 0, 0, 0]).on t3 = .ok ((), t4) →
          (release r k a key).on u = (quarantine r a).on t4))) ∧
    (∀ key a w owner, p.htLog = 0 → (insertKey r k key a w owner).on u = .ok (false, u)) ∧
    (∀ key a w owner x t, (lookup r k key).on u = .ok (some x, t) → (insertKey r k key a w owner).on u = .ok (false, t)) ∧
    (∀ key a w owner x t t1 t2, (lookup r k key).on u = .ok (none, t) → p.htLog ≠ 0 →
      let slot := sx48 p.ht + 32 * (key.toNat % 2 ^ p.htLog)
      (eRead v (slot + 8)).on t = .ok (x, t1) → fieldOf x 63 62 = 0 →
      (eWrites v slot [key, BitVec.ofNat 64 (w * 2 ^ 62 + a % 2 ^ 48), BitVec.ofNat 64 owner, 0]).on t1 = .ok ((), t2) →
      (insertKey r k key a w owner).on u = .ok (true, t2)) ∧
    (∀ a, ∃ z, (quarantine r a).on u = .ok ((), z) ∧ z.poolAt r = { p with quar := p.quar + 1 } ∧
      (z.die r.die).quars = (u.die r.die).quars ++
        [⟨u.serial + 1, r.num, a, (u.modPool r (fun p => { p with quar := p.quar + 1 })).acceptedPackets, false, false⟩])) ∧
  (∀ (u : State) (r : SeqRec) (j p : Nat) (key x : W64) a t ws t1 t2 t3 t4,
    let x' := setField x 47 0 a
    (allocate r.pr r.via.k).on u = .ok (a, t) →
    (eReads r.via (sx48 (x.toNat % 2 ^ 48)) (p % r.per * (2 ^ r.bsz / r.per) / 8)).on t = .ok (ws, t1) → (eWrites r.via a ws).on t1 = .ok ((), t2) →
    (eWrites r.via (r.btab + 16 * j) [key, x']).on t2 = .ok ((), t3) → (release r.pr r.via.k (x.toNat % 2 ^ 48) 0).on t3 = .ok ((), t4) →
    (r.copyBlock j p key x).on u = .ok (x', t4))

/-- R263 to R266, R269 and R270: what the commands of Anise read and write, and reply. The writes go through in the order given: where one finds its
page absent, nothing of the command is done (R271). -/
def Sys2Proof.AniseWrites : Prop :=
  ∀ (u : State) (q : SqCmd) (die : Nat), u.inReplay q.tid = false →
    let v : Via := ⟨.anise die, die, q.asid, q.k⟩
    let runs (o : Option W64) (t : State) : Prop := (aniseRun u q die).on u = .ok (o, t)
    (∀ a t, q.op = 8 →
      let r : PoolRef := ⟨q.a.toNat % 32 / 16, q.a.toNat % 16⟩
      (u.poolAt r).en = true → (u.poolAt r).asid = q.asid → (allocate r q.k).on u = .ok (a, t) → runs (some (BitVec.ofNat 64 a)) t) ∧
    (∀ r m t t1, q.op = 9 → canonical q.a.toNat = true → u.poolHolding q.asid q.a.toNat = some r →
      let p := u.poolAt r
      p.asid = q.asid → p.blockOf q.a.toNat = q.a.toNat →
      (eRead (poolVia r p q.k) (sx48 p.pmeta + 8 * ((q.a.toNat - p.base) / 2 ^ p.bsz))).on u = .ok (m, t) → fieldOf m 63 62 = 1 →
      (q.x ≠ 1 → (release r q.k q.a.toNat 0).on t = .ok ((), t1) → runs none t1) ∧
      (q.x = 1 → m.toNat % 2 ^ 32 ≠ 2 ^ 32 - 1 → (addRef r q.k q.a.toNat).on t = .ok ((), t1) → runs none t1)) ∧
    (∀ r t, ReadsRecord u q die q.a r t →
      let tokWords (l : List Nat) : List W64 := (List.range 8).map (fun i => BitVec.ofNat 64 (l.getD (2 * i) 0 + 2 ^ 32 * l.getD (2 * i + 1) 0))
      let tokens (ws : List W64) : List Nat := ws.flatMap (fun w => [w.toNat % 2 ^ 32, w.toNat / 2 ^ 32])
      let j := r.tlen / r.per
      (q.op = 10 → q.x = 0 → r.tlen = r.clen + 16 → ∃ e, (aniseRun u q die).on u = .error e ∧ e.halt = .fail 5) ∧
      (∀ t3 ws t4 t5 t6, q.op = 10 → q.x = 0 → r.tlen - r.clen ≠ 16 →
        (if r.tlen % r.per = 0 then j ≠ r.btcap ∧ ∃ a t1 t2, (allocate r.pr q.k).on t = .ok (a, t1) ∧
            (eWrites v (r.btab + 16 * j) [0, BitVec.ofNat 64 (a % 2 ^ 48)]).on t1 = .ok ((), t2) ∧
            (eWrite v (r.at_ + 24) (BitVec.ofNat 64 ((j + 1) * 2 ^ 32 + r.btcap))).on t2 = .ok ((), t3)
          else ∃ key x t1 n t2, ReadsEntry t r j key x t1 ∧ (refOf r.pr q.k (x.toNat % 2 ^ 48)).on t1 = .ok (n, t2) ∧
            (if n ≤ 1 then t3 = t2 else ∃ x', (r.copyBlock j r.tlen key x).on t2 = .ok (x', t3))) →
        (eReads v (r.at_ + 128) 8).on t3 = .ok (ws, t4) →
        (eWrites v (r.at_ + 128) (tokWords ((tokens ws).set (r.tlen - r.clen) (q.b.toNat % 2 ^ 32)))).on t4 = .ok ((), t5) →
        (eWrite v r.at_ (BitVec.ofNat 64 ((r.tlen + 1) * 2 ^ 32 + r.clen))).on t5 = .ok ((), t6) → runs none t6) ∧
      (∀ ts t1 prev t2 t3 t4 t5, q.op = 10 → q.x ≠ 0 →
        let n := fieldOf q.b 63 48
        let a := sx48 (q.b.toNat % 2 ^ 48)
        let b := r.clen / r.per
        a % 4 = 0 → n ≠ 0 → r.tlen = r.clen → r.clen % r.per = 0 → n ≤ r.per → b < r.btcap → 1 ≤ (t.poolAt r.pr).free → r.nblk = b →
        (readToks v a n).on t = .ok (ts, t1) → ts.length = n →
        (if b = 0 then prev = r.kseed ∧ t2 = t1 else (eRead v (r.btab + 16 * (b - 1))).on t1 = .ok (prev, t2)) →
        let key := ts.foldl fold prev
        let entry (w : Nat) (z y : State) : Prop :=
          (eWrites v (r.btab + 16 * b) [key, BitVec.ofNat 64 (n * 2 ^ 56 + w)]).on z = .ok ((), y)
        (if n < r.per then ∃ d z, (allocate r.pr q.k).on t2 = .ok (d, z) ∧ entry (d % 2 ^ 48) z t3
          else ∃ hit z, (lookup r.pr q.k key).on t2 = .ok (hit, z) ∧
            ((∃ sl d y, hit = some (sl, 2, d) ∧ (addRef r.pr q.k d).on z = .ok ((), y) ∧ entry (2 ^ 55 + d % 2 ^ 48) y t3) ∨
             ((∀ sl d, hit ≠ some (sl, 2, d)) ∧ ∃ d y ins y', (allocate r.pr q.k).on z = .ok (d, y) ∧
               (insertKey r.pr q.k key d 1 r.at_).on y = .ok (ins, y') ∧ entry (ins.toNat * 2 ^ 54 + d % 2 ^ 48) y' t3))) →
        (eWrite v r.at_ (BitVec.ofNat 64 ((r.clen + n) * 2 ^ 32 + (r.clen + n)))).on t3 = .ok ((), t4) →
        (eWrite v (r.at_ + 24) (BitVec.ofNat 64 ((b + 1) * 2 ^ 32 + r.btcap))).on t4 = .ok ((), t5) → runs none t5) ∧
      (∀ (st : Nat → State) t1 t2 t3, q.op = 12 →
        let first := (r.clen + r.per - 1) / r.per
        st 0 = t →
        (∀ i, i < r.nblk - first → ∃ key x z y, ReadsEntry (st i) r (first + i) key x z ∧ (release r.pr q.k (x.toNat % 2 ^ 48) key).on z = .ok ((), y) ∧
          (eWrites v (r.btab + 16 * (first + i)) [0, 0]).on y = .ok ((), st (i + 1))) →
        (eWrite v r.at_ (BitVec.ofNat 64 (r.clen * 2 ^ 32 + r.clen))).on (st (r.nblk - first)) = .ok ((), t1) →
        (eWrite v (r.at_ + 24) (BitVec.ofNat 64 (first * 2 ^ 32 + r.btcap))).on t1 = .ok ((), t2) →
        (eWrites v (r.at_ + 128) (List.replicate 8 0)).on t2 = .ok ((), t3) → runs none t3) ∧
      (∀ ws t1 (st su : Nat → State) t2, q.op = 13 →
        let n := q.b.toNat
        n ≤ r.tlen - r.clen → (eReads v (r.at_ + 128) 8).on t = .ok (ws, t1) → st 0 = t1 →
        (∀ i, i < n →
          let b := (r.clen + i) / r.per
          ∃ key x k0 z y y', ReadsEntry (st i) r b key x z ∧
            (if entFill x ≠ 0 then k0 = key ∧ y = z else if b = 0 then k0 = r.kseed ∧ y = z else (eRead v (r.btab + 16 * (b - 1))).on z = .ok (k0, y)) ∧
            let key' := fold k0 ((tokens ws).getD i 0)
            (eWrites v (r.btab + 16 * b) [key', setField x 63 56 (entFill x + 1)]).on y = .ok ((), y') ∧
            (if entFill x + 1 = r.per then ∃ o, (insertKey r.pr q.k key' (x.toNat % 2 ^ 48) 2 r.at_).on y' = .ok (o, st (i + 1)) else st (i + 1) = y')) →
        (eWrites v (r.at_ + 128) (tokWords ((tokens ws).drop n))).on (st n) = .ok ((), t2) →
        (eWrite v r.at_ (BitVec.ofNat 64 (r.tlen * 2 ^ 32 + (r.clen + n)))).on t2 = .ok ((), su 0) →
        let p := (su 0).poolAt r.pr
        let pv := poolVia r.pr p q.k
        (∀ b, b < r.nblk → ∃ key x z, ReadsEntry (su b) r b key x z ∧
          (if x.getLsbD 54 then ∃ o y y', (ownIn pv key (x.toNat % 2 ^ 48) r.at_ (p.slots key)).on z = .ok (o, y) ∧
            (match o with | some (sl, w) => (eWrite pv (sl + 8) (setField w 63 62 2)).on y = .ok ((), y') | none => y' = y) ∧
            (eWrites v (r.btab + 16 * b) [key, setField x 54 54 0]).on y' = .ok ((), su (b + 1))
           else su (b + 1) = z)) →
        runs none (su r.nblk)) ∧
      (q.op = 14 → q.x = 0 → runs (some (BitVec.ofNat 64 r.wstart)) t) ∧
      (∀ st : Nat → State, q.op = 14 → q.x ≠ 0 →
        let w := min (max (q.b.toNat % 2 ^ 32) r.wstart) r.clen
        (eWrite v (r.at_ + 8) (BitVec.ofNat 64 (r.sel * 2 ^ 32 + w))).on t = .ok ((), st 0) →
        (∀ i, i < min r.nblk (w / r.per) → ∃ key x z, ReadsEntry (st i) r i key x z ∧
          (if x.toNat % 2 ^ 48 = 0 then st (i + 1) = z else ∃ y, (release r.pr q.k (x.toNat % 2 ^ 48) key).on z = .ok ((), y) ∧
            (eWrites v (r.btab + 16 * i) [key, setField x 47 0 0]).on y = .ok ((), st (i + 1)))) →
        runs (some (BitVec.ofNat 64 w)) (st (min r.nblk (w / r.per))))) ∧
    (∀ r t cs (ents : Nat → W64 × W64) (refs : Nat → Nat) (st su sv : Nat → State) pw t1 ws t2 t3 t4 t5 t6 t7 t8,
      q.op = 11 → canonical q.a.toNat = true → q.a.toNat % 256 = 0 → ReadsRecord u q die q.b r t → q.a.toNat ≠ r.at_ →
      (eReads v q.a.toNat 7).on t = .ok (cs, st 0) → fieldOf (wordAt cs 0) 63 32 = 0 → fieldOf (wordAt cs 3) 63 32 = 0 →
      (∀ b, b < r.nblk → ReadsEntry (st b) r b (ents b).1 (ents b).2 (st (b + 1))) → su 0 = st r.nblk →
      (∀ b, b < r.nblk → (refOf r.pr q.k ((ents b).2.toNat % 2 ^ 48)).on (su b) = .ok (refs b, su (b + 1)) ∧ refs b ≠ 2 ^ 32 - 1) →
      let cap := fieldOf (wordAt cs 3) 31 0
      let bt := sx48 (fieldOf (wordAt cs 2) 47 0)
      r.nblk ≤ cap → bt % 64 = 0 → (eRead v (r.at_ + 48)).on (su r.nblk) = .ok (pw, t1) → (eReads v (r.at_ + 128) 8).on t1 = .ok (ws, t2) →
      let toks : List Nat := ws.flatMap (fun w => [w.toNat % 2 ^ 32, w.toNat / 2 ^ 32])
      (eWrites v q.a.toNat [BitVec.ofNat 64 (r.tlen * 2 ^ 32 + r.clen), BitVec.ofNat 64 (r.sel * 2 ^ 32 + r.wstart)]).on t2 = .ok ((), t3) →
      (eWrite v (q.a.toNat + 24) (setField (wordAt cs 3) 63 32 r.nblk)).on t3 = .ok ((), t4) →
      (eWrite v (q.a.toNat + 32) r.kseed).on t4 = .ok ((), t5) →
      (eWrite v (q.a.toNat + 40) (BitVec.ofNat 64 (r.at_ % 2 ^ 48))).on t5 = .ok ((), t6) →
      (eWrite v (q.a.toNat + 48) (setField (wordAt cs 6) 7 0 pw.toNat)).on t6 = .ok ((), t7) →
      (eWrites v (q.a.toNat + 128) ((List.range 8).map (fun i => BitVec.ofNat 64 (toks.getD (2 * i) 0 + 2 ^ 32 * toks.getD (2 * i + 1) 0)))).on t7 = .ok ((), t8) →
      sv 0 = t8 →
      (∀ b, b < r.nblk → ∃ y, (eWrites v (bt + 16 * b) [(ents b).1, setField (ents b).2 54 54 0]).on (sv b) = .ok ((), y) ∧
        (if (ents b).2.toNat % 2 ^ 48 = 0 then sv (b + 1) = y else (addRef r.pr q.k ((ents b).2.toNat % 2 ^ 48)).on y = .ok ((), sv (b + 1)))) →
      runs none (sv r.nblk))

/-- An entry of a journal is read (R276). -/
def Sys2Proof.ReadsJournal (u : State) (g : Gram) (i : Nat) (e : Jent) (t : State) : Prop :=
  ∃ a b s, (eRead g.via (g.jrnl + 16 * (i % 2 ^ g.jlog))).on u = .ok (a, s) ∧ (eRead g.via (g.jrnl + 16 * (i % 2 ^ g.jlog) + 8)).on s = .ok (b, t) ∧
    e = ⟨fieldOf a 63 48, fieldOf a 47 0, fieldOf b 63 32, b.getLsbD 31, b.getLsbD 30, fieldOf b 23 0⟩

/-- An entry of a journal is written, live (R276). -/
def Sys2Proof.WritesJournal (u : State) (g : Gram) (i state node pos : Nat) (done : Bool) (parent : Nat) (t : State) : Prop :=
  (eWrites g.via (g.jrnl + 16 * (i % 2 ^ g.jlog)) [BitVec.ofNat 64 (state * 2 ^ 48 + node % 2 ^ 48),
    BitVec.ofNat 64 (pos % 2 ^ 32 * 2 ^ 32 + 2 ^ 31 + done.toNat * 2 ^ 30 + parent % 2 ^ 24)]).on u = .ok ((), t)

/-- HEAD and TAIL of a record are written (R275). -/
def Sys2Proof.WritesEnds (u : State) (g : Gram) (head tail : Nat) (t : State) : Prop :=
  (eWrite g.via (g.at_ + 72) (BitVec.ofNat 64 (tail % 2 ^ 32 * 2 ^ 32 + head % 2 ^ 32))).on u = .ok ((), t)
/-- CUR is written beside JLOG (R275). -/
def Sys2Proof.WritesCur (u : State) (g : Gram) (i : Nat) (t : State) : Prop :=
  (eWrite g.via (g.at_ + 80) (BitVec.ofNat 64 (g.jlog * 2 ^ 32 + i % 2 ^ 32))).on u = .ok ((), t)
/-- NBLKA and NIDX are written (R275, R278). -/
def Sys2Proof.WritesNodes (u : State) (g : Gram) (blk idx : Nat) (t : State) : Prop :=
  ∃ s, (eWrite g.via (g.at_ + 88) (BitVec.ofNat 64 (blk % 2 ^ 48))).on u = .ok ((), s) ∧ (eWrite g.via (g.at_ + 96) (BitVec.ofNat 64 idx)).on s = .ok ((), t)

/-- R273, R274, R278, R283: the nodes of a stack, and the transitions, bitmaps and exceptions of an image. -/
def Sys2Proof.StackOps : Prop :=
  ∀ (u : State) (g : Gram),
    (∀ n x t t1, n ≠ 0 →
      ((eRead g.via (sx48 n + 8)).on u = .ok (x, t) → (g.top n).on u = .ok (fieldOf x 13 0, t)) ∧
      ((eRead g.via (sx48 n)).on u = .ok (x, t) → (g.below n).on u = .ok (fieldOf x 47 0, t)) ∧
      ((eRmw g.via (sx48 n + 8) (fun v => setField v 63 32 (fieldOf v 63 32 + 1))).on u = .ok ((), t1) → (g.ref n).on u = .ok ((), t1))) ∧
    (g.top 0).on u = .ok (0, u) ∧ (g.ref 0).on u = .ok ((), u) ∧
    (∀ cls y i n tr t, (eRead g.via (g.img.tran + 8 * i)).on u = .ok (tr, t) →
      (g.findTran cls y i (n + 1)).on u =
        if fieldOf tr 63 48 = cls ∧ (fieldOf tr 47 32 = y ∨ fieldOf tr 47 32 = 0xFFFF) then .ok (some tr, t) else (g.findTran cls y (i + 1) n).on t) ∧
    (∀ cls y i, (g.findTran cls y i 0).on u = .ok (none, u)) ∧
    (g.bitmap 0xFFFF).on u = .ok (List.replicate ((g.img.voc + 63) / 64) (BitVec.allOnes 64), u) ∧
    (∀ b ws t, b ≠ 0xFFFF → b < g.img.nbmap →
      (eReads g.via (g.img.bmap + 8 * ((g.img.voc + 63) / 64) * b) ((g.img.voc + 63) / 64)).on u = .ok (ws, t) → (g.bitmap b).on u = .ok (ws, t)) ∧
    (∀ y i n m x t, (eRead g.via (g.img.exc + 8 * i)).on u = .ok (x, t) →
      let k := fieldOf x 31 0
      let bit : W64 := 1#64 <<< (k % 64)
      let m' := if (fieldOf x 47 32 = y ∨ fieldOf x 47 32 = 0xFFFF) ∧ k < g.img.voc then
          m.modify (k / 64) (fun w => if x.getLsbD 48 then w ||| bit else w &&& ~~~bit) else m
      (g.except y i (n + 1) m).on u = (g.except y (i + 1) n m').on t) ∧
    (∀ y i m, (g.except y i 0 m).on u = .ok (m, u)) ∧
    (∀ sym next t t1 t2 t3, (u.poolAt (selPool g.npool)).isPlain g.via.asid = true → g.nblka ≠ 0 →
      g.nidx ≠ 2 ^ ((u.poolAt (selPool g.npool)).bsz - 4) →
      let n := g.nblka + 16 * g.nidx
      (eRmw g.via (sx48 g.nblka) (fun v => setField v 31 0 (fieldOf v 31 0 + 1))).on u = .ok ((), t) →
      (eWrites g.via (sx48 n) [BitVec.ofNat 64 (next % 2 ^ 48), BitVec.ofNat 64 (2 ^ 32 + sym)]).on t = .ok ((), t1) →
      (g.ref next).on t1 = .ok ((), t2) → WritesNodes t2 g g.nblka (g.nidx + 1) t3 → (g.newNode sym next).on u = .ok (n, t3)) ∧
    (∀ sym next t a t1 t2 t3 t4 t5 t6, (u.poolAt (selPool g.npool)).isPlain g.via.asid = true → g.nblka = 0 → (g.knownPages next).on u = .ok ((), t) →
      (allocate (selPool g.npool) g.via.k).on t = .ok (a, t1) → (eWrite g.via (sx48 a) 0x8000000000000000).on t1 = .ok ((), t2) →
      (eRmw g.via (sx48 a) (fun v => setField v 31 0 (fieldOf v 31 0 + 1))).on t2 = .ok ((), t3) →
      (eWrites g.via (sx48 (a + 16)) [BitVec.ofNat 64 (next % 2 ^ 48), BitVec.ofNat 64 (2 ^ 32 + sym)]).on t3 = .ok ((), t4) →
      (g.ref next).on t4 = .ok ((), t5) → WritesNodes t5 g a 2 t6 → (g.newNode sym next).on u = .ok (a + 16, t6)) ∧
    (∀ f, (g.unref (f + 1) 0).on u = .ok ((), u)) ∧
    (∀ f n t x t1, n ≠ 0 → (eRmw g.via (sx48 n + 8) (fun v => setField v 63 32 (fieldOf v 63 32 + 2 ^ 32 - 1))).on u = .ok ((), t) →
      (eRead g.via (sx48 n + 8)).on t = .ok (x, t1) →
      (fieldOf x 63 32 ≠ 0 → (g.unref (f + 1) n).on u = .ok ((), t1)) ∧
      (∀ t2 h t3 t4 y t5, fieldOf x 63 32 = 0 →
        let pr := (u.poolHolding g.via.asid n).getD (selPool g.npool)
        let b := (u.poolAt pr).blockOf n
        (eRmw g.via (sx48 b) (fun v => setField v 31 0 (fieldOf v 31 0 + 2 ^ 32 - 1))).on t1 = .ok ((), t2) → (eRead g.via (sx48 b)).on t2 = .ok (h, t3) →
        (if fieldOf h 31 0 = 0 ∧ h.getLsbD 63 = false then (release pr g.via.k b 0).on t3 = .ok ((), t4) else t4 = t3) →
        (eRead g.via (sx48 n)).on t4 = .ok (y, t5) → (g.unref (f + 1) n).on u = (g.unref f (fieldOf y 47 0)).on t5))

/-- R280 and R282 to R287: what the commands of Clove read and write, in the order given. -/
def Sys2Proof.CloveWrites : Prop :=
  ∀ (u : State) (q : SqCmd) (gn : Nat), u.inReplay q.tid = false →
    let w : Via := ⟨.clove gn, dieOf gn, q.asid, q.k⟩
    let runs (l : List W64) (t : State) : Prop := (cloveRun u q gn).on u = .ok (l, t)
    let named (g : Gram) (i : Nat) : Nat := if i = 0xFFFFFFFF then g.cur else i
    (∀ (a : W64) n hd ws t j t1, canonical a.toNat = true → a.toNat % 256 = 0 → (u.core gn).slotOf a.toNat = some (n, hd) →
      (eReads w (a.toNat + 64) 5).on u = .ok (ws, t) → (eRead w (a.toNat + 56)).on t = .ok (j, t1) →
      (boundRec gn w a).on u = .ok (⟨a.toNat, Image.ofWords (hd.drop 1), fieldOf (wordAt ws 0) 47 0, fieldOf (wordAt ws 0) 52 48,
        fieldOf (wordAt ws 1) 31 0, fieldOf (wordAt ws 1) 63 32, fieldOf (wordAt ws 2) 36 32, fieldOf (wordAt ws 2) 31 0, fieldOf (wordAt ws 3) 47 0,
        fieldOf (wordAt ws 4) 31 0, sx48 (fieldOf j 47 0), w⟩, t1)) ∧
    (∀ a : W64, canonical a.toNat = true → a.toNat % 256 = 0 → (u.core gn).slotOf a.toNat = none →
      ∃ e, (boundRec gn w a).on u = .error e ∧ e.halt = .fail 13) ∧
    (∀ g t hs t1, q.op = 16 → q.x = 0 ∨ q.x = 1 → canonical q.a.toNat = true → q.a.toNat % 256 = 0 →
      (readGram w q.a.toNat (Image.ofWords [])).on u = .ok (g, t) → g.via = w → sx48 g.gimg % 8 = 0 → (eReads w (sx48 g.gimg) 8).on t = .ok (hs, t1) →
      let m := Image.ofWords hs
      let slot := q.b.toNat % 8
      let held (z : State) : State := z.modCore gn (fun y => { y with gslots := SMap.set [] y.gslots slot (q.a :: hs) })
      m.ok = true → 4 ≤ g.jlog → g.jlog ≤ 20 → (t1.poolAt (selPool g.npool)).isPlain q.asid = true →
      (∀ o, (t1.core gn).slotOf q.a.toNat = some o → o.1 = slot) →
      (q.x = 0 → runs [] (held t1)) ∧
      (∀ c t2 t3 t4 t5, q.x = 1 → g.head = g.tail → (eRead w q.a.toNat).on t1 = .ok (c, t2) →
        WritesJournal t2 g g.tail m.start 0 (fieldOf c 31 0) false 0xFFFFFF t3 → WritesEnds t3 g g.tail (g.tail + 1) t4 → WritesCur t4 g g.tail t5 →
        runs [] (held t5))) ∧
    (∀ g (st : Nat → State) t1 t2 t3 h t4 t5 t6, q.op = 16 → q.x = 2 → (boundRec gn w q.a).on u = .ok (g, st 0) → g.via = w →
      let size := min ((g.tail + 2 ^ 32 - g.head % 2 ^ 32) % 2 ^ 32) (2 ^ g.jlog)
      (∀ i, i < size → ∃ e z, ReadsJournal (st i) g ((g.head + i) % 2 ^ 32) e z ∧
        (if e.live then ∃ y, (g.unref stackFuel e.node).on z = .ok ((), y) ∧ (g.kill ((g.head + i) % 2 ^ 32)).on y = .ok ((), st (i + 1))
         else st (i + 1) = z)) →
      WritesEnds (st size) g g.tail g.tail t1 → WritesCur t1 g g.tail t2 →
      (if g.nblka = 0 then t5 = t2 else (eRmw w (sx48 g.nblka) (fun v => setField v 63 63 0)).on t2 = .ok ((), t3) ∧
        (eRead w (sx48 g.nblka)).on t3 = .ok (h, t4) ∧
        (if fieldOf h 31 0 = 0 then (release (selPool g.npool) w.k g.nblka 0).on t4 = .ok ((), t5) else t5 = t4)) →
      WritesNodes t5 g 0 0 t6 → ∀ n hd, (t6.core gn).slotOf q.a.toNat = some (n, hd) →
        runs [] (t6.modCore gn (fun y => { y with gslots := SMap.set [] y.gslots n [] }))) ∧
    (∀ g t, (boundRec gn w q.a).on u = .ok (g, t) →
      (∀ i y z, (g.kill i).on y = .ok ((), z) ↔
        ∃ b s, (eRead g.via (g.jrnl + 16 * (i % 2 ^ g.jlog) + 8)).on y = .ok (b, s) ∧
          (eWrite g.via (g.jrnl + 16 * (i % 2 ^ g.jlog) + 8) (setField b 31 31 0)).on s = .ok ((), z)) ∧
      (∀ e t1 s0 t2 s1 t3, q.op = 17 →
        let tk := q.b.toNat % 2 ^ 32
        let pi := named g (q.b.toNat / 2 ^ 32)
        g.has pi = true → ReadsJournal t g pi e t1 → e.live = true → (g.tail + 2 ^ 32 - g.head % 2 ^ 32) % 2 ^ 32 ≠ 2 ^ g.jlog → e.done = false → tk < g.img.voc →
        e.state < g.img.nstate → (eRead g.via (g.img.stab + 16 * e.state)).on t1 = .ok (s0, t2) →
        (eRead g.via (g.img.stab + 16 * e.state + 8)).on t2 = .ok (s1, t3) →
        let adds (state node : Nat) (d : Bool) (z : State) : Prop := ∀ y y' y'', WritesJournal z g g.tail state node (e.pos + 1) d (pi % 2 ^ 24) y →
          WritesCur y g g.tail y' → WritesEnds y' g g.head (g.tail + 1) y'' → runs [] y''
        (tk = g.img.eos → s1.getLsbD 0 = true → e.node = 0 → adds e.state 0 true t3) ∧
        (∀ cls t4 y t5 tr t6, tk ≠ g.img.eos → (eReadN g.via (g.img.tcls + 2 * tk) 2).on t3 = .ok (cls, t4) → (g.top e.node).on t4 = .ok (y, t5) →
          cls ≠ 0xFFFF → fieldOf s0 63 32 + fieldOf s0 31 16 ≤ 2 ^ 32 →
          (g.findTran cls y (fieldOf s0 63 32) (fieldOf s0 31 16)).on t5 = .ok (some tr, t6) →
          let nx := fieldOf tr 31 16
          let sym := fieldOf tr 13 0
          nx < g.img.nstate →
          (∀ z, fieldOf tr 15 14 = 0 → (g.ref e.node).on t6 = .ok ((), z) → adds nx e.node false z) ∧
          (∀ n z, fieldOf tr 15 14 = 1 → sym < g.img.nsym → (g.newNode sym e.node).on t6 = .ok (n, z) → adds nx n false z) ∧
          (∀ n z z', fieldOf tr 15 14 = 2 → e.node ≠ 0 → (g.below e.node).on t6 = .ok (n, z) → (g.ref n).on z = .ok ((), z') → adds nx n false z') ∧
          (∀ o z n z', fieldOf tr 15 14 = 3 → e.node ≠ 0 → sym < g.img.nsym → (g.below e.node).on t6 = .ok (o, z) → (g.newNode sym o).on z = .ok (n, z') →
            adds nx n false z'))) ∧
      (∀ e t1 y t2 s0 t3 s1 t4 yb t5 ms t6 my t7 m t8, q.op = 18 → g.has (named g (q.b.toNat / 2 ^ 32)) = true →
        ReadsJournal t g (named g (q.b.toNat / 2 ^ 32)) e t1 → e.live = true → (g.top e.node).on t1 = .ok (y, t2) → e.state < g.img.nstate →
        (eRead g.via (g.img.stab + 16 * e.state)).on t2 = .ok (s0, t3) → (eRead g.via (g.img.stab + 16 * e.state + 8)).on t3 = .ok (s1, t4) →
        y < g.img.nsym → (eReadN g.via (g.img.symt + 2 * y) 2).on t4 = .ok (yb, t5) → (g.bitmap (fieldOf s0 15 0)).on t5 = .ok (ms, t6) →
        (g.bitmap yb).on t6 = .ok (my, t7) → fieldOf s1 63 32 + fieldOf s1 31 16 ≤ 2 ^ 32 →
        (g.except y (fieldOf s1 63 32) (fieldOf s1 31 16) (List.zipWith (fun a b => a &&& b) ms my)).on t7 = .ok (m, t8) →
        ∃ r, runs r t8 ∧ r.length = m.length ∧ ∀ k v, k / 64 < m.length → m[k / 64]? = some v →
          ∃ v', r[k / 64]? = some v' ∧ v'.getLsbD (k % 64) =
            (!e.done && !(decide (k / 64 + 1 = (g.img.voc + 63) / 64) && decide (g.img.voc % 64 ≠ 0) && decide (g.img.voc % 64 ≤ k % 64)) &&
              (if k = g.img.eos ∧ g.img.eos ≠ 0xFFFFFFFF then s1.getLsbD 0 && decide (e.node = 0) else v.getLsbD (k % 64)))) ∧
      (∀ e t1 t2, q.op = 20 → q.x = 0 → g.has (q.b.toNat % 2 ^ 32) = true → ReadsJournal t g (q.b.toNat % 2 ^ 32) e t1 → e.live = true →
        WritesCur t1 g (q.b.toNat % 2 ^ 32) t2 → runs [] t2) ∧
      (∀ i t1 t2, q.op = 20 → q.x ≠ 0 → (g.findPos (q.b.toNat % 2 ^ 32) (2 ^ g.jlog + 1) g.cur).on t = .ok (i, t1) → WritesCur t1 g i t2 → runs [] t2) ∧
      (∀ p f i e y z, g.has i = true → ReadsJournal y g i e z →
        (g.findPos p (f + 1) i).on y = if e.pos = p then .ok (i, z) else match g.parentOf e with
          | some j => (g.findPos p f j).on z
          | none => .error ⟨.fail 15, none, z⟩) ∧
      (∀ e t1 keep (st : Nat → State) t2, q.op = 21 →
        let ei := named g (q.b.toNat % 2 ^ 32)
        let size := min ((g.tail + 2 ^ 32 - g.head % 2 ^ 32) % 2 ^ 32) (2 ^ g.jlog)
        g.has ei = true → ReadsJournal t g ei e t1 → e.live = true → (g.chainTo ei (2 ^ g.jlog + 1) g.cur []).on t1 = .ok (keep, st 0) →
        (∀ i, i < size →
          let k := (g.head + i) % 2 ^ 32
          if k ∈ keep then st (i + 1) = st i else ∃ x z, ReadsJournal (st i) g k x z ∧
            (if x.live then ∃ y, (g.unref stackFuel x.node).on z = .ok ((), y) ∧ (g.kill k).on y = .ok ((), st (i + 1)) else st (i + 1) = z)) →
        WritesEnds (st size) g ei g.tail t2 → runs [] t2) ∧
      (∀ ei f i l y, (g.chainTo ei (f + 1) ei l).on y = .ok (l ++ [ei], y) ∧
        (∀ x z j, i ≠ ei → g.has i = true → ReadsJournal y g i x z → g.parentOf x = some j →
          (g.chainTo ei (f + 1) i l).on y = (g.chainTo ei f j (l ++ [i])).on z))) ∧
    (∀ c t p t1 e t2 t3 t4 t5 t6 t7, q.op = 19 → (boundRec gn w q.a).on u = .ok (c, t) → (boundRec gn w q.b).on t = .ok (p, t1) → p.has p.cur = true →
      ReadsJournal t1 p p.cur e t2 → e.live = true → c.at_ ≠ p.at_ → c.head = c.tail → c.gimg = p.gimg →
      (if e.node = 0 then t3 = t2 else ∃ x, (eRead p.via (sx48 e.node + 8)).on t2 = .ok (x, t3) ∧ fieldOf x 63 32 ≠ 2 ^ 32 - 1) →
      WritesJournal t3 c c.tail e.state e.node e.pos e.done 0xFFFFFF t4 → (p.ref e.node).on t4 = .ok ((), t5) →
      WritesEnds t5 c c.tail (c.tail + 1) t6 → WritesCur t6 c c.tail t7 → runs [] t7)

/-- A schedule block is read, aligned and with an aligned map (R334, R345). -/
def Sys2Proof.ReadsSched (u : State) (v : Via) (a : Nat) (b : Sched) (t : State) : Prop :=
  ∃ ws, (eReads v a 26).on u = .ok (ws, t) ∧ canonical a = true ∧ a % 256 = 0 ∧
    b = ⟨a, v, wordAt ws 0, wordAt ws 1, wordAt ws 2, wordAt ws 3, wordAt ws 4, (ws.drop 5).take 6, (ws.drop 18).take 4, wordAt ws 11,
         (ws.drop 12).take 6, (ws.drop 22).take 4⟩ ∧
    canonical ((a + sx48 (fieldOf (wordAt ws 3) 47 0)) % 2 ^ 64) = true ∧ fieldOf (wordAt ws 3) 47 0 % 8 = 0

/-- RUN and PROG of a block are written (R338). -/
def Sys2Proof.WritesRun (u : State) (b : Sched) (gen : Nat) (pend : Bool) (cur lim ndone : Nat) (t : State) : Prop :=
  (eWrites b.via (b.at_ + 8) [BitVec.ofNat 64 (gen % 2 ^ 16 * 2 ^ 48 + pend.toNat * 2 ^ 47 + cur % 2 ^ 32),
    BitVec.ofNat 64 (lim % 2 ^ 32 * 2 ^ 32 + ndone % 2 ^ 32)]).on u = .ok ((), t)

/-- R337, R341, R342, R344 and R346: the granules of a block, and what the commands of a walker read, write and reply, in the order given. -/
def Sys2Proof.WalkerWrites : Prop :=
  (∀ (b : Sched) (u : State) (g v : Nat) (w : W64) (t : State),
    let at_ := (b.at_ + sx48 (fieldOf b.mapw 47 0)) % 2 ^ 64 + 8 * (g / 32)
    ((eRead b.via at_).on u = .ok (w, t) → (b.granule g).on u = .ok (w.toNat / 2 ^ (2 * (g % 32)) % 4, t)) ∧
    ((eRmw b.via at_ (fun w => setField w (2 * (g % 32) + 1) (2 * (g % 32)) v)).on u = .ok ((), t) → (b.setGranule g v).on u = .ok ((), t))) ∧
  (∀ (g : Geom) (t w : Nat), g.placed t w = true ↔
    (g.place = 0 ∧ t % g.nw = w) ∨ (g.place = 1 ∧ t / ((g.tiles + g.nw - 1) / g.nw) = w) ∨ (g.place = 2 ∧ g.tab.getD (t % 32) 255 = w ∧ w < g.nw) ∨
      3 ≤ g.place) ∧
  (∀ (b : Sched) (gm : Geom) (ok : Nat → Bool) (t n : Nat) (u : State),
    (b.findTile gm ok t 0).on u = .ok (none, u) ∧
    (ok t = false → (b.findTile gm ok t (n + 1)).on u = (b.findTile gm ok (t + 1) n).on u) ∧
    (∀ (gs : Nat → Nat) (st : Nat → State), ok t = true → st 0 = u →
      let size := prod ((gm.box t).map Prod.snd)
      (∀ i, i < size → (b.granule (gm.mapIndex (boxCoords i (gm.box t)))).on (st i) = .ok (gs i, st (i + 1))) →
      let free := (List.range size).filter (fun i => gs i = 0)
      (b.findTile gm ok t (n + 1)).on u = if free = [] then (b.findTile gm ok (t + 1) n).on (st size) else .ok (some (t, free), st size))) ∧
  (∀ (u : State) (aud : Bool) (v : Via) (q : SqCmd) (b : Sched) (t : State), ReadsSched u v q.a.toNat b t →
    let runs (o : Option W64) (z : State) : Prop := (walkRun aud v q).on u = .ok (o, z)
    let rec_ := sx48 (q.b.toNat % 2 ^ 48)
    let ndim := fieldOf b.ctrl 34 32
    let clus := fieldOf b.ctrl 52 48
    let gen := fieldOf b.run 63 48
    let pend := b.run.getLsbD 47
    let cur := fieldOf b.run 31 0
    let lim := fieldOf b.prog 63 32
    let ndone := fieldOf b.prog 31 0
    (q.op = 22 → rec_ % 128 = 0 → b.geom.valid ndim clus = true → (aud && b.geom.place == 3) = false → fieldOf q.b 63 58 < b.geom.nw →
      (pend = false ∨ cur < lim →
        let gm := b.geom
        let e := if pend then min lim gm.tiles else gm.tiles
        (ndone = gm.total → runs (some 0x8000000000000002) t) ∧
        (∀ z, ndone ≠ gm.total → (b.findTile gm (fun t => gm.placed t (fieldOf q.b 63 58)) cur (e - cur)).on t = .ok (none, z) →
          runs (some 0x8000000000000001) z) ∧
        (∀ ti bits (st : Nat → State) t1 nxt t2 t3, ndone ≠ gm.total →
          (b.findTile gm (fun t => gm.placed t (fieldOf q.b 63 58)) cur (e - cur)).on t = .ok (some (ti, bits), st 0) →
          (∀ i (h : i < bits.length), (b.setGranule (gm.mapIndex (boxCoords bits[i] (gm.box ti))) 1).on (st i) = .ok ((), st (i + 1))) →
          let dims := (gm.dims.zip (gm.box ti)).map (fun p =>
            let o := p.2.1 * p.1.gran
            BitVec.ofNat 64 (o % 2 ^ 32 * 2 ^ 32 + min (p.2.2 * p.1.gran) (p.1.ext - o) % 2 ^ 24 * 2 ^ 8 + p.2.2 % 256))
          (eWrites v rec_ ([bits.foldl (fun m i => m ||| (1#64 <<< i)) 0, 0, BitVec.ofNat 64 (gen % 2 ^ 16 * 2 ^ 48 + ti)] ++ dims ++
            List.replicate (6 - dims.length) 0x101)).on (st bits.length) = .ok ((), t1) →
          (b.findTile gm (fun _ => true) cur (gm.tiles - cur)).on t1 = .ok (nxt, t2) →
          WritesRun t2 b gen pend (match nxt with | some (x, _) => x | none => gm.tiles) lim ndone t3 →
          runs (some (BitVec.ofNat 64 (gen * 2 ^ 32 + ti))) t3)) ∧
      (∀ t1 t2 t3, pend = true → lim ≤ cur →
        let dims := (b.dims.zip b.pdims).zipIdx.map (fun p =>
          if p.2 < ndim then setField (setField p.1.1 15 8 (fieldOf p.1.2 15 8)) 2 0 (fieldOf p.1.2 2 0) else p.1.1)
        let b' : Sched := { b with geo := b.pgeo, dims := dims, tab := b.ptab }
        (b'.geom.valid ndim clus = false → ∃ e, (walkRun aud v q).on u = .error e ∧ e.halt = .fail 17) ∧
        (b'.geom.valid ndim clus = true → (eWrites v (b.at_ + 32) (b.pgeo :: dims)).on t = .ok ((), t1) →
          (eWrites v (b.at_ + 144) b.ptab).on t1 = .ok ((), t2) → WritesRun t2 b (gen + 1) false 0 0xFFFFFFFF ndone t3 →
          b.switch.on t = .ok ({ b' with run := BitVec.ofNat 64 ((gen + 1) % 2 ^ 16 * 2 ^ 48), prog := setField b.prog 63 32 0xFFFFFFFF }, t3) ∧
          ((aud && b'.geom.place == 3) = false → ndone = b'.geom.total → runs (some 0x8000000000000002) t3)))) ∧
    (∀ ws t1 t2 t3 t4, q.op = 25 → canonical q.b.toNat = true → q.b.toNat % 8 = 0 → b.ctrl.getLsbD 63 = false → aud = false →
      b.geom.valid ndim clus = true → (eReads v q.b.toNat 11).on t = .ok (ws, t1) →
      (geomOf ndim (wordAt ws 0) (mixDims ndim b.dims ((ws.drop 1).take 6)) ((ws.drop 7).take 4)).valid ndim clus = true →
      (eWrites v (b.at_ + 88) (wordAt ws 0 :: (ws.drop 1).take 6)).on t1 = .ok ((), t2) → (eWrites v (b.at_ + 176) ((ws.drop 7).take 4)).on t2 = .ok ((), t3) →
      let inner := b.geom.tiles / b.geom.top
      (if pend then t4 = t3
        else WritesRun t3 b gen true cur (if cur = b.geom.tiles then b.geom.tiles else (cur / inner + 1) * inner) ndone t4) →
      runs none t4) ∧
    (b.ctrl.getLsbD 63 = true → q.op = 25 → canonical q.b.toNat = true → q.b.toNat % 8 = 0 → ∃ e, (walkRun aud v q).on u = .error e ∧ e.halt = .fail 6) ∧
    (∀ ws (st su : Nat → State) t1 t2, q.op = 23 ∨ q.op = 24 → rec_ % 128 = 0 → (eReads v rec_ 9).on t = .ok (ws, st 0) →
      let gm := b.geom
      let mask := wordAt ws 0
      let ym := wordAt ws 1
      let box := gm.dims.zipIdx.map (fun p => (fieldOf (wordAt ws (3 + p.2)) 63 32, fieldOf (wordAt ws (3 + p.2)) 7 0))
      let n := prod (box.map Prod.snd)
      let set := if q.op = 24 then mask &&& ym else mask
      let bits := (List.range 64).filter (fun i => set.getLsbD i)
      let cs := bits.map (fun i => boxCoords i ((gm.dims.zip box).map (fun p => (p.2.1 / p.1.gran, p.2.2))))
      (64 ≤ n ∨ (mask.toNat < 2 ^ n ∧ (q.op = 24 → ym.toNat < 2 ^ n))) →
      (bits = [] ∨ ∀ p ∈ gm.dims.zip box, p.2.1 % p.1.gran = 0 ∧ p.2.1 / p.1.gran + p.2.2 ≤ (p.1.ext + p.1.gran - 1) / p.1.gran) →
      (∀ i (h : i < cs.length), (b.granule (gm.mapIndex cs[i])).on (st i) = .ok (1, st (i + 1))) → su 0 = st cs.length →
      (∀ i (h : i < cs.length), (b.setGranule (gm.mapIndex cs[i]) (if q.op = 24 then 0 else 2)).on (su i) = .ok ((), su (i + 1))) →
      (if q.op = 24 then (eWrites v rec_ [mask &&& ~~~ym, 0]).on (su cs.length) = .ok ((), t1) else (eWrite v rec_ 0).on (su cs.length) = .ok ((), t1)) →
      (if bits = [] then t2 = t1
        else if q.op = 24 then WritesRun t1 b gen pend (cs.foldl (fun m c => min m (gm.tileOf c)) cur) lim ndone t2
        else WritesRun t1 b gen pend cur lim (ndone + bits.length) t2) →
      runs none t2))

/-- R112, R253, R258, R261, R267, R279, R281, R284, R293, R302, R306, R345 and R350, and R255, R260, R263 to R266, R268 to R270, R274, R278, R280, R282 to R287, R337, R341, R342, R344 and R346 for
what the commands read, write and reply: a pool that passes the checks, its pages present, is registered with all
its blocks free, and is given up only with all its blocks free; a command takes its turn, is performed, and gives its reply or its token;
one that fails does so with its code; a block whose packets have retired becomes free; a squash without drafters has its token done. That PERR
names address 0 for a pool that is refused is the model's choice (DEDUCED, log entry 49), and so is the order of the accesses within one command, and
what else log entry 84 names (DEDUCED). -/
def Obligations.SequenceEngineSteps : Prop :=
  BlockOps ∧ AniseWrites ∧ StackOps ∧ CloveWrites ∧ WalkerWrites ∧
  ∀ (s : State) (die k : Nat), die < 2 →
    (∀ n, n < 16 →
      let r : PoolRef := ⟨die, n⟩
      let p := s.poolAt r
      let config (t : State) : State := t.modPool r (fun p => { p with code := 9, eaddr := 0 })
      (p.en = false → poolOk s r = true → ∀ t, presentAll die p.asid p.pages s = (some true, t) →
        exec (.poolRegister die n) s = .next (settleAll (t.modPool r (fun p => { p with en := true, free := p.nblk, quar := 0 })))) ∧
      (p.en = false → poolOk s r = true → ∀ t, presentAll die p.asid p.pages s = (some false, t) →
        exec (.poolRegister die n) s = .next (settleAll (config t))) ∧
      (p.en = false → poolOk s r = false → exec (.poolRegister die n) s = .next (settleAll (config s))) ∧
      (p.en = true → p.free = p.nblk → exec (.poolDeregister die n) s = .next (settleAll (s.modPool r (fun p => { p with en := false })))) ∧
      (p.en = true → p.free ≠ p.nblk → exec (.poolDeregister die n) s = .next (settleAll (config s)))) ∧
    (∀ q, s.anise[k]? = some q → mayTurn s s.anise k (fun o => aniseDie s o == die) (aniseConflict s) = true →
      let u := s.takeUp (.anise die) q
      (q.op ≠ 15 →
        (∀ v w, (aniseRun u q die).on u = .ok (some v, w) →
          exec (.aniseCommandTurn die k) s = .next (settleAll (giveReply (w.dropAnise q) (.anise die) q v))) ∧
        (∀ w, (aniseRun u q die).on u = .ok (none, w) →
          exec (.aniseCommandTurn die k) s = .next (settleAll (retireCmd (w.dropAnise q) (.anise die) q))) ∧
        (∀ code e, (aniseRun u q die).on u = .error e → e.halt = .fail code →
          exec (.aniseCommandTurn die k) s = .next (settleAll (aniseEnd (u.after (.anise die) e) q die code)))) ∧
      (q.op = 15 → ∀ w, (squashRun u q die).on u = .ok ((), w) →
        exec (.squashTurn die k) s = .next (settleAll (squashAll (w.dropAnise q) q)) ∧ exec (.aniseCommandTurn die k) s = exec (.squashTurn die k) s)) ∧
    (∀ z u, (s.die die).quars[k]? = some z → z.fault = false → z.stuck = false → (∀ w ∈ z.waits, w ∉ s.acceptedPackets) →
      (eWrite (poolVia ⟨die, z.pool⟩ (s.poolAt ⟨die, z.pool⟩) true) ((s.poolAt ⟨die, z.pool⟩).metaAt z.addr) 0).on s = .ok ((), u) →
      exec (.quarantineExit die k) s = .next (settleAll ((u.modPool ⟨die, z.pool⟩ (fun p => { p with free := p.free + 1, quar := p.quar - 1 })).modDie die
        (fun d => { d with quars := d.quars.eraseIdx k })))) ∧
    (∀ g q, (s.core g).clove[k]? = some q → cloveMay s g k = true →
      let u := s.takeUp (.clove g) q
      (∀ l w, q.op ≠ 18 → (cloveRun u q g).on u = .ok (l, w) → exec (.cloveCommandStart g k) s = .next (settleAll (retireCmd (w.dropClove g q) (.clove g) q))) ∧
      (∀ l w, q.op = 18 → (cloveRun u q g).on u = .ok (l, w) →
        let ws := maskWords q.b.toNat l
        exec (.cloveCommandStart g k) s = .next (settleAll (w.modCore g (fun y => { y with clove := y.clove.map (fun x =>
          if x.serial = q.serial then { x with out := ws, phase := 1, place := (ws.length, 0) } else x) }))))) ∧
    (∀ g q r c, (s.core g).samp = q :: r → q.left = some 1 → s.whereIs q.tid q.rank = some c →
      ∃ u, exec (.samplerCommandComplete g) s = .next (settleAll u) ∧ (u.core g).samp = r.map (fun q => { q with fresh := true }) ∧
        (u.ctx c).cand = q.effect (s.ctx c).cand ∧
        (∀ v, q.value (s.ctx c).cand = some v → ∀ y ∈ (u.ctx c).rq, y.seq = q.serial → y.arrived = true ∧ y.val = v)) ∧
    (∀ q, s.squashes[k]? = some q → q.waits = [] → cancelsDone s q = true →
      let ag : Agent := .anise (aniseDie s q.cmd)
      let u := retireCmd (({ s with squashes := s.squashes.eraseIdx k } : State).raise ag 0) ag q.cmd
      exec (.squashTokenDone k) s = .next (settleAll u) ∧
        (∀ c, s.whereIs q.cmd.tid q.cmd.rank = some c → (u.ctx c).tokPending q.cmd.tok = false)) ∧
    (∀ q cl, s.walks[k]? = some q → mayTurn s s.walks k (fun o => walkCluster s o == cl) walkConflict = true → walkHome s q = .walker cl →
      let first := clusterOf q.core
      ∀ x t, (eRead (walkVia first q) q.a.toNat).on (s.takeUp (.walker first) q) = .ok (x, t) →
        let u := t.takeUp (.walker cl) q
        (∀ w, (walkRun (u.audited q.tid) (walkVia cl q) q).on u = .ok (none, w) →
          exec (.walkerCommandStart cl k) s = .next (settleAll (retireCmd (w.dropWalk q) (.walker cl) q))) ∧
        (∀ v w, (walkRun (u.audited q.tid) (walkVia cl q) q).on u = .ok (some v, w) →
          exec (.walkerCommandStart cl k) s = .next (settleAll (giveReply (w.dropWalk q) (.walker cl) q v))))

/-! ### Device steps: launches and dispatch -/

/-- R309, R310, R312, R316 and R317: a launch queue is registered with the least free number or ERR is set, and given up by LQDEL; the next claim
of a queue is accepted, and RIDX rises, and a record that a check fails is refused with its code; a record without a dependence word becomes
eligible when its tokens are done and, with AFTER, the claim before it is: ELIGIBLE is posted, in the event ring where its next slot is free and held
otherwise, and it takes its place in the order of priority, queue and claim. The model's choices: that a slot is free while its word 0 is 0 (DEDUCED, log
entry 19), that WIDX and RIDX are read as by an ordinary access with lease 1 (DEDUCED, log entry 43), which free number a queue takes (DESIGN CHOICE, log entry 77), the address space of the descriptor's read
(DEDUCED, log entry 46), the extension of the ring's address (DEDUCED, log entry 54), and the layout of ELIGIBLE's detail (DEDUCED, log entry 48). -/
def Obligations.LaunchSteps : Prop :=
  ∀ (s : State) (die asid k : Nat) (v : W64), die < 2 →
    let d := s.die die
    let ag : Agent := .dispatch die
    (256 ≤ d.lqs.length ∨ v.toNat % 64 ≠ 0 → exec (.lqadd die asid v) s = .next (settleAll (s.modDie die (fun d => { d with lqErr := true })))) ∧
    (∀ pa pte s1 ws s2, d.lqs.length < 256 → v.toNat % 64 = 0 →
      (eTrans ⟨ag, die, asid, false⟩ v.toNat .read).on s = .ok ((pa, pte), s1) → (eReads ⟨ag, die, asid, false⟩ v.toNat 8).on s1 = .ok (ws, s2) →
      let ls := fieldOf (wordAt ws 3) 4 0
      let al := fieldOf (wordAt ws 7) 63 56
      4 ≤ ls → ls ≤ 16 → al = 0 ∨ (12 ≤ al ∧ al ≤ 40) →
      ∃ num, num < 256 ∧ (∀ y ∈ d.lqs, y.num ≠ num) ∧ (∀ n, n < num → ∃ y ∈ d.lqs, y.num = n) ∧
        let q : LaunchQueue := { serial := s2.serial + 1, line := pa / 64, stall := false, failed := false, desc := v.toNat, regAsid := asid,
                                 asid := fieldOf (wordAt ws 2) 63 48, ring := sx48 (fieldOf (wordAt ws 2) 47 0), lsize := ls,
                                 wlim := fieldOf (wordAt ws 5) 63 32, pcap := fieldOf (wordAt ws 5) 31 28, k := (wordAt ws 5).getLsbD 27,
                                 dws := (wordAt ws 5).getLsbD 26, tvb := wordAt ws 6 &&& 0xFFF0000000FFF800, alog := al,
                                 abase := fieldOf (wordAt ws 7) 47 0, num := num, armed := none }
        let h : QHead := { launch := true, die := die, eng := 0, desc := v.toNat, ring := q.ring, lsize := ls, asid := q.asid }
        let u := ({ s2 with serial := s2.serial + 1 } : State).modDie die (fun d => { d with lqs := d.lqs ++ [q], lqLast := num })
        exec (.lqadd die asid v) s = .next (settleAll { u with qheads := SMap.put (SMap.del s2.qheads (pa / 64)) (pa / 64) h })) ∧
    (∀ q, d.lqs.find? (fun q => q.desc == v.toNat && q.regAsid == asid) = some q →
      let u := s.modDie die (fun d => { d with lqs := d.lqs.filter (fun x => x.num != q.num) })
      exec (.lqdel die asid v) s = .next (settleAll { u with qheads := SMap.del s.qheads q.line, claims := s.claims.filter (fun x => x.line != q.line) })) ∧
    (∀ q pa pte s0 v b kl s1 ws s2, d.lqs[k]? = some q → q.stall = false → q.failed = false →
      let c := (s.word (64 * q.line + 8)).toNat
      let va := q.ring + 128 * (c % 2 ^ q.lsize)
      (s.word (64 * q.line)).toNat ≠ c → d.openRecs q.serial < 64 → s.reach die (64 * q.line) = true →
      (eTrans ⟨ag, die, q.asid, false⟩ va .read).on (s.loadHome ag (64 * q.line) 1) = .ok ((pa, pte), s0) →
      (cReadIn ⟨ag, die, q.asid, false⟩ va 8).on s0 = .ok ((v, b, kl), s1) → fieldOf (BitVec.ofNat 64 v) 63 40 = c % 2 ^ 24 →
      s1.slotPending pa va q.asid = false → (eReads ⟨ag, die, q.asid, false⟩ va 16).on s1 = .ok (ws, s2) →
      let s3 : State := { s2 with serial := s2.serial + 1 }
      let r := newRec s3 die q c ws
      let s4 := (({ s3 with claims := s3.claims.filter (fun x => !(x.line == q.line && x.seq == c)) } : State).storePhys ag (64 * q.line + 8) 8
        ((c + 1) % 2 ^ 64)).modLq die q.num (fun x => { x with failed := false })
      let u := s4.modDie die (fun d => { d with recs := d.recs ++ [r] })
      (recReject s2 ws (peers s die) = none → exec (.launchAccept die k) s = .next (settleAll u)) ∧
      (∀ code, recReject s2 ws (peers s die) = some code → exec (.launchAccept die k) s = .next (settleAll (refuseRec u r code 0xFFF)))) ∧
    (∀ r, d.recs[k]? = some r → r.die = die → r.state = .waiting → r.watch = none → r.wait = false → fieldOf (wordAt r.words 3) 47 0 = 0 →
      let u := s.raise ag (s.depTs r.tid r.rank r.deps)
      (s.depsDone r.tid r.rank r.deps = true → recAfter r.words = false ∨ prevDone s r = true →
        exec (.eligible die k) s = .next (settleAll (makeEligible u r)) ∧
        (evRoom s die = true → d.events = [] →
          let t := makeEligible u r
          t.word d.evAt = BitVec.ofNat 64 (2 ^ 56 + (r.lq.num * 2 ^ 24 + r.seq % 2 ^ 24) % 2 ^ 44) ∧ t.word (d.evAt + 8) = 0 ∧
            (∀ a, a < d.evAt ∨ d.evAt + 16 ≤ a → t.byte a = s.byte a) ∧ (t.die die).events = [] ∧ (t.die die).evIndex = d.evIndex + 1 ∧
            (t.die die).recs.map (fun x => (x.serial, x.state)) =
              (placeAmong { r with state := .eligible } (d.recs.filter (fun x => x.serial != r.serial))).map (fun x => (x.serial, x.state))) ∧
        (evRoom s die = false → makeEligible u r = (u.modDie die (fun d =>
            { d with recs := placeAmong { r with state := .eligible } (d.recs.filter (fun x => x.serial != r.serial)) })).modDie die (fun d =>
            { d with events := d.events ++ [⟨BitVec.ofNat 64 (2 ^ 56 + (r.lq.num * 2 ^ 24 + r.seq % 2 ^ 24) % 2 ^ 44), 0⟩] }))) ∧
      (s.depsDone r.tid r.rank r.deps = false ∨ (recAfter r.words = true ∧ prevDone s r = false) → exec (.eligible die k) s = .next (settleAll s))) ∧
    (∀ (r : Launch) (l : List Launch), r.state = .eligible → (l.filter (fun x => x.state == .eligible)).Pairwise (fun a b => b.before a = false) →
      ((placeAmong r l).filter (fun x => x.state == .eligible)).Pairwise (fun a b => b.before a = false))

/-- R318, R320, R322 to R326, R329 to R332: the head command of a die is performed, and DSTAT names its outcome. BIND answers the code of its
first failing check, or binds; ARM arms a queue for a free task entry, onto which the queue binds its record that was accepted first; PREEMPT
begins a save, RESTORE ends one, KILL begins a kill, each of a task in the state for it, else with its code; YIELD asks the ACTIVE context
of a core; CANCEL refuses a record that is not bound. A save leaves the registers of every context of its task in that context's frame and its slot
UNBOUND; a task that meets R29 gives its entry back. The model's own readings (DEDUCED, log entry 29): a KILL of a task that is armed, free or
being killed, an ARM of a queue that is armed, and a CANCEL that names no such record answer 1 and change nothing, and a PREEMPT counts a save that
began in the core's cycle just ended as begun in its own. -/
def Obligations.DispatchCommands : Prop :=
  ∀ (s : State) (die tid : Nat),
    (∀ q l, (s.die die).dcmd = q :: l → (s.die die).events = [] →
      let k := s.task q.tid
      let ends (u : State) (code : Nat) := Host.Outcome.next (φ := Fault) (ρ := Refusal) (settleAll (endCmd u die q code))
      (q.op = 1 →
        (namedRec s die q.arg = none → exec (.bind die) s = ends s 1) ∧
        (∀ r, namedRec s die q.arg = some r → bindCode s q.tid r false ≠ 0 → exec (.bind die) s = ends s (bindCode s q.tid r false)) ∧
        (∀ r u, namedRec s die q.arg = some r → bindCode s q.tid r false = 0 → bindGo s q.tid r = some u →
          (∀ x ∈ (u.die die).recs, x.serial = r.serial → x.wait = false) → exec (.bind die) s = ends u 0)) ∧
      (q.op = 2 → ∀ y, (s.die die).lq (q.arg / 2 ^ 40 % 256) = some y →
        (y.armed = none → k.state = 0 → exec (.arm die) s = ends ((s.modLq die (q.arg / 2 ^ 40 % 256)
          (fun x => { x with armed := some q.tid })).modTask q.tid (fun t => { t with state := 1 })) 0) ∧
        (y.armed ≠ none ∨ k.state ≠ 0 → exec (.arm die) s = ends s 1)) ∧
      (q.op = 3 →
        (k.state = 2 → exec (.preempt die) s = ends (s.beginSave q.tid 1 none) 0 ∧ ((s.beginSave q.tid 1 none).task q.tid).state = 3 ∧
          ((s.beginSave q.tid 1 none).task q.tid).saving = some 1) ∧
        (k.state = 3 → s.taskCycle q.tid ≤ k.saveAt + 1 → exec (.preempt die) s = ends (s.modTask q.tid (fun t =>
          { t with saving := some (min 1 (t.saving.getD 1)) })) 0) ∧
        (k.state ≠ 2 → k.state ≠ 3 ∨ k.saveAt + 1 < s.taskCycle q.tid → exec (.preempt die) s = ends s 1)) ∧
      (q.op = 4 →
        (restoreCode s q.tid ≠ 0 → exec (.restore die) s = ends s (restoreCode s q.tid)) ∧
        (restoreCode s q.tid = 0 → (∀ f ∈ s.frames, f.2.tid = q.tid → s.reach die (frameAt s q.tid (f.1 % 2048)) = true) →
          framesClean s q.tid = true →
          (framesWhole s q.tid = true → exec (.restore die) s = ends (restoreGo s q.tid) 0 ∧ ((restoreGo s q.tid).task q.tid).state = 2 ∧
            ((restoreGo s q.tid).task q.tid).errors = 0) ∧
          (framesWhole s q.tid = false → exec (.restore die) s = ends (s.beginKill q.tid 13) 0))) ∧
      (q.op = 5 →
        (k.state = 2 ∨ k.state = 3 ∨ k.state = 4 → exec (.kill die) s = ends (s.beginKill q.tid 11) 0 ∧
          ((s.beginKill q.tid 11).task q.tid).state = 5 ∧ (k.kill = none → ((s.beginKill q.tid 11).task q.tid).kill = some 11)) ∧
        (k.state ≠ 2 → k.state ≠ 3 → k.state ≠ 4 → exec (.kill die) s = ends s 1)) ∧
      (q.op = 6 → q.arg % 512 < 320 → (s.core (q.arg % 512)).active ≠ none →
        exec (.yield die) s = ends (s.modCore (q.arg % 512) (fun x => { x with yields := true })) 0) ∧
      (q.op = 7 →
        let names (r : Launch) : Bool :=
          r.lq.num == q.arg / 2 ^ 40 % 256 && r.seq % 2 ^ 24 == q.arg % 2 ^ 24 && (r.state == .waiting || r.state == .eligible)
        ((s.die die).recs.find? names = none → exec (.cancel die) s = ends s 1) ∧
        (∀ r, (s.die die).recs.find? names = some r → exec (.cancel die) s = ends (refuseRec s r 7 0xFFF) 0)) ∧
      (∀ code, (endCmd s die q code).die die =
        { (s.die die) with dcmd := l, dstat := BitVec.ofNat 64 (q.op * 2 ^ 60 + q.tid % 4096 * 2 ^ 48 + code * 2 ^ 40) })) ∧
    (∀ k q n r u, (s.die die).lqs[k]? = some q → q.armed = some n →
      firstOf ((s.die die).recs.filter (fun r => r.lq.serial == q.serial && r.audit.isNone && r.state == .eligible)) = some r →
      bindCode s n r true = 0 → bindGo s n r = some u → (u.task n).state = 2 →
      exec (.armedBind die k) s = .next (settleAll (u.modLq die q.num (fun x => { x with armed := none })))) ∧
    ((s.task tid).state = 3 →
      (saveReady s tid = false → exec (.save tid) s = .next (settleAll s)) ∧
      (saveReady s tid = true → ∃ u, exec (.save tid) s = .next (settleAll u) ∧ (u.task tid).state = 4 ∧ (u.task tid).saving = none ∧
        ((∀ p ∈ taskCtxs s tid, s.ctx p.1 = p.2 ∧ p.2.stores = []) → ((taskCtxs s tid).map (fun p => p.2.rank)).Nodup →
          ∀ p ∈ taskCtxs s tid, u.ctx p.1 = Context.init ∧ SameRegisters p.2 (u.frame tid p.2.rank).ctx ∧
            (u.frame tid p.2.rank).ctx.handle = p.2.handle ∧ (u.frame tid p.2.rank).ctx.pc = p.2.pc))) ∧
    (mayComplete s tid = true → (s.task tid).state = 2 → (s.task tid).kill = none → (s.task tid).replay = none → (s.task tid).aud = false →
      recCaddr (s.task tid).words = 0 →
      ∃ u, exec (.taskCompletion tid) s = .next (settleAll u) ∧
        u.task tid = { Task.init with frb := (s.task tid).frb, fstr := (s.task tid).fstr, segb := (s.task tid).segb })

/-! ### Device steps: translation and faults -/

/-- R357 to R361 and R363 to R367: a walk ends in a leaf that allows the access, in which A, and D for a write, are set, and nothing else of
memory changes; one that ends absent or refused leaves memory as it was; an invalidation queues, and when it completes no agent holds a translation it
names, and SEQ rises; the oldest held fault is written as a record at FTAIL, while there is room and the ring is within reach, with an identifier
that no outstanding fault has; FRESUME of an identifier that is not outstanding sets BADR, and of a core's fault gives it up, counts its task's
answers, and with ERROR makes the context take ACCESS. Which of the free identifiers a record takes is the model's choice (DESIGN CHOICE, log entry 24). -/
def Obligations.TranslationAndFaults : Prop :=
  ∀ (s : State) (die : Nat), die < 2 →
    let d := s.die die
    (∀ a asid va acc kl pa p' u, walkTr s die a asid va acc kl = .ok pa p' u →
      ∃ p level at_, walkFrom s (va % 2 ^ 48) 4 ((s.word (d.asidtb.toNat % 2 ^ 48 + 16 * (asid % 65536))).toNat % 2 ^ 44) = .leaf p level at_ ∧
        permOk p acc kl = true ∧ p' = adBits p acc ∧ pa = leafPa p level (va % 2 ^ 48) ∧ pa < memBytes ∧ u.word at_ = p' ∧
        (∀ b, b < at_ ∨ at_ + 8 ≤ b → u.byte b = s.byte b)) ∧
    (∀ a asid va acc kl u, (∃ l, walkTr s die a asid va acc kl = .absent l u) ∨ walkTr s die a asid va acc kl = .refused u →
      u.tlbs = s.tlbs ∧ ∀ b, u.byte b = s.byte b) ∧
    (∀ asid (va : W64) wr kl u,
      let r := translate s die (.dispatch die) asid va.toNat (if wr then .write else .read) kl
      (∃ pa p, r = .ok pa p u) ∨ (∃ l, r = .absent l u) ∨ r = .refused u → exec (.pageWalk die asid va wr kl) s = .next (settleAll u)) ∧
    (∀ v, d.tlbi.length < 16 → exec (.tlbi die v) s = .next (settleAll (s.modDie die (fun d => { d with tlbi := d.tlbi ++ [(v, false)] })))) ∧
    (∀ v b r, d.tlbi = (v, b) :: r → s.tlbiReady = true → ∃ u, exec (.tlbiComplete die) s = .next (settleAll u) ∧ (u.die die).tlbi = r ∧
      (u.die die).tlbSeq = (d.tlbSeq + 1) % 2 ^ 32 ∧ (∀ e ∈ u.tlbs, tlbiHits v e = false)) ∧
    (∀ k f fid, d.faults.findIdx? (fun f => f.fid.isNone) = some k → d.faults[k]? = some f → d.freeFid = some fid → d.frRoom = true →
      let a := fieldOf d.fring 47 0 + 32 * (d.ftail % 2 ^ d.frLog)
      a + 32 ≤ memBytes → s.reach die a = true →
      fid < 4095 ∧ (∀ y ∈ d.faults, y.fid ≠ some fid) ∧
      ∃ u, exec (.faultRecordWrite die) s = .next (settleAll u) ∧ (u.die die).ftail = (d.ftail + 1) % 2 ^ 16 ∧
        (u.die die).faults = d.faults.set k { f with fid := some fid } ∧ (∀ i, i < 4 → u.word (a + 8 * i) = wordAt (f.words fid) i)) ∧
    (∀ fid, d.faults.find? (fun f => f.fid == some fid) = none →
      exec (.fresumeFilled die fid) s = .next (settleAll (s.modDie die (fun d => { d with badr := true }))) ∧
      exec (.fresumeError die fid) s = .next (settleAll (s.modDie die (fun d => { d with badr := true })))) ∧
    (∀ fid f, d.faults.find? (fun f => f.fid == some fid) = some f → f.agent = 1 → f.tid < 4096 → (s.task f.tid).rec_ = f.unit → 2 ≤ (s.task f.tid).state →
      (s.task f.tid).state ≤ 4 → (s.whereIs f.tid f.rank).isSome = true ∨ (∃ p ∈ s.frames, p.1 = frameKey f.tid f.rank) →
      ∃ t u, exec (.fresumeFilled die fid) s = .next (settleAll t) ∧ exec (.fresumeError die fid) s = .next (settleAll u) ∧
        (∀ y ∈ (t.die die).faults, y.fid ≠ some fid) ∧ (∀ y ∈ (u.die die).faults, y.fid ≠ some fid) ∧
        (t.task f.tid).faults = (s.task f.tid).faults - 1 ∧ (u.task f.tid).faults = (s.task f.tid).faults - 1 ∧
        (t.task f.tid).errors = (s.task f.tid).errors ∧ (u.task f.tid).errors = (s.task f.tid).errors + 1 ∧
        (t.who f.tid f.rank).refused = (s.who f.tid f.rank).refused ∧ (u.who f.tid f.rank).refused = some (sx48 f.va))

/-! ### Device steps: reliability, links and ports -/

/-- R374 to R379, R389 to R392 and R397: a corrected error is counted up to 2^32 - 1; a poisoned word of memory is marked and counted, and no
other byte changes, and ELAST has a virtual address of it; a poisoned word of a scratchpad, a tile, a latch, the accumulator or the trellis table, and
a queue entry, is marked and counted too, and ELAST has its store, core and place; a parity error kills the task with POISON; a lost lane makes its link train again, or
takes it down with nothing left; a trained link comes up with the halves it has, and a port may fail to train; with all die-to-die links down
ELAST is all ones; a port that is enabled begins training, and one that is disabled goes down. The model's choices: that ECNTU wraps at 2^32, and which
virtual address ELAST has of several, a held translation's first (DESIGN CHOICE, log entry 33); that lanes 0 to 3 and 4 to 7 are the halves, that the
ELAST of both dies is all ones, that a GFT port is enabled by either die, and that a port's failure to train is a free value (DESIGN CHOICE, log entry
34). -/
def Obligations.ReliabilityAndLinks : Prop :=
  ∀ (s : State) (die n : Nat), die < 2 →
    let l := s.link n
    let port (b : Nat) := (s.modLink n (fun l => { l with state := b }))
    exec (.errorCorrected die) s = .next (settleAll (s.modDie die (fun d => { d with ecntc := min (d.ecntc + 1) (2 ^ 32 - 1) }))) ∧
    (∀ unit w, s.badAt (8 * w) 8 = false →
      let marked (u : State) (va : Nat) : Prop := exec (.poisoning die 0 unit w) s = .next (settleAll u) ∧ u.badAt (8 * w) 8 = true ∧
        (u.die die).ecntu = ((s.die die).ecntu + 1) % 2 ^ 32 ∧ (∀ a, a < 8 * w ∨ 8 * w + 8 ≤ a → u.byte a = s.byte a) ∧
        (u.die die).elast = vaWord va
      (s.l1fOf (8 * w) = none → 8 * w < memBytes → homeDie (8 * w) = die → ∃ u page, marked u (s.vaOf (8 * w) page) ∧
        (∀ t, s.tlbs.find? (fun t => t.page == 8 * w / 4096) = some t → s.vaOf (8 * w) page = sx48 (t.vpn % 2 ^ 36 * 4096 + 8 * w % 4096))) ∧
      (∀ g off, s.l1fOf (8 * w) = some (g, off) → g.cluster / 20 = die → ∃ u, marked u (g.base + off))) ∧
    (∀ unit w, unit < 320 → dieOf unit = die → w < 393216 → (s.core unit).bad 1 w = false →
      ∃ u, exec (.poisoning die 1 unit w) s = .next (settleAll u) ∧ (u.core unit).bad 1 w = true ∧
        (u.die die).ecntu = ((s.die die).ecntu + 1) % 2 ^ 32 ∧ (u.die die).elast = localAddr 1 unit (8 * w) ∧ s.SameMemory u) ∧
    (∀ unit w, unit < 320 → dieOf unit = die →
      let h := s.core unit
      let noted (u : State) (space w loc : Nat) : Prop := exec (.poisoning die space unit w) s = .next (settleAll u) ∧ s.SameMemory u ∧
        (u.die die).ecntu = ((s.die die).ecntu + 1) % 2 ^ 32 ∧
        (u.die die).elast = BitVec.ofNat 64 (2 ^ 63 + space * 2 ^ 60 + unit * 2 ^ 32 + loc % 2 ^ 22)
      (w < 32768 → h.bad 2 w = false → ∃ u, noted u 2 w (8 * w) ∧ (u.core unit).bad 2 w = true) ∧
      (w < 8192 → (∀ e ∈ (latchWord h (w / 2048) (w % 2048)).2, h.bad 3 (latPlace (w / 2048) (latchWord h (w / 2048) (w % 2048)).1 e) = false) →
        ∃ u, noted u 3 w (8 * w) ∧
          ∀ e ∈ (latchWord h (w / 2048) (w % 2048)).2, (u.core unit).bad 3 (latPlace (w / 2048) (latchWord h (w / 2048) (w % 2048)).1 e) = true) ∧
      (w < 65536 → h.bad 4 (2 * w) = false → h.bad 4 (2 * w + 1) = false →
        ∃ u, noted u 4 w (8 * w) ∧ (u.core unit).bad 4 (2 * w) = true ∧ (u.core unit).bad 4 (2 * w + 1) = true) ∧
      (∀ e, (h.queue (w / 16)).entries[w % 16]? = some e → e.poison = false → ∃ u v, noted u 5 w w ∧
        (u.core unit).queue (w / 16) = { h.queue (w / 16) with entries := (h.queue (w / 16)).entries.set (w % 16) { e with poison := true, val := v } }) ∧
      (w < 1024 → (∀ j, j < 4 → h.bad 6 (4 * w + j) = false) → ∃ u, noted u 6 w (8 * w) ∧ ∀ j, j < 4 → (u.core unit).bad 6 (4 * w + j) = true)) ∧
    (∀ tid, (s.task tid).state = 2 ∨ (s.task tid).state = 3 ∨ (s.task tid).state = 4 →
      exec (.parityErrorKill tid) s = .next (settleAll (s.beginKill tid 8)) ∧ ((s.beginKill tid 8).task tid).state = 5 ∧
        ((s.task tid).kill = none → ((s.beginKill tid 8).task tid).kill = some 8)) ∧
    (∀ lane, n < 60 → lane < 8 → l.state ≠ 0 → lane / 4 ∉ l.lost →
      let u := s.modLink n (fun _ => { l with lost := lane / 4 :: l.lost, state := if l.lost = [] then 3 else 0 })
      exec (.laneFail n lane) s = .next (settleAll (if n < 48 ∧ l.lost ≠ [] then noteAllDown u else u))) ∧
    (n < 48 → l.state = 3 → s.linkOn n = true → exec (.linkTrained n) s = .next (settleAll (noteAllDown (port (2 - l.lost.length))))) ∧
    (n < 64 → 48 ≤ n → l.state = 3 → s.linkOn n = true →
      ((s.drawFree 65).1 % 2 = 1 → exec (.linkTrained n) s = .next (settleAll { port 0 with free := s.free + 1 })) ∧
      (n < 60 → (s.drawFree 65).1 % 2 = 0 → exec (.linkTrained n) s = .next (settleAll { port (2 - l.lost.length) with free := s.free + 1 })) ∧
      (60 ≤ n → (s.drawFree 65).1 % 2 = 0 → ∃ u, exec (.linkTrained n) s = .next (settleAll u) ∧ (u.link n).state = 2 ∧
        (n < 62 → (u.die (n - 60)).hspeed ∈ [4, 5, 6] ∧ (u.die (n - 60)).hwidth ∈ [2, 3, 4]) ∧ (62 ≤ n → (u.die (n - 62)).sspeed ∈ [3, 4, 5]))) ∧
    ((∀ m, m < 48 → (s.link m).state = 0) → ((noteAllDown s).die die).elast = BitVec.allOnes 64) ∧
    (n < 64 → l.state = 1 ∨ l.state = 2 →
      exec (.flitReplay n) s = .next (settleAll (s.modLink n (fun l => { l with replay := min (l.replay + 1) (2 ^ 32 - 1) })))) ∧
    (n < 12 → exec (.routeAdvertisement n) s = .next (settleAll (s.modLink (48 + n) (fun l => { l with
      advert := match l.state with | 2 => 1 | 1 => 2 | _ => 0xFFFF })))) ∧
    (n < 64 → l.state = 0 → s.linkOn n = true → exec (.trainingRetry n) s = .next (settleAll (port 3))) ∧
    ((s.die die).perst = false → exec (.perstDeassert die) s =
      .next (settleAll ((s.modDie die (fun d => { d with perst := true })).modLink (60 + die) (fun l => { l with state := 3 })))) ∧
    ((s.die die).storcfg.getLsbD 0 = false →
      ∃ u, exec (.storagePortEnable die true) s = .next (settleAll u) ∧ (u.die die).storcfg.getLsbD 0 = true ∧ (u.link (62 + die)).state = 3) ∧
    ((s.die die).storcfg.getLsbD 0 = true →
      ∃ u, exec (.storagePortEnable die false) s = .next (settleAll u) ∧ (u.die die).storcfg.getLsbD 0 = false ∧ (u.link (62 + die)).state = 0) ∧
    (n < 12 → s.pstate ≠ 3 → s.linkOn (48 + n) = false → s.gftAllowed.testBit n = true →
      ∃ u, exec (.gftPortEnable die n true) s = .next (settleAll u) ∧ (u.die die).gften.testBit n = true ∧ (u.link (48 + n)).state = 3) ∧
    (n < 12 → s.linkOn (48 + n) = true → (s.die (1 - die)).gften.testBit n = false →
      ∃ u, exec (.gftPortEnable die n false) s = .next (settleAll u) ∧ (u.die die).gften.testBit n = false ∧ (u.link (48 + n)).state = 0)

/-- R98, R366, R394, R396, R399 to R405, R407, R408 and R410. A host access through BAR2 is performed physically while XLAT is 0 and under HASID while it is
1; a peer's and a drive's are translated under NASID and STASID; an AtomicOp is one point. An access that comes before the die serves its BARs is
dropped in its first boot, and held on the way from PA3. A drive's interrupt is noted; a port's latency tolerance is kept. An idle package enters the
deepest state that Λ allows, losing in PA3 all but the host-interface and power windows and BOOTSTAT, and leaves it at a wake event. Boot goes on
stage by stage, stopping with the code of the stage that fails, or with its partner; a block is accepted by key, signature and version; the accesses that
were held are performed at stage 4. A report is requested for the nonce that ATTN holds, and delivered in ATTBUF with its signature. A register takes a
write from an agent that is listed for its window, and from no other. The model's choices: where the second die's BMEM begins (DEDUCED, log entry 3), the
extension of an address (DEDUCED, log entry 54), that a package that boots is not idle and that storage and the kernel's writes wait for the exit of a power
state (DEDUCED, log entry 53), the management core's own memory (DESIGN CHOICE, log entry 35), that unwritten memory reads 0 (DESIGN CHOICE, log entry 2), and
the blocks' layout, hash and signature (PRESUMED, log entry 36). -/
def Obligations.PortsPowerAndBoot : Prop :=
  ∀ (s : State) (die : Nat), die < 2 →
    let d := s.die die
    let live : Prop := d.hspeed ≠ 0 ∧ 4 ≤ d.bootStage ∧ d.asleep = false ∧ s.pstate = 0
    let faa (v : W64) (old : Nat) : Nat := (old + v.toNat) % 2 ^ 64
    let cas (v cmp : W64) (old : Nat) : Nat := if old = cmp.toNat then v.toNat else old
    let point (u : State) (a : Agent) (pa : Nat) (f : Nat → Nat) : Host.Outcome State Fault Refusal := .next (settleAll (u.rmwPhys a pa 8 f).2.2)
    (∀ off (v cmp : W64), off + 8 ≤ 2 ^ 36 → off % 8 = 0 →
      let held (i : HostAccess) : State := s.modDie die (fun d => { d with held := d.held ++ [i] })
      (live → d.hcfg.getLsbD 0 = false →
        let pa := die * (192 * 2 ^ 30) + off
        exec (.bar2Access die off .write 8 v cmp) s = .next (settleAll (s.storePhys (.host die) pa 8 v.toNat)) ∧
        exec (.bar2Access die off .read 8 v cmp) s = .next (settleAll (s.loadHome (.host die) pa 1)) ∧
        (s.badAt pa 8 = false → exec (.bar2Access die off .cas 8 v cmp) s = point s (.host die) pa (cas v cmp) ∧
          exec (.bar2Access die off .fetchAdd 8 v cmp) s = point s (.host die) pa (faa v)) ∧
        exec (.bar2Access die off .swap 8 v cmp) s = point s (.host die) pa (fun _ => v.toNat)) ∧
      (live → d.hcfg.getLsbD 0 = true →
        let va := sx48 (fieldOf d.hcfg 47 36 * 2 ^ 36 + off)
        let asid := fieldOf d.hcfg 63 48
        (∀ pa p u, translate s die (.host die) asid va .write false = .ok pa p u → s.reach die pa = true →
          exec (.bar2Access die off .write 8 v cmp) s = .next (settleAll (u.storePhys (.host die) pa 8 v.toNat))) ∧
        (∀ pa p u, translate s die (.host die) asid va .read false = .ok pa p u → s.reach die pa = true →
          exec (.bar2Access die off .read 8 v cmp) s = .next (settleAll (u.loadHome (.host die) pa 1))) ∧
        (∀ l u, translate s die (.host die) asid va .write false = .absent l u →
          exec (.bar2Access die off .write 8 v cmp) s = .next (settleAll (notice u die 7 asid va .write l)))) ∧
      (d.hspeed ≠ 0 → s.pstate = 0 → d.asleep = true →
        exec (.bar2Access die off .write 8 v cmp) s = .next (settleAll (held (.bar2 off .write 8 v cmp))) ∧
        exec (.registerWrite die .host off v) s = .next (settleAll (held (.reg off v)))) ∧
      (d.hspeed ≠ 0 → s.pstate = 0 → d.asleep = false → d.bootStage < 4 →
        exec (.bar2Access die off .write 8 v cmp) s = .next (settleAll s) ∧ exec (.registerWrite die .host off v) s = .next (settleAll s))) ∧
    (∀ (va v cmp : W64) pa p u, gftUp s = true → s.pstate = 0 → sx48 va.toNat % 8 = 0 → s.reach die pa = true →
      let tr (acc : Acc) : Prop := translate s die (.net die) (fieldOf d.netcfg 63 48) (sx48 va.toNat) acc false = .ok pa p u
      (tr .write → exec (.peerRequest die va .write 8 v cmp) s = .next (settleAll (u.storePhys (.net die) pa 8 v.toNat))) ∧
      (tr .read → exec (.peerRequest die va .read 8 v cmp) s = .next (settleAll (u.loadHome (.net die) pa 1))) ∧
      (tr .rmw → exec (.peerRequest die va .swap 8 v cmp) s = point u (.net die) pa (fun _ => v.toNat)) ∧
      (tr .rmw → u.badAt pa 8 = false → exec (.peerRequest die va .cas 8 v cmp) s = point u (.net die) pa (cas v cmp) ∧
        exec (.peerRequest die va .fetchAdd 8 v cmp) s = point u (.net die) pa (faa v))) ∧
    (∀ (va v : W64) pa p u, (s.link (62 + die)).state = 2 → s.pstate = 0 → va.toNat % 8 = 0 → s.reach die pa = true →
      let tr (acc : Acc) : Prop := translate s die (.stor die) (fieldOf d.storcfg 63 48) va.toNat acc false = .ok pa p u
      (tr .write → exec (.storageDma die va .write 8 v) s = .next (settleAll (u.storePhys (.stor die) pa 8 v.toNat))) ∧
      (tr .read → exec (.storageDma die va .read 8 v) s = .next (settleAll (u.loadHome (.stor die) pa 1)))) ∧
    ((s.link (62 + die)).state = 2 → s.pstate = 0 →
      exec (.driveMsix die) s = .next (settleAll (s.modDie die (fun d => { d with storIrq := true })))) ∧
    (∀ ns, d.hspeed ≠ 0 → s.pstate = 0 → exec (.ltrMessage die ns) s =
      .next (settleAll (s.modDie die (fun d => { d with ltr := if 0xFFFFFFFF ≤ ns then none else some ns })))) ∧
    -- power states
    (∀ k, s.pstate < k → k < 3 → powerTarget s = k → exec .powerStateEntry s = .next (settleAll { s with pstate := k })) ∧
    (s.pstate < 3 → powerTarget s = 3 → ∃ t, exec .powerStateEntry s = .next (settleAll t) ∧ t.pstate = 3 ∧ (∀ a, a < memBytes → t.byte a = 0) ∧
      (∀ c, t.ctx c = Context.init) ∧ t.tasks = [] ∧ t.seals = [] ∧ t.qheads = [] ∧ (∀ n, 48 ≤ n → n < 60 → (t.link n).state = 0) ∧
      (t.die die).hcfg = d.hcfg ∧ (t.die die).hmsix = d.hmsix ∧ (t.die die).bootCode = d.bootCode ∧ (t.die die).bootStage = d.bootStage ∧
      (t.die die).netcfg = 1 ∧ (t.die die).engines = [] ∧ (t.die die).lqs = [] ∧ (t.hostP3 = s.hostP3 ∧ t.hold = s.hold ∧ t.kernP3 = s.kernP3) ∧
      (d.bootStop = false → (t.die die).bootNext = 3 ∧ (t.die die).asleep = true)) ∧
    (∀ ev, s.pstate = 1 ∨ s.pstate = 2 → ev ≤ 5 → ev ≠ 4 → exec (.powerWake ev) s = .next (settleAll { s with pstate := 0 })) ∧
    (∀ ev, s.pstate = 3 → ev ≤ 5 → ev ≠ 4 → ∃ t, exec (.powerWake ev) s = .next (settleAll t) ∧ t.pstate = 0 ∧
      (∀ n, n < 48 → (t.link n).state = 2 - (s.link n).lost.length) ∧
      ((∃ n, n < 48 ∧ (s.link n).lost.length < 2) → t.die die = d) ∧
      ((∀ n, n < 48 → 2 ≤ (s.link n).lost.length) → t.die die = { d with bootCode := 4, bootStop := true })) ∧
    -- boot
    (∀ (b : Signed) t floor keys, blockCode b t floor keys = none ↔
      (Signed.khash b ∈ keys ∧ sha256 (Signed.modulus b) = Signed.khash b) ∧
      (Signed.kind b = t ∧ Signed.len b % 8 = 0 ∧ 448 + Signed.len b + 384 ≤ b.length ∧
        rsaVerify (beNat (Signed.modulus b)) (beNat ((b.drop (448 + Signed.len b)).take 384)) (sha256 (b.take (448 + Signed.len b))) = true) ∧
      floor ≤ Signed.version b) ∧
    (∀ (u : State) t b, takeBlock u die t b = match blockCode b t (SMap.get 0 u.floors t) (keysFor (u.die die) t) with
      | some c => .error c | none => .ok (acceptBlock u die t b)) ∧
    (d.bootStop = false → s.pstate = 0 → (s.die (1 - die)).bootStop = false → d.held = [] → d.asleep = false →
      let fails (u : State) (code : Nat) : Prop := exec (.boot die) s = .next (settleAll (u.modDie die (fun d => { d with bootCode := code, bootStop := true, held := [] })))
      let goes (u : State) (n : Nat) : Prop := exec (.boot die) s = .next (settleAll (u.modDie die (fun d => { d with bootStage := n, bootNext := n + 1, held := [] })))
      (d.bootNext = 1 →
        (∀ c, takeBlock s die 4 (s.flashBlock 4) = .error c → fails s c) ∧
        (∀ c u, takeBlock s die 4 (s.flashBlock 4) = .ok u → takeBlock u die 1 (u.flashBlock 1) = .error c → fails u c) ∧
        (∀ u w, takeBlock s die 4 (s.flashBlock 4) = .ok u → takeBlock u die 1 (u.flashBlock 1) = .ok w →
          (linksUp (trainLinks w) = true → goes (trainLinks w) 1) ∧ (linksUp (trainLinks w) = false → fails (trainLinks w) 4))) ∧
      (d.bootNext = 2 →
        (∀ c, takeBlock s die 2 (s.flashBlock 2) = .error c → fails s (max 2 c)) ∧
        (∀ u, takeBlock s die 2 (s.flashBlock 2) = .ok u → goes ((u.putBytes (ownBase die) (Signed.payload (s.flashBlock 2))).setHart (9 * die + 8)
          { Hart.init with runs := true, pc := BitVec.ofNat 64 (ownBase die) }) 2)) ∧
      (d.bootNext = 3 →
        ((s.drawFree 66).1 % 2 = 1 → fails { s with free := s.free + 1 } 5) ∧
        ((s.drawFree 66).1 % 2 = 0 → ∃ u, exec (.boot die) s = .next (settleAll u) ∧ (u.die die).bootStage = 3 ∧ (u.die die).bootNext = 4 ∧
          (∀ a, u.byte a = if die * (192 * 2 ^ 30) ≤ a ∧ a < (die + 1) * (192 * 2 ^ 30) then 0 else s.byte a))) ∧
      (d.bootNext = 5 →
        let kernel (u : State) : Prop :=
          (∀ c, takeBlock u die 3 (kernelBlock u die) = .error c → fails u (max 2 c)) ∧
          (∀ w, takeBlock u die 3 (kernelBlock u die) = .ok w → goes (startHarts w die) 5 ∧
            ∀ n, n < 8 → ((startHarts w die).hart (9 * die + n)).runs = true ∧
              ((startHarts w die).hart (9 * die + n)).pc = BitVec.ofNat 64 (kernelBase die + 448))
        (s.ksrc = true → d.kload = false → exec (.boot die) s = .next (settleAll (s.modDie die (fun d => { d with held := [] })))) ∧
        (s.ksrc = true → d.kload = true → kernel s) ∧
        (s.ksrc = false → s.flashBlock 3 = [] → fails s 6) ∧
        (s.ksrc = false → s.flashBlock 3 ≠ [] → kernel (s.putBytes (kernelBase die) (Signed.whole (s.flashBlock 3)))))) ∧
    (d.bootStop = false → s.pstate = 0 → (s.die (1 - die)).bootStop = false → d.bootNext = 4 →
      exec (.boot die) s = .next (settleAll (d.held.foldl (performHeld die)
        (s.modDie die (fun d => { d with bootStage := 4, bootNext := 5, asleep := false, held := [] }))))) ∧
    (d.bootStop = false → s.pstate = 0 → (s.die (1 - die)).bootStop = true → d.bootNext < 6 → d.held = [] →
      exec (.boot die) s = .next (settleAll (s.modDie die (fun d => { d with bootCode := 7, bootStop := true, held := [] })))) ∧
    (live → exec (.kloadGo die) s = .next (settleAll (s.modDie die (fun d => { d with kload := true })))) ∧
    (d.attCopy = none → exec (.attestationRequest die) s = .next (settleAll (s.modDie die (fun d =>
      { d with attCopy := some (beNat (wordBytes ((List.range 4).map (fun i => SMap.get 0 d.attn i)))) })))) ∧
    (∀ n, d.attCopy = some n →
      let signed := report d n ++ beBytes (identitySign (sha256 (report d n))) 384
      signed.length = 616 ∧ signed.take 32 = beBytes n 32 ∧
      ∃ buf, exec (.attestationDone die) s = .next (settleAll (s.modDie die (fun d => { d with attbuf := buf, attDone := true, attCopy := none }))) ∧
        ∀ i, SMap.get 0 buf i = if i < 77 then BitVec.ofNat 64 (Signed.le signed (8 * i) 8) else SMap.get 0 d.attbuf i) ∧
    -- registers: who may write what
    (∀ (off : Nat) (v : W64),
      let wrote (who : Writer) (off : Nat) (t : State) : Prop := exec (.registerWrite die who off v) s = .next (settleAll t)
      wrote .other off s ∧
      (off < 0x10000 → wrote .kernel off s ∧ wrote .management off s) ∧
      (live → off < 0x200000 ∨ (0x202000 ≤ off ∧ off < 0x220000) → wrote .host off s) ∧
      (off = 0x100018 ∨ off = 0x100028 ∨ (0x110000 ≤ off ∧ off < 0x11A000) ∨ (0x120000 ≤ off ∧ off < 0x160000) → wrote .kernel off s) ∧
      (live → wrote .host 0x220010 s) ∧ wrote .management 0x220010 s ∧ wrote .kernel 0x230008 s ∧ wrote .management 0x230008 s ∧
      (∀ i, i < 4 → wrote .management (0x230040 + 8 * i) s) ∧
      wrote .management 0x50000 (s.modDie die (fun d => { d with ecntc := v.toNat % 2 ^ 32 })) ∧
      wrote .management 0x100028 (s.modDie die (fun d => { d with devq := v &&& 0xF800FFFFFFFFFFFF })) ∧
      (v.getLsbD 7 = true → wrote .management 0x20010 (s.modEngine die 0 (fun e => { e with err := false }))) ∧
      (s.pstate = 0 →
        wrote .kernel 0x40018 (s.modDie die (fun d => { d with fring := v &&& 0xF800FFFFFFFFFFFF })) ∧
        (v.getLsbD 5 = true → wrote .kernel 0x10010 (s.modDie die (fun d => { d with sealOvf := false }))) ∧
        ((s.poolAt ⟨die, 0⟩).en = false → wrote .kernel 0x30010 (s.modPool ⟨die, 0⟩ (fun p => { p with nblk := v.toNat % 2 ^ 32 }))) ∧
        wrote .kernel 0x210000 (s.modDie die (fun d => { d with netcfg := netcfgKept v })) ∧
        wrote .kernel 0x220008 { s with hold := v.getLsbD 0 } ∧
        wrote .kernel 0x220010 { s with kernP3 := v.getLsbD 0 } ∧
        (∀ i, i < 4 → wrote .kernel (0x230040 + 8 * i) (s.modDie die (fun d => { d with attn := SMap.set 0 d.attn i v })))) ∧
      (live →
        wrote .host 0x200000 (s.modDie die (fun d => { d with hcfg := v &&& 0xFFFFFFF000000001 })) ∧
        wrote .host 0x220008 { s with hold := v.getLsbD 0, hostP3 := v.getLsbD 1 } ∧
        (∀ i, i < 4 → wrote .host (0x230040 + 8 * i) (s.modDie die (fun d => { d with attn := SMap.set 0 d.attn i v })))))

/-- R33 and R404: a running system core takes a waiting interrupt, executes the instruction at its pc, or takes the exception that prevents it, with
the machine's counters; one that does not run does nothing. The model's choices: that the cores 0 to 7 do nothing in a power state (R404 stops their
clocks; DEDUCED, log entry 53), and the RISC-V instructions themselves (PRESUMED, log entry 6). -/
def Obligations.SystemCoreStep : Prop :=
  ∀ (s : State) (die n : Nat), die < 2 → n < 9 →
    let h := s.hart (9 * die + n)
    (h.runs = false → exec (.systemCoreInstruction die n) s = .next (settleAll s)) ∧
    (n < 8 → s.pstate ≠ 0 → exec (.systemCoreInstruction die n) s = .next (settleAll s)) ∧
    (h.runs = true → n = 8 ∨ s.pstate = 0 →
      let done (t : State) : Prop := exec (.systemCoreInstruction die n) s = .next (settleAll t)
      let traps (t : State) (cause : Nat) (v : W64) : Prop :=
        done (t.setHart (9 * die + n) (rvTick (rvTrap (t.hart (9 * die + n)) false cause v) false))
      (∀ cause, rvInterrupt s die n = some cause → cause ≠ 9 → done (s.setHart (9 * die + n) (rvTrap h true cause 0))) ∧
      (rvInterrupt s die n = none →
        (∀ cause v t, rvFetch s die n = .error (.trap cause v t) → traps t cause v) ∧
        (∀ t, rvFetch s die n = .error (.wait t) → done t) ∧
        (∀ len raw w u, rvFetch s die n = .ok (len, raw, w, u) →
          (∀ t, rvExec u die n len w = .ok t → done (t.setHart (9 * die + n) (rvTick (t.hart (9 * die + n)) true))) ∧
          (∀ cause v t, rvExec u die n len w = .error (.trap cause v t) → traps t cause (if cause = 2 then BitVec.ofNat 64 raw else v)) ∧
          (∀ t, rvExec u die n len w = .error (.wait t) → done t))))

/-! ### The whole machine -/

/-- What reset leaves, in the values that the spec gives: no context is bound (R19), no image is sealed (R57), no queue is registered (R229,
R309), no pool is enabled (R252), every queue between engines is empty with scale 1 (R183), tile shapes, LVCNT and NETCFG at their reset
values (R133, R17, R400), the die-to-die links in training (R397), boot before its first stage (R407), and the memory in canonical form.
That every byte of memory reads as zero (DESIGN CHOICE, log entry 2) and that the level is U (DESIGN CHOICE, log entry 1) are the model's choices. -/
def Obligations.ResetValues : Prop :=
  State.reset.MemOk ∧ State.reset.Still ∧ (∀ a, State.reset.byte a = 0) ∧
  (∀ c, (State.reset.ctx c).st = .unbound ∧ (State.reset.ctx c).sysReg 0x018 = 1 ∧ (State.reset.ctx c).sysReg 0x000 = 0 ∧
    (State.reset.ctx c).kLevel = false) ∧
  (∀ h, State.reset.imageLen h = 0) ∧
  (∀ g q t, (State.reset.core g).active = none ∧ (State.reset.core g).owner = none ∧ (State.reset.core g).queue q = Queue.init ∧
    (Queue.init.scale = 0x3F800000) ∧ SMap.get tsReset (State.reset.core g).ts t = 0x4020) ∧
  (∀ d e p, ((State.reset.die d).engine e).queues = [] ∧ (State.reset.die d).lqs = [] ∧ ((State.reset.die d).pool p).en = false ∧
    (State.reset.die d).netcfg = 1 ∧ (State.reset.die d).bootStage = 0 ∧ (State.reset.die d).bootCode = 0 ∧ (State.reset.die d).dcmd = []) ∧
  (∀ n, (State.reset.link n).state = 3) ∧ State.reset.pstate = 0

/-- The frame of the local-access, vector and matrix engines (R9, R43): where the slot of such an instruction issues, the bundle has a next
state, in which every register of the context, scalar, predicate, vector, mask, system and token, is as before (its results are exposed,
and land later); every other context, every other core, every task, image and die, and every byte of memory is as before. -/
def Obligations.LocalVectorAndMatrixFrame : Prop :=
  ∀ (s t : State) (c : Nat) (i : Instr) (o : SlotOp), Acts s c → slotOp i = some o → 3 ≤ o.slot ∧ o.slot ≤ 5 → readGuard s c i.guard = true →
    o.run c s = .issued t →
    exec i s = .next (issuedNext t c) ∧ OnlyContext s (issuedNext t c) c ∧ SameRegisters (s.ctx c) ((issuedNext t c).ctx c) ∧
    ((issuedNext t c).ctx c).pc = (s.ctx c).pc + 32

/-- The memory keeps its canonical form in every step, from every state, whatever moves next: addresses strictly rising and no listed zero, so
that equal memories are equal data. -/
def Obligations.EveryStepKeepsMemoryCanonical : Prop := ∀ (s t : State), s.MemOk → step s = .next t → t.MemOk
end

