-- ==== Sys2Proof/Laws/Engine.lean ====
section
/-! SUPPORT. How the commands of the engines run: one thing after another, until one does not go through. -/

namespace Sys2Proof.Machine

theorem Eng.on_pure {α : Type} (a : α) (s : State) : (pure a : Eng α).on s = .ok (a, s) := rfl

/-- A command runs its first part, then the rest where that part ended. -/
theorem Eng.on_bind {α β : Type} (m : Eng α) (f : α → Eng β) (s : State) :
    (m >>= f).on s = match m.on s with | .ok x => (f x.1).on x.2 | .error e => .error e := by
  show (m s >>= fun x => f x.1 x.2) = _
  show _ = match m s with | .ok x => f x.1 x.2 | .error e => .error e
  cases m s <;> rfl

theorem Eng.on_echeck (b : Bool) (code : Nat) (s : State) :
    (echeck b code).on s = if b then .ok ((), s) else .error ⟨.fail code, none, s⟩ := rfl

theorem Eng.on_ePool (r : PoolRef) (s : State) : (ePool r).on s = .ok (s.poolAt r, s) := rfl

theorem Eng.on_ite {α : Type} (c : Prop) [Decidable c] (m n : Eng α) (s : State) :
    (if c then m else n).on s = if c then m.on s else n.on s := by split <;> rfl

/-- A loop goes through when each turn does, from where the one before it ended. -/
theorem Eng.on_eFor {α : Type} (f : α → Eng Unit) : ∀ (l : List α) (st : Nat → State),
    (∀ n (h : n < l.length), (f l[n]).on (st n) = .ok ((), st (n + 1))) → (eFor l f).on (st 0) = .ok ((), st l.length) := by
  intro l
  induction l with
  | nil => intro st _; rfl
  | cons x r ih =>
    intro st h
    have h0 : (f x).on (st 0) = .ok ((), st 1) := h 0 (by simp)
    rw [eFor, Eng.on_bind, h0]
    have := ih (fun n => st (n + 1)) (fun n hn => h (n + 1) (by simpa using hn))
    simpa using this

/-- A loop that gathers values into a list, the same. -/
theorem Eng.on_gather {α β : Type} (f : α → Eng β) (v : Nat → β) : ∀ (l : List α) (m : List β) (st : Nat → State),
    (∀ n (h : n < l.length), (f l[n]).on (st n) = .ok (v n, st (n + 1))) →
      (l.foldlM (fun (m : List β) x => do let e ← f x; pure (m ++ [e])) m : Eng (List β)).on (st 0) =
        .ok (m ++ (List.range l.length).map v, st l.length) := by
  intro l
  induction l generalizing v with
  | nil => intro m st _; simp only [List.foldlM_nil, List.length_nil, List.range_zero, List.map_nil, List.append_nil]; rfl
  | cons x r ih =>
    intro m st h
    have h0 : (f x).on (st 0) = .ok (v 0, st 1) := h 0 (by simp)
    rw [List.foldlM_cons, Eng.on_bind, Eng.on_bind, h0]
    have := ih (fun n => v (n + 1)) (m ++ [v 0]) (fun n => st (n + 1)) (fun n hn => h (n + 1) (by simpa using hn))
    simp only [Eng.on_pure, List.length_cons]
    rw [show st (r.length + 1) = (fun n => st (n + 1)) r.length from rfl, this]
    simp [List.range_succ_eq_map, Function.comp_def]

end Sys2Proof.Machine
end

