-- ==== Sys2Proof/Laws/State.lean ====
section
/-! SUPPORT. What an update of one part of `State` leaves alone: every other field, each of them a rewrite of `simp`. -/

namespace Sys2Proof.Machine

/-- `setCtx` writes the contexts and nothing else. -/
@[simp] theorem State.setCtx_rest (s : State) (c : Nat) (x : Context) :
    (s.setCtx c x).moves = s.moves ∧ (s.setCtx c x).focus = s.focus ∧ (s.setCtx c x).free = s.free ∧ (s.setCtx c x).mem = s.mem ∧
    (s.setCtx c x).memPoison = s.memPoison ∧ (s.setCtx c x).lines = s.lines ∧ (s.setCtx c x).qheads = s.qheads ∧ (s.setCtx c x).tlbs = s.tlbs ∧
    (s.setCtx c x).frames = s.frames ∧ (s.setCtx c x).cores = s.cores ∧ (s.setCtx c x).dies = s.dies ∧ (s.setCtx c x).tasks = s.tasks ∧
    (s.setCtx c x).seals = s.seals ∧ (s.setCtx c x).claims = s.claims ∧ (s.setCtx c x).posters = s.posters ∧ (s.setCtx c x).pts = s.pts ∧
    (s.setCtx c x).serial = s.serial ∧ (s.setCtx c x).anise = s.anise ∧ (s.setCtx c x).walks = s.walks ∧ (s.setCtx c x).dwrites = s.dwrites ∧
    (s.setCtx c x).fused = s.fused ∧ (s.setCtx c x).sumcfg = s.sumcfg ∧ (s.setCtx c x).sumkey = s.sumkey ∧ (s.setCtx c x).sumring = s.sumring ∧
    (s.setCtx c x).sumhead = s.sumhead ∧ (s.setCtx c x).sumtail = s.sumtail ∧ (s.setCtx c x).sumseq = s.sumseq ∧ (s.setCtx c x).audits = s.audits ∧
    (s.setCtx c x).unwinds = s.unwinds ∧ (s.setCtx c x).squashes = s.squashes ∧ (s.setCtx c x).links = s.links ∧ (s.setCtx c x).harts = s.harts ∧
    (s.setCtx c x).pstate = s.pstate ∧ (s.setCtx c x).hostP3 = s.hostP3 ∧ (s.setCtx c x).hold = s.hold ∧ (s.setCtx c x).kernP3 = s.kernP3 ∧
    (s.setCtx c x).flash = s.flash ∧ (s.setCtx c x).floors = s.floors ∧ (s.setCtx c x).mismatch = s.mismatch ∧
    (s.setCtx c x).powerLimit = s.powerLimit ∧ (s.setCtx c x).gftAllowed = s.gftAllowed := by
  and_intros <;> rfl

/-- `modCtx` writes the contexts and nothing else. -/
@[simp] theorem State.modCtx_rest (s : State) (c : Nat) (f : Context → Context) :
    (s.modCtx c f).moves = s.moves ∧ (s.modCtx c f).focus = s.focus ∧ (s.modCtx c f).free = s.free ∧ (s.modCtx c f).mem = s.mem ∧
    (s.modCtx c f).memPoison = s.memPoison ∧ (s.modCtx c f).lines = s.lines ∧ (s.modCtx c f).qheads = s.qheads ∧ (s.modCtx c f).tlbs = s.tlbs ∧
    (s.modCtx c f).frames = s.frames ∧ (s.modCtx c f).cores = s.cores ∧ (s.modCtx c f).dies = s.dies ∧ (s.modCtx c f).tasks = s.tasks ∧
    (s.modCtx c f).seals = s.seals ∧ (s.modCtx c f).claims = s.claims ∧ (s.modCtx c f).posters = s.posters ∧ (s.modCtx c f).pts = s.pts ∧
    (s.modCtx c f).serial = s.serial ∧ (s.modCtx c f).anise = s.anise ∧ (s.modCtx c f).walks = s.walks ∧ (s.modCtx c f).dwrites = s.dwrites ∧
    (s.modCtx c f).fused = s.fused ∧ (s.modCtx c f).sumcfg = s.sumcfg ∧ (s.modCtx c f).sumkey = s.sumkey ∧ (s.modCtx c f).sumring = s.sumring ∧
    (s.modCtx c f).sumhead = s.sumhead ∧ (s.modCtx c f).sumtail = s.sumtail ∧ (s.modCtx c f).sumseq = s.sumseq ∧ (s.modCtx c f).audits = s.audits ∧
    (s.modCtx c f).unwinds = s.unwinds ∧ (s.modCtx c f).squashes = s.squashes ∧ (s.modCtx c f).links = s.links ∧ (s.modCtx c f).harts = s.harts ∧
    (s.modCtx c f).pstate = s.pstate ∧ (s.modCtx c f).hostP3 = s.hostP3 ∧ (s.modCtx c f).hold = s.hold ∧ (s.modCtx c f).kernP3 = s.kernP3 ∧
    (s.modCtx c f).flash = s.flash ∧ (s.modCtx c f).floors = s.floors ∧ (s.modCtx c f).mismatch = s.mismatch ∧
    (s.modCtx c f).powerLimit = s.powerLimit ∧ (s.modCtx c f).gftAllowed = s.gftAllowed := by
  and_intros <;> rfl

/-- `setCore` writes the cores and nothing else. -/
@[simp] theorem State.setCore_rest (s : State) (g : Nat) (x : Core) :
    (s.setCore g x).moves = s.moves ∧ (s.setCore g x).focus = s.focus ∧ (s.setCore g x).free = s.free ∧ (s.setCore g x).mem = s.mem ∧
    (s.setCore g x).memPoison = s.memPoison ∧ (s.setCore g x).lines = s.lines ∧ (s.setCore g x).qheads = s.qheads ∧ (s.setCore g x).tlbs = s.tlbs ∧
    (s.setCore g x).ctxs = s.ctxs ∧ (s.setCore g x).frames = s.frames ∧ (s.setCore g x).dies = s.dies ∧ (s.setCore g x).tasks = s.tasks ∧
    (s.setCore g x).seals = s.seals ∧ (s.setCore g x).claims = s.claims ∧ (s.setCore g x).posters = s.posters ∧ (s.setCore g x).pts = s.pts ∧
    (s.setCore g x).serial = s.serial ∧ (s.setCore g x).anise = s.anise ∧ (s.setCore g x).walks = s.walks ∧ (s.setCore g x).dwrites = s.dwrites ∧
    (s.setCore g x).fused = s.fused ∧ (s.setCore g x).sumcfg = s.sumcfg ∧ (s.setCore g x).sumkey = s.sumkey ∧ (s.setCore g x).sumring = s.sumring ∧
    (s.setCore g x).sumhead = s.sumhead ∧ (s.setCore g x).sumtail = s.sumtail ∧ (s.setCore g x).sumseq = s.sumseq ∧
    (s.setCore g x).audits = s.audits ∧ (s.setCore g x).unwinds = s.unwinds ∧ (s.setCore g x).squashes = s.squashes ∧
    (s.setCore g x).links = s.links ∧ (s.setCore g x).harts = s.harts ∧ (s.setCore g x).pstate = s.pstate ∧ (s.setCore g x).hostP3 = s.hostP3 ∧
    (s.setCore g x).hold = s.hold ∧ (s.setCore g x).kernP3 = s.kernP3 ∧ (s.setCore g x).flash = s.flash ∧ (s.setCore g x).floors = s.floors ∧
    (s.setCore g x).mismatch = s.mismatch ∧ (s.setCore g x).powerLimit = s.powerLimit ∧ (s.setCore g x).gftAllowed = s.gftAllowed := by
  and_intros <;> rfl

/-- `modCore` writes the cores and nothing else. -/
@[simp] theorem State.modCore_rest (s : State) (g : Nat) (f : Core → Core) :
    (s.modCore g f).moves = s.moves ∧ (s.modCore g f).focus = s.focus ∧ (s.modCore g f).free = s.free ∧ (s.modCore g f).mem = s.mem ∧
    (s.modCore g f).memPoison = s.memPoison ∧ (s.modCore g f).lines = s.lines ∧ (s.modCore g f).qheads = s.qheads ∧ (s.modCore g f).tlbs = s.tlbs ∧
    (s.modCore g f).ctxs = s.ctxs ∧ (s.modCore g f).frames = s.frames ∧ (s.modCore g f).dies = s.dies ∧ (s.modCore g f).tasks = s.tasks ∧
    (s.modCore g f).seals = s.seals ∧ (s.modCore g f).claims = s.claims ∧ (s.modCore g f).posters = s.posters ∧ (s.modCore g f).pts = s.pts ∧
    (s.modCore g f).serial = s.serial ∧ (s.modCore g f).anise = s.anise ∧ (s.modCore g f).walks = s.walks ∧ (s.modCore g f).dwrites = s.dwrites ∧
    (s.modCore g f).fused = s.fused ∧ (s.modCore g f).sumcfg = s.sumcfg ∧ (s.modCore g f).sumkey = s.sumkey ∧ (s.modCore g f).sumring = s.sumring ∧
    (s.modCore g f).sumhead = s.sumhead ∧ (s.modCore g f).sumtail = s.sumtail ∧ (s.modCore g f).sumseq = s.sumseq ∧
    (s.modCore g f).audits = s.audits ∧ (s.modCore g f).unwinds = s.unwinds ∧ (s.modCore g f).squashes = s.squashes ∧
    (s.modCore g f).links = s.links ∧ (s.modCore g f).harts = s.harts ∧ (s.modCore g f).pstate = s.pstate ∧ (s.modCore g f).hostP3 = s.hostP3 ∧
    (s.modCore g f).hold = s.hold ∧ (s.modCore g f).kernP3 = s.kernP3 ∧ (s.modCore g f).flash = s.flash ∧ (s.modCore g f).floors = s.floors ∧
    (s.modCore g f).mismatch = s.mismatch ∧ (s.modCore g f).powerLimit = s.powerLimit ∧ (s.modCore g f).gftAllowed = s.gftAllowed := by
  and_intros <;> rfl

/-- `setDie` writes the dies and nothing else. -/
@[simp] theorem State.setDie_rest (s : State) (d : Nat) (x : Die) :
    (s.setDie d x).moves = s.moves ∧ (s.setDie d x).focus = s.focus ∧ (s.setDie d x).free = s.free ∧ (s.setDie d x).mem = s.mem ∧
    (s.setDie d x).memPoison = s.memPoison ∧ (s.setDie d x).lines = s.lines ∧ (s.setDie d x).qheads = s.qheads ∧ (s.setDie d x).tlbs = s.tlbs ∧
    (s.setDie d x).ctxs = s.ctxs ∧ (s.setDie d x).frames = s.frames ∧ (s.setDie d x).cores = s.cores ∧ (s.setDie d x).tasks = s.tasks ∧
    (s.setDie d x).seals = s.seals ∧ (s.setDie d x).claims = s.claims ∧ (s.setDie d x).posters = s.posters ∧ (s.setDie d x).pts = s.pts ∧
    (s.setDie d x).serial = s.serial ∧ (s.setDie d x).anise = s.anise ∧ (s.setDie d x).walks = s.walks ∧ (s.setDie d x).dwrites = s.dwrites ∧
    (s.setDie d x).fused = s.fused ∧ (s.setDie d x).sumcfg = s.sumcfg ∧ (s.setDie d x).sumkey = s.sumkey ∧ (s.setDie d x).sumring = s.sumring ∧
    (s.setDie d x).sumhead = s.sumhead ∧ (s.setDie d x).sumtail = s.sumtail ∧ (s.setDie d x).sumseq = s.sumseq ∧ (s.setDie d x).audits = s.audits ∧
    (s.setDie d x).unwinds = s.unwinds ∧ (s.setDie d x).squashes = s.squashes ∧ (s.setDie d x).links = s.links ∧ (s.setDie d x).harts = s.harts ∧
    (s.setDie d x).pstate = s.pstate ∧ (s.setDie d x).hostP3 = s.hostP3 ∧ (s.setDie d x).hold = s.hold ∧ (s.setDie d x).kernP3 = s.kernP3 ∧
    (s.setDie d x).flash = s.flash ∧ (s.setDie d x).floors = s.floors ∧ (s.setDie d x).mismatch = s.mismatch ∧
    (s.setDie d x).powerLimit = s.powerLimit ∧ (s.setDie d x).gftAllowed = s.gftAllowed := by
  and_intros <;> rfl

/-- `modDie` writes the dies and nothing else. -/
@[simp] theorem State.modDie_rest (s : State) (d : Nat) (f : Die → Die) :
    (s.modDie d f).moves = s.moves ∧ (s.modDie d f).focus = s.focus ∧ (s.modDie d f).free = s.free ∧ (s.modDie d f).mem = s.mem ∧
    (s.modDie d f).memPoison = s.memPoison ∧ (s.modDie d f).lines = s.lines ∧ (s.modDie d f).qheads = s.qheads ∧ (s.modDie d f).tlbs = s.tlbs ∧
    (s.modDie d f).ctxs = s.ctxs ∧ (s.modDie d f).frames = s.frames ∧ (s.modDie d f).cores = s.cores ∧ (s.modDie d f).tasks = s.tasks ∧
    (s.modDie d f).seals = s.seals ∧ (s.modDie d f).claims = s.claims ∧ (s.modDie d f).posters = s.posters ∧ (s.modDie d f).pts = s.pts ∧
    (s.modDie d f).serial = s.serial ∧ (s.modDie d f).anise = s.anise ∧ (s.modDie d f).walks = s.walks ∧ (s.modDie d f).dwrites = s.dwrites ∧
    (s.modDie d f).fused = s.fused ∧ (s.modDie d f).sumcfg = s.sumcfg ∧ (s.modDie d f).sumkey = s.sumkey ∧ (s.modDie d f).sumring = s.sumring ∧
    (s.modDie d f).sumhead = s.sumhead ∧ (s.modDie d f).sumtail = s.sumtail ∧ (s.modDie d f).sumseq = s.sumseq ∧ (s.modDie d f).audits = s.audits ∧
    (s.modDie d f).unwinds = s.unwinds ∧ (s.modDie d f).squashes = s.squashes ∧ (s.modDie d f).links = s.links ∧ (s.modDie d f).harts = s.harts ∧
    (s.modDie d f).pstate = s.pstate ∧ (s.modDie d f).hostP3 = s.hostP3 ∧ (s.modDie d f).hold = s.hold ∧ (s.modDie d f).kernP3 = s.kernP3 ∧
    (s.modDie d f).flash = s.flash ∧ (s.modDie d f).floors = s.floors ∧ (s.modDie d f).mismatch = s.mismatch ∧
    (s.modDie d f).powerLimit = s.powerLimit ∧ (s.modDie d f).gftAllowed = s.gftAllowed := by
  and_intros <;> rfl

/-- `setTask` writes the tasks and nothing else. -/
@[simp] theorem State.setTask_rest (s : State) (t : Nat) (x : Task) :
    (s.setTask t x).moves = s.moves ∧ (s.setTask t x).focus = s.focus ∧ (s.setTask t x).free = s.free ∧ (s.setTask t x).mem = s.mem ∧
    (s.setTask t x).memPoison = s.memPoison ∧ (s.setTask t x).lines = s.lines ∧ (s.setTask t x).qheads = s.qheads ∧ (s.setTask t x).tlbs = s.tlbs ∧
    (s.setTask t x).ctxs = s.ctxs ∧ (s.setTask t x).frames = s.frames ∧ (s.setTask t x).cores = s.cores ∧ (s.setTask t x).dies = s.dies ∧
    (s.setTask t x).seals = s.seals ∧ (s.setTask t x).claims = s.claims ∧ (s.setTask t x).posters = s.posters ∧ (s.setTask t x).pts = s.pts ∧
    (s.setTask t x).serial = s.serial ∧ (s.setTask t x).anise = s.anise ∧ (s.setTask t x).walks = s.walks ∧ (s.setTask t x).dwrites = s.dwrites ∧
    (s.setTask t x).fused = s.fused ∧ (s.setTask t x).sumcfg = s.sumcfg ∧ (s.setTask t x).sumkey = s.sumkey ∧ (s.setTask t x).sumring = s.sumring ∧
    (s.setTask t x).sumhead = s.sumhead ∧ (s.setTask t x).sumtail = s.sumtail ∧ (s.setTask t x).sumseq = s.sumseq ∧
    (s.setTask t x).audits = s.audits ∧ (s.setTask t x).unwinds = s.unwinds ∧ (s.setTask t x).squashes = s.squashes ∧
    (s.setTask t x).links = s.links ∧ (s.setTask t x).harts = s.harts ∧ (s.setTask t x).pstate = s.pstate ∧ (s.setTask t x).hostP3 = s.hostP3 ∧
    (s.setTask t x).hold = s.hold ∧ (s.setTask t x).kernP3 = s.kernP3 ∧ (s.setTask t x).flash = s.flash ∧ (s.setTask t x).floors = s.floors ∧
    (s.setTask t x).mismatch = s.mismatch ∧ (s.setTask t x).powerLimit = s.powerLimit ∧ (s.setTask t x).gftAllowed = s.gftAllowed := by
  and_intros <;> rfl

/-- `modTask` writes the tasks and nothing else. -/
@[simp] theorem State.modTask_rest (s : State) (t : Nat) (f : Task → Task) :
    (s.modTask t f).moves = s.moves ∧ (s.modTask t f).focus = s.focus ∧ (s.modTask t f).free = s.free ∧ (s.modTask t f).mem = s.mem ∧
    (s.modTask t f).memPoison = s.memPoison ∧ (s.modTask t f).lines = s.lines ∧ (s.modTask t f).qheads = s.qheads ∧ (s.modTask t f).tlbs = s.tlbs ∧
    (s.modTask t f).ctxs = s.ctxs ∧ (s.modTask t f).frames = s.frames ∧ (s.modTask t f).cores = s.cores ∧ (s.modTask t f).dies = s.dies ∧
    (s.modTask t f).seals = s.seals ∧ (s.modTask t f).claims = s.claims ∧ (s.modTask t f).posters = s.posters ∧ (s.modTask t f).pts = s.pts ∧
    (s.modTask t f).serial = s.serial ∧ (s.modTask t f).anise = s.anise ∧ (s.modTask t f).walks = s.walks ∧ (s.modTask t f).dwrites = s.dwrites ∧
    (s.modTask t f).fused = s.fused ∧ (s.modTask t f).sumcfg = s.sumcfg ∧ (s.modTask t f).sumkey = s.sumkey ∧ (s.modTask t f).sumring = s.sumring ∧
    (s.modTask t f).sumhead = s.sumhead ∧ (s.modTask t f).sumtail = s.sumtail ∧ (s.modTask t f).sumseq = s.sumseq ∧
    (s.modTask t f).audits = s.audits ∧ (s.modTask t f).unwinds = s.unwinds ∧ (s.modTask t f).squashes = s.squashes ∧
    (s.modTask t f).links = s.links ∧ (s.modTask t f).harts = s.harts ∧ (s.modTask t f).pstate = s.pstate ∧ (s.modTask t f).hostP3 = s.hostP3 ∧
    (s.modTask t f).hold = s.hold ∧ (s.modTask t f).kernP3 = s.kernP3 ∧ (s.modTask t f).flash = s.flash ∧ (s.modTask t f).floors = s.floors ∧
    (s.modTask t f).mismatch = s.mismatch ∧ (s.modTask t f).powerLimit = s.powerLimit ∧ (s.modTask t f).gftAllowed = s.gftAllowed := by
  and_intros <;> rfl

/-- `modLink` writes the links and nothing else. -/
@[simp] theorem State.modLink_rest (s : State) (n : Nat) (f : Link → Link) :
    (s.modLink n f).moves = s.moves ∧ (s.modLink n f).focus = s.focus ∧ (s.modLink n f).free = s.free ∧ (s.modLink n f).mem = s.mem ∧
    (s.modLink n f).memPoison = s.memPoison ∧ (s.modLink n f).lines = s.lines ∧ (s.modLink n f).qheads = s.qheads ∧ (s.modLink n f).tlbs = s.tlbs ∧
    (s.modLink n f).ctxs = s.ctxs ∧ (s.modLink n f).frames = s.frames ∧ (s.modLink n f).cores = s.cores ∧ (s.modLink n f).dies = s.dies ∧
    (s.modLink n f).tasks = s.tasks ∧ (s.modLink n f).seals = s.seals ∧ (s.modLink n f).claims = s.claims ∧ (s.modLink n f).posters = s.posters ∧
    (s.modLink n f).pts = s.pts ∧ (s.modLink n f).serial = s.serial ∧ (s.modLink n f).anise = s.anise ∧ (s.modLink n f).walks = s.walks ∧
    (s.modLink n f).dwrites = s.dwrites ∧ (s.modLink n f).fused = s.fused ∧ (s.modLink n f).sumcfg = s.sumcfg ∧ (s.modLink n f).sumkey = s.sumkey ∧
    (s.modLink n f).sumring = s.sumring ∧ (s.modLink n f).sumhead = s.sumhead ∧ (s.modLink n f).sumtail = s.sumtail ∧
    (s.modLink n f).sumseq = s.sumseq ∧ (s.modLink n f).audits = s.audits ∧ (s.modLink n f).unwinds = s.unwinds ∧
    (s.modLink n f).squashes = s.squashes ∧ (s.modLink n f).harts = s.harts ∧ (s.modLink n f).pstate = s.pstate ∧ (s.modLink n f).hostP3 = s.hostP3 ∧
    (s.modLink n f).hold = s.hold ∧ (s.modLink n f).kernP3 = s.kernP3 ∧ (s.modLink n f).flash = s.flash ∧ (s.modLink n f).floors = s.floors ∧
    (s.modLink n f).mismatch = s.mismatch ∧ (s.modLink n f).powerLimit = s.powerLimit ∧ (s.modLink n f).gftAllowed = s.gftAllowed := by
  and_intros <;> rfl

/-- `setHart` writes the system cores and nothing else. -/
@[simp] theorem State.setHart_rest (s : State) (n : Nat) (h : Hart) :
    (s.setHart n h).moves = s.moves ∧ (s.setHart n h).focus = s.focus ∧ (s.setHart n h).free = s.free ∧ (s.setHart n h).mem = s.mem ∧
    (s.setHart n h).memPoison = s.memPoison ∧ (s.setHart n h).lines = s.lines ∧ (s.setHart n h).qheads = s.qheads ∧ (s.setHart n h).tlbs = s.tlbs ∧
    (s.setHart n h).ctxs = s.ctxs ∧ (s.setHart n h).frames = s.frames ∧ (s.setHart n h).cores = s.cores ∧ (s.setHart n h).dies = s.dies ∧
    (s.setHart n h).tasks = s.tasks ∧ (s.setHart n h).seals = s.seals ∧ (s.setHart n h).claims = s.claims ∧ (s.setHart n h).posters = s.posters ∧
    (s.setHart n h).pts = s.pts ∧ (s.setHart n h).serial = s.serial ∧ (s.setHart n h).anise = s.anise ∧ (s.setHart n h).walks = s.walks ∧
    (s.setHart n h).dwrites = s.dwrites ∧ (s.setHart n h).fused = s.fused ∧ (s.setHart n h).sumcfg = s.sumcfg ∧ (s.setHart n h).sumkey = s.sumkey ∧
    (s.setHart n h).sumring = s.sumring ∧ (s.setHart n h).sumhead = s.sumhead ∧ (s.setHart n h).sumtail = s.sumtail ∧
    (s.setHart n h).sumseq = s.sumseq ∧ (s.setHart n h).audits = s.audits ∧ (s.setHart n h).unwinds = s.unwinds ∧
    (s.setHart n h).squashes = s.squashes ∧ (s.setHart n h).links = s.links ∧ (s.setHart n h).pstate = s.pstate ∧ (s.setHart n h).hostP3 = s.hostP3 ∧
    (s.setHart n h).hold = s.hold ∧ (s.setHart n h).kernP3 = s.kernP3 ∧ (s.setHart n h).flash = s.flash ∧ (s.setHart n h).floors = s.floors ∧
    (s.setHart n h).mismatch = s.mismatch ∧ (s.setHart n h).powerLimit = s.powerLimit ∧ (s.setHart n h).gftAllowed = s.gftAllowed := by
  and_intros <;> rfl

/-- `setByte` writes the bytes of memory and nothing else. -/
@[simp] theorem State.setByte_rest (s : State) (a : Nat) (b : Byte) :
    (s.setByte a b).moves = s.moves ∧ (s.setByte a b).focus = s.focus ∧ (s.setByte a b).free = s.free ∧ (s.setByte a b).memPoison = s.memPoison ∧
    (s.setByte a b).lines = s.lines ∧ (s.setByte a b).qheads = s.qheads ∧ (s.setByte a b).tlbs = s.tlbs ∧ (s.setByte a b).ctxs = s.ctxs ∧
    (s.setByte a b).frames = s.frames ∧ (s.setByte a b).cores = s.cores ∧ (s.setByte a b).dies = s.dies ∧ (s.setByte a b).tasks = s.tasks ∧
    (s.setByte a b).seals = s.seals ∧ (s.setByte a b).claims = s.claims ∧ (s.setByte a b).posters = s.posters ∧ (s.setByte a b).pts = s.pts ∧
    (s.setByte a b).serial = s.serial ∧ (s.setByte a b).anise = s.anise ∧ (s.setByte a b).walks = s.walks ∧ (s.setByte a b).dwrites = s.dwrites ∧
    (s.setByte a b).fused = s.fused ∧ (s.setByte a b).sumcfg = s.sumcfg ∧ (s.setByte a b).sumkey = s.sumkey ∧ (s.setByte a b).sumring = s.sumring ∧
    (s.setByte a b).sumhead = s.sumhead ∧ (s.setByte a b).sumtail = s.sumtail ∧ (s.setByte a b).sumseq = s.sumseq ∧
    (s.setByte a b).audits = s.audits ∧ (s.setByte a b).unwinds = s.unwinds ∧ (s.setByte a b).squashes = s.squashes ∧
    (s.setByte a b).links = s.links ∧ (s.setByte a b).harts = s.harts ∧ (s.setByte a b).pstate = s.pstate ∧ (s.setByte a b).hostP3 = s.hostP3 ∧
    (s.setByte a b).hold = s.hold ∧ (s.setByte a b).kernP3 = s.kernP3 ∧ (s.setByte a b).flash = s.flash ∧ (s.setByte a b).floors = s.floors ∧
    (s.setByte a b).mismatch = s.mismatch ∧ (s.setByte a b).powerLimit = s.powerLimit ∧ (s.setByte a b).gftAllowed = s.gftAllowed := by
  and_intros <;> rfl

/-- `setBad` writes memory's poison marks and nothing else. -/
@[simp] theorem State.setBad_rest (s : State) (a : Nat) (b : Bool) :
    (s.setBad a b).moves = s.moves ∧ (s.setBad a b).focus = s.focus ∧ (s.setBad a b).free = s.free ∧ (s.setBad a b).mem = s.mem ∧
    (s.setBad a b).lines = s.lines ∧ (s.setBad a b).qheads = s.qheads ∧ (s.setBad a b).tlbs = s.tlbs ∧ (s.setBad a b).ctxs = s.ctxs ∧
    (s.setBad a b).frames = s.frames ∧ (s.setBad a b).cores = s.cores ∧ (s.setBad a b).dies = s.dies ∧ (s.setBad a b).tasks = s.tasks ∧
    (s.setBad a b).seals = s.seals ∧ (s.setBad a b).claims = s.claims ∧ (s.setBad a b).posters = s.posters ∧ (s.setBad a b).pts = s.pts ∧
    (s.setBad a b).serial = s.serial ∧ (s.setBad a b).anise = s.anise ∧ (s.setBad a b).walks = s.walks ∧ (s.setBad a b).dwrites = s.dwrites ∧
    (s.setBad a b).fused = s.fused ∧ (s.setBad a b).sumcfg = s.sumcfg ∧ (s.setBad a b).sumkey = s.sumkey ∧ (s.setBad a b).sumring = s.sumring ∧
    (s.setBad a b).sumhead = s.sumhead ∧ (s.setBad a b).sumtail = s.sumtail ∧ (s.setBad a b).sumseq = s.sumseq ∧ (s.setBad a b).audits = s.audits ∧
    (s.setBad a b).unwinds = s.unwinds ∧ (s.setBad a b).squashes = s.squashes ∧ (s.setBad a b).links = s.links ∧ (s.setBad a b).harts = s.harts ∧
    (s.setBad a b).pstate = s.pstate ∧ (s.setBad a b).hostP3 = s.hostP3 ∧ (s.setBad a b).hold = s.hold ∧ (s.setBad a b).kernP3 = s.kernP3 ∧
    (s.setBad a b).flash = s.flash ∧ (s.setBad a b).floors = s.floors ∧ (s.setBad a b).mismatch = s.mismatch ∧
    (s.setBad a b).powerLimit = s.powerLimit ∧ (s.setBad a b).gftAllowed = s.gftAllowed := by
  and_intros <;> rfl

end Sys2Proof.Machine
end

