-- ==== Sys2Proof/Laws/Sparse.lean ====
section
/-! SUPPORT. The sparse tables: reading after writing, writing twice, and the canonical form; with them the parts of the state (contexts,
cores, dies, tasks) and the bytes of memory. -/

namespace Sys2Proof.Machine

theorem SMap.get_del_same {α : Type} (d : α) (m : SMap α) (k : Nat) : SMap.get d (SMap.del m k) k = d := by
  induction m with
  | nil => rfl
  | cons p r ih => by_cases h : p.1 = k <;> simp [SMap.del, SMap.get, h, ih]

theorem SMap.get_del_ne {α : Type} (d : α) (m : SMap α) {k j : Nat} (h : j ≠ k) : SMap.get d (SMap.del m k) j = SMap.get d m j := by
  induction m with
  | nil => rfl
  | cons p r ih =>
    by_cases hk : p.1 = k
    · have : p.1 ≠ j := by omega
      simp [SMap.del, SMap.get, hk, ih]; omega
    · simp [SMap.del, SMap.get, hk, ih]

theorem SMap.get_put_same {α : Type} (d : α) (m : SMap α) (k : Nat) (v : α) : SMap.get d (SMap.put (SMap.del m k) k v) k = v := by
  induction m with
  | nil => simp [SMap.del, SMap.put, SMap.get]
  | cons p r ih =>
    by_cases hk : p.1 = k
    · simpa [SMap.del, hk] using ih
    · by_cases hl : k < p.1 <;> simp [SMap.del, SMap.put, SMap.get, hk, hl, ih]

theorem SMap.get_put_ne {α : Type} (d : α) (m : SMap α) {k j : Nat} (v : α) (h : j ≠ k) : SMap.get d (SMap.put m k v) j = SMap.get d m j := by
  induction m with
  | nil => simp [SMap.put, SMap.get]; omega
  | cons p r ih =>
    by_cases hl : k < p.1
    · have : k ≠ j := fun e => h e.symm
      simp [SMap.put, SMap.get, hl, this]
    · by_cases hj : p.1 = j
      · simp only [SMap.put, if_neg hl, SMap.get, if_pos hj]
      · simp only [SMap.put, if_neg hl, SMap.get, if_neg hj, ih]

/-- Reading what was written. -/
@[simp] theorem SMap.get_set_same {α : Type} [DecidableEq α] (d : α) (m : SMap α) (k : Nat) (v : α) : SMap.get d (SMap.set d m k v) k = v := by
  by_cases h : v = d
  · simp [SMap.set, h, SMap.get_del_same]
  · simp [SMap.set, h, SMap.get_put_same]

/-- A write leaves every other key alone. -/
theorem SMap.get_set_ne {α : Type} [DecidableEq α] (d : α) (m : SMap α) {k j : Nat} (v : α) (h : j ≠ k) :
    SMap.get d (SMap.set d m k v) j = SMap.get d m j := by
  by_cases hv : v = d
  · simp [SMap.set, hv, SMap.get_del_ne d m h]
  · simp [SMap.set, hv, SMap.get_put_ne d _ v h, SMap.get_del_ne d m h]

theorem SMap.del_del {α : Type} (m : SMap α) (k : Nat) : SMap.del (SMap.del m k) k = SMap.del m k := by
  induction m with
  | nil => rfl
  | cons p r ih => by_cases h : p.1 = k <;> simp [SMap.del, h, ih]

theorem SMap.del_put {α : Type} (m : SMap α) (k : Nat) (v : α) : SMap.del (SMap.put m k v) k = SMap.del m k := by
  induction m with
  | nil => simp [SMap.put, SMap.del]
  | cons p r ih =>
    by_cases hl : k < p.1
    · simp [SMap.put, SMap.del, hl]
    · by_cases hk : p.1 = k <;> simp [SMap.put, SMap.del, hl, hk, ih]

/-- The later of two writes of one key stands. -/
@[simp] theorem SMap.set_set {α : Type} [DecidableEq α] (d : α) (m : SMap α) (k : Nat) (v w : α) :
    SMap.set d (SMap.set d m k v) k w = SMap.set d m k w := by
  have h : SMap.del (SMap.set d m k v) k = SMap.del m k := by
    by_cases hv : v = d
    · simp [SMap.set, hv, SMap.del_del]
    · simp [SMap.set, hv, SMap.del_put, SMap.del_del]
  show (if w = d then SMap.del (SMap.set d m k v) k else SMap.put (SMap.del (SMap.set d m k v) k) k w) = _
  rw [h]
  rfl

/-! ### The canonical form -/

theorem SMap.wfFrom_weaken {α : Type} [DecidableEq α] (d : α) (m : SMap α) {lo lo' : Option Nat}
    (h : ∀ j, lo = some j → ∃ i, lo' = some i ∧ j ≤ i) (hm : SMap.wfFrom d lo' m = true) : SMap.wfFrom d lo m = true := by
  cases m with
  | nil => rfl
  | cons p r =>
    simp only [SMap.wfFrom, Bool.and_eq_true] at hm ⊢
    refine ⟨⟨?_, hm.1.2⟩, hm.2⟩
    cases lo with
    | none => rfl
    | some j =>
      obtain ⟨i, rfl, hji⟩ := h j rfl
      have := hm.1.1
      simp only [decide_eq_true_eq] at this ⊢
      omega

theorem SMap.wfFrom_del {α : Type} [DecidableEq α] (d : α) (m : SMap α) (k : Nat) :
    ∀ lo, SMap.wfFrom d lo m = true → SMap.wfFrom d lo (SMap.del m k) = true := by
  induction m with
  | nil => intro lo _; rfl
  | cons p r ih =>
    intro lo hm
    simp only [SMap.wfFrom, Bool.and_eq_true] at hm
    by_cases hk : p.1 = k
    · simp only [SMap.del, hk, if_true]
      refine SMap.wfFrom_weaken d _ ?_ (ih _ hm.2)
      intro j hj
      subst hj
      exact ⟨p.1, rfl, by have := hm.1.1; simp only [decide_eq_true_eq] at this; omega⟩
    · simp only [SMap.del, hk, if_false, SMap.wfFrom, Bool.and_eq_true]
      exact ⟨hm.1, ih _ hm.2⟩

theorem SMap.wfFrom_put {α : Type} [DecidableEq α] (d : α) (m : SMap α) (k : Nat) (v : α) (hv : v ≠ d) :
    ∀ lo, (∀ j, lo = some j → j < k) → SMap.wfFrom d lo m = true → (∀ p ∈ m, p.1 ≠ k) → SMap.wfFrom d lo (SMap.put m k v) = true := by
  induction m with
  | nil =>
    intro lo hlo _ _
    cases lo with
    | none => simp [SMap.put, SMap.wfFrom, hv]
    | some j => simp [SMap.put, SMap.wfFrom, hv, hlo j rfl]
  | cons p r ih =>
    intro lo hlo hm hne
    simp only [SMap.wfFrom, Bool.and_eq_true] at hm
    by_cases hl : k < p.1
    · simp only [SMap.put, hl, if_true, SMap.wfFrom, Bool.and_eq_true]
      refine ⟨⟨?_, by simp [hv]⟩, ⟨by simp, hm.1.2⟩, hm.2⟩
      cases lo with
      | none => rfl
      | some j => simp [hlo j rfl]
    · simp only [SMap.put, hl, if_false, SMap.wfFrom, Bool.and_eq_true]
      have : p.1 ≠ k := hne p (by simp)
      refine ⟨hm.1, ih _ ?_ hm.2 (fun q hq => hne q (by simp [hq]))⟩
      intro j hj
      have : p.1 = j := by simpa using hj
      omega

theorem SMap.del_ne {α : Type} (m : SMap α) (k : Nat) : ∀ p ∈ SMap.del m k, p.1 ≠ k := by
  induction m with
  | nil => simp [SMap.del]
  | cons q r ih =>
    intro p hp
    by_cases hk : q.1 = k
    · simp only [SMap.del, hk, if_true] at hp; exact ih p hp
    · simp only [SMap.del, hk, if_false, List.mem_cons] at hp
      rcases hp with rfl | hp
      · exact hk
      · exact ih p hp

/-- A write keeps the canonical form. -/
theorem SMap.wf_set {α : Type} [DecidableEq α] (d : α) (m : SMap α) (k : Nat) (v : α) (h : SMap.wfFrom d none m = true) :
    SMap.wfFrom d none (SMap.set d m k v) = true := by
  by_cases hv : v = d
  · simp only [SMap.set, hv, if_true]; exact SMap.wfFrom_del d m k none h
  · simp only [SMap.set, hv, if_false]
    exact SMap.wfFrom_put d _ k v hv none (by simp) (SMap.wfFrom_del d m k none h) (SMap.del_ne m k)

/-- Leaving entries out keeps the canonical form. -/
theorem SMap.wfFrom_filter {α : Type} [DecidableEq α] (d : α) (m : SMap α) (f : Nat × α → Bool) :
    ∀ lo, SMap.wfFrom d lo m = true → SMap.wfFrom d lo (m.filter f) = true := by
  induction m with
  | nil => intro lo _; rfl
  | cons p r ih =>
    intro lo hm
    simp only [SMap.wfFrom, Bool.and_eq_true] at hm
    by_cases hf : f p = true
    · simp only [List.filter_cons, hf, if_true, SMap.wfFrom, Bool.and_eq_true]
      exact ⟨hm.1, ih _ hm.2⟩
    · simp only [List.filter_cons, hf, Bool.false_eq_true, if_false]
      refine SMap.wfFrom_weaken d _ ?_ (ih _ hm.2)
      intro j hj
      subst hj
      exact ⟨p.1, rfl, by have := hm.1.1; simp only [decide_eq_true_eq] at this; omega⟩

/-! ### Contexts, cores, dies, tasks -/

@[simp] theorem State.ctx_setCtx_same (s : State) (c : Nat) (x : Context) : (s.setCtx c x).ctx c = x := by simp [State.ctx, State.setCtx]
theorem State.ctx_setCtx_ne (s : State) {c e : Nat} (x : Context) (h : e ≠ c) : (s.setCtx c x).ctx e = s.ctx e := by
  simp [State.ctx, State.setCtx, SMap.get_set_ne _ _ _ h]
@[simp] theorem State.ctx_modCtx_same (s : State) (c : Nat) (f : Context → Context) : (s.modCtx c f).ctx c = f (s.ctx c) := by simp [State.modCtx]
theorem State.ctx_modCtx_ne (s : State) {c e : Nat} (f : Context → Context) (h : e ≠ c) : (s.modCtx c f).ctx e = s.ctx e := by
  simp [State.modCtx, State.ctx_setCtx_ne _ _ h]
@[simp] theorem State.core_setCore_same (s : State) (g : Nat) (x : Core) : (s.setCore g x).core g = x := by simp [State.core, State.setCore]
theorem State.core_setCore_ne (s : State) {g e : Nat} (x : Core) (h : e ≠ g) : (s.setCore g x).core e = s.core e := by
  simp [State.core, State.setCore, SMap.get_set_ne _ _ _ h]
@[simp] theorem State.core_modCore_same (s : State) (g : Nat) (f : Core → Core) : (s.modCore g f).core g = f (s.core g) := by simp [State.modCore]
theorem State.core_modCore_ne (s : State) {g e : Nat} (f : Core → Core) (h : e ≠ g) : (s.modCore g f).core e = s.core e := by
  simp [State.modCore, State.core_setCore_ne _ _ h]
@[simp] theorem State.die_setDie_same (s : State) (d : Nat) (x : Die) : (s.setDie d x).die d = x := by simp [State.die, State.setDie]
@[simp] theorem State.die_modDie_same (s : State) (d : Nat) (f : Die → Die) : (s.modDie d f).die d = f (s.die d) := by simp [State.modDie]
theorem State.die_modDie_ne (s : State) {d e : Nat} (f : Die → Die) (h : e ≠ d) : (s.modDie d f).die e = s.die e := by
  simp [State.modDie, State.die, State.setDie, SMap.get_set_ne _ _ _ h]
@[simp] theorem State.task_setTask_same (s : State) (t : Nat) (x : Task) : (s.setTask t x).task t = x := by simp [State.task, State.setTask]
@[simp] theorem State.task_modTask_same (s : State) (t : Nat) (f : Task → Task) : (s.modTask t f).task t = f (s.task t) := by simp [State.modTask]
@[simp] theorem State.link_modLink_same (s : State) (n : Nat) (f : Link → Link) : (s.modLink n f).link n = f (s.link n) := by
  simp [State.link, State.modLink]
@[simp] theorem State.hart_setHart_same (s : State) (n : Nat) (h : Hart) : (s.setHart n h).hart n = h := by simp [State.hart, State.setHart]

/-- A context's change leaves every core alone, and the other way round. -/
@[simp] theorem State.parts_setCtx (s : State) (c n : Nat) (x : Context) :
    (s.setCtx c x).core n = s.core n ∧ (s.setCtx c x).task n = s.task n ∧ (s.setCtx c x).seal n = s.seal n := ⟨rfl, rfl, rfl⟩
@[simp] theorem State.parts_modCtx (s : State) (c n : Nat) (f : Context → Context) :
    (s.modCtx c f).core n = s.core n ∧ (s.modCtx c f).task n = s.task n ∧ (s.modCtx c f).seal n = s.seal n := State.parts_setCtx s c n _
@[simp] theorem State.ctx_setCore (s : State) (c g : Nat) (x : Core) : (s.setCore g x).ctx c = s.ctx c := rfl
@[simp] theorem State.parts_modCore (s : State) (g n : Nat) (f : Core → Core) :
    (s.modCore g f).ctx n = s.ctx n ∧ (s.modCore g f).task n = s.task n ∧ (s.modCore g f).seal n = s.seal n := ⟨rfl, rfl, rfl⟩

/-! ### Bytes of memory -/

/-- The byte that was written. -/
@[simp] theorem State.byte_setByte_same (s : State) (a : Nat) (b : Byte) : (s.setByte a b).byte a = b := by simp [State.byte, State.setByte]

/-- Every other byte. -/
theorem State.byte_setByte_ne (s : State) {a e : Nat} (b : Byte) (h : e ≠ a) : (s.setByte a b).byte e = s.byte e := by
  simp [State.byte, State.setByte, SMap.get_set_ne _ _ _ h]

/-- A byte's write keeps the memory's canonical form. -/
theorem State.wf_setByte (s : State) (a : Nat) (b : Byte) (h : Memory.wf s.mem = true) : Memory.wf (s.setByte a b).mem = true :=
  SMap.wf_set 0 s.mem a b h

/-- A write of several bytes keeps the canonical form. -/
theorem State.wf_writeN (n : Nat) : ∀ (s : State) (a v : Nat), Memory.wf s.mem = true → Memory.wf (s.writeN a n v).mem = true := by
  induction n with
  | zero => intro s a v h; exact h
  | succ n ih => intro s a v h; exact ih _ _ _ (s.wf_setByte a _ h)

/-- A write of several bytes leaves every byte outside them alone. -/
theorem State.byte_writeN_out (n : Nat) : ∀ (s : State) (a v e : Nat), (e < a ∨ a + n ≤ e) → (s.writeN a n v).byte e = s.byte e := by
  induction n with
  | zero => intro s a v e _; rfl
  | succ n ih =>
    intro s a v e h
    have : (s.writeN a (n + 1) v).byte e = (s.setByte a (BitVec.ofNat 8 v)).byte e := ih _ _ _ _ (by omega)
    rw [this, State.byte_setByte_ne]
    omega

/-- What was written is what is read. -/
theorem State.readN_writeN (n : Nat) : ∀ (s : State) (a v : Nat), (s.writeN a n v).readN a n = v % 256 ^ n := by
  induction n with
  | zero => intro s a v; simp [State.readN, Nat.mod_one]
  | succ n ih =>
    intro s a v
    have h1 : (s.writeN a (n + 1) v).byte a = BitVec.ofNat 8 v := by
      have := State.byte_writeN_out n (s.setByte a (BitVec.ofNat 8 v)) (a + 1) (v / 256) a (by omega)
      simpa [State.writeN] using this
    have h2 : (s.writeN a (n + 1) v).readN (a + 1) n = v / 256 % 256 ^ n := ih _ _ _
    have h3 : v % 256 ^ (n + 1) = v % 256 + 256 * (v / 256 % 256 ^ n) := by
      rw [Nat.pow_succ, Nat.mul_comm (256 ^ n) 256, Nat.mod_mul]
    rw [h3, State.readN, h1, h2, BitVec.toNat_ofNat]

end Sys2Proof.Machine
end

