-- ==== Sys2Proof/Laws/Issue.lean ====
section
/-! SUPPORT. What the issue of a bundle comes to, once for all instructions: a bundle of one slot that can issue, one whose guard is false,
and the settling of a step in which nothing began. -/

namespace Sys2Proof.Machine

theorem State.Calm.congr {s t : State} (h : s.Calm) (hu : t.unwinds = s.unwinds) (ht : t.tasks = s.tasks) : t.Calm :=
  ⟨hu ▸ h.noUnwind, ht ▸ h.noKill⟩

theorem settleUnwinds_none {s : State} (h : s.unwinds = []) : settleUnwinds s = s := by
  unfold settleUnwinds
  rw [h]
  show ({ s with unwinds := [] } : State) = s
  rw [← h]

theorem settleKills_none {s : State} (h : ∀ p ∈ s.tasks, p.2.state ≠ 5) : settleKills s = s := by
  have : s.tasks.filter (fun t => t.2.state == 5) = [] := by
    rw [List.filter_eq_nil_iff]
    intro p hp
    simpa using h p hp
  simp only [settleKills, this, List.foldl_nil]

/-- Where a bundle has begun nothing, its settling changes nothing. -/
theorem settleIssue_calm {s : State} (h : s.Calm) : settleIssue s = s := by
  rw [settleIssue, settleUnwinds_none h.noUnwind, settleKills_none h.noKill]

theorem settleWrites_none {s : State} (h : ∀ w ∈ s.dwrites, s.writeDue w = false) : settleWrites s = s := by
  have h1 : s.dwrites.filter s.writeDue = [] := by
    rw [List.filter_eq_nil_iff]
    intro w hw
    simp [h w hw]
  have h2 : s.dwrites.filter (fun w => !s.writeDue w) = s.dwrites := by
    rw [List.filter_eq_self]
    intro w hw
    simp [h w hw]
  simp only [settleWrites, h1, h2, List.foldl_nil]

/-- Where a step has begun nothing, its settling frees the released images that no task uses, and changes nothing else. -/
theorem settleAll_still {s : State} (h : s.Still) :
    settleAll s = if s.seals.any (fun p => p.2.released && !s.usesSeal p.1) then freeSeals s else s := by
  have hw : settleWrites s = s := settleWrites_none (by simp [h.noWrite])
  rw [settleAll]
  simp only [settleUnwinds_none h.noUnwind, hw]
  split
  · exact settleKills_none (s := freeSeals s) h.noKill
  · exact settleKills_none h.noKill

/-- The settling of such a step leaves every field but the seal records. -/
theorem settleAll_still_rest {s : State} (h : s.Still) : settleAll s = { s with seals := (settleAll s).seals } := by
  rw [settleAll_still h]
  split <;> rfl

@[simp] theorem State.ctx_performTagged (s : State) (g c : Nat) : (s.performTagged g).ctx c = s.ctx c := by
  unfold State.performTagged; split <;> rfl

@[simp] theorem State.performTagged_rest (s : State) (g : Nat) : (s.performTagged g).unwinds = s.unwinds ∧ (s.performTagged g).tasks = s.tasks ∧
    (s.performTagged g).mem = s.mem ∧ (∀ n, n ≠ g → (s.performTagged g).core n = s.core n) := by
  unfold State.performTagged
  split
  · simp
  · exact ⟨rfl, rfl, rfl, fun n h => State.core_modCore_ne s _ h⟩

/-- Where no tagged write stands among the scratchpad's pending writes, a bundle's end performs none. -/
theorem State.performTagged_none {s : State} {g : Nat} (h : ∀ w ∈ (s.core g).spw, w.bound ≠ 0) :
    (s.performTagged g).core g = s.core g := by
  unfold State.performTagged
  split
  · rfl
  · rw [State.core_modCore_same, Core.performTagged]
    have : (s.core g).spw.filter (fun w => w.bound == 0) = [] := by
      rw [List.filter_eq_nil_iff]
      intro w hw
      simpa using h w hw
    simp [this]

/-- The end of a bundle that does not transfer control. -/
theorem finishIssue_seq {s : State} {c : Nat} (h : (s.ctx c).nxt = .seq) : finishIssue s c = issuedNext s c := by
  have h' : ((({ s with free := s.free + 1 } : State).performTagged (coreOf c)).ctx c).nxt = .seq := by rw [State.ctx_performTagged]; exact h
  unfold finishIssue
  simp only [h']
  rfl

theorem finishIssue_jump {s : State} {c p b : Nat} (h : (s.ctx c).nxt = .jump p b) : finishIssue s c = jumpNext s c p b := by
  have h' : ((({ s with free := s.free + 1 } : State).performTagged (coreOf c)).ctx c).nxt = .jump p b := by rw [State.ctx_performTagged]; exact h
  unfold finishIssue
  simp only [h']
  simp [jumpNext, issuedNext, State.modCtx, State.setCtx, State.ctx, Context.afterBundle]

theorem issuedNext_unwinds (s : State) (c : Nat) : (issuedNext s c).unwinds = s.unwinds := by simp [issuedNext]
theorem issuedNext_tasks (s : State) (c : Nat) : (issuedNext s c).tasks = s.tasks := by simp [issuedNext]

/-- A slot without an access walks nothing. -/
theorem walkSlots_none {s : State} {c : Nat} {o : SlotOp} (h : o.mem c s = none) : walkSlots c [o] s = s := by
  simp [walkSlots, h]

/-- A bundle of one slot, in general: its walk, then its effect, then the end of the bundle. -/
theorem issueOne_walked {s t : State} {c : Nat} {o : SlotOp} (h : Acts s c) (hg : readGuard (walkSlots c [o] s) c o.guard = true)
    (hr : o.run c (walkSlots c [o] s) = .issued t) : issueOne o s = .next (settleIssue (finishIssue t c)) := by
  unfold issueOne
  simp only [h.acting, issueSlots, runSlots, hg, hr, Bool.not_true, Bool.false_eq_true, if_false]

/-- A bundle of one slot that can issue and does not transfer control. -/
theorem issueOne_issued {s t : State} {c : Nat} {o : SlotOp} (h : Acts s c) (hm : o.mem c s = none) (hg : readGuard s c o.guard = true)
    (hr : o.run c s = .issued t) (hn : (t.ctx c).nxt = .seq) (hc : t.Calm) : issueOne o s = .next (issuedNext t c) := by
  rw [issueOne_walked h (by rw [walkSlots_none hm]; exact hg) (by rw [walkSlots_none hm]; exact hr), finishIssue_seq hn, settleIssue_calm (hc.congr (issuedNext_unwinds t c) (issuedNext_tasks t c))]

/-- A bundle of one slot whose guard is false. -/
theorem issueOne_skipped {s : State} {c : Nat} {o : SlotOp} (h : Acts s c) (hm : o.mem c s = none) (hg : readGuard s c o.guard = false) :
    issueOne o s = .next (issuedNext s c) := by
  unfold issueOne
  simp only [h.acting, issueSlots, walkSlots_none hm, runSlots, hg, Bool.not_false, if_true]
  rw [finishIssue_seq h.between, settleIssue_calm (h.toCalm.congr (issuedNext_unwinds s c) (issuedNext_tasks s c))]

/-- A bundle of one slot that takes a branch. -/
theorem issueOne_jump {s t : State} {c p b : Nat} {o : SlotOp} (h : Acts s c) (hm : o.mem c s = none) (hg : readGuard s c o.guard = true)
    (hr : o.run c s = .issued t) (hn : (t.ctx c).nxt = .jump p b) (hc : t.Calm) : issueOne o s = .next (jumpNext t c p b) := by
  rw [issueOne_walked h (by rw [walkSlots_none hm]; exact hg) (by rw [walkSlots_none hm]; exact hr), finishIssue_jump hn, settleIssue_calm (s := jumpNext t c p b) (hc.congr (by simp [jumpNext, issuedNext_unwinds]) (by simp [jumpNext, issuedNext_tasks]))]

/-- A core without an ACTIVE context. -/
theorem issueOne_idle {s : State} {o : SlotOp} (h : s.acting = none) : issueOne o s = .next s := by
  unfold issueOne
  simp only [h]

/-! ### What an exposed result is: an entry among the pending results -/

@[simp] theorem expose_rest (s : State) (c slot : Nat) (d : Dst) (v b : Nat) (ev : Cats) :
    (expose s c slot d v b ev).cores = s.cores ∧ (∀ g, (expose s c slot d v b ev).core g = s.core g) ∧ (expose s c slot d v b ev).mem = s.mem ∧
    (expose s c slot d v b ev).tasks = s.tasks ∧ (expose s c slot d v b ev).unwinds = s.unwinds :=
  ⟨rfl, fun _ => rfl, rfl, rfl, rfl⟩
@[simp] theorem expose_nxt (s : State) (c slot : Nat) (d : Dst) (v b : Nat) (ev : Cats) : ((expose s c slot d v b ev).ctx c).nxt = (s.ctx c).nxt := by
  simp [expose]
theorem expose_calm {s : State} (h : s.Calm) (c slot : Nat) (d : Dst) (v b : Nat) (ev : Cats) : (expose s c slot d v b ev).Calm := h.congr rfl rfl

/-- A one-slot bundle whose effect is one exposed result. -/
theorem issueOne_expose {s : State} {c slot v b : Nat} {d : Dst} {ev : Cats} {o : SlotOp} (h : Acts s c) (hm : o.mem c s = none)
    (hg : readGuard s c o.guard = true) (hr : o.run c s = .issued (expose s c slot d v b ev)) : issueOne o s = .next (issuedNext (expose s c slot d v b ev) c) :=
  issueOne_issued h hm hg hr (by rw [expose_nxt]; exact h.between) (expose_calm h.toCalm ..)

/-- The pending results after an exposed one. -/
theorem expose_pend (s : State) (c slot : Nat) (d : Dst) (v b : Nat) (ev : Cats) :
    ((expose s c slot d v b ev).ctx c).pend =
      (s.ctx c).pend ++ [⟨d, v, b, ev, 0, false, false, (s.ctx c).order, slot, (s.ctx c).handle, (s.ctx c).pc⟩] := by
  simp [expose]

end Sys2Proof.Machine
end

