-- ==== Sys2Proof/Laws/Ops.lean ====
section
/-! SUPPORT. What the shared operations over registers, tokens, clocks and memory can do, said once each. -/

namespace Sys2Proof.Machine

/-! ### System registers -/

@[simp] theorem Context.sysReg_setSys_same (x : Context) (n : Nat) (v : W64) : (x.setSys n v).sysReg n = v := by
  simp [Context.sysReg, Context.setSys]

theorem Context.sysReg_setSys_ne (x : Context) {n m : Nat} (v : W64) (h : m ≠ n) : (x.setSys n v).sysReg m = x.sysReg m := by
  unfold Context.sysReg Context.setSys SMap.set
  dsimp only
  split
  · exact SMap.get_del_ne _ x.sys h
  · rw [SMap.get_put_ne _ _ v h, SMap.get_del_ne _ x.sys h]

/-- A system register's write leaves the other registers alone. -/
@[simp] theorem Context.setSys_rest (x : Context) (n : Nat) (v : W64) : (x.setSys n v).pc = x.pc ∧ (x.setSys n v).sr = x.sr ∧
    (x.setSys n v).pr = x.pr ∧ (x.setSys n v).tok = x.tok := by
  and_intros <;> rfl

/-! ### Registers that are wired: s0 reads 0, p0 true, vm0 all ones, and they discard what lands (R48) -/

@[simp] theorem readS_zero (s : State) (c : Nat) : readS s c 0 = 0 := rfl
@[simp] theorem readP_zero (s : State) (c : Nat) : readP s c 0 = true := rfl
@[simp] theorem readVm_zero (s : State) (c : Nat) : readVm s c 0 = BitVec.allOnes 64 := rfl
@[simp] theorem Context.put_zero (x : Context) (v : Nat) : x.put (.s 0) v = x ∧ x.put (.p 0) v = x ∧ x.put (.vm 0) v = x := by
  and_intros <;> rfl

/-! ### Tokens (R112, R113) -/

@[simp] theorem Context.tokPending_zero (x : Context) : x.tokPending 0 = false := rfl

/-- A token that a command takes is pending, k0 apart. -/
theorem Context.tokPending_tokPend (x : Context) {k : Nat} (h0 : k ≠ 0) (h : k < 32) : (x.tokPend k).tokPending k = true := by
  simp [Context.tokPend, Context.tokPending, h0, h]

/-- A token whose command retires is done. -/
theorem Context.tokPending_tokDone (x : Context) (k t : Nat) : (x.tokDone k t).tokPending k = false := by
  by_cases h : k < 32 <;> simp [Context.tokDone, Context.tokPending, h]

/-! ### Clocks and memory (R95, R101) -/

@[simp] theorem State.setPts_mem (s : State) (a : Agent) (t : Nat) : (s.setPts a t).mem = s.mem := by cases a <;> rfl

@[simp] theorem State.raise_mem (s : State) (a : Agent) (t : Nat) : (s.raise a t).mem = s.mem := by
  unfold State.raise; split <;> simp

@[simp] theorem State.wake_mem (s : State) (line : Nat) : (s.wake line).mem = s.mem := rfl

@[simp] theorem State.stampStore_mem (s : State) (a : Agent) (line : Nat) : (s.stampStore a line).mem = s.mem := by
  simp [State.stampStore]

@[simp] theorem State.refreshL1_mem (s : State) (a : Agent) (line : Nat) : (s.refreshL1 a line).mem = s.mem := by
  unfold State.refreshL1; split
  · dsimp only; split <;> simp
  · rfl

@[simp] theorem State.clearBad_mem (s : State) (pa n : Nat) : (s.clearBad pa n).mem = s.mem := by
  unfold State.clearBad
  induction List.range ((pa + n - 1) / 8 + 1 - pa / 8) generalizing s with
  | nil => rfl
  | cons i r ih =>
    rw [List.foldl_cons, ih]
    dsimp only
    split <;> rfl

/-- A store's whole effect on memory is the bytes that it writes. -/
@[simp] theorem State.storePhys_mem (s : State) (a : Agent) (pa n v : Nat) : (s.storePhys a pa n v).mem = (s.writeN pa n v).mem := by
  simp [State.storePhys]

/-- A store leaves every byte outside it as it was. -/
theorem State.byte_storePhys_out (s : State) (a : Agent) (pa n v e : Nat) (h : e < pa ∨ pa + n ≤ e) :
    (s.storePhys a pa n v).byte e = s.byte e := by
  rw [← State.byte_writeN_out n s pa v e h]
  simp only [State.byte, State.storePhys_mem]

/-- A store keeps the canonical form of memory. -/
theorem State.wf_storePhys (s : State) (a : Agent) (pa n v : Nat) (h : Memory.wf s.mem = true) :
    Memory.wf (s.storePhys a pa n v).mem = true := by
  rw [State.storePhys_mem]; exact State.wf_writeN n s pa v h

/-- A load changes no byte of memory. -/
@[simp] theorem State.loadHome_mem (s : State) (a : Agent) (pa lease : Nat) : (s.loadHome a pa lease).mem = s.mem := by
  simp [State.loadHome]

@[simp] theorem State.loadPhys_mem (s : State) (a : Agent) (pa n : Nat) (b : Bool) : (s.loadPhys a pa n b).2.2.mem = s.mem := by
  unfold State.loadPhys
  cases a with
  | core g =>
    dsimp only
    split
    · simp
    · split
      · simp
      · show ({ s.loadHome (.core g) pa (Config.freeLease s.free % 256 + 1) with free := s.free + 1 } : State).mem = s.mem
        simp
  | _ => simp

/-! ### Translation (R359, R360) -/

/-- The bits A and D are no part of what else a leaf says. -/
theorem adBits_other (p : W64) (acc : Acc) (i : Nat) (h6 : i ≠ 6) (h7 : i ≠ 7) : (adBits p acc).getLsbD i = p.getLsbD i := by
  have a : (0x40#64).getLsbD i = false := by
    rcases Nat.lt_or_ge i 64 with h | h
    · have : ∀ j : Fin 64, j.val ≠ 6 → (0x40#64).getLsbD j.val = false := by decide
      exact this ⟨i, h⟩ h6
    · exact BitVec.getLsbD_of_ge _ _ h
  have b : (0xC0#64).getLsbD i = false := by
    rcases Nat.lt_or_ge i 64 with h | h
    · have : ∀ j : Fin 64, j.val ≠ 6 → j.val ≠ 7 → (0xC0#64).getLsbD j.val = false := by decide
      exact this ⟨i, h⟩ h6 h7
    · exact BitVec.getLsbD_of_ge _ _ h
  unfold adBits
  split <;> simp [BitVec.getLsbD_or, a, b]

theorem adBits_adBits (p : W64) (acc : Acc) : adBits (adBits p acc) acc = adBits p acc := by
  unfold adBits
  split <;> rw [BitVec.or_assoc, BitVec.or_self]

theorem permOk_adBits (p : W64) (acc : Acc) (k : Bool) : permOk (adBits p acc) acc k = permOk p acc k := by
  simp only [permOk, pbit, adBits_other _ _ 1 (by decide) (by decide), adBits_other _ _ 2 (by decide) (by decide),
    adBits_other _ _ 4 (by decide) (by decide)]

theorem pppn_adBits (p : W64) (acc : Acc) : pppn (adBits p acc) = pppn p := by
  unfold pppn
  congr 1
  apply Nat.eq_of_testBit_eq
  intro i
  rw [Nat.testBit_div_two_pow, Nat.testBit_div_two_pow]
  exact adBits_other p acc (i + 10) (by omega) (by omega)

theorem leafPa_adBits (p : W64) (acc : Acc) (level va : Nat) : leafPa (adBits p acc) level va = leafPa p level va := by
  have h : pbit (adBits p acc) 63 = pbit p 63 := adBits_other p acc 63 (by decide) (by decide)
  rw [leafPa.eq_def, leafPa.eq_def, pppn_adBits, h]

@[simp] theorem State.setPts_tasks (s : State) (a : Agent) (t : Nat) : (s.setPts a t).tasks = s.tasks := by cases a <;> rfl

@[simp] theorem State.readAll_mem (s : State) (a : Agent) (l : List Nat) : (s.readAll a l).mem = s.mem := by
  unfold State.readAll
  induction l generalizing s with
  | nil => rfl
  | cons p r ih => rw [List.foldl_cons, ih, State.loadHome_mem]

/-- What a walk that ends well has done: the leaf is held with A, and D for a write, and no other access of its page by the agent is. -/
theorem walkTr_held {s t : State} {d asid va pa : Nat} {a : Agent} {acc : Acc} {k : Bool} {pte : W64}
    (h : walkTr s d a asid va acc k = .ok pa pte t) :
    ∃ level at_ r, t.tlbs = ⟨a, asid, va % 2 ^ 48 / 4096, level, pte, at_⟩ :: r ∧ permOk pte acc k = true ∧ adBits pte acc = pte ∧
      pa = leafPa pte level (va % 2 ^ 48) := by
  unfold walkTr at h
  dsimp only at h
  repeat' split at h
  all_goals try (simp only [reduceCtorEq] at h)
  all_goals
    injection h with h1 h2 h3
    subst h2
    refine ⟨_, _, _, by rw [← h3], ?_, adBits_adBits _ _, by rw [← h1, leafPa_adBits]⟩
    rw [permOk_adBits]
    simp_all

/-! ### What a store or a translation leaves alone besides memory -/

@[simp] theorem State.writeN_rest (n : Nat) : ∀ (s : State) (pa v : Nat), (s.writeN pa n v).tasks = s.tasks ∧ (s.writeN pa n v).free = s.free := by
  induction n with
  | zero => intro s pa v; exact ⟨rfl, rfl⟩
  | succ n ih => intro s pa v; exact ⟨(ih _ _ _).1, (ih _ _ _).2⟩

@[simp] theorem State.clearBad_rest (s : State) (pa n : Nat) : (s.clearBad pa n).tasks = s.tasks ∧ (s.clearBad pa n).free = s.free := by
  unfold State.clearBad
  induction List.range ((pa + n - 1) / 8 + 1 - pa / 8) generalizing s with
  | nil => exact ⟨rfl, rfl⟩
  | cons i r ih =>
    rw [List.foldl_cons, (ih _).1, (ih _).2]
    dsimp only
    split <;> exact ⟨rfl, rfl⟩

@[simp] theorem State.setPts_free (s : State) (a : Agent) (t : Nat) : (s.setPts a t).free = s.free := by cases a <;> rfl

/-- A store changes no task and draws no free value. -/
@[simp] theorem State.storePhys_rest (s : State) (a : Agent) (pa n v : Nat) :
    (s.storePhys a pa n v).tasks = s.tasks ∧ (s.storePhys a pa n v).free = s.free := by
  have hw : ∀ (u : State) (l : Nat), (u.wake l).tasks = u.tasks ∧ (u.wake l).free = u.free := fun _ _ => ⟨rfl, rfl⟩
  have hr : ∀ (u : State) (l : Nat), (u.refreshL1 a l).tasks = u.tasks ∧ (u.refreshL1 a l).free = u.free := by
    intro u l
    unfold State.refreshL1
    split
    · dsimp only; split <;> simp
    · simp
  simp [State.storePhys, State.stampStore, hw, hr]

@[simp] theorem State.readAll_rest (s : State) (a : Agent) (l : List Nat) : (s.readAll a l).tasks = s.tasks ∧ (s.readAll a l).free = s.free := by
  unfold State.readAll
  induction l generalizing s with
  | nil => exact ⟨rfl, rfl⟩
  | cons p r ih => rw [List.foldl_cons, (ih _).1, (ih _).2]; simp [State.loadHome]

/-- A translation that ends well changes no task and draws no free value. -/
theorem translate_rest {s t : State} {d asid va pa : Nat} {a : Agent} {acc : Acc} {k : Bool} {pte : W64}
    (h : translate s d a asid va acc k = .ok pa pte t) : t.tasks = s.tasks ∧ t.free = s.free := by
  have hw : ∀ {u}, walkTr s d a asid va acc k = .ok pa pte u → u.tasks = s.tasks ∧ u.free = s.free := by
    intro u h
    unfold walkTr at h
    dsimp only at h
    repeat' split at h
    all_goals try (simp only [reduceCtorEq] at h)
    all_goals
      injection h with _ _ h3
      rw [← h3]
      simp
  unfold translate at h
  repeat' split at h
  all_goals try (simp only [reduceCtorEq] at h)
  · injection h with _ _ h3; rw [h3]; exact ⟨rfl, rfl⟩
  · exact hw h
  · exact hw h

/-- An access that has been translated is translated again at once, to the same place and without a further effect (R359, R360). -/
theorem translate_again {s t : State} {d asid va pa : Nat} {a : Agent} {acc : Acc} {k : Bool} {pte : W64}
    (h : translate s d a asid va acc k = .ok pa pte t) : translate t d a asid va acc k = .ok pa pte t := by
  have hl : l1fOk t a asid (va % 2 ^ 64) = l1fOk s a asid (va % 2 ^ 64) := by
    simp only [l1fOk, State.l1fAt, (translate_rest h).1]
  have hw : walkTr s d a asid va acc k = .ok pa pte t → ¬((!canonical va || !l1fOk s a asid (va % 2 ^ 64)) = true) →
      translate t d a asid va acc k = .ok pa pte t := by
    intro hk hc
    obtain ⟨level, at_, r, hr, hp, hb, ha⟩ := walkTr_held hk
    unfold translate
    rw [hl, if_neg hc, hr]
    simp [hp, hb, ha]
  unfold translate at h
  split at h
  · simp only [reduceCtorEq] at h
  · rename_i hc
    split at h
    · rename_i x hx
      split at h
      · injection h with h1 h2 h3
        subst h1 h2 h3
        rename_i hp
        unfold translate
        rw [if_neg hc, hx]
        simp only [hp, if_true]
      · exact hw h hc
    · exact hw h hc

/-! ### Traps (R147) -/

@[simp] theorem Context.sysReg_place (x : Context) (n h v o : Nat) :
    Context.sysReg { x with handle := h, pc := v, trap := none, frz := 0, spent := 0, delay := 0, bubble := 0, watch := none, test := none,
                            due := none, barPass := none, barIn := none, trapOrder := o } n = x.sysReg n := rfl

/-- A trap that finds no handler active and a vector inside its image enters it: the handler's registers, level K, and the pc at the vector. -/
theorem enterTrap_enters (s : State) (c : Nat) (t : PendTrap) (ha : ((s.ctx c).sysReg 0x044).getLsbD 1 = false)
    (hv : (((s.ctx c).sysReg 0x040).extractLsb' 11 13).toNat * 2048 + 64 * t.code < s.imageLen (((s.ctx c).sysReg 0x040) >>> 52).toNat) :
    ((enterTrap s c t).ctx c).pc = (((s.ctx c).sysReg 0x040).extractLsb' 11 13).toNat * 2048 + 64 * t.code ∧
    ((enterTrap s c t).ctx c).handle = (((s.ctx c).sysReg 0x040) >>> 52).toNat ∧
    ((enterTrap s c t).ctx c).kLevel = true ∧
    ((enterTrap s c t).ctx c).sysReg 0x041 = place t.handle t.pc ∧
    ((enterTrap s c t).ctx c).sysReg 0x043 = t.info ∧
    (enterTrap s c t).mem = s.mem := by
  have hv' : ¬ s.imageLen (((s.ctx c).sysReg 0x040) >>> 52).toNat ≤ (((s.ctx c).sysReg 0x040).extractLsb' 11 13).toNat * 2048 + 64 * t.code := by
    omega
  unfold enterTrap
  simp only [ha, decide_eq_false hv', Bool.or_false, Bool.false_eq_true, if_false, State.parts_modCore, State.ctx_setCtx_same]
  refine ⟨trivial, trivial, ?_, ?_, ?_, rfl⟩
  · rw [Context.kLevel, Context.sysReg_place, Context.sysReg_setSys_same]; decide
  · rw [Context.sysReg_place, Context.sysReg_setSys_ne _ _ (by decide), Context.sysReg_setSys_ne _ _ (by decide),
      Context.sysReg_setSys_ne _ _ (by decide), Context.sysReg_setSys_ne _ _ (by decide), Context.sysReg_setSys_same]
  · rw [Context.sysReg_place, Context.sysReg_setSys_ne _ _ (by decide), Context.sysReg_setSys_ne _ _ (by decide),
      Context.sysReg_setSys_same]

end Sys2Proof.Machine
end

