-- ==== Sys2Proof/Tests/Slice0.lean ====
section
/-! SUPPORT. Tests of the model: ill-formed terms that each check of WellFormed refuses, words of the spec and of the opcode table that decode
to their instructions, and for each statement of Obligations.lean with hypotheses a state and operands that meet them. -/

namespace Sys2Proof

open Machine

set_option Elab.async false

/-! ### Checks of WellFormed -/

/-- An inverted guard of p0 is refused (02_bundle.md R55, KIND 4). -/
theorem test_ill_guard : Instr.wellFormed (.saAdd .a ⟨0, true⟩ 1 2 3) = false ∧ Instr.wellFormed (.saAdd .a ⟨1, true⟩ 1 2 3) = true := by
  decide +kernel

/-- Field values that an entry does not list are refused (R55, KIND 3). -/
theorem test_ill_range :
    Instr.wellFormed (.saMulh .a ⟨0, false⟩ 1 2 3 3) = false ∧ Instr.wellFormed (.brDelay 0) = false ∧
    Instr.wellFormed (.saMtsr .a ⟨0, false⟩ 1 0x004) = false ∧ Instr.wellFormed (.saMfsr .a ⟨0, false⟩ 1 0x004) = true ∧
    Instr.wellFormed (.saMfsr .a ⟨0, false⟩ 1 0x050) = false ∧ Instr.wellFormed (.ldRow ⟨0, false⟩ 32 1 0 0) = false ∧
    Instr.wellFormed (.vxCvt ⟨0, false⟩ 1 2 10 0) = false ∧ Instr.wellFormed (.vxExt ⟨0, false⟩ 1 2 32 1) = false ∧
    Instr.wellFormed (.mxMma ⟨0, false⟩ 0 0 0 0 2) = false := by decide +kernel

/-- Two hold markings in one slot, and one in a mask field, are refused (R47, R178; KIND 5). -/
theorem test_ill_hold :
    Instr.wellFormed (.vxAdd ⟨0, false⟩ 1 34 35 0) = false ∧ Instr.wellFormed (.vxAdd ⟨0, false⟩ 1 34 63 0) = true ∧
    Instr.wellFormed (.vxRedsum ⟨0, false⟩ 1 2 33 0) = false := by decide +kernel

/-- KIND 2: the system-register moves and the tile-shape write do not exist in SB (02_bundle.md R51, R55). -/
theorem test_ill_unit :
    Instr.wellFormed (.saMfsr .b ⟨0, false⟩ 1 4) = false ∧ Instr.wellFormed (.saMtsr .b ⟨0, false⟩ 1 1) = false ∧
    Instr.wellFormed (.saTshape .b ⟨0, false⟩ 1 2) = false ∧ Instr.wellFormed (.saTshape .a ⟨0, false⟩ 1 2) = true := by decide +kernel

/-- Device steps of units that do not exist are refused (R4). -/
theorem test_ill_units :
    Instr.wellFormed (.takeIssue 320) = false ∧ Instr.wellFormed (.trapEntry 1280) = false ∧ Instr.wellFormed (.cqadd 0 52 0 0) = false ∧
    Instr.wellFormed (.ptsTick 320) = false ∧ Instr.wellFormed (.ptsTick 1400) = true ∧ agentCodes.all agentOk = true ∧
    Instr.wellFormed (.boot 2) = false ∧ Instr.wellFormed (.systemCoreInstruction 0 9) = false ∧
    Instr.wellFormed (.systemCoreInstruction 1 8) = true := by decide +kernel

/-- What sealing refuses in a word, and as which KIND of R55: a reserved field (1), an unassigned cell (2), a value that is not listed (3), guard
misuse (4), hold misuse (5). -/
theorem test_refused_words :
    [(Slot.br, (0x00800001 : SlotWord)), (.sq, 0x00000001), (.br, 0x07E00000), (.sb, 0x05218020), (.sa, 0x00800003), (.br, 0x00E00000), (.sa, 0x08228C38),
      (.br, 0x10E00005), (.vx, 0x0020C518)].map (fun p => match decodeSlot p.1 p.2 with | .error k => k.code | .ok _ => 0) =
    [1, 1, 2, 2, 3, 3, 4, 4, 5] := by decide +kernel

/-! ### Decoding -/

/-- The words that 07_vector.md and 02_bundle.md write out for their slot. -/
theorem test_words_vx :
    (decodeSlot .vx 0x0020C418).toOption = some (.vxAdd ⟨0, false⟩ 1 34 3 0) ∧
    (decodeSlot .vx 0x00627E28).toOption = some (.vxMul ⟨0, false⟩ 4 63 5 0) ∧
    (decodeSlot .vx 0x0160841C).toOption = some (.vxAnd ⟨0, false⟩ 1 2 3) ∧
    (decodeSlot .vx 0x02648800).toOption = some (.vxBcast ⟨0, false⟩ 9 4 0) ∧
    (decodeSlot .vx 0x0281FFFE).toOption = some (.vxMovi ⟨0, false⟩ 3 (-2)) ∧
    (decodeSlot .vx 0x02083110).toOption = some (.vxCmp ⟨0, false⟩ 2 3 4 2 0) ∧
    (decodeSlot .vx 0x02230E42).toOption = some (.vxSel ⟨0, false⟩ 6 7 8 2) ∧
    (decodeSlot .vx 0x02408418).toOption = some (.vxPerm ⟨0, false⟩ 1 2 3 0) ∧
    (decodeSlot .vx 0x04848888).toOption = some (.vxExt ⟨0, false⟩ 9 4 17 0) ∧
    (decodeSlot .vx 0x02A10A08).toOption = some (.vxRedsum ⟨0, false⟩ 2 5 1 0) ∧
    (decodeSlot .vx 0x02E20A00).toOption = some (.vxExp ⟨0, false⟩ 4 5) ∧
    (decodeSlot .vx 0x03430E0C).toOption = some (.vxCvt ⟨0, false⟩ 6 7 0 6) ∧
    (decodeSlot .vx 0x03851650).toOption = some (.vxAmax ⟨0, false⟩ 10 11 10 0) ∧
    (decodeSlot .vx 0x03A61468).toOption = some (.vxScale ⟨0, false⟩ 12 10 13 0) ∧
    (decodeSlot .vx 0x03E22000).toOption = some (.vxPop ⟨0, false⟩ 4 2) ∧
    (decodeSlot .vx 0x03C1A000).toOption = some (.vxPush ⟨0, false⟩ 3 2) ∧
    (decodeSlot .vx 0x04028C38).toOption = some (.vxRand ⟨0, false⟩ 5 6 7 0) ∧
    (decodeSlot .vx 0x0421000A).toOption = some (.vxAcs ⟨0, false⟩ 2 0 1 2) ∧
    (decodeSlot .vx 0x04418801).toOption = some (.vxTval ⟨0, false⟩ 3 4 1) ∧
    (decodeSlot .vx 0x01228C38).toOption = some (.vxMax ⟨0, false⟩ 5 6 7 0) ∧
    (decodeSlot .vx 0x00451664).toOption = some (.vxSub ⟨0, false⟩ 10 11 12 4) ∧
    (decodeSlot .vx 0x00E10834).toOption = some (.vxFmaBf16 ⟨0, false⟩ 1 2 3 4) ∧
    (decodeSlot .vx 0x01408400).toOption = some (.vxAbs ⟨0, false⟩ 1 2 0) ∧
    (decodeSlot .vx 0x04608400).toOption = some (.vxMov ⟨0, false⟩ 1 2) := by decide +kernel

/-- The words that 05_control.md and 02_bundle.md write out for their slot. -/
theorem test_words_br :
    (decodeSlot .br 0x00E00005).toOption = some (.brDelay 5) ∧
    (decodeSlot .br 0x0040000A).toOption = some (.brCall ⟨0, false⟩ 10) ∧
    (decodeSlot .br 0x003FFFFC).toOption = some (.brJmp ⟨0, false⟩ (-4)) ∧
    (decodeSlot .br 0x00640000).toOption = some (.brJmpr ⟨0, false⟩ 8) ∧
    (decodeSlot .br 0x00800000).toOption = some (.brRet ⟨0, false⟩) ∧
    (decodeSlot .br 0x00AFFFFD).toOption = some (.brLoop ⟨0, false⟩ 1 (-3)) ∧
    (decodeSlot .br 0x00C8E000).toOption = some (.brLset ⟨0, false⟩ 1 7) ∧
    (decodeSlot .br 0x01020A00).toOption = some (.brWaita ⟨0, false⟩ 4 5 0) ∧
    (decodeSlot .br 0x01200004).toOption = some (.brTokw ⟨0, false⟩ 4) ∧
    (decodeSlot .br 0x02418000).toOption = some (.brBar ⟨0, false⟩ 3) ∧
    (decodeSlot .br 0x01420000).toOption = some (.brPload ⟨0, false⟩ 4) ∧
    (decodeSlot .br 0x01600000).toOption = some (.brEarly ⟨0, false⟩) ∧
    (decodeSlot .br 0x01800000).toOption = some (.brExit ⟨0, false⟩) ∧
    (decodeSlot .br 0x02200001).toOption = some (.brBrk ⟨0, false⟩ 1) ∧
    (decodeSlot .br 0x01A00003).toOption = some (.brSys ⟨0, false⟩ 3) ∧
    (decodeSlot .br 0x02000000).toOption = some (.brCrgnClose) ∧
    (decodeSlot .br 0x01E00006).toOption = some (.brCrgnOpen 6) ∧
    (decodeSlot .br 0x02600000).toOption = some (.brFevclr ⟨0, false⟩) := by decide +kernel

/-- The words that 05_control.md write out for their slot. -/
theorem test_words_sa :
    (decodeSlot .sa 0x05218020).toOption = some (.saMfsr .a ⟨0, false⟩ 3 4) ∧
    (decodeSlot .sa 0x05420000).toOption = some (.saMtsr .a ⟨0, false⟩ 4 0) ∧
    (decodeSlot .sa 0x01E620A8).toOption = some (.saCmp .a ⟨0, false⟩ 3 4 5 2) ∧
    (decodeSlot .sa 0x02084600).toOption = some (.saPand .a ⟨0, false⟩ 4 2 3) ∧
    (decodeSlot .sa 0x20228C38).toOption = some (.saAdd .a ⟨2, false⟩ 5 6 7) ∧
    (decodeSlot .sa 0x02849234).toOption = some (.saMovh .a ⟨0, false⟩ 9 0x1234) ∧
    (decodeSlot .sa 0x0264FFFF).toOption = some (.saMovi .a ⟨0, false⟩ 9 (-1)) ∧
    (decodeSlot .sa 0x04C28C18).toOption = some (.saFcvt .a ⟨0, false⟩ 5 6 0 3 0) ∧
    (decodeSlot .sa 0x03428C00).toOption = some (.saStB64 .a ⟨0, false⟩ 5 6 0) ∧
    (decodeSlot .sa 0x05643000).toOption = some (.saTshape .a ⟨0, false⟩ 2 6) := by decide +kernel

/-- The words that 06_scratchpad.md write out for their slot. -/
theorem test_words_ld :
    (decodeSlot .ld 0x00228883).toOption = some (.ldW ⟨0, false⟩ 5 4 1 3) ∧
    (decodeSlot .ld 0x00428800).toOption = some (.stW ⟨0, false⟩ 5 4 0 0) ∧
    (decodeSlot .ld 0x00608801).toOption = some (.ldRow ⟨0, false⟩ 1 4 0 1) ∧
    (decodeSlot .ld 0x00808800).toOption = some (.stRow ⟨0, false⟩ 1 4 0 0) ∧
    (decodeSlot .ld 0x00A10C02).toOption = some (.ldCol ⟨0, false⟩ 2 6 0 2) ∧
    (decodeSlot .ld 0x00C10C00).toOption = some (.stCol ⟨0, false⟩ 2 6 0 0) ∧
    (decodeSlot .ld 0x00E64000).toOption = some (.ldTile ⟨0, false⟩ 3 8 0) ∧
    (decodeSlot .ld 0x01064600).toOption = some (.stTile ⟨0, false⟩ 3 8 3) ∧
    (decodeSlot .ld 0x0124940F).toOption = some (.ldAcc ⟨0, false⟩ 9 10 0 15) ∧
    (decodeSlot .ld 0x01620B00).toOption = some (.ldTagsetFull ⟨0, false⟩ 4 5) := by decide +kernel

/-- The words that 09_matrix.md write out for their slot. -/
theorem test_words_mx :
    (decodeSlot .mx 0x00200180).toOption = some (.mxMma ⟨0, false⟩ 0 0 0 6 0) ∧
    (decodeSlot .mx 0x004B0000).toOption = some (.mxLatq ⟨0, false⟩ 1 3) ∧
    (decodeSlot .mx 0x0064A000).toOption = some (.mxLatt ⟨0, false⟩ 2 5) ∧
    (decodeSlot .mx 0x008CA000).toOption = some (.mxTtr ⟨0, false⟩ 6 5) ∧
    (decodeSlot .mx 0x00A49400).toOption = some (.mxAccz ⟨0, false⟩ 9 10) ∧
    (decodeSlot .mx 0x00C01240).toOption = some (.mxAccq ⟨0, false⟩ 0 9 1) := by decide +kernel

/-- The words that 08_trellis.md, 10_copy.md and 14_dispatch.md write out for their slot. -/
theorem test_words_dx :
    (decodeSlot .dx 0x00230E20).toOption = some (.dxCpost ⟨0, false⟩ 6 7 2) ∧
    (decodeSlot .dx 0x004110C0).toOption = some (.dxKdep ⟨0, false⟩ 1 2 3) ∧
    (decodeSlot .dx 0x00638000).toOption = some (.dxAqpop ⟨0, false⟩ 7) ∧
    (decodeSlot .dx 0x00885000).toOption = some (.dxQcfgCfg ⟨0, false⟩ 2 5) ∧
    (decodeSlot .dx 0x00C49800).toOption = some (.dxQrdAmax ⟨0, false⟩ 1 9) ∧
    (decodeSlot .dx 0x00A80000).toOption = some (.dxQstep ⟨0, false⟩ 2 0) ∧
    (decodeSlot .dx 0x01220A20).toOption = some (.dxTload ⟨0, false⟩ 4 5 2) ∧
    (decodeSlot .dx 0x00E98010).toOption = some (.dxMdec ⟨0, false⟩ 19 0 0 1) ∧
    (decodeSlot .dx 0x01087C00).toOption = some (.dxTdefRb ⟨0, false⟩ 2 7) ∧
    (decodeSlot .dx 0x01004000).toOption = some (.dxTdefWa ⟨0, false⟩ 0 4) := by decide +kernel

/-- The words that 11_kvblocks.md to 15_schedule.md write out for their slot. -/
theorem test_words_sq :
    (decodeSlot .sq 0x01030E00).toOption = some (.sqBalloc ⟨0, false⟩ 6 7) ∧
    (decodeSlot .sq 0x01228030).toOption = some (.sqBfree ⟨0, false⟩ 5 3) ∧
    (decodeSlot .sq 0x01228031).toOption = some (.sqBfreeAcq ⟨0, false⟩ 5 3) ∧
    (decodeSlot .sq 0x01420A20).toOption = some (.sqKvapp ⟨0, false⟩ 4 5 2) ∧
    (decodeSlot .sq 0x01641240).toOption = some (.sqKvfork ⟨0, false⟩ 8 9 4) ∧
    (decodeSlot .sq 0x01A41460).toOption = some (.sqKvcommit ⟨0, false⟩ 8 10 6) ∧
    (decodeSlot .sq 0x01840050).toOption = some (.sqKvroll ⟨0, false⟩ 8 5) ∧
    (decodeSlot .sq 0x01C59000).toOption = some (.sqKvwinGet ⟨0, false⟩ 11 8) ∧
    (decodeSlot .sq 0x01C59061).toOption = some (.sqKvwinSet ⟨0, false⟩ 11 8 12) ∧
    (decodeSlot .sq 0x02020A11).toOption = some (.sqGbindReset ⟨0, false⟩ 4 5 1) ∧
    (decodeSlot .sq 0x02220C20).toOption = some (.sqGstep ⟨0, false⟩ 4 6 2) ∧
    (decodeSlot .sq 0x02420E30).toOption = some (.sqGmask ⟨0, false⟩ 4 7 3) ∧
    (decodeSlot .sq 0x02640840).toOption = some (.sqGfork ⟨0, false⟩ 8 4 4) ∧
    (decodeSlot .sq 0x02821250).toOption = some (.sqGrollEnt ⟨0, false⟩ 4 9 5) ∧
    (decodeSlot .sq 0x02A21260).toOption = some (.sqGcommit ⟨0, false⟩ 4 9 6) ∧
    (decodeSlot .sq 0x00218828).toOption = some (.sqSmerge ⟨0, false⟩ 3 4 5) ∧
    (decodeSlot .sq 0x00400000).toOption = some (.sqSclr ⟨0, false⟩) ∧
    (decodeSlot .sq 0x00600C00).toOption = some (.sqStemp ⟨0, false⟩ 6) ∧
    (decodeSlot .sq 0x00800E00).toOption = some (.sqStopk ⟨0, false⟩ 7) ∧
    (decodeSlot .sq 0x00A01000).toOption = some (.sqStopp ⟨0, false⟩ 8) ∧
    (decodeSlot .sq 0x00C01250).toOption = some (.sqSdraw ⟨0, false⟩ 9 10) ∧
    (decodeSlot .sq 0x00E01603).toOption = some (.sqSgetTprob ⟨0, false⟩ 11) ∧
    (decodeSlot .sq 0x01E20A60).toOption = some (.sqSquash ⟨0, false⟩ 4 5 6) ∧
    (decodeSlot .sq 0x03460000).toOption = some (.sqRpop ⟨0, false⟩ 12) ∧
    (decodeSlot .sq 0x02C50420).toOption = some (.sqItnext ⟨0, false⟩ 10 2 4) ∧
    (decodeSlot .sq 0x02E10810).toOption = some (.sqItdone ⟨0, false⟩ 2 4 1) ∧
    (decodeSlot .sq 0x03010820).toOption = some (.sqItyield ⟨0, false⟩ 2 4 2) ∧
    (decodeSlot .sq 0x03211840).toOption = some (.sqSchw ⟨0, false⟩ 2 12 4) := by decide +kernel

/-- Branch cells, each with the fields of its row of spec/opcode_table.json at the places that the table gives (02_bundle.md R50, R51). -/
theorem test_decode_br :
    (decodeSlot .br 0xB8301235).toOption = some (.brJmp ⟨11, true⟩ 0x101235) ∧
    (decodeSlot .br 0xB8501235).toOption = some (.brCall ⟨11, true⟩ 0x101235) ∧
    (decodeSlot .br 0xB8758000).toOption = some (.brJmpr ⟨11, true⟩ 0x2B) ∧
    (decodeSlot .br 0xB8800000).toOption = some (.brRet ⟨11, true⟩) ∧
    (decodeSlot .br 0xB8B41235).toOption = some (.brLoop ⟨11, true⟩ 2 0x41235) ∧
    (decodeSlot .br 0xB8D2A000).toOption = some (.brLset ⟨11, true⟩ 2 0x15) ∧
    (decodeSlot .br 0x00E09235).toOption = some (.brDelay 0x9235) ∧
    (decodeSlot .br 0xB915AB80).toOption = some (.brWaita ⟨11, true⟩ 0x2B 0x15 6) ∧
    (decodeSlot .br 0xB9200013).toOption = some (.brTokw ⟨11, true⟩ 0x13) ∧
    (decodeSlot .br 0xB9558000).toOption = some (.brPload ⟨11, true⟩ 0x2B) ∧
    (decodeSlot .br 0xB9600000).toOption = some (.brEarly ⟨11, true⟩) ∧
    (decodeSlot .br 0xB9800000).toOption = some (.brExit ⟨11, true⟩) ∧
    (decodeSlot .br 0xB9A05235).toOption = some (.brSys ⟨11, true⟩ 0x5235) ∧
    (decodeSlot .br 0xB9C00000).toOption = some (.brTret ⟨11, true⟩) ∧
    (decodeSlot .br 0x01F01235).toOption = some (.brCrgnOpen 0x101235) ∧
    (decodeSlot .br 0x02000000).toOption = some (.brCrgnClose) ∧
    (decodeSlot .br 0xBA205235).toOption = some (.brBrk ⟨11, true⟩ 0x5235) ∧
    (decodeSlot .br 0xBA558000).toOption = some (.brBar ⟨11, true⟩ 0x2B) ∧
    (decodeSlot .br 0xBA600000).toOption = some (.brFevclr ⟨11, true⟩) := by decide +kernel

/-- Scalar cells in slot 1, each with the fields of its row of spec/opcode_table.json at the places that the table gives (02_bundle.md R50, R51). -/
theorem test_decode_sa_1 :
    (decodeSlot .sa 0xB835ABB0).toOption = some (.saAdd .a ⟨11, true⟩ 0x2B 0x15 0x36) ∧
    (decodeSlot .sa 0xB855ABB0).toOption = some (.saSub .a ⟨11, true⟩ 0x2B 0x15 0x36) ∧
    (decodeSlot .sa 0xB875ABB0).toOption = some (.saMul .a ⟨11, true⟩ 0x2B 0x15 0x36) ∧
    (decodeSlot .sa 0xB895ABB2).toOption = some (.saMulh .a ⟨11, true⟩ 0x2B 0x15 0x36 2) ∧
    (decodeSlot .sa 0xB8B5ABB1).toOption = some (.saDiv .a ⟨11, true⟩ 0x2B 0x15 0x36 1) ∧
    (decodeSlot .sa 0xB8D5ABB1).toOption = some (.saRem .a ⟨11, true⟩ 0x2B 0x15 0x36 1) ∧
    (decodeSlot .sa 0xB8F5ABB0).toOption = some (.saAnd .a ⟨11, true⟩ 0x2B 0x15 0x36) ∧
    (decodeSlot .sa 0xB915ABB0).toOption = some (.saOr .a ⟨11, true⟩ 0x2B 0x15 0x36) ∧
    (decodeSlot .sa 0xB935ABB0).toOption = some (.saXor .a ⟨11, true⟩ 0x2B 0x15 0x36) ∧
    (decodeSlot .sa 0xB955ABB0).toOption = some (.saShl .a ⟨11, true⟩ 0x2B 0x15 0x36) ∧
    (decodeSlot .sa 0xB975ABB0).toOption = some (.saShr .a ⟨11, true⟩ 0x2B 0x15 0x36) ∧
    (decodeSlot .sa 0xB995ABB0).toOption = some (.saSra .a ⟨11, true⟩ 0x2B 0x15 0x36) ∧
    (decodeSlot .sa 0xB9B5ABB1).toOption = some (.saMin .a ⟨11, true⟩ 0x2B 0x15 0x36 1) ∧
    (decodeSlot .sa 0xB9D5ABB1).toOption = some (.saMax .a ⟨11, true⟩ 0x2B 0x15 0x36 1) ∧
    (decodeSlot .sa 0xB9F6AED4).toOption = some (.saCmp .a ⟨11, true⟩ 0xB 0x15 0x36 5) ∧
    (decodeSlot .sa 0xBA16DA00).toOption = some (.saPand .a ⟨11, true⟩ 0xB 6 0xD) ∧
    (decodeSlot .sa 0xBA36DA00).toOption = some (.saPor .a ⟨11, true⟩ 0xB 6 0xD) ∧
    (decodeSlot .sa 0xBA56DA00).toOption = some (.saPxor .a ⟨11, true⟩ 0xB 6 0xD) ∧
    (decodeSlot .sa 0xBA75D235).toOption = some (.saMovi .a ⟨11, true⟩ 0x2B 0x5235) ∧
    (decodeSlot .sa 0xBA95D235).toOption = some (.saMovh .a ⟨11, true⟩ 0x2B 0x5235) ∧
    (decodeSlot .sa 0xBAB5D235).toOption = some (.saAddi .a ⟨11, true⟩ 0x2B 0x5235) ∧
    (decodeSlot .sa 0xBAD5ABB0).toOption = some (.saLdB64 .a ⟨11, true⟩ 0x2B 0x15 0x36) ∧
    (decodeSlot .sa 0xBAF5ABB1).toOption = some (.saLdB32 .a ⟨11, true⟩ 0x2B 0x15 0x36 1) ∧
    (decodeSlot .sa 0xBB15ABB1).toOption = some (.saLdB16 .a ⟨11, true⟩ 0x2B 0x15 0x36 1) ∧
    (decodeSlot .sa 0xBB35ABB1).toOption = some (.saLdB8 .a ⟨11, true⟩ 0x2B 0x15 0x36 1) ∧
    (decodeSlot .sa 0xBB55ABB0).toOption = some (.saStB64 .a ⟨11, true⟩ 0x2B 0x15 0x36) ∧
    (decodeSlot .sa 0xBB75ABB0).toOption = some (.saStB32 .a ⟨11, true⟩ 0x2B 0x15 0x36) ∧
    (decodeSlot .sa 0xBB95ABB0).toOption = some (.saStB16 .a ⟨11, true⟩ 0x2B 0x15 0x36) ∧
    (decodeSlot .sa 0xBBB5ABB0).toOption = some (.saStB8 .a ⟨11, true⟩ 0x2B 0x15 0x36) ∧
    (decodeSlot .sa 0xBBD5ABB0).toOption = some (.saFaddF64 .a ⟨11, true⟩ 0x2B 0x15 0x36) := by decide +kernel

/-- Scalar cells in slot 1, each with the fields of its row of spec/opcode_table.json at the places that the table gives (02_bundle.md R50, R51). -/
theorem test_decode_sa_2 :
    (decodeSlot .sa 0xBBF5ABB0).toOption = some (.saFsubF64 .a ⟨11, true⟩ 0x2B 0x15 0x36) ∧
    (decodeSlot .sa 0xBC15ABB0).toOption = some (.saFmulF64 .a ⟨11, true⟩ 0x2B 0x15 0x36) ∧
    (decodeSlot .sa 0xBC35ABB0).toOption = some (.saFdivF64 .a ⟨11, true⟩ 0x2B 0x15 0x36) ∧
    (decodeSlot .sa 0xBC55ABB0).toOption = some (.saFaddF32 .a ⟨11, true⟩ 0x2B 0x15 0x36) ∧
    (decodeSlot .sa 0xBC75ABB0).toOption = some (.saFsubF32 .a ⟨11, true⟩ 0x2B 0x15 0x36) ∧
    (decodeSlot .sa 0xBC95ABB0).toOption = some (.saFmulF32 .a ⟨11, true⟩ 0x2B 0x15 0x36) ∧
    (decodeSlot .sa 0xBCB5ABB0).toOption = some (.saFdivF32 .a ⟨11, true⟩ 0x2B 0x15 0x36) ∧
    (decodeSlot .sa 0xBCD5ABAD).toOption = some (.saFcvt .a ⟨11, true⟩ 0x2B 0x15 6 5 5) ∧
    (decodeSlot .sa 0xBCF6AED4).toOption = some (.saFcmpF64 .a ⟨11, true⟩ 0xB 0x15 0x36 5) ∧
    (decodeSlot .sa 0xBD16AED4).toOption = some (.saFcmpF32 .a ⟨11, true⟩ 0xB 0x15 0x36 5) ∧
    (decodeSlot .sa 0xBD358278).toOption = some (.saMfsr .a ⟨11, true⟩ 0x2B 0x4F) ∧
    (decodeSlot .sa 0xBD558230).toOption = some (.saMtsr .a ⟨11, true⟩ 0x2B 0x46) ∧
    (decodeSlot .sa 0xBD76A800).toOption = some (.saTshape .a ⟨11, true⟩ 0xB 0x15) := by decide +kernel

/-- Local-access cells, each with the fields of its row of spec/opcode_table.json at the places that the table gives (02_bundle.md R50, R51). -/
theorem test_decode_ld :
    (decodeSlot .ld 0xB835AB59).toOption = some (.ldW ⟨11, true⟩ 0x2B 0x15 2 0x59) ∧
    (decodeSlot .ld 0xB855AB59).toOption = some (.stW ⟨11, true⟩ 0x2B 0x15 2 0x59) ∧
    (decodeSlot .ld 0xB86D5D59).toOption = some (.ldRow ⟨11, true⟩ 0x1A 0x2E 2 0x59) ∧
    (decodeSlot .ld 0xB88D5D59).toOption = some (.stRow ⟨11, true⟩ 0x1A 0x2E 2 0x59) ∧
    (decodeSlot .ld 0xB8AD5D59).toOption = some (.ldCol ⟨11, true⟩ 0x1A 0x2E 2 0x59) ∧
    (decodeSlot .ld 0xB8CD5D59).toOption = some (.stCol ⟨11, true⟩ 0x1A 0x2E 2 0x59) ∧
    (decodeSlot .ld 0xB8F6AC00).toOption = some (.ldTile ⟨11, true⟩ 0xB 0x15 2) ∧
    (decodeSlot .ld 0xB916AC00).toOption = some (.stTile ⟨11, true⟩ 0xB 0x15 2) ∧
    (decodeSlot .ld 0xB935AB59).toOption = some (.ldAcc ⟨11, true⟩ 0x2B 0x15 2 0x59) ∧
    (decodeSlot .ld 0xB955AB59).toOption = some (.stAcc ⟨11, true⟩ 0x2B 0x15 2 0x59) ∧
    (decodeSlot .ld 0xB975AB00).toOption = some (.ldTagsetFull ⟨11, true⟩ 0x2B 0x15) ∧
    (decodeSlot .ld 0xB975AA00).toOption = some (.ldTagsetEmpty ⟨11, true⟩ 0x2B 0x15) := by decide +kernel

/-- Vector cells, each with the fields of its row of spec/opcode_table.json at the places that the table gives (02_bundle.md R50, R51). -/
theorem test_decode_vx_1 :
    (decodeSlot .vx 0xB82D66AD).toOption = some (.vxAdd ⟨11, true⟩ 0x1A 0x33 0x15 5) ∧
    (decodeSlot .vx 0xB84D66AD).toOption = some (.vxSub ⟨11, true⟩ 0x1A 0x33 0x15 5) ∧
    (decodeSlot .vx 0xB86D66AD).toOption = some (.vxMul ⟨11, true⟩ 0x1A 0x33 0x15 5) ∧
    (decodeSlot .vx 0xB90D66AD).toOption = some (.vxMin ⟨11, true⟩ 0x1A 0x33 0x15 5) ∧
    (decodeSlot .vx 0xB92D66AD).toOption = some (.vxMax ⟨11, true⟩ 0x1A 0x33 0x15 5) ∧
    (decodeSlot .vx 0xB893CD5B).toOption = some (.vxFmaF32 ⟨11, true⟩ 0x13 0x33 0x15 0xB) ∧
    (decodeSlot .vx 0xB8B3CD5B).toOption = some (.vxFmaF64 ⟨11, true⟩ 0x13 0x33 0x15 0xB) ∧
    (decodeSlot .vx 0xB8D3CD5B).toOption = some (.vxFmaF16 ⟨11, true⟩ 0x13 0x33 0x15 0xB) ∧
    (decodeSlot .vx 0xB8F3CD5B).toOption = some (.vxFmaBf16 ⟨11, true⟩ 0x13 0x33 0x15 0xB) ∧
    (decodeSlot .vx 0xB94D6605).toOption = some (.vxAbs ⟨11, true⟩ 0x1A 0x33 5) ∧
    (decodeSlot .vx 0xB96D66AC).toOption = some (.vxAnd ⟨11, true⟩ 0x1A 0x33 0x15) ∧
    (decodeSlot .vx 0xB98D66AC).toOption = some (.vxOr ⟨11, true⟩ 0x1A 0x33 0x15) ∧
    (decodeSlot .vx 0xB9AD66AC).toOption = some (.vxXor ⟨11, true⟩ 0x1A 0x33 0x15) ∧
    (decodeSlot .vx 0xB9CD66AD).toOption = some (.vxShl ⟨11, true⟩ 0x1A 0x33 0x15 5) ∧
    (decodeSlot .vx 0xB9ED66AC).toOption = some (.vxShr ⟨11, true⟩ 0x1A 0x33 0x15 4) ∧
    (decodeSlot .vx 0xBA17356D).toOption = some (.vxCmp ⟨11, true⟩ 5 0x33 0x15 5 5) ∧
    (decodeSlot .vx 0xBA2D66AD).toOption = some (.vxSel ⟨11, true⟩ 0x1A 0x33 0x15 5) ∧
    (decodeSlot .vx 0xBA4D66A9).toOption = some (.vxPerm ⟨11, true⟩ 0x1A 0x33 0x15 1) ∧
    (decodeSlot .vx 0xBA6D6605).toOption = some (.vxBcast ⟨11, true⟩ 0x1A 0x33 5) ∧
    (decodeSlot .vx 0xBA8D5235).toOption = some (.vxMovi ⟨11, true⟩ 0x1A 0x5235) ∧
    (decodeSlot .vx 0xBAAD6635).toOption = some (.vxRedsum ⟨11, true⟩ 0x1A 0x33 6 5) ∧
    (decodeSlot .vx 0xBACD662D).toOption = some (.vxRedmax ⟨11, true⟩ 0x1A 0x33 5 5) ∧
    (decodeSlot .vx 0xBAED6600).toOption = some (.vxExp ⟨11, true⟩ 0x1A 0x33) ∧
    (decodeSlot .vx 0xBB0D6600).toOption = some (.vxRcp ⟨11, true⟩ 0x1A 0x33) ∧
    (decodeSlot .vx 0xBB2D6600).toOption = some (.vxRsqrt ⟨11, true⟩ 0x1A 0x33) ∧
    (decodeSlot .vx 0xBB4D6730).toOption = some (.vxCvt ⟨11, true⟩ 0x1A 0x33 9 8) ∧
    (decodeSlot .vx 0xBB6D66F2).toOption = some (.vxCvts ⟨11, true⟩ 0x1A 0x33 7 9) ∧
    (decodeSlot .vx 0xBB8D66AB).toOption = some (.vxAmax ⟨11, true⟩ 0x1A 0x33 0x15 3) ∧
    (decodeSlot .vx 0xBBAD66AB).toOption = some (.vxScale ⟨11, true⟩ 0x1A 0x33 0x15 3) ∧
    (decodeSlot .vx 0xBBD6B000).toOption = some (.vxPush ⟨11, true⟩ 0x2D 3) := by decide +kernel

/-- Vector cells, each with the fields of its row of spec/opcode_table.json at the places that the table gives (02_bundle.md R50, R51). -/
theorem test_decode_vx_2 :
    (decodeSlot .vx 0xBBED3000).toOption = some (.vxPop ⟨11, true⟩ 0x1A 3) ∧
    (decodeSlot .vx 0xBC0D66AC).toOption = some (.vxRand ⟨11, true⟩ 0x1A 0x33 0x15 4) ∧
    (decodeSlot .vx 0xBC2D66AD).toOption = some (.vxAcs ⟨11, true⟩ 0x1A 0x33 0x15 5) ∧
    (decodeSlot .vx 0xBC4D6606).toOption = some (.vxTval ⟨11, true⟩ 0x1A 0x33 6) ∧
    (decodeSlot .vx 0xBC6D6600).toOption = some (.vxMov ⟨11, true⟩ 0x1A 0x33) ∧
    (decodeSlot .vx 0xBC8D66B8).toOption = some (.vxExt ⟨11, true⟩ 0x1A 0x33 0x17 0) := by decide +kernel

/-- Matrix cells, each with the fields of its row of spec/opcode_table.json at the places that the table gives (02_bundle.md R50, R51). -/
theorem test_decode_mx :
    (decodeSlot .mx 0xB8336D50).toOption = some (.mxMma ⟨11, true⟩ 2 6 0x36 5 1) ∧
    (decodeSlot .mx 0xB8530000).toOption = some (.mxLatq ⟨11, true⟩ 2 3) ∧
    (decodeSlot .mx 0xB864C000).toOption = some (.mxLatt ⟨11, true⟩ 2 6) ∧
    (decodeSlot .mx 0xB896C000).toOption = some (.mxTtr ⟨11, true⟩ 0xB 6) ∧
    (decodeSlot .mx 0xB8B5AA00).toOption = some (.mxAccz ⟨11, true⟩ 0x2B 0x15) ∧
    (decodeSlot .mx 0xB8D5AB80).toOption = some (.mxAccq ⟨11, true⟩ 0x2B 0x15 6) := by decide +kernel

/-- Data-exchange cells, each with the fields of its row of spec/opcode_table.json at the places that the table gives (02_bundle.md R50, R51). -/
theorem test_decode_dx :
    (decodeSlot .dx 0xB835AB90).toOption = some (.dxCpost ⟨11, true⟩ 0x2B 0x15 0x19) ∧
    (decodeSlot .dx 0xB8537640).toOption = some (.dxKdep ⟨11, true⟩ 0x13 0xE 0x19) ∧
    (decodeSlot .dx 0xB8758000).toOption = some (.dxAqpop ⟨11, true⟩ 0x2B) ∧
    (decodeSlot .dx 0xB8955000).toOption = some (.dxQcfgCfg ⟨11, true⟩ 5 0x15) ∧
    (decodeSlot .dx 0xB8955400).toOption = some (.dxQcfgCal ⟨11, true⟩ 5 0x15) ∧
    (decodeSlot .dx 0xB8955800).toOption = some (.dxQcfgKey ⟨11, true⟩ 5 0x15) ∧
    (decodeSlot .dx 0xB8955C00).toOption = some (.dxQcfgCtr ⟨11, true⟩ 5 0x15) ∧
    (decodeSlot .dx 0xB8B55000).toOption = some (.dxQstep ⟨11, true⟩ 5 0x15) ∧
    (decodeSlot .dx 0xB8B55400).toOption = some (.dxQstepWsat ⟨11, true⟩ 5 0x15) ∧
    (decodeSlot .dx 0xB8B55800).toOption = some (.dxQstepFlush ⟨11, true⟩ 5 0x15) ∧
    (decodeSlot .dx 0xB8D55000).toOption = some (.dxQrdCfg ⟨11, true⟩ 5 0x15) ∧
    (decodeSlot .dx 0xB8D55400).toOption = some (.dxQrdCal ⟨11, true⟩ 5 0x15) ∧
    (decodeSlot .dx 0xB8D55800).toOption = some (.dxQrdAmax ⟨11, true⟩ 5 0x15) ∧
    (decodeSlot .dx 0xB8D55C00).toOption = some (.dxQrdSat ⟨11, true⟩ 5 0x15) ∧
    (decodeSlot .dx 0xB8F5BD30).toOption = some (.dxMdec ⟨11, true⟩ 0x2B 3 6 0x13) ∧
    (decodeSlot .dx 0xB9155000).toOption = some (.dxTdefWa ⟨11, true⟩ 5 0x15) ∧
    (decodeSlot .dx 0xB9155400).toOption = some (.dxTdefWb ⟨11, true⟩ 5 0x15) ∧
    (decodeSlot .dx 0xB9155800).toOption = some (.dxTdefRa ⟨11, true⟩ 5 0x15) ∧
    (decodeSlot .dx 0xB9155C00).toOption = some (.dxTdefRb ⟨11, true⟩ 5 0x15) ∧
    (decodeSlot .dx 0xB935AB90).toOption = some (.dxTload ⟨11, true⟩ 0x2B 0x15 0x19) := by decide +kernel

/-- Sequence cells, each with the fields of its row of spec/opcode_table.json at the places that the table gives (02_bundle.md R50, R51). -/
theorem test_decode_sq_1 :
    (decodeSlot .sq 0xB82D5DB0).toOption = some (.sqSmerge ⟨11, true⟩ 0x1A 0x2E 0x36) ∧
    (decodeSlot .sq 0xB8400000).toOption = some (.sqSclr ⟨11, true⟩) ∧
    (decodeSlot .sq 0xB8605600).toOption = some (.sqStemp ⟨11, true⟩ 0x2B) ∧
    (decodeSlot .sq 0xB8805600).toOption = some (.sqStopk ⟨11, true⟩ 0x2B) ∧
    (decodeSlot .sq 0xB8A05600).toOption = some (.sqStopp ⟨11, true⟩ 0x2B) ∧
    (decodeSlot .sq 0xB8C056A8).toOption = some (.sqSdraw ⟨11, true⟩ 0x2B 0x15) ∧
    (decodeSlot .sq 0xB8C056A9).toOption = some (.sqSdrawLin ⟨11, true⟩ 0x2B 0x15) ∧
    (decodeSlot .sq 0xB8E05600).toOption = some (.sqSgetVal ⟨11, true⟩ 0x2B) ∧
    (decodeSlot .sq 0xB8E05601).toOption = some (.sqSgetIdx ⟨11, true⟩ 0x2B) ∧
    (decodeSlot .sq 0xB8E05602).toOption = some (.sqSgetProb ⟨11, true⟩ 0x2B) ∧
    (decodeSlot .sq 0xB8E05603).toOption = some (.sqSgetTprob ⟨11, true⟩ 0x2B) ∧
    (decodeSlot .sq 0xB8E00004).toOption = some (.sqSgetSum ⟨11, true⟩) ∧
    (decodeSlot .sq 0xB915AA00).toOption = some (.sqBalloc ⟨11, true⟩ 0x2B 0x15) ∧
    (decodeSlot .sq 0xB93580E0).toOption = some (.sqBfree ⟨11, true⟩ 0x2B 0xE) ∧
    (decodeSlot .sq 0xB93580E1).toOption = some (.sqBfreeAcq ⟨11, true⟩ 0x2B 0xE) ∧
    (decodeSlot .sq 0xB955AB90).toOption = some (.sqKvapp ⟨11, true⟩ 0x2B 0x15 0x19) ∧
    (decodeSlot .sq 0xB955AB91).toOption = some (.sqKvappList ⟨11, true⟩ 0x2B 0x15 0x19) ∧
    (decodeSlot .sq 0xB975AB90).toOption = some (.sqKvfork ⟨11, true⟩ 0x2B 0x15 0x19) ∧
    (decodeSlot .sq 0xB99580E0).toOption = some (.sqKvroll ⟨11, true⟩ 0x2B 0xE) ∧
    (decodeSlot .sq 0xB9B5AB90).toOption = some (.sqKvcommit ⟨11, true⟩ 0x2B 0x15 0x19) ∧
    (decodeSlot .sq 0xB9D5AA00).toOption = some (.sqKvwinGet ⟨11, true⟩ 0x2B 0x15) ∧
    (decodeSlot .sq 0xB9D5ABB1).toOption = some (.sqKvwinSet ⟨11, true⟩ 0x2B 0x15 0x36) ∧
    (decodeSlot .sq 0xB9F5AB90).toOption = some (.sqSquash ⟨11, true⟩ 0x2B 0x15 0x19) ∧
    (decodeSlot .sq 0xBA15AB90).toOption = some (.sqGbind ⟨11, true⟩ 0x2B 0x15 0x19) ∧
    (decodeSlot .sq 0xBA15AB91).toOption = some (.sqGbindReset ⟨11, true⟩ 0x2B 0x15 0x19) ∧
    (decodeSlot .sq 0xBA1580E2).toOption = some (.sqGbindDrop ⟨11, true⟩ 0x2B 0xE) ∧
    (decodeSlot .sq 0xBA35AB90).toOption = some (.sqGstep ⟨11, true⟩ 0x2B 0x15 0x19) ∧
    (decodeSlot .sq 0xBA55AB90).toOption = some (.sqGmask ⟨11, true⟩ 0x2B 0x15 0x19) ∧
    (decodeSlot .sq 0xBA75AB90).toOption = some (.sqGfork ⟨11, true⟩ 0x2B 0x15 0x19) ∧
    (decodeSlot .sq 0xBA95AB90).toOption = some (.sqGrollEnt ⟨11, true⟩ 0x2B 0x15 0x19) := by decide +kernel

/-- Sequence cells, each with the fields of its row of spec/opcode_table.json at the places that the table gives (02_bundle.md R50, R51). -/
theorem test_decode_sq_2 :
    (decodeSlot .sq 0xBA95AB91).toOption = some (.sqGrollPos ⟨11, true⟩ 0x2B 0x15 0x19) ∧
    (decodeSlot .sq 0xBAB5AB90).toOption = some (.sqGcommit ⟨11, true⟩ 0x2B 0x15 0x19) ∧
    (decodeSlot .sq 0xBAD5ABB0).toOption = some (.sqItnext ⟨11, true⟩ 0x2B 0x15 0x36) ∧
    (decodeSlot .sq 0xBAF5AB90).toOption = some (.sqItdone ⟨11, true⟩ 0x2B 0x15 0x19) ∧
    (decodeSlot .sq 0xBB15AB90).toOption = some (.sqItyield ⟨11, true⟩ 0x2B 0x15 0x19) ∧
    (decodeSlot .sq 0xBB35AB90).toOption = some (.sqSchw ⟨11, true⟩ 0x2B 0x15 0x19) ∧
    (decodeSlot .sq 0xBB558000).toOption = some (.sqRpop ⟨11, true⟩ 0x2B) := by decide +kernel

/-- Slot 2 has the cells of slot 1 (R51). -/
theorem test_decode_sb :
    (decodeSlot .sb 0xB835ABB0).toOption = some (.saAdd .b ⟨11, true⟩ 0x2B 0x15 0x36) ∧
    (decodeSlot .sb 0xB9F6AED4).toOption = some (.saCmp .b ⟨11, true⟩ 0xB 0x15 0x36 5) ∧
    (decodeSlot .sb 0xBAD5ABB0).toOption = some (.saLdB64 .b ⟨11, true⟩ 0x2B 0x15 0x36) ∧
    (decodeSlot .sb 0xBB55ABB0).toOption = some (.saStB64 .b ⟨11, true⟩ 0x2B 0x15 0x36) ∧
    (decodeSlot .sb 0xBCD5ABAD).toOption = some (.saFcvt .b ⟨11, true⟩ 0x2B 0x15 6 5 5) := by decide +kernel

/-! ### States for the witnesses -/

/-- The state right after reset with a bundle placed: context 0 of core 0 holds issue and owns its core's matrix state. -/
def w0 : State := placeBundle State.reset 0

/-- `w0` with a change of its context, of its core, and of its die. -/
def wCtx (f : Context → Context) : State := w0.modCtx 0 f
def wCore (f : Core → Core) : State := w0.modCore 0 f
def wDie (f : Die → Die) : State := w0.modDie 0 f

/-- `w0` with an address space of ASID 0 whose first GiB is the first GiB of memory: its ASID entry at 0, a table at 4096 and one at 8192
(16_faults.md R355 to R357). -/
def wMap : State := ((w0.writeN 0 8 (2 ^ 63 + 1)).writeN 4096 8 0x801).writeN 8192 8 0xD7

/-- The guard that is always true. -/
def gT : Guard := ⟨0, false⟩

/-- Is a context acting in a state with nothing left to settle? -/
def actsB (s : State) (c : Nat) : Bool :=
  s.unwinds.isEmpty && s.tasks.all (fun p => p.2.state != 5) && s.acting == some c && decide ((s.ctx c).nxt = .seq)

/-- Is nothing left to settle? -/
def calmB (s : State) : Bool := s.unwinds.isEmpty && s.tasks.all (fun p => p.2.state != 5)

/-- Nor a write of the dispatch hardware? -/
def stillB (s : State) : Bool := calmB s && s.dwrites.isEmpty

theorem calm_of {s : State} (h : calmB s = true) : s.Calm := by
  simp only [calmB, Bool.and_eq_true, List.isEmpty_iff, List.all_eq_true, bne_iff_ne] at h
  exact ⟨h.1, h.2⟩

theorem still_of {s : State} (h : stillB s = true) : s.Still := by
  simp only [stillB, Bool.and_eq_true, List.isEmpty_iff] at h
  exact ⟨calm_of h.1, h.2⟩

theorem acts_of {s : State} {c : Nat} (h : actsB s c = true) : Acts s c := by
  simp only [actsB, Bool.and_eq_true, decide_eq_true_eq, beq_iff_eq] at h
  exact ⟨calm_of (by simp [calmB, h.1.1.1, h.1.1.2]), h.1.2, h.2⟩

/-- Can a handler be entered with a cause at once? -/
def handlerB (s : State) (c code : Nat) : Bool :=
  (s.ctx c).pend.all (fun p => p.landed) && !((s.ctx c).sysReg 0x044).getLsbD 1 &&
  decide ((((s.ctx c).sysReg 0x040).extractLsb' 11 13).toNat * 2048 + 64 * code < s.imageLen (((s.ctx c).sysReg 0x040) >>> 52).toNat)

theorem handler_of {s : State} {c code : Nat} (h : handlerB s c code = true) : HandlerReady s c code := by
  simp only [handlerB, Bool.and_eq_true, List.all_eq_true, Bool.not_eq_true', decide_eq_true_eq] at h
  exact ⟨h.1.1, h.1.2, h.2⟩

/-- The parts of a translation. -/
def trPa : Tr → Nat
  | .ok pa _ _ => pa
  | _ => 0
def trPte : Tr → W64
  | .ok _ p _ => p
  | _ => 0
def trState : Tr → State
  | .ok _ _ s => s
  | _ => State.reset
def trOk : Tr → Bool
  | .ok _ _ _ => true
  | _ => false

theorem tr_of {r : Tr} (h : trOk r = true) : r = .ok (trPa r) (trPte r) (trState r) := by
  cases r <;> first | rfl | exact Bool.noConfusion h

/-- The state that an outcome goes on to. -/
def outState : Host.Outcome State Fault Refusal → State
  | .next s => s
  | _ => State.reset
def outNext : Host.Outcome State Fault Refusal → Bool
  | .next _ => true
  | _ => false

theorem out_of {r : Host.Outcome State Fault Refusal} (h : outNext r = true) : r = .next (outState r) := by
  cases r <;> first | rfl | exact Bool.noConfusion h

/-- What a sequence of engine accesses gives. -/
def engOk {α : Type} (r : Except Stop (α × State)) : Bool := r.toOption.isSome
def engVal {α : Type} (d : α) : Except Stop (α × State) → α
  | .ok p => p.1
  | .error _ => d
def engState {α : Type} : Except Stop (α × State) → State
  | .ok p => p.2
  | .error _ => State.reset

theorem eng_of {α : Type} (d : α) {r : Except Stop (α × State)} (h : engOk r = true) : r = .ok (engVal d r, engState r) := by
  cases r <;> first | rfl | exact Bool.noConfusion h

theorem opt_of {ε α : Type} {r : Except ε α} {a : α} (h : r.toOption = some a) : r = .ok a := by
  cases r with
  | ok b => exact congrArg Except.ok (Option.some.inj h)
  | error _ => cases h

theorem none_of {α : Type} {r : Option α} (h : r.isNone = true) : r = none := Option.isNone_iff_eq_none.mp h

theorem pop_of {α β : Type} {r : Option (α × Bool × β)} (h : r.map (fun p => p.2.1) = some false) : ∃ a b, r = some (a, false, b) := by
  cases r with
  | none => cases h
  | some p => obtain ⟨a, c, b⟩ := p; cases h; exact ⟨a, b, rfl⟩
/-! ### Witnesses -/

/-- A bundle with one scalar addition, placed. -/
def wAdd : State := placeBundle State.reset (BitVec.ofNat 256 (0x00228C38 * 2 ^ 32))

theorem ready_of {k : Core} {c : Nat} (h : (k.active == some c && !k.yields && k.lat.isEmpty && k.wait.isNone) = true) : k.Ready c := by
  simp only [Bool.and_eq_true, beq_iff_eq, Bool.not_eq_true', List.isEmpty_iff, Option.isNone_iff_eq_none] at h
  exact ⟨h.1.1.1, h.1.1.2, h.1.2, h.2⟩

theorem bundle_of {x : Context} (h : (x.trap.isNone && x.refused.isNone && x.squash.isNone && x.stores.all (fun t => t.pa.isSome) && x.delay == 0 &&
    x.bubble == 0 && !x.dwDue && !x.exits) = true) : x.AtBundle := by
  simp only [Bool.and_eq_true, beq_iff_eq, List.all_eq_true, Option.isNone_iff_eq_none, Bool.not_eq_true'] at h
  obtain ⟨⟨⟨⟨⟨⟨⟨a, b⟩, d⟩, e⟩, f⟩, g⟩, i⟩, j⟩ := h
  exact ⟨a, b, i, d, e, f, g, j⟩

theorem wit_StepRunsDecodedBundle :
    Acts wAdd 0 ∧ wAdd.moves = [] ∧ wAdd.pstate = 0 ∧ wAdd.focus < 320 ∧ (wAdd.core wAdd.focus).Ready 0 ∧ (wAdd.ctx 0).AtBundle ∧
    (wAdd.seal (wAdd.ctx 0).handle).code[(wAdd.ctx 0).pc / 32]? = some (BitVec.ofNat 256 (0x00228C38 * 2 ^ 32)) ∧ 1 < 8 ∧
    (decodeBundle (BitVec.ofNat 256 (0x00228C38 * 2 ^ 32))).toOption = some (aloneIn 1 (.saAdd .a gT 5 6 7)) ∧ (Instr.saAdd .a gT 5 6 7).isNop = false ∧
    readGuard wAdd 0 gT = true ∧ (wAdd.ctx 0).pc + 32 < wAdd.imageLen (wAdd.ctx 0).handle ∧
    exec (.saAdd .a gT 5 6 7) wAdd = .next (outState (exec (.saAdd .a gT 5 6 7) wAdd)) := by
  and_intros <;> first
    | decide +kernel | exact acts_of (by decide +kernel) | exact ready_of (by decide +kernel) | exact bundle_of (by decide +kernel)
    | exact out_of (by decide +kernel)

/-- A core that would fetch outside its image, and one that does not exist. -/
theorem wit_StepStopsOnlyOutsideTheMachine :
    let u := wCtx (fun x => { x with pc := 64 })
    CoreMoves u 0 u ∧ FetchesNoBundle u 0 ∧ CoreMoves { w0 with moves := [.core 320] } 320 { w0 with moves := [] } :=
  ⟨⟨by decide +kernel, .inl ⟨by decide +kernel, by decide +kernel, rfl⟩⟩,
   ⟨0, (boundary (takeIssue (giveUpIssue (wCtx (fun x => { x with pc := 64 })) 0) 0) 0).1, by decide +kernel,
     Prod.ext rfl (by decide +kernel), by rfl⟩,
   ⟨by decide +kernel, .inr ⟨[], rfl, rfl⟩⟩⟩

theorem wit_FalseGuardsAndNopsHaveNoEffect :
    Acts w0 0 ∧ slotOp (.brJmp ⟨1, false⟩ 5) = some (rowBrJmp ⟨1, false⟩ 5) ∧ (Instr.brJmp ⟨1, false⟩ 5).isNop = false ∧
    readGuard w0 0 (Instr.brJmp ⟨1, false⟩ 5).guard = false ∧ Instr.mxNop ∈ [Instr.brNop, .saNop, .sbNop, .ldNop, .vxNop, .mxNop, .dxNop, .sqNop] := by
  and_intros <;> first | decide +kernel | exact acts_of (by decide +kernel) | rfl

theorem wit_BundleIsWholeOrNothing : ∃ t,
    let w := walkSlots 0 [rowSaAdd .a gT 5 6 7, rowSaMfsr .b gT 3 0x041] w0
    readGuard w 0 gT = true ∧ (rowSaAdd .a gT 5 6 7).run 0 w = .issued t ∧ readGuard t 0 gT = true ∧
    (rowSaMfsr .b gT 3 0x041).run 0 t = .trap 3 0x041 :=
  ⟨_, by decide +kernel, rfl, by decide +kernel, by rfl⟩

theorem wit_DecodeOfEncode :
    (Instr.sqKvcommit ⟨3, true⟩ 63 1 31).wellFormed = true ∧ encode (.sqKvcommit ⟨3, true⟩ 63 1 31) = some (.sq, 0x39BF83F0#32) := by
  decide +kernel

theorem wit_EncodeOfDecode : decodeSlot .sq 0x39BF83F0#32 = .ok (.sqKvcommit ⟨3, true⟩ 63 1 31) := opt_of (by decide +kernel)

/-- `ScalarIntegerResults`, `ScalarImmediates`, `ComparesAndPredicates`, `ScalarFloatResults`, `VectorArithmetic` and `VectorBitsAndMoves` have
these hypotheses, the last one also a type of each kind for `perm`. -/
theorem wit_scalar : Acts w0 0 ∧ readGuard w0 0 gT = true := ⟨acts_of (by decide +kernel), by decide +kernel⟩
theorem wit_ScalarIntegerResults : Acts w0 0 ∧ readGuard w0 0 gT = true := wit_scalar
theorem wit_ScalarImmediates : Acts w0 0 ∧ readGuard w0 0 gT = true := wit_scalar
theorem wit_ComparesAndPredicates : Acts w0 0 ∧ readGuard w0 0 gT = true := wit_scalar
theorem wit_ScalarFloatResults : Acts w0 0 ∧ readGuard w0 0 gT = true := wit_scalar
theorem wit_VectorArithmetic : Acts w0 0 ∧ readGuard w0 0 gT = true := wit_scalar
theorem wit_VectorBitsAndMoves : Acts w0 0 ∧ readGuard w0 0 gT = true := wit_scalar
/-- Scalar register `n` at a value. -/
def atS (n v : Nat) (x : Context) : Context := { x with sr := SMap.set 0 x.sr n (BitVec.ofNat 64 v) }
/-- System register `n` at a value. -/
def atSys (n v : Nat) (x : Context) : Context := { x with sys := SMap.set 0 x.sys n (BitVec.ofNat 64 v) }

theorem wit_SystemRegisterMoves :
    Acts w0 0 ∧ readGuard w0 0 gT = true ∧ (w0.ctx 0).kLevel = false ∧ Acts (wCtx (atSys 0x03A 1)) 0 ∧
    ((wCtx (atSys 0x03A 1)).ctx 0).kLevel = true ∧ (w0.task (w0.ctx 0).tid).aud = false ∧
    Acts (w0.modTask 0 (fun k => { k with aud := true })) 0 ∧
    ((w0.modTask 0 (fun k => { k with aud := true })).task ((w0.modTask 0 (fun k => { k with aud := true })).ctx 0).tid).aud = true := by
  and_intros <;> first | decide +kernel | exact acts_of (by decide +kernel)

theorem wit_TileShapeWrite :
    let ok (v : W64) : Prop := v.toNat / 2 ^ 20 = 0 ∧ v.toNat / 2 ^ 15 % 2 = 0 ∧ v.toNat / 2 ^ 6 % 4 = 0 ∧ v.toNat / 2 ^ 16 % 16 ≤ 9 ∧
      1 ≤ v.toNat / 2 ^ 8 % 128 ∧ v.toNat / 2 ^ 8 % 128 ≤ 64 ∧ 1 ≤ v.toNat % 64 ∧ v.toNat % 64 ≤ 32
    Acts (wCtx (atS 5 0x94020)) 0 ∧ ((wCtx (atS 5 0x94020)).core (coreOf 0)).owner = some 0 ∧ ok (readS (wCtx (atS 5 0x94020)) 0 5) ∧
    ¬ok (readS (wCtx (atS 5 0x4021)) 0 5) ∧ Acts (wCore (fun g => { g with owner := none })) 0 ∧
    ((wCore (fun g => { g with owner := none })).core (coreOf 0)).owner ≠ some 0 := by
  and_intros <;> first | decide +kernel | exact acts_of (by decide +kernel)

/-- The mapped space with s5 at 16 MiB and s6 at the address of a mapped line. -/
def wLd : State := wMap.modCtx 0 (fun x => atS 6 0x2000040 (atS 5 0x1000000 x))

theorem load_of {r : Nat × Bool × State} (h : r.2.1 = false) : r = (r.1, false, r.2.2) := by rw [← h]

/-- The translation of the address in s5 or s6 of `wLd`, and the place that it names. -/
def wTr (s : State) (r : Nat) (acc : Acc) : Tr :=
  translate s (dieOf (coreOf 0)) (.core (coreOf 0)) (s.asidOf 0) (readS s 0 r).toNat acc (s.ctx 0).kLevel
def wAt (s : State) (r : Nat) (acc : Acc) : Nat := (trState (wTr s r acc)).placeOf (s.asidOf 0) (readS s 0 r).toNat (trPa (wTr s r acc))
def wRead (s : State) (r : Nat) : Nat × Bool × State :=
  (trState (wTr s r .read)).loadPhys (.core (coreOf 0)) (wAt s r .read) 8 (pteBypass (trPte (wTr s r .read)) || decide (memBytes ≤ wAt s r .read))

theorem wit_ScalarLoads :
    Acts wLd 0 ∧ readGuard wLd 0 gT = true ∧ readS wLd 0 5 + readS wLd 0 0 = readS wLd 0 5 ∧ canonical (readS wLd 0 5).toNat = true ∧
    (readS wLd 0 5).toNat % 8 = 0 ∧ wTr wLd 5 .read = .ok (trPa (wTr wLd 5 .read)) (trPte (wTr wLd 5 .read)) (trState (wTr wLd 5 .read)) ∧
    ((trState (wTr wLd 5 .read)).ctx 0).stores = [] ∧ (trState (wTr wLd 5 .read)).reach (dieOf (coreOf 0)) (wAt wLd 5 .read) = true ∧
    wRead wLd 5 = ((wRead wLd 5).1, false, (wRead wLd 5).2.2) ∧ ((wRead wLd 5).2.2.ctx 0).nxt = .seq := by
  and_intros <;> first | decide +kernel | exact acts_of (by decide +kernel) | exact tr_of (by decide +kernel) | exact load_of (by decide +kernel)

theorem wit_ScalarStores :
    Acts wLd 0 ∧ readGuard wLd 0 gT = true ∧ canonical (readS wLd 0 5).toNat = true ∧ (readS wLd 0 5).toNat % 8 = 0 ∧
    wTr wLd 5 .write = .ok (trPa (wTr wLd 5 .write)) (trPte (wTr wLd 5 .write)) (trState (wTr wLd 5 .write)) ∧
    ((trState (wTr wLd 5 .write)).ctx 0).stores.length < 16 ∧ ((trState (wTr wLd 5 .write)).ctx 0).nxt = .seq := by
  and_intros <;> first | decide +kernel | exact acts_of (by decide +kernel) | exact tr_of (by decide +kernel)

theorem wit_MisalignedAccessTraps :
    Acts (wCtx (atS 5 0x800000000000)) 0 ∧ canonical (readS (wCtx (atS 5 0x800000000000)) 0 5 + 0).toNat = false ∧
    (readS (wCtx (atS 5 0x1000001)) 0 5 + 0).toNat % 2 ≠ 0 := by
  and_intros <;> first | decide +kernel | exact acts_of (by decide +kernel)

/-! Control. -/

/-- A sealed image of 128 bundles, whose handlers begin at its offset 0 (TVB). -/
def wImg : State := (({ w0 with seals := [(1, ⟨List.replicate 128 0, false⟩)] } : State)).modCtx 0 (atSys 0x040 (2 ^ 52))

theorem wit_BranchesTransferControl :
    Acts w0 0 ∧ readGuard w0 0 gT = true ∧
    (((w0.ctx 0).pc : Int) + 32 * (1 : BitVec 21).toInt).toNat < w0.imageLen (w0.ctx 0).handle ∧
    ¬(((w0.ctx 0).pc : Int) + 32 * (2 : BitVec 21).toInt).toNat < w0.imageLen (w0.ctx 0).handle ∧
    Acts (wCtx (fun x => atS 62 63 (atS 5 64 x))) 0 ∧
    (readS (wCtx (atS 62 63)) 0 62).toNat % 2 ^ 24 - (readS (wCtx (atS 62 63)) 0 62).toNat % 32 < (wCtx (atS 62 63)).imageLen 1 ∧
    ¬(readS (wCtx (atS 62 64)) 0 62).toNat % 2 ^ 24 - (readS (wCtx (atS 62 64)) 0 62).toNat % 32 < (wCtx (atS 62 64)).imageLen 1 := by
  and_intros <;> first | decide +kernel | exact acts_of (by decide +kernel)

/-- Loop counter 1 at a value. -/
def wLc (v : Nat) : State := wCtx (fun x => { x with lc := [(1, BitVec.ofNat 64 v)] })

theorem wit_LoopsCountDown :
    Acts (wLc 1) 0 ∧ (readLc (wLc 1) 0 1).toNat ≤ 1 ∧ Acts (wLc 2) 0 ∧ 1 < (readLc (wLc 2) 0 1).toNat ∧
    (((wLc 2).ctx 0).pc + 32 * (1 : BitVec 19).toInt).toNat < (wLc 2).imageLen ((wLc 2).ctx 0).handle ∧
    (wLc 2).imageLen ((wLc 2).ctx 0).handle ≤ (((wLc 2).ctx 0).pc + 32 * (2 : BitVec 19).toInt).toNat := by
  and_intros <;> first | decide +kernel | exact acts_of (by decide +kernel)

theorem wit_DelayAndLogClear :
    Acts w0 0 ∧ (w0.ctx 0).due = none ∧ readGuard w0 0 gT = true ∧ Acts (wCtx (fun x => { x with due := some 3 })) 0 ∧
    ((wCtx (fun x => { x with due := some 3 })).ctx 0).due = some 3 := by
  and_intros <;> first | decide +kernel | exact acts_of (by decide +kernel)

theorem wit_SystemCallsEnterTheHandler : Acts wImg 0 ∧ readGuard wImg 0 gT = true ∧ HandlerReady wImg 0 1 ∧ HandlerReady wImg 0 2 := by
  and_intros <;> first | decide +kernel | exact acts_of (by decide +kernel) | exact handler_of (by decide +kernel)

/-- `wImg` with a pending result. -/
def wPend : State := wImg.modCtx 0 (fun x => { x with pend := [⟨.s 3, 7, 2, 0, 0, false, false, 0, 1, 1, 0⟩] })

theorem wit_TrapEntryWritesTheTrapRegisters : HandlerReady wImg 0 14 ∧ ∃ p ∈ (wPend.ctx 0).pend, p.landed = false :=
  ⟨handler_of (by decide +kernel), by decide +kernel⟩

theorem wit_DoubleTrapKills :
    let s := wImg.modCtx 0 (atSys 0x044 2)
    (∀ p ∈ (s.ctx 0).pend, p.landed = true) ∧ (s.task (s.ctx 0).tid).state = 2 ∧ (s.task (s.ctx 0).tid).kill = none ∧
    ((s.ctx 0).sysReg 0x044).getLsbD 1 = true ∧
    w0.imageLen (((w0.ctx 0).sysReg 0x040) >>> 52).toNat ≤ (((w0.ctx 0).sysReg 0x040).extractLsb' 11 13).toNat * 2048 + 64 * 1 := by
  decide +kernel

/-- K level, with TPC at an offset of image 1. -/
def wTpc (off : Nat) : State := wCtx (fun x => atSys 0x041 (2 ^ 52 + off) (atSys 0x03A 1 x))

theorem wit_TrapReturnRestoresTheLevel :
    Acts (wTpc 32) 0 ∧ readGuard (wTpc 32) 0 gT = true ∧ ((wTpc 32).ctx 0).kLevel = true ∧
    (readSys (wTpc 32) 0 0x041).toNat % 2 ^ 24 - (readSys (wTpc 32) 0 0x041).toNat % 32 < (wTpc 32).imageLen ((readSys (wTpc 32) 0 0x041) >>> 52).toNat ∧
    Acts (wTpc 64) 0 ∧ (wTpc 64).imageLen ((readSys (wTpc 64) 0 0x041) >>> 52).toNat ≤ (readSys (wTpc 64) 0 0x041).toNat % 2 ^ 24 ∧
    (w0.ctx 0).kLevel = false := by
  and_intros <;> first | decide +kernel | exact acts_of (by decide +kernel)

theorem wit_ContainmentRegionsNest :
    Acts (wCtx (atSys 0x048 3)) 0 ∧ (((wCtx (atSys 0x048 3)).ctx 0).sysReg 0x048).toNat < 4 ∧ Acts (wCtx (atSys 0x048 4)) 0 ∧
    0 < (((wCtx (atSys 0x048 4)).ctx 0).sysReg 0x048).toNat ∧ (((wCtx (atSys 0x048 4)).ctx 0).sysReg 0x048).toNat = 4 ∧
    Acts w0 0 ∧ ((w0.ctx 0).sysReg 0x048).toNat = 0 := by
  and_intros <;> first | decide +kernel | exact acts_of (by decide +kernel)

/-- The one task of `w0` with two levels, of one and of two contexts, and trigger level 0. -/
def wTwo : State := w0.modTask 0 (fun k => { k with words := [BitVec.ofNat 64 (2 ^ 15), BitVec.ofNat 64 (2 ^ 52), 0, 0, 0, 0, 0, 0, 1, 2] })

theorem wit_TokenWaitAndBarrier :
    let v := readS wTwo 0 0
    let ws := (wTwo.task (wTwo.ctx 0).tid).words
    let p := wTwo.modCtx 0 (fun x => { x.tokPend 31 with barPass := some 0 })
    Acts wTwo 0 ∧ readGuard wTwo 0 gT = true ∧ (wTwo.core (coreOf 0)).active = some 0 ∧ (wTwo.ctx 0).tokPending 31 = false ∧
    (v.toNat ≤ 7 ∧ v.toNat < levels ws ∧ lvDom ws v.toNat ≠ 5) ∧ sizeBelow ws (v.toNat + 1) = 1 ∧ (wTwo.ctx 0).barPass ≠ some v.toNat ∧
    sizeBelow ws (1 + 1) ≠ 1 ∧ (1 ≤ 7 ∧ 1 < levels ws ∧ lvDom ws 1 ≠ 5) ∧ (wTwo.ctx 0).stores = [] ∧ (wTwo.task (wTwo.ctx 0).tid).bars = [] ∧
    (wTwo.task (wTwo.ctx 0).tid).gone = [] ∧ ¬2 < levels ws ∧ Acts p 0 ∧ (p.ctx 0).tokPending 31 = true ∧ (p.ctx 0).barPass = some 0 := by
  and_intros <;> first | decide +kernel | exact acts_of (by decide +kernel)

theorem wit_EarlyTriggerAndExit :
    let k := wTwo.task (wTwo.ctx 0).tid
    Acts w0 0 ∧ readGuard w0 0 gT = true ∧ (w0.core (coreOf 0)).active = some 0 ∧ (w0.ctx 0).stores = [] ∧
    trigLevel (w0.task (w0.ctx 0).tid).words = none ∧ (w0.task (w0.ctx 0).tid).bars = [] ∧
    Acts wTwo 0 ∧ trigLevel k.words = some 0 ∧ groupOf k.words 0 (wTwo.ctx 0).rank ∉ k.triggered ∧
    k.triggered.length + 1 < taskSize k.words / sizeBelow k.words (0 + 1) ∧
    groupOf k.words 0 (wTwo.ctx 0).rank ∈ ((wTwo.modTask 0 (fun k => { k with triggered := [0] })).task 0).triggered := by
  and_intros <;> first | decide +kernel | exact acts_of (by decide +kernel)

/-- `wLd` at a `waita` that is freezing, or that has tested its word. -/
def wTest (frz : Nat) (test : Option Bool) : State := wLd.modCtx 0 (fun x => { x with frz := frz, test := test })

theorem wit_WaitsAndPredicateLoads :
    let r := trState (wTr wLd 6 .read)
    Acts wLd 0 ∧ readGuard wLd 0 gT = true ∧ (wLd.core (coreOf 0)).active = some 0 ∧ canonical (readS wLd 0 6).toNat = true ∧
    (readS wLd 0 6).toNat % 8 = 0 ∧ wTr wLd 6 .read = .ok (trPa (wTr wLd 6 .read)) (trPte (wTr wLd 6 .read)) r ∧ (r.ctx 0).stores = [] ∧
    r.reach (dieOf (coreOf 0)) (wAt wLd 6 .read) = true ∧ ((wLd.ctx 0).sysReg 0x003).toNat % 2 ^ 32 = 0 ∧ r.badAt (wAt wLd 6 .read) 8 = false ∧
    (wLd.ctx 0).test = none ∧ (wLd.ctx 0).frz = 0 ∧ condInt 0 (r.word (wAt wLd 6 .read)) (readS wLd 0 0) = true ∧
    condInt 1 (r.word (wAt wLd 6 .read)) (readS wLd 0 0) = false ∧ wRead wLd 6 = ((wRead wLd 6).1, false, (wRead wLd 6).2.2) ∧
    ((wRead wLd 6).2.2.ctx 0).nxt = .seq := by
  and_intros <;> first | decide +kernel | exact acts_of (by decide +kernel) | exact tr_of (by decide +kernel) | exact load_of (by decide +kernel)

theorem wit_WaitsThatHaveTested : ∀ t ∈ [some true, some false, none],
    Acts (wTest 3 t) 0 ∧ ((wTest 3 t).ctx 0).test = t ∧ ((wTest 3 t).ctx 0).frz ≠ 0 ∧ trOk (wTr (wTest 3 t) 6 .read) = true ∧
    ((trState (wTr (wTest 3 t) 6 .read)).ctx 0).nxt = .seq ∧ ((trState (wTr (wTest 3 t) 6 .read)).ctx 0).stores = [] := by
  intro t h
  simp only [List.mem_cons, List.not_mem_nil, or_false] at h
  rcases h with rfl | rfl | rfl <;> and_intros <;> first | decide +kernel | exact acts_of (by decide +kernel)

/-! Local access, vector, matrix. -/

/-- The window of 256 lines that begins at line 0, with s5 at its last word. -/
def wWin : State := wCtx (fun x => atS 5 (65536 - 8) (atSys 0x031 256 x))

/-- The words of an access of `n` words at s5. -/
def wRow (s : State) (unit step n : Nat) : List Nat :=
  (List.range n).map (fun j => (s.ctx 0).wrapWord (((readS s 0 5).toNat + unit * 127) % 2 ^ 22 + step * j))
/-- May the access go, having waited for its bank conflicts? -/
def wGoes (s : State) (m spent : Nat) (ws : List Nat) : Bool :=
  let k := s.core (coreOf 0)
  (accessWait k m spent (maxSame (ws.map k.bank) - 1) ws).isNone && ws.all (fun w => !k.bad 1 w)

theorem wit_ScratchpadLoads :
    Acts wWin 0 ∧ readGuard wWin 0 gT = true ∧ (wWin.ctx 0).spLines ≠ 0 ∧ wGoes wWin 0 (wWin.ctx 0).spent (wRow wWin 8 8 1) = true ∧
    wGoes wWin 0 (wWin.ctx 0).spent (wRow wWin 256 8 32) = true ∧ wGoes wWin 0 31 (wRow wWin 8 768 32) = true ∧ (w0.ctx 0).spLines = 0 := by
  and_intros <;> first | decide +kernel | exact acts_of (by decide +kernel)

/-- The window with 31 cycles of bank conflicts already waited for. -/
def wWin31 : State := wWin.modCtx 0 (fun x => { x with spent := 31 })

theorem wit_ScratchpadStores :
    Acts wWin31 0 ∧ readGuard wWin31 0 gT = true ∧ (wWin31.ctx 0).spLines ≠ 0 ∧ wGoes wWin31 0 (wWin31.ctx 0).spent (wRow wWin31 8 8 1) = true ∧
    wGoes wWin31 3 (wWin31.ctx 0).spent (wRow wWin31 8 8 1) = true ∧ (∀ w ∈ (wWin31.core (coreOf 0)).spw, w.bound ≠ 0) ∧
    wGoes wWin31 0 (wWin31.ctx 0).spent (wRow wWin31 256 8 32) = true ∧ wGoes wWin31 0 (wWin31.ctx 0).spent (wRow wWin31 8 768 32) = true ∧
    (w0.ctx 0).spLines = 0 := by
  and_intros <;> first | decide +kernel | exact acts_of (by decide +kernel)

theorem wit_TileCommandsAndTagSet : ∀ s ∈ [wWin, w0],
    let x := s.ctx 0
    let k := s.core (coreOf 0)
    let base := (readS s 0 5).toNat
    let tp := tilePlaces 15 (readTs s 0 15)
    let ar := (List.range (127 + 1)).map (fun i => ((readS s 0 5).toNat % 4096 + i) % 4096)
    let ap := ar.flatMap (fun y => (List.range 16).map (fun j => y * 16 + j))
    let words (ps : List Nat) : List Nat := (List.range ps.length).map (fun j => if x.spLines = 0 then spWords + j else x.wrapWord (base + 8 * j))
    let own (ps : List Nat) : List Nat := if x.spLines = 0 then [] else words ps
    let banks (ps : List Nat) : List Nat := ((own ps).map k.bank).eraseDups
    let N (ps : List Nat) : Nat := regionCycles k (words ps) (ps.length / 32 + 1)
    let cnt := min (readS s 0 0).toNat 4096
    Acts s 0 ∧ readGuard s 0 gT = true ∧ k.owner = some 0 ∧
    k.locked (banks tp) = false ∧ k.tagsMeet 0 (own tp) = true ∧ k.free [] [.tile 15] [] = true ∧
    k.locked (banks ap) = false ∧ k.tagsMeet 0 (own ap) = true ∧ k.free [] (ar.map .row) [] = true ∧
    portCheck k 3 ((List.range (N ap)).map (fun i => i + 1)) = none ∧
    accessWait k 0 x.spent ((cnt + 255) / 256 - 1)
      (if x.spLines = 0 then [] else (List.range cnt).map (fun j => x.wrapWord (base + 8 * j))) = none ∧
    Acts (wCore (fun g => { g with owner := none })) 0 ∧ ((wCore (fun g => { g with owner := none })).core (coreOf 0)).owner ≠ some 0 := by
  intro s h
  simp only [List.mem_cons, List.not_mem_nil, or_false] at h
  rcases h with rfl | rfl <;> and_intros <;> first | decide +kernel | exact acts_of (by decide +kernel)

theorem wit_VectorFunctions :
    let s := wCore (fun h => { h with tda := [(1, 256), (2, 512)] })
    Acts s 0 ∧ readGuard s 0 gT = true ∧ tdMode ((s.core (coreOf 0)).tdaOf 1) = 1 ∧ tdMode ((s.core (coreOf 0)).tdaOf 2) = 2 ∧
    tdMode ((s.core (coreOf 0)).tdaOf 0) = 0 ∧ (s.core (coreOf 0)).mace = [] ∧ (s.core (coreOf 0)).poison = [] := by
  and_intros <;> first | decide +kernel | exact acts_of (by decide +kernel)

/-- Queue 7 with `n` entries of earlier cycles. -/
def wQueue (n : Nat) : State :=
  let q := (List.range n).foldl (fun q i => q.push (BitVec.ofNat 2048 i) false) Queue.init
  wCore (fun h => h.setQueue 7 { q with entries := q.entries.map (fun e => { e with fresh := false }) })

theorem wit_QueuePushAndPop :
    let q (s : State) : Queue := (s.core (coreOf 0)).queue 7
    Acts (wQueue 15) 0 ∧ readGuard (wQueue 15) 0 gT = true ∧ (q (wQueue 15)).entries.length + (q (wQueue 15)).freed < 16 ∧
    Acts (wQueue 16) 0 ∧ 16 ≤ (q (wQueue 16)).entries.length + (q (wQueue 16)).freed ∧ (((wQueue 16).ctx 0).sysReg 0x003).toNat % 2 ^ 32 = 0 ∧
    (∃ ps qu', (q (wQueue 1)).pop = some (ps, false, qu')) ∧ (q (wQueue 0)).pop = none := by
  and_intros <;> first | decide +kernel | exact acts_of (by decide +kernel) | exact pop_of (by decide +kernel)

/-- Latch 3 tagged with FP32, as shape 15 has it at reset. -/
def wMx : State := wCore (fun h => { h with latTag := [(3, 0)] })

theorem wit_MatrixInstructions :
    let k := wMx.core (coreOf 0)
    let shape := readTs wMx 0 15
    let mrows := (List.range (tsRows shape)).flatMap (fun i => (viewRows false 4095 i).map Res.row)
    let rows := (List.range 3).flatMap (viewRows false 4095)
    Acts wMx 0 ∧ readGuard wMx 0 gT = true ∧ k.owner = some 0 ∧ k.free [.tile 15, .latch 3] mrows [.feed] = true ∧ k.tagOf 3 ≠ 15 ∧
    classOf (Fmt.ofCode (k.tagOf 3)) = classOf (mmaFmt 0) ∧ portCheck k 1 ((List.range (tsRows shape)).map (fun m => 40 + m)) = none ∧
    k.free [] [.latch 3] [.pop] = true ∧ (k.queue 7).sink ≠ 4 ∧ (k.queue 7).sink ≠ 9 ∧ k.free [.tile 15] [.latch 3] [.path] = true ∧
    tsType shape ≠ 4 ∧ tsType shape ≠ 9 ∧ ¬(tsType shape = 1 ∧ 32 < tsRb shape) ∧ k.writeBusy (.tile 15) = false ∧
    k.readBusy (.tile 15) = false ∧ k.readBusy .path = false ∧ k.free [] (rows.map Res.row) [] = true ∧
    portCheck k 2 ((List.range 2).map (fun j => 1 + j)) = none ∧ k.free (rows.map Res.row) [] [.push] = true ∧
    Acts (wCore (fun g => { g with owner := none })) 0 ∧ ((wCore (fun g => { g with owner := none })).core (coreOf 0)).owner ≠ some 0 := by
  and_intros <;> first | decide +kernel | exact acts_of (by decide +kernel)

theorem wit_QueueControl :
    let u := queueEngines (wQueue 2) (coreOf 0)
    let v := queueEngines ((wQueue 2).modCore 0 (fun h => h.setQueue 7 { h.queue 7 with amax := 1 })) (coreOf 0)
    Acts (wQueue 2) 0 ∧ readGuard (wQueue 2) 0 gT = true ∧ ((u.core (coreOf 0)).queue 7).amax = 0 ∧
    ((v.core (coreOf 0)).queue 7).amax ≠ 0 ∧ ((v.core (coreOf 0)).queue 7).amax ≠ 0x7F800000 := by
  and_intros <;> first | decide +kernel | exact acts_of (by decide +kernel)
/-! Commands to engines. -/

/-- A Mace command of task 0 whose segments are all decoded, with lanes left to push. -/
def wMace (started load : Bool) (lanes : List Nat) (dep : List Nat) : MaceCmd :=
  ⟨load, 0, 0, 0, 31, dep, 7, 0, 0, 0, 0, 0, started, 0, 2 ^ 40, 2 ^ 40, 0, lanes, false, []⟩

/-- `n` commands in the Mace queue of core 0. -/
def wMaces (n : Nat) : State := wCore (fun h => { h with mace := List.replicate n (wMace false false [1] []) })

theorem wit_TrellisCells :
    Acts (wMaces 7) 0 ∧ readGuard (wMaces 7) 0 gT = true ∧ ((wMaces 7).core (coreOf 0)).active = some 0 ∧
    ((wMaces 7).ctx 0).tokPending 31 = false ∧ ((wMaces 7).core (coreOf 0)).mace.length < 8 ∧ Acts (wMaces 8) 0 ∧
    8 ≤ ((wMaces 8).core (coreOf 0)).mace.length ∧ ((wCtx (fun x => x.tokPend 31)).ctx 0).tokPending 31 = true := by
  and_intros <;> first | decide +kernel | exact acts_of (by decide +kernel)

/-- Return queues whose oldest entry has arrived or has not. -/
def wReturns (arrived : Bool) : State := wCtx (fun x => { x with aq := [⟨5, 1, arrived, 77⟩, ⟨5, 2, false, 0⟩], rq := [⟨0, 3, arrived, 78⟩] })

theorem wit_AttachSetAndReturns :
    Acts (wReturns true) 0 ∧ readGuard (wReturns true) 0 gT = true ∧ ((wReturns true).core (coreOf 0)).active = some 0 ∧
    ((wReturns true).ctx 0).aq = ⟨5, 1, true, 77⟩ :: [⟨5, 2, false, 0⟩] ∧ ((wReturns true).ctx 0).rq = ⟨0, 3, true, 78⟩ :: [] ∧
    Acts (wReturns false) 0 ∧ ((wReturns false).ctx 0).aq.all (fun e => !e.arrived) = true ∧ (w0.ctx 0).rq = [] := by
  and_intros <;> first | decide +kernel | exact acts_of (by decide +kernel)

/-- The mapped space with a registered copy queue of 16 entries at s6, with WIDX at `n`. -/
def wCq (n : Nat) : State := { wLd.writeN 0x2000040 8 n with qheads := [(0x2000040 / 64, ⟨false, 0, 0, 0x2000040, 0x3000000, 4, 0⟩)] }

theorem wit_CopyPost : ∀ n ∈ [15, 16],
    let s' := trState (wTr (wCq n) 6 .rmw)
    let pa := trPa (wTr (wCq n) 6 .rmw)
    Acts (wCq n) 0 ∧ readGuard (wCq n) 0 gT = true ∧ ((wCq n).core (coreOf 0)).active = some 0 ∧ ((wCq n).ctx 0).tokPending 31 = false ∧
    canonical (readS (wCq n) 0 6).toNat = true ∧ (readS (wCq n) 0 6).toNat % 64 = 0 ∧
    wTr (wCq n) 6 .rmw = .ok pa (trPte (wTr (wCq n) 6 .rmw)) s' ∧
    s'.qheads.find? (fun p => p.1 == pa / 64) = some (pa / 64, ⟨false, 0, 0, 0x2000040, 0x3000000, 4, 0⟩) ∧ s'.reach (dieOf (coreOf 0)) pa = true ∧
    s'.badAt pa 16 = false ∧ (s'.ctx 0).stores = [] ∧ (s'.core (coreOf 0)).locked ((imageWords s' 0 0 8).map (s'.core (coreOf 0)).bank) = false ∧
    (readImage s' 0 0 8).toOption = some (List.replicate 8 0) ∧ (s'.word pa - s'.word (pa + 8)).toNat = n ∧
    fieldOf (wordAt (List.replicate 8 (0 : W64)) 0) 19 16 ≠ 8 ∧ imageWindow (List.replicate 8 0) = none ∧
    (readS wLd 0 6 + 1).toNat % 64 ≠ 0 ∧ (trState (wTr wLd 6 .rmw)).qheads.find? (fun p => p.1 == trPa (wTr wLd 6 .rmw) / 64) = none := by
  intro n h
  simp only [List.mem_cons, List.not_mem_nil, or_false] at h
  rcases h with rfl | rfl <;> and_intros <;> first | decide +kernel | exact acts_of (by decide +kernel) | exact tr_of (by decide +kernel)

/-- A command of task 0, rank 0, of a sequence engine. -/
def wCmd (op serial tok : Nat) : SqCmd := ⟨serial, op, 0, 0, 0, 0, 0, 0, 0, false, 0, 0, tok, [], 0, false, [], 0, (1, 0), 0, false⟩

/-- A context that holds `n` commands of each unit. -/
def wHeld (n : Nat) : State :=
  let s : State := { w0 with anise := (List.range n).map (fun i => wCmd 9 i 1), walks := (List.range n).map (fun i => wCmd 25 i 1) }
  s.modCore 0 (fun h => { h with clove := (List.range n).map (fun i => wCmd 17 i 1) })

theorem wit_TokenCommandsAreSent :
    Acts w0 0 ∧ readGuard w0 0 gT = true ∧ (w0.core (coreOf 0)).active = some 0 ∧ (w0.ctx 0).tokPending 31 = false ∧ w0.stuck 0 = false ∧
    heldAnise (wHeld 7) 0 0 < 8 ∧ 8 ≤ heldAnise (wHeld 8) 0 0 ∧ heldClove (wHeld 3) 0 0 < 4 ∧ 4 ≤ heldClove (wHeld 4) 0 0 ∧
    heldWalk (wHeld 3) 0 0 < 4 ∧ 4 ≤ heldWalk (wHeld 4) 0 0 ∧ Acts (wHeld 8) 0 ∧ ((wHeld 8).ctx 0).tokPending 31 = false ∧
    ((wCtx (fun x => x.tokPend 31)).ctx 0).tokPending 31 = true := by
  and_intros <;> first | decide +kernel | exact acts_of (by decide +kernel)

/-- A context that has asked for the reply of a `sq.balloc`. -/
def wAsk (r : Option W64) : State := wCtx (fun x => { x with asks := [⟨1, 0, 9, 8, r, 0⟩] })

theorem wit_RepliesAreAskedForOnceAndLand :
    let asked (s : State) : Option Ask := (s.ctx 0).asks.find? (fun y => y.handle == (s.ctx 0).handle && y.pc == (s.ctx 0).pc && y.op == 8)
    Acts (wAsk none) 0 ∧ readGuard (wAsk none) 0 gT = true ∧ asked (wAsk none) = some ⟨1, 0, 9, 8, none, 0⟩ ∧
    ((wAsk none).ctx 0).sysReg 0x003 = 0 ∧ Acts (wAsk (some 5)) 0 ∧ asked (wAsk (some 5)) = some ⟨1, 0, 9, 8, some 5, 0⟩ ∧
    asked w0 = none ∧ heldAnise w0 (w0.ctx 0).tid (w0.ctx 0).rank < 8 ∧ heldWalk w0 (w0.ctx 0).tid (w0.ctx 0).rank < 4 ∧ (w0.ctx 0).stores = [] := by
  and_intros <;> first | decide +kernel | exact acts_of (by decide +kernel)

/-- A sampler command of task 0 with busy cycles left. -/
def wSampCmd (op : Nat) (left : Option Nat) : SampCmd := ⟨9, op, 0, 0, 0, 0, 0, 0, 0, false, [], false, left, 0⟩

/-- A sampler queue of `n` commands and a return queue of `m` entries. -/
def wSamp (n m : Nat) : State :=
  (wCore (fun h => { h with samp := List.replicate n (wSampCmd 2 none) })).modCtx 0 (fun x => { x with rq := List.replicate m ⟨0, 9, false, 0⟩ })

theorem wit_SamplerCells :
    Acts (wSamp 15 7) 0 ∧ readGuard (wSamp 15 7) 0 gT = true ∧ ((wSamp 15 7).core (coreOf 0)).active = some 0 ∧
    ((wSamp 15 7).core (coreOf 0)).samp.length < 16 ∧ ((wSamp 15 7).ctx 0).rq.length < 8 ∧ Acts (wSamp 15 8) 0 ∧
    ((wSamp 15 8).core (coreOf 0)).samp.length < 16 ∧ 8 ≤ ((wSamp 15 8).ctx 0).rq.length ∧ Acts (wSamp 16 7) 0 ∧
    16 ≤ ((wSamp 16 7).core (coreOf 0)).samp.length ∧ ((wSamp 16 7).ctx 0).rq.length < 8 := by
  and_intros <;> first | decide +kernel | exact acts_of (by decide +kernel)

/-! Device steps of a core. -/

/-- Core 0 without an ACTIVE context, and context 0 READY. -/
def wIdle : State := (wCtx (fun x => { x with st := .ready })).modCore 0 (fun h => { h with active := none })

/-- A bundle that false guards alone guard. -/
def wSkip : State := placeBundle State.reset (BitVec.ofNat 256 (0x10228C38 * 2 ^ 32))

/-- Its slots. -/
def wSkips : List Instr := aloneIn 1 (.saAdd .a ⟨1, false⟩ 5 6 7)

theorem wit_IssuePassesAmongContexts :
    let gate (frz : Nat) := (wCore (fun h => { h with yields := true })).modCtx 0 (fun x => { x with frz := frz })
    let fresh := wSkip.modCtx 0 (fun x => { x with settle := [(.p 1, 2)] })
    coreOf 0 < 320 ∧ (wIdle.core 0).active = none ∧ (wIdle.core 0).last < 4 ∧ (wIdle.ctx 0).st = .ready ∧ (wIdle.core 0).mayTake 0 = true ∧
    (∀ e, coreOf e = 0 → (wIdle.ctx e).st = .ready → (wIdle.core 0).mayTake e = true →
      (0 + 3 - (wIdle.core 0).last) % 4 ≤ (e + 3 - (wIdle.core 0).last) % 4) ∧
    ((gate 0).core 0).active = some 0 ∧ ((gate 0).core 0).yields = true ∧ ((gate 0).ctx 0).frz = 0 ∧ ((gate 0).ctx 0).trap = none ∧
    ((gate 3).ctx 0).frz ≠ 0 ∧ fetch wSkip 0 = some wSkips ∧ skips wSkip 0 (bundleOps wSkips) = true ∧
    settledSkip wSkip 0 (bundleOps wSkips) = true ∧ (wSkip.ctx 0).exits = false ∧ (wSkip.ctx 0).delay = 0 ∧ (wSkip.ctx 0).bubble = 0 ∧ (wSkip.core 0).wait = none ∧
    (wSkip.ctx 0).pc + 32 < wSkip.imageLen (wSkip.ctx 0).handle ∧
    fetch fresh 0 = some wSkips ∧ skips fresh 0 (bundleOps wSkips) = true ∧ settledSkip fresh 0 (bundleOps wSkips) = false ∧
    unblocked (wCtx (fun x => { x with st := .blocked, why := .token 1 })) 0 = true ∧
    unblocked (wCtx (fun x => { x.tokPend 1 with st := .blocked, why := .token 1 })) 0 = false ∧ 1400 ∈ agentCodes := by
  and_intros <;> first
    | decide +kernel
    | (intro e he _ _
       have h3 : (wIdle.core 0).last = 3 := by decide +kernel
       rw [h3]; omega)

/-- Pending work of core 0: two results for s3, two scratchpad writes, tile commands in their last cycle, a store. -/
def wWork : State :=
  (wMap.modCtx 0 (fun x => { x with
    pend := [⟨.s 3, 7, 2, 0, 0, false, false, 0, 1, 1, 0⟩, ⟨.s 3, 8, 2, 0, 0, false, false, 0, 1, 1, 0⟩]
    stores := [⟨some 0x2000000, 0x2000000, 0, 8, 0x1122334455667788⟩] })).modCore 0 (fun h => { h with
      spw := [⟨3, 9, none, 0, 2⟩, ⟨3, 10, none, 0, 2⟩], sp := [(2, 5), (3, 6)]
      tcmds := [⟨true, false, [(0, 2), (1, 3)], 1, [0], 0⟩, ⟨false, false, [(4, 8)], 1, [8], 0⟩] })

theorem wit_PendingWorkLands :
    wWork.Still ∧ (wWork.ctx 0).pend[1]? = some ⟨.s 3, 8, 2, 0, 0, false, false, 0, 1, 1, 0⟩ ∧ (wWork.ctx 0).captured = false ∧
    (wWork.core 0).spw[1]? = some ⟨3, 10, none, 0, 2⟩ ∧
    (wWork.core 0).tcmds[0]? = some ⟨true, false, [(0, 2), (1, 3)], 1, [0], 0⟩ ∧ ([(0, 2), (1, 3)].map Prod.fst : List Nat).Nodup ∧
    (wWork.core 0).tcmds[1]? = some ⟨false, false, [(4, 8)], 1, [8], 0⟩ ∧ wWork.reach (dieOf 0) 0x2000000 = true ∧
    (wWork.ctx 0).stores = ⟨some 0x2000000, 0x2000000, 0, 8, 0x1122334455667788⟩ :: [] := by
  and_intros <;> first | decide +kernel | exact still_of (by decide +kernel)

/-- A context that has waited for data for WLIM cycles, and whose bundle of one store waits for memory still, with a handler image. -/
def wWait : State :=
  (({ wImg with seals := [(1, ⟨BitVec.ofNat 256 (0x03428C00 * 2 ^ 64) :: List.replicate 127 0, false⟩)] } : State).modCtx 0
    (fun x => { atSys 0x003 16 x with frz := 16 })).modCore 0 (fun h => { h with wait := some 5 })

/-- A context inside two containment regions. -/
def wRegion : State := wImg.modCtx 0 (fun x => atSys 0x04D (2 ^ 52 + 64) (atSys 0x048 2 x))

/-- A context with a trap that waits, and with a squash event. -/
def wTrap : State := wImg.modCtx 0 (fun x => { x with trap := some ⟨14, 5, 1, 32⟩ })
def wEvent : State := wImg.modCtx 0 (fun x => { x with squash := some 4 })

/-- A context one cycle before the end of its quantum, beside a READY one. -/
def wQuantum : State := (wCtx (fun x => { x with quant := 4, quota := 3 })).setCtx 1 { Context.init with st := .ready }

theorem wit_EventsOfAContext :
    let n := aloneIn 1 .saNop
    wWait.Still ∧ (wWait.ctx 0).st = .active ∧ ((wWait.ctx 0).sysReg 0x003).toNat % 2 ^ 32 ≠ 0 ∧
    (wWait.ctx 0).frz = ((wWait.ctx 0).sysReg 0x003).toNat % 2 ^ 32 ∧ stillFrozen wWait 0 = true ∧ (wWait.task (wWait.ctx 0).tid).dws = false ∧ HandlerReady wWait 0 7 ∧
    ((wWait.modTask 0 (fun k => { k with dws := true })).task 0).dws = true ∧ (wWait.task 0).state = 2 ∧
    wTrap.Still ∧ HandlerReady wTrap 0 14 ∧ wRegion.Still ∧ (wRegion.ctx 0).trap = none ∧ (∀ p ∈ (wRegion.ctx 0).pend, p.landed = true) ∧
    (((wRegion.ctx 0).sysReg 0x048).toNat ≠ 0) ∧
    ((wRegion.ctx 0).sysReg (0x04C + (((wRegion.ctx 0).sysReg 0x048).toNat - 1))).getLsbD 51 = (wRegion.ctx 0).kLevel ∧
    wEvent.Still ∧ HandlerReady wEvent 0 8 ∧ (wEvent.ctx 0).refused = none ∧ (wEvent.ctx 0).dwDue = false ∧ (wEvent.ctx 0).exits = false ∧
    (wEvent.ctx 0).delay = 0 ∧ (wEvent.ctx 0).bubble = 0 ∧ fetch wEvent 0 = some n ∧
    skips wEvent 0 (bundleOps n) = false ∧ unwindsNow wEvent 0 0 (bundleOps n) = false ∧
    wQuantum.Still ∧ (wQuantum.core 0).wasActive = some 0 ∧ (wQuantum.ctx 0).quant ≠ 0 ∧ (wQuantum.ctx 0).quant ≤ (wQuantum.ctx 0).quota + 1 ∧
    (1 : Nat) ≠ 0 ∧ coreOf 1 = 0 ∧ (wQuantum.ctx 1).st = .ready ∧ evRoom wQuantum (dieOf 0) = false := by
  and_intros <;> first | decide +kernel | exact still_of (by decide +kernel) | exact handler_of (by decide +kernel)

/-- Matrix work of core 0 in its last cycle. -/
def wLand : State := ((wQueue 1).modCtx 0 (fun x => { x with bubble := 1 })).modCore 0 (fun h => { h with
  rows := [⟨1, 4095, 0, false, [1, 2], [false, false], 0, ⟨0, 0, 0, 5, 1, 0⟩⟩]
  latqs := [⟨2, 7, 32, 32, 0, [], true, ⟨0, 0, 0, 5, 1, 0⟩, false⟩]
  paths := [⟨1, false, 15, [], [3, 4], []⟩, ⟨1, true, 3, [[1], [2]], [], []⟩]
  wins := [⟨0, 8, 2, 0, 0, 0, 0, 1, 5, [(0, [1], [false]), (1, [2], [false])], false, false⟩, ⟨1, 8, 2, 0, 0, 0, 0, 1, 5, [], false, false⟩] })

/-- A context in a bubble; a latch load that begins, and an `accq` that may push. -/
def wBubble : State := wCtx (fun x => { x with bubble := 1 })
def wLand2 : State := wBubble.modCore 0 (fun h => { h with latqs := [⟨2, 7, 32, 32, 0, [], false, ⟨0, 0, 0, 5, 1, 0⟩, false⟩] })
def wLand3 : State := wBubble.modCore 0 (fun h => { h with accqs := [⟨7, 4095, 2, false, 0, 0, false⟩] })

theorem wit_MatrixWorkLands :
    let h := wLand.core 0
    h.rows[0]? = some ⟨1, 4095, 0, false, [1, 2], [false, false], 0, ⟨0, 0, 0, 5, 1, 0⟩⟩ ∧
    h.latqs[0]? = some ⟨2, 7, 32, 32, 0, [], true, ⟨0, 0, 0, 5, 1, 0⟩, false⟩ ∧ h.engDone = false ∧ wLand.vxIdle 0 = true ∧
    (∃ ps q, (h.queue 7).pop = some (ps, false, q)) ∧ (h.queue 7).pop.map (fun p => decide (32 - 0 ≤ p.1.length)) = some true ∧
    h.paths[0]? = some ⟨1, false, 15, [], [3, 4], []⟩ ∧ h.paths[1]? = some ⟨1, true, 3, [[1], [2]], [], []⟩ ∧
    h.wins[0]? = some ⟨0, 8, 2, 0, 0, 0, 0, 1, 5, [(0, [1], [false]), (1, [2], [false])], false, false⟩ ∧
    h.wins[1]? = some ⟨1, 8, 2, 0, 0, 0, 0, 1, 5, [], false, false⟩ ∧ wLand2.vxIdle 0 = true ∧
    (wLand2.core 0).latqs[0]? = some ⟨2, 7, 32, 32, 0, [], false, ⟨0, 0, 0, 5, 1, 0⟩, false⟩ ∧ wLand3.vxIdle 0 = true ∧
    (wLand3.core 0).accqs[0]? = some ⟨7, 4095, 2, false, 0, 0, false⟩ ∧ (wLand3.core 0).latqs = [] ∧ ((wLand3.core 0).queue 7).full = false ∧
    ((wLand3.core 0).queue 7).nside = false := by
  and_intros <;> first | decide +kernel | exact pop_of (by decide +kernel)

/-- A Mace queue with one command. -/
def wMace1 (m : MaceCmd) : State := wCore (fun h => { h with mace := [m] })

theorem wit_MaceCommandsRun :
    let held := (wMace1 (wMace false false [1] [63])).modCtx 0 (fun x => x.tokPend 31)
    let gone := w0.modTask 0 (fun k => { k with gone := [0] })
    (wMace1 (wMace false false [1] [])).depsDone 0 0 [] = true ∧ (held.ctx 0).dep 31 = 63 ∧ held.depsDone 0 0 [63] = false ∧
    (wMace true false [1] []).spent = true ∧ (wMace true false [1] []).lanes.length ≤ 64 ∧ 0 < ((wMace1 (wMace true false [1] [])).core 0).macePushes ∧
    (w0.core 0).pushes = 0 ∧ wBubble.vxIdle 0 = true ∧
    (w0.core 0).latqs = [] ∧ (w0.core 0).accqs = [] ∧
    ((w0.core 0).queue 7).full = false ∧ ((w0.core 0).queue 7).nside = false ∧ (wMace true false [] []).finished = true ∧
    w0.whereIs 0 0 = some 0 ∧ (w0.task 0).state ≠ 5 ∧ mayComplete w0 0 = false ∧ mayComplete gone 0 = true := by
  and_intros <;> decide +kernel
/-! Sealing and copying. -/

/-- Words at addresses of the mapped space. -/
def wMem (l : List (Nat × Nat)) : State := l.foldl (fun s p => s.writeN p.1 8 p.2) wMap

/-- A seal request at 0x600000 for two bundles at 0x610000, waiting at die 0. -/
def wSeal (word0 : Nat) : State :=
  (wMem [(0x600000, 0x610000), (0x600008, 2), (0x600010, 0x620000), (0x610000, word0)]).modDie 0 (fun d => { d with sealQueue := [(0x600000, 0)] })

/-- The reads of the three words of the request, of its code, and the report. -/
def wVia : Via := ⟨.seal 0, 0, 0, false⟩
def wSealWord (s : State) (a : Nat) : Except Stop ((Nat × Bool × Bool) × State) := (cReadIn wVia a 8).on s
def wSealLen (s : State) : Except Stop ((Nat × Bool × Bool) × State) := wSealWord (s.modDie 0 (fun d => { d with sealQueue := [] })) 0x600008
def wSealSrc (s : State) : Except Stop ((Nat × Bool × Bool) × State) := wSealWord (engState (wSealLen s)) 0x600000
def wSealAt (s : State) : Except Stop ((Nat × Bool × Bool) × State) := wSealWord (engState (wSealSrc s)) 0x600010
def wSealCode (n : Nat) : Except Stop (Except (Nat × Nat × Nat) (List Bundle) × State) :=
  (readCode wVia 2 0x610000 2 0).on (engState (wSealAt (wSeal n)))
def wSealRpt (n status : Nat) : Option State := sealReport (engState (wSealCode n)) wVia 0x620000 status 0 1 0 2

theorem wit_SealingEngine :
    let released : State := { w0 with seals := w0.seals.map (fun p => (p.1, { p.2 with released := true })) }
    (0 : Nat) < 2 ∧ ((wSeal 0).die 0).sealQueue = (0x600000, 0) :: [] ∧ ((wSeal 0).die 0).sealQueue.length < 16 ∧
    16 ≤ ((wDie (fun d => { d with sealQueue := List.replicate 16 (0, 0) })).die 0).sealQueue.length ∧
    wSealLen (wSeal 0) = .ok ((2, false, false), engState (wSealLen (wSeal 0))) ∧ fieldOf (BitVec.ofNat 64 2) 47 32 = 0 ∧
    wSealSrc (wSeal 0) = .ok ((0x610000, false, false), engState (wSealSrc (wSeal 0))) ∧
    wSealAt (wSeal 0) = .ok ((0x620000, false, false), engState (wSealAt (wSeal 0))) ∧ freeHandle (engState (wSealAt (wSeal 0))) = some 2 ∧
    (engVal (0, false, false) (wSealSrc ((wSeal 0).setBad 0x600000 true))).2.1 = true ∧
    engVal (0, false, false) (wSealAt ((wSeal 0).setBad 0x600000 true)) = (0x620000, false, false) ∧
    (sealReport (engState (wSealAt ((wSeal 0).setBad 0x600000 true))) wVia 0x620000 3 0 1 0 0).isSome = true ∧
    (engVal (.ok []) (wSealCode 0)).toOption = some [0, 0] ∧ (wSealRpt 0 1).isSome = true ∧ engOk (wSealCode 1) = true ∧
    (match engVal (.ok []) (wSealCode 1) with | .error e => some e | .ok _ => none) = some (0, 0, 1) ∧ (wSealRpt 1 2).isSome = true ∧
    released.usesSeal 1 = true ∧ (released.setCtx 0 Context.init |>.modTask 0 (fun k => { k with state := 0 })).usesSeal 1 = false := by
  and_intros <;> decide +kernel

/-- A copy queue descriptor at 0x600000 of 16 entries at 0x610000, with one claim, registered at engine 51 of die 0. -/
def wCopyQ : CopyQueue := ⟨0x600000, 0x600000 / 64, 0, 0, 0x610000, 4⟩
def wCopy : State :=
  let s := wMem [(0x600000, 1), (0x600010, 0x610000), (0x600018, 4), (0x610000, 0), (0x610018, 8)]
  s.modEngine 0 51 (fun e => { e with queues := [wCopyQ] })

/-- A packet of context 0 at a point of its life: a fill of one row. -/
def wPacket (ph : Phase) (op done : Nat) (words : List W64) : Packet :=
  { newPacket w0 wCopyQ 0 (BitVec.ofNat 64 (op * 2 ^ 16) :: words) with serial := 9, cpost := true, phase := ph, done := done }

/-- Die 0's engine 51 with one packet. -/
def wPack (p : Packet) : State := wMap.modEngine 0 51 (fun e => { e with packets := [p] })

/-- A fill of 8 bytes at 0x2000000, and an atomic of 8 bytes there. -/
def wFill (ph : Phase) : Packet := wPacket ph 1 0 [77, 0x2000000, 8, 8, 0, 0, 0]
def wAmo : Packet := wPacket .payload 8 0 [1, 0x2000000, 8, 8, 0, 0, 0]

/-- The first access of the waiting fill. -/
def wFirst : Except Stop (Packet × State) :=
  let q := { wFill .payload with fault := true, slot := 0 }
  (payloadStep q (q.via 0 51)).on (((wPack (wFill .waiting)).raise (.copy 0 51) 0).modPacket 0 51 9 (fun _ => q))

def wCqTrans : Except Stop ((Nat × W64) × State) := (eTrans ⟨.copy 0 51, 0, 0, false⟩ 0x600000 .read).on wCopy
def wCqReads : Except Stop (List W64 × State) := (eReads ⟨.copy 0 51, 0, 0, false⟩ 0x600000 4).on (engState wCqTrans)

theorem wit_CopyEngineSteps :
    let w := wPack (wFill .waiting)
    let idle := (wCopy.writeN 0x600008 8 1).engine 0 51
    let done := wPacket .complete 1 8 [77, 0x2000000, 8]
    (0 : Nat) < 2 ∧ 51 < 52 ∧ (wCopy.engine 0 51).queues.length < 64 ∧ 0x600000 % 64 = 0 ∧ (1 : W64).toNat % 64 ≠ 0 ∧
    wCqTrans = .ok (engVal (0, 0) wCqTrans, engState wCqTrans) ∧ wCqReads = .ok (engVal [] wCqReads, engState wCqReads) ∧
    4 ≤ fieldOf (wordAt (engVal [] wCqReads) 3) 4 0 ∧ fieldOf (wordAt (engVal [] wCqReads) 3) 4 0 ≤ 16 ∧
    (wCopy.engine 0 51).queues[0]? = some wCopyQ ∧ idle.queues.find? (fun q => q.desc == 0x600000 && q.regAsid == 0) = some wCopyQ ∧
    (wCopy.writeN 0x600008 8 1).word 0x600000 = (wCopy.writeN 0x600008 8 1).word 0x600008 ∧
    (wCopy.word 0x600000).toNat ≠ (wCopy.word 0x600008).toNat ∧ wCopy.reach 0 0x600000 = true ∧
    (readSlot (wCopy.loadHome (.copy 0 51) 0x600000 1) 0 51 wCopyQ 0 false).isSome = true ∧
    (w.engine 0 51).packets[0]? = some (wFill .waiting) ∧ w.depsDone 0 0 (wFill .waiting).deps = true ∧
    ((w.engine 0 51).packets.filter (fun o => o.fault)).length < 8 ∧ (wFill .waiting).heldBySave w = false ∧ engOk wFirst = true ∧
    (w.modCtx 0 (fun x => x.tokPend 1)).depsDone 0 0 [33] = false ∧
    (wPacket .payload 1 8 [77, 0x2000000, 8]).total ≤ (wPacket .payload 1 8 [77, 0x2000000, 8]).done ∧
    (wFill .payload).done < (wFill .payload).total ∧ (wFill .payload).op ≠ 8 ∧
    engOk ((payloadStep (wFill .payload) ((wFill .payload).via 0 51)).on (wPack (wFill .payload))) = true ∧
    wAmo.done < wAmo.total ∧ wAmo.op = 8 ∧ engOk ((amoStep wAmo (wAmo.via 0 51)).on (wPack wAmo)) = true ∧
    done.bad = false ∧ done.ckv = false ∧ done.dsp ≠ 2 ∧ done.cact = 0 ∧ done.stopped = false ∧ (wPack done).whereIs 0 0 = some 0 ∧
    (wPacket (.stamp 2) 1 0 []).stampAt = 0 ∧ (wPack (wPacket (.stamp 2) 1 0 [])).reach 0 (64 * (wPacket (.stamp 2) 1 0 []).line) = true := by
  and_intros <;> decide +kernel

/-! Sequence engines. -/

/-- A plain pool of die 0, and a KV pool: one block of 4 KiB, its metadata at 0x500000. -/
def wPool (en : Bool) (bpos : Nat) : Pool := { Pool.init with en := en, bpos := bpos, base := 0x400000, nblk := 1, pmeta := 0x500000, free := 1 }

/-- A mapped space with pool 0 of die 0, and with words of memory. -/
def wPools (en : Bool) (bpos : Nat) (l : List (Nat × Nat)) : State := (wMem l).modPool ⟨0, 0⟩ (fun _ => wPool en bpos)

/-- A command with its first two operands, of Anise. -/
def wSeq (op : Nat) (a b : W64) : SqCmd := { wCmd op 9 31 with a := a, b := b }
def wAni (l : List (Nat × Nat)) (bpos : Nat) (q : SqCmd) : State := { wPools true bpos l with anise := [q] }
def wAniRun (s : State) (q : SqCmd) : Except Stop (Option W64 × State) := (aniseRun (s.takeUp (.anise 0) q) q 0).on (s.takeUp (.anise 0) q)

/-- Has a command its turn at die 0's Anise? -/
def wAniMay (s : State) : Bool := mayTurn s s.anise 0 (fun o => aniseDie s o == 0) (aniseConflict s)

def wAlloc : State := wAni [] 0 (wSeq 8 0 0)
def wFree : State := wAni [(0x500000, 2 ^ 62 + 1)] 0 (wSeq 9 0x400000 0)
def wFail : State := wAni [] 0 (wSeq 9 0x400000 0)
def wSquash : State := wAni [(0x600008, 0)] 1 (wSeq 15 0x600000 3)

theorem wit_AniseTurns :
    wAlloc.anise[0]? = some (wSeq 8 0 0) ∧ wAniMay wAlloc = true ∧
    engOk (wAniRun wAlloc (wSeq 8 0 0)) = true ∧ engVal none (wAniRun wAlloc (wSeq 8 0 0)) = some 0x400000 ∧ wAniMay wFree = true ∧
    engOk (wAniRun wFree (wSeq 9 0x400000 0)) = true ∧ engVal (some 0) (wAniRun wFree (wSeq 9 0x400000 0)) = none ∧ wAniMay wFail = true ∧
    (match wAniRun wFail (wSeq 9 0x400000 0) with | .error e => some e.halt | .ok _ => none) = some (.fail 7) ∧ wAniMay wSquash = true ∧
    engOk ((squashRun (wSquash.takeUp (.anise 0) (wSeq 15 0x600000 3)) (wSeq 15 0x600000 3) 0).on
      (wSquash.takeUp (.anise 0) (wSeq 15 0x600000 3))) = true := by
  and_intros <;> decide +kernel

/-- A grammar image at 0x610000 of one state and 64 tokens, bound to slot 0 of core 0 with a record at 0x600000 of one live entry. -/
def wGramWords : List (Nat × Nat) :=
  [(0x610000, 2 ^ 48 + 64), (0x610008, 0xFFFFFFFF * 2 ^ 32 + 2 ^ 16), (0x610010, 0x610100), (0x610018, 0x610200), (0x610020, 0x610300),
   (0x610028, 0x610400), (0x610030, 0x610500), (0x610038, 0x610600), (0x610100, 0xFFFF), (0x610400, 0xFFFF), (0x600038, 0x620000),
   (0x600040, 0x610000), (0x600048, 2 ^ 32), (0x600050, 4 * 2 ^ 32), (0x620008, 2 ^ 31)]
def wGram (q : SqCmd) : State := (wMem wGramWords).modCore 0 (fun h => { h with
  clove := [q]
  gslots := [(0, 0x600000 :: (wGramWords.take 8).map (fun p => BitVec.ofNat 64 p.2))] })
def wGramRun (q : SqCmd) : Except Stop (List W64 × State) :=
  (cloveRun ((wGram q).takeUp (.clove 0) q) q 0).on ((wGram q).takeUp (.clove 0) q)

theorem wit_CloveTurns :
    let mask := wSeq 18 0x600000 (BitVec.ofNat 64 (0xFFFFFFFF * 2 ^ 32))
    let roll := wSeq 20 0x600000 0
    ((wGram mask).core 0).clove[0]? = some mask ∧ cloveMay (wGram mask) 0 0 = true ∧ mask.op = 18 ∧
    engOk (wGramRun mask) = true ∧ (engVal [] (wGramRun mask)).length = 1 ∧
    ((wGram roll).core 0).clove[0]? = some roll ∧ cloveMay (wGram roll) 0 0 = true ∧ roll.op ≠ 18 ∧ engOk (wGramRun roll) = true := by
  and_intros <;> decide +kernel

/-- A schedule of one dimension of one granule at 0x600000, and a tile record with an empty box at 0x601000. -/
def wWalk : State :=
  { wMem [(0x600000, 2 ^ 32), (0x600020, 1), (0x600028, 2 ^ 32 + 2 ^ 16 + 2 ^ 8)] with walks := [wSeq 23 0x600000 0x601000] }
def wWalkRead : Except Stop (W64 × State) :=
  (eRead (walkVia 0 (wSeq 23 0x600000 0x601000)) 0x600000).on (wWalk.takeUp (.walker 0) (wSeq 23 0x600000 0x601000))
def wWalkRun : Except Stop (Option W64 × State) :=
  let q := wSeq 23 0x600000 0x601000
  let u := (engState wWalkRead).takeUp (.walker 0) q
  (walkRun (u.audited q.tid) (walkVia 0 q) q).on u

theorem wit_SequenceEngineSteps :
    let z : Quar := ⟨1, 0, 0x400000, [(0, 51, 0x600000, 0)], false, false⟩
    let s := (wPools true 0 []).modDie 0 (fun d => { d with quars := [z] })
    let sm := (wCore (fun h => { h with samp := [wSampCmd 7 (some 1)] })).modCtx 0 (fun x => { x with rq := [⟨0, 9, false, 0⟩] })
    let far := (wPools false 0 []).modPool ⟨0, 0⟩ (fun p => { p with pmeta := 0x7000000000 })
    let sq : Squash := ⟨wCmd 15 9 31, [], []⟩
    ((wPools false 0 []).poolAt ⟨0, 0⟩).en = false ∧ poolOk (wPools false 0 []) ⟨0, 0⟩ = true ∧
    (presentAll 0 ((wPools false 0 []).poolAt ⟨0, 0⟩).asid ((wPools false 0 []).poolAt ⟨0, 0⟩).pages (wPools false 0 [])).1 = some true ∧
    poolOk far ⟨0, 0⟩ = true ∧ (presentAll 0 (far.poolAt ⟨0, 0⟩).asid (far.poolAt ⟨0, 0⟩).pages far).1 = some false ∧
    poolOk wMap ⟨0, 0⟩ = false ∧ ((wPools true 0 []).poolAt ⟨0, 0⟩).free = ((wPools true 0 []).poolAt ⟨0, 0⟩).nblk ∧
    (s.die 0).quars[0]? = some z ∧ (∀ w ∈ z.waits, w ∉ s.acceptedPackets) ∧
    engOk ((eWrite (poolVia ⟨0, z.pool⟩ (s.poolAt ⟨0, z.pool⟩) true) ((s.poolAt ⟨0, z.pool⟩).metaAt z.addr) 0).on s) = true ∧
    (sm.core 0).samp = wSampCmd 7 (some 1) :: [] ∧ sm.whereIs 0 0 = some 0 ∧ ((wSampCmd 7 (some 1)).value (sm.ctx 0).cand).isSome = true ∧
    ({ w0 with squashes := [sq] } : State).squashes[0]? = some sq ∧ cancelsDone { w0 with squashes := [sq] } sq = true ∧
    wWalk.walks[0]? = some (wSeq 23 0x600000 0x601000) ∧ mayTurn wWalk wWalk.walks 0 (fun o => walkCluster wWalk o == 0) walkConflict = true ∧
    (match walkHome wWalk (wSeq 23 0x600000 0x601000) with | .walker cl => some cl | .settle _ => none) = some 0 ∧
    engOk wWalkRead = true ∧ engOk wWalkRun = true ∧ engVal (some 0) wWalkRun = none := by
  and_intros <;> decide +kernel
/-! Launches and dispatch. -/

/-- A record of image 1 of `w0`, entry 0, one level with one context. -/
def wRecWords : List W64 := loneWords

/-- A launch queue of 16 entries: its descriptor at 0x600000, its ring at 0x610000, one claim. -/
def wLaunchWords : List (Nat × Nat) :=
  [(0x600000, 1), (0x600010, 0x610000), (0x600018, 4), (0x600028, 16 * 2 ^ 32), (0x610008, 2 ^ 52), (0x610040, 1)]
def wLqRec : LaunchQueue := ⟨1, 0x600000 / 64, false, false, 0x600000, 0, 0, 0x610000, 4, 16, 0, false, false, 0, 0, 0, 3, none⟩
def wLaunch : State := (wMem wLaunchWords).modDie 0 (fun d => { d with lqs := [wLqRec] })

def wLqTrans : Except Stop ((Nat × W64) × State) := (eTrans ⟨.dispatch 0, 0, 0, false⟩ 0x600000 .read).on wLaunch
def wLqReads : Except Stop (List W64 × State) := (eReads ⟨.dispatch 0, 0, 0, false⟩ 0x600000 8).on (engState wLqTrans)
def wSlotTrans : Except Stop ((Nat × W64) × State) := (eTrans ⟨.dispatch 0, 0, 0, false⟩ 0x610000 .read).on (wLaunch.loadHome (.dispatch 0) 0x600000 1)
def wSlotValid : Except Stop ((Nat × Bool × Bool) × State) := (cReadIn ⟨.dispatch 0, 0, 0, false⟩ 0x610000 8).on (engState wSlotTrans)
def wSlotReads : Except Stop (List W64 × State) := (eReads ⟨.dispatch 0, 0, 0, false⟩ 0x610000 16).on (engState wSlotValid)

/-- An accepted record of queue 3, claim 0. -/
def wRec (st : RecState) : Launch := ⟨9, 0, false, false, false, none, wLqRec, 0, wRecWords, true, 0, 0, 0, [], st, 0, none, none⟩
def wRecs (st : RecState) : State := wLaunch.modDie 0 (fun d => { d with recs := [wRec st] })

theorem wit_LaunchSteps :
    let late := (wRecs .waiting).modCtx 0 (fun x => x.tokPend 1)
    (0 : Nat) < 2 ∧ 256 ≤ ((wDie (fun d => { d with lqs := List.replicate 256 wLqRec })).die 0).lqs.length ∧
    (wLaunch.die 0).lqs.length < 256 ∧ engOk wLqTrans = true ∧ engOk wLqReads = true ∧
    fieldOf (wordAt (engVal [] wLqReads) 3) 4 0 = 4 ∧ fieldOf (wordAt (engVal [] wLqReads) 7) 63 56 = 0 ∧
    (wLaunch.die 0).lqs.find? (fun q => q.desc == 0x600000 && q.regAsid == 0) = some wLqRec ∧ (wLaunch.die 0).lqs[0]? = some wLqRec ∧
    (wLaunch.word (64 * wLqRec.line)).toNat ≠ (wLaunch.word (64 * wLqRec.line + 8)).toNat ∧ (wLaunch.die 0).openRecs wLqRec.serial < 64 ∧
    wLaunch.reach 0 (64 * wLqRec.line) = true ∧ wLqRec.ring + 128 * ((wLaunch.word (64 * wLqRec.line + 8)).toNat % 2 ^ wLqRec.lsize) = 0x610000 ∧
    engOk wSlotTrans = true ∧ engOk wSlotValid = true ∧ fieldOf (BitVec.ofNat 64 (engVal (0, false, false) wSlotValid).1) 63 40 = 0 ∧
    (engState wSlotValid).slotPending (engVal (0, 0) wSlotTrans).1 0x610000 0 = false ∧ engOk wSlotReads = true ∧
    recReject (engState wSlotReads) (engVal [] wSlotReads) (peers wLaunch 0) = none ∧
    (recReject (engState wSlotReads) (List.replicate 16 0) (peers wLaunch 0)).isSome = true ∧
    ((wRecs .waiting).die 0).recs[0]? = some (wRec .waiting) ∧ fieldOf (wordAt (wRec .waiting).words 3) 47 0 = 0 ∧
    (wRecs .waiting).depsDone 0 0 [] = true ∧ recAfter (wRec .waiting).words = false ∧ evRoom (wRecs .waiting) 0 = false ∧
    late.depsDone 0 0 [33] = false ∧
    ([wRec .eligible].filter (fun x => x.state == .eligible)).Pairwise (fun a b => b.before a = false) := by
  and_intros <;> decide +kernel

/-- Task 5 is free, with frames for a context, and context 4 of die 0 names it. -/
def wFree5 (st : Nat) : State :=
  ((wRecs .eligible).setTask 5 { Task.init with state := st, fstr := 2 ^ 20 }).modDie 0 (fun d => { d with
    slots := [(4, [BitVec.ofNat 64 (2 ^ 63 + 5 * 2 ^ 48), 0, 0, 0, 0, 0, 0, 0])] })

/-- A head command of die 0. -/
def wCom (s : State) (op tid arg : Nat) : State := s.modDie 0 (fun d => { d with dcmd := [⟨op, tid, arg⟩] })

/-- Queue 3 armed with task 5. -/
def wArmed : State := (wFree5 1).modLq 0 3 (fun q => { q with armed := some 5 })

/-- Task 0 being saved. -/
def wSaving : State :=
  (w0.modTask 0 (fun k => { k with state := 3, saving := some 1, fstr := 2 ^ 20 })).modCtx 0 (fun x => { x with st := .saved, halt := true })

/-- The same with a second context. -/
def wSaving2 : State := wSaving.setCtx 1 { wSaving.ctx 0 with rank := 1 }

theorem wit_DispatchCommands :
    let b := wCom (wFree5 0) 1 5 (3 * 2 ^ 40)
    let done := w0.modTask 0 (fun k => { k with gone := [0] })
    (b.die 0).dcmd = ⟨1, 5, 3 * 2 ^ 40⟩ :: [] ∧ (b.die 0).events = [] ∧ namedRec b 0 (3 * 2 ^ 40) = some (wRec .eligible) ∧
    bindCode b 5 (wRec .eligible) false = 0 ∧ (bindGo b 5 (wRec .eligible)).isSome = true ∧
    (match bindGo b 5 (wRec .eligible) with | some u => (u.die 0).recs.all (fun x => x.serial != 9 || !x.wait) && (u.task 5).state == 2 | none => false)
      = true ∧
    namedRec b 0 0 = none ∧ bindCode (wFree5 2) 5 (wRec .eligible) false = 1 ∧
    (b.die 0).lq (3 * 2 ^ 40 / 2 ^ 40 % 256) = some wLqRec ∧ wLqRec.armed = none ∧ (b.task 5).state = 0 ∧ (w0.task 0).state = 2 ∧
    (wSaving.task 0).state = 3 ∧ wSaving.taskCycle 0 ≤ (wSaving.task 0).saveAt + 1 ∧
    restoreCode w0 0 ≠ 0 ∧ (w0.task 0).kill = none ∧
    (w0.core (3 % 512)).active = none ∧ (w0.core (0 % 512)).active ≠ none ∧
    (b.die 0).recs.find? (fun r => r.lq.num == 3 * 2 ^ 40 / 2 ^ 40 % 256 && r.seq % 2 ^ 24 == 3 * 2 ^ 40 % 2 ^ 24 &&
      (r.state == .waiting || r.state == .eligible)) = some (wRec .eligible) ∧
    (wArmed.die 0).lqs[0]? = some { wLqRec with armed := some 5 } ∧
    firstOf ((wArmed.die 0).recs.filter (fun r => r.lq.serial == 1 && r.audit.isNone && r.state == .eligible)) = some (wRec .eligible) ∧
    bindCode wArmed 5 (wRec .eligible) true = 0 ∧
    (match bindGo wArmed 5 (wRec .eligible) with | some u => (u.task 5).state == 2 | none => false) = true ∧
    saveReady wSaving2 0 = true ∧ taskCtxs wSaving2 0 = [(0, wSaving2.ctx 0), (1, wSaving2.ctx 1)] ∧
    (∀ p ∈ taskCtxs wSaving2 0, wSaving2.ctx p.1 = p.2 ∧ p.2.stores = []) ∧ ((taskCtxs wSaving2 0).map (fun p => p.2.rank)).Nodup ∧
    saveReady (wSaving.modCore 0 (fun h => { h with paths := [⟨1, false, 15, [], [3, 4], []⟩] })) 0 = false ∧
    mayComplete done 0 = true ∧ (done.task 0).state = 2 ∧ (done.task 0).replay = none ∧ (done.task 0).aud = false ∧
    recCaddr (done.task 0).words = 0 := by
  and_intros <;> decide +kernel

/-- Task 0 saved, with a frame in memory from 0x2000000 on whose CK64 does not hold, and context 0 of die 0 naming it. -/
def wSaved : State :=
  let s := (State.reset.setTask 0 { Task.init with state := 4, live := 1, words := loneWords, handle := 1, frb := 0x2000000, fstr := 2 ^ 20 }).modDie 0
    (fun d => { d with slots := [(0, [BitVec.ofNat 64 (2 ^ 63), 0, 0, 0, 0, 0, 0, 0])] })
  { s with frames := [(frameKey 0 0, { makeFrame s 0 with tid := 0 })] }

/-- The same task with no frame noted, so that none fails. -/
def wBare : State := { wSaved with frames := [] }

theorem wit_DispatchRestores :
    restoreCode wSaved 0 = 0 ∧ (∀ f ∈ wSaved.frames, f.2.tid = 0 → wSaved.reach 0 (frameAt wSaved 0 (f.1 % 2048)) = true) ∧
    framesClean wSaved 0 = true ∧ framesWhole wSaved 0 = false ∧
    restoreCode wBare 0 = 0 ∧ framesClean wBare 0 = true ∧ framesWhole wBare 0 = true := by
  and_intros <;> decide +kernel

/-! Translation, reliability, ports, system cores. -/

/-- A fault of task 0's context, held, and given identifier 7. -/
def wFaultRec (fid : Option Nat) : FaultRec := ⟨fid, 1, 0x400000, 0, 1, false, 0, 0, 0, 0, 0, false⟩
def wFault (fid : Option Nat) : State := wDie (fun d => { d with
  faults := [wFaultRec fid], fring := BitVec.ofNat 64 (4 * 2 ^ 59 + 0x700000) })

theorem wit_TranslationAndFaults :
    let named := wFault (some 7)
    (0 : Nat) < 2 ∧ trOk (walkTr wMap 0 (.dispatch 0) 0 0x400000 .write false) = true ∧
    trOk (translate wMap 0 (.dispatch 0) 0 0x400000 .write false) = true ∧
    (match walkTr wMap 0 (.dispatch 0) 0 0x40000000 .write false with | .absent _ _ => true | _ => false) = true ∧
    (match walkTr wMap 0 (.dispatch 0) 1 0 .write false with | .refused _ => true | _ => false) = true ∧ (wMap.die 0).tlbi.length < 16 ∧
    ((wDie (fun d => { d with tlbi := [(2, false)] })).die 0).tlbi = (2, false) :: [] ∧ (wDie (fun d => { d with tlbi := [(2, false)] })).tlbiReady = true ∧
    ((wFault none).die 0).faults.findIdx? (fun f => f.fid.isNone) = some 0 ∧ ((wFault none).die 0).faults[0]? = some (wFaultRec none) ∧
    ((wFault none).die 0).freeFid = some 0 ∧ ((wFault none).die 0).frRoom = true ∧
    fieldOf ((wFault none).die 0).fring 47 0 + 32 * (((wFault none).die 0).ftail % 2 ^ ((wFault none).die 0).frLog) + 32 ≤ memBytes ∧
    (wFault none).reach 0 (fieldOf ((wFault none).die 0).fring 47 0 + 32 * (((wFault none).die 0).ftail % 2 ^ ((wFault none).die 0).frLog)) = true ∧
    (w0.die 0).faults.find? (fun f => f.fid == some 7) = none ∧
    (named.die 0).faults.find? (fun f => f.fid == some 7) = some (wFaultRec (some 7)) ∧
    (named.task 0).rec_ = (wFaultRec (some 7)).unit ∧ 2 ≤ (named.task 0).state ∧ (named.task 0).state ≤ 4 ∧ (named.whereIs 0 0).isSome = true := by
  and_intros <;> decide +kernel

/-- A link in a state after boot stage 1, with the port of link 50 enabled. -/
def wLink (n st : Nat) (lost : List Nat) : State := (w0.modLink n (fun l => { l with state := st, lost := lost })).modDie 0 (fun d => { d with
  gften := 4, perst := true, bootStage := 1 })

theorem wit_ReliabilityAndLinks :
    let seg : Segment := ⟨2, 0, 0, 4096, 1, 3⟩
    let fused := w0.modTask 0 (fun k => { k with segs := [seg] })
    fused.l1fOf (8 * (l1fPlace 0 seg 64 / 8)) = some (seg, 64) ∧ seg.cluster / 20 = 0 ∧ fused.badAt (8 * (l1fPlace 0 seg 64 / 8)) 8 = false ∧
    w0.l1fOf (8 * 5) = none ∧ (0 : Nat) < 2 ∧ 8 * 5 < memBytes ∧ homeDie (8 * 5) = 0 ∧ w0.badAt (8 * 5) 8 = false ∧ dieOf 3 = 0 ∧ (w0.core 3).bad 1 7 = false ∧
    (w0.task 0).state = 2 ∧ (w0.task 0).kill = none ∧ (w0.link 5).state ≠ 0 ∧ 1 / 4 ∉ (w0.link 5).lost ∧ 5 / 4 ∉ ((wLink 5 1 [0]).link 5).lost ∧
    ((wLink 5 1 [0]).link 5).state ≠ 0 ∧ ((wLink 5 3 []).link 5).state = 3 ∧ (wLink 5 3 []).linkOn 5 = true ∧ ((wLink 60 3 []).link 60).state = 3 ∧
    (wLink 60 3 []).linkOn 60 = true ∧ ((wLink 50 3 []).link 50).state = 3 ∧ ((wLink 5 1 [0]).link 5).state = 1 ∧
    ((wLink 50 0 []).link 50).state = 0 ∧ (wLink 50 0 []).linkOn 50 = true ∧
    (∀ m, m < 48 → (({ w0 with links := (List.range 48).map (fun m => (m, { Link.init with state := 0 })) } : State).link m).state = 0) ∧
    (w0.die 0).perst = false ∧ (w0.die 0).storcfg.getLsbD 0 = false ∧ ((wDie (fun d => { d with storcfg := 1 })).die 0).storcfg.getLsbD 0 = true ∧
    w0.linkOn (48 + 2) = false ∧ w0.gftAllowed.testBit 2 = true ∧ ((wLink 50 1 []).die (1 - 0)).gften.testBit 2 = false := by
  and_intros <;> decide +kernel

/-- The mapped space with the host link, a GFT link and the storage link of die 0 up, its NASID and STASID 0. -/
def wPorts : State :=
  ((wMap.modLink 48 (fun l => { l with state := 2 })).modLink 62 (fun l => { l with state := 2 })).modDie 0 (fun d => { d with
    hspeed := 5, bootStage := 4, gften := 1, storcfg := 1 })

/-- A package whose dies have booted, with no work. -/
def wRested : State := (State.reset.modDie 0 (fun d => { d with bootNext := 6 })).modDie 1 (fun d => { d with bootNext := 6 })

theorem wit_PortsPowerAndBoot :
    let net := translate wPorts 0 (.net 0) (fieldOf (wPorts.die 0).netcfg 63 48) 0x400000 .write false
    let stor := translate wPorts 0 (.stor 0) (fieldOf (wPorts.die 0).storcfg 63 48) 0x400000 .write false
    (0 : Nat) < 2 ∧ 8 + 8 ≤ 2 ^ 36 ∧ (wPorts.die 0).hspeed ≠ 0 ∧ 4 ≤ (wPorts.die 0).bootStage ∧ wPorts.pstate = 0 ∧
    (wPorts.die 0).asleep = false ∧ (wPorts.die 0).hcfg.getLsbD 0 = false ∧ wPorts.badAt (0 * (192 * 2 ^ 30) + 8) 8 = false ∧ gftUp wPorts = true ∧
    sx48 (0x400000 : W64).toNat = 0x400000 ∧ wPorts.reach 0 0x400000 = true ∧ trOk net = true ∧ trPa net = 0x400000 ∧
    (wPorts.link (62 + 0)).state = 2 ∧ (0x400000 : W64).toNat % 8 = 0 ∧ trOk stor = true ∧ trPa stor = 0x400000 ∧
    (wRested.pstate < powerTarget wRested ∧ powerTarget wRested < 3) ∧ powerTarget State.reset = 0 ∧ ({ w0 with pstate := 2 } : State).pstate = 2 ∧
    (w0.die 0).bootStop = false ∧ (w0.die (1 - 0)).bootStop = false ∧ ((wDie (fun d => { d with bootNext := 4 })).die 0).bootNext = 4 ∧
    ((w0.modDie 1 (fun d => { d with bootStop := true })).die (1 - 0)).bootStop = true ∧ (w0.die 0).bootNext < 6 ∧ (w0.die 0).held = [] ∧ (w0.die 0).attCopy = none ∧
    ((wDie (fun d => { d with attCopy := some 3 })).die 0).attCopy = some 3 := by
  and_intros <;> decide +kernel

/-- A running system core 2 of die 0, with `addi x5, x0, 7` at 0x2000000, its pc. -/
def wHart (pc : Nat) : State :=
  (w0.writeN 0x2000000 4 0x00700293).setHart 2 { Hart.init with runs := true, pc := BitVec.ofNat 64 pc }
def rvVal (r : Except RvStop (Nat × Nat × Nat × State)) : Nat × Nat := match r with | .ok (l, _, w, _) => (l, w) | .error _ => (0, 0)
def rvState (r : Except RvStop (Nat × Nat × Nat × State)) : State := match r with | .ok (_, _, _, s) => s | .error _ => State.reset

theorem wit_SystemCoreStep :
    (w0.hart (9 * 0 + 2)).runs = false ∧ ({ wHart 0x2000000 with pstate := 1 } : State).pstate ≠ 0 ∧
    ((wHart 0x2000000).hart (9 * 0 + 2)).runs = true ∧ (wHart 0x2000000).pstate = 0 ∧ rvInterrupt (wHart 0x2000000) 0 2 = none ∧
    rvVal (rvFetch (wHart 0x2000000) 0 2) = (4, 0x00700293) ∧
    (rvExec (rvState (rvFetch (wHart 0x2000000) 0 2)) 0 2 4 0x00700293).toOption.isSome = true ∧
    (match rvFetch (wHart 0x2000004) 0 2 with | .error (.trap c _ _) => some c | _ => none) = some 2 ∧
    (match rvExec (wHart 0x2000000) 0 2 4 0 with | .error (.trap c _ _) => some c | _ => none) = some 2 := by
  and_intros <;> decide +kernel

theorem wit_LocalVectorAndMatrixFrame :
    Acts w0 0 ∧ (slotOp (.vxMov gT 1 2)).isSome = true ∧
    (match slotOp (.vxMov gT 1 2) with
      | some o => decide (3 ≤ o.slot ∧ o.slot ≤ 5) && (match o.run 0 w0 with | .issued _ => true | _ => false)
      | none => false) = true ∧ readGuard w0 0 (Instr.vxMov gT 1 2).guard = true := by
  and_intros <;> first | decide +kernel | exact acts_of (by decide +kernel)

theorem wit_EveryStepKeepsMemoryCanonical : State.reset.MemOk ∧ outNext (step w0) = true :=
  ⟨by unfold State.MemOk; decide +kernel, by decide +kernel⟩

/-! More of the hypotheses of the statements with many clauses. -/

/-- Task 0 as `wTwo` has it, with group 1 triggered already, and with a counter for triggers at 0x400000 or none. -/
def wLastGroup (va : Nat) : State := wMap.modTask 0 (fun k => { k with
  words := [BitVec.ofNat 64 (2 ^ 15), BitVec.ofNat 64 (2 ^ 52), 0, 0, 0, 0, BitVec.ofNat 64 va, 0, 1, 2], triggered := [1] })

/-- The state in which the last group's trigger adds 1 to the counter. -/
def wTriggered (va : Nat) : State :=
  let a := (wLastGroup va).modTask 0 (fun y => { y with triggered := y.triggered ++ [0], tDone := true })
  let b := a.modDie 0 (fun d => { d with recs := d.recs.map (fun r => if r.serial = 0 then { r with trig := true } else r) })
  b.raise (.dispatch 0) (b.taskTs 0)

/-- A context with a store to its own die, to the other one, or to a ring slot whose page is absent; the links between the dies are down. -/
def wStores (pa : Option Nat) : State :=
  { wCtx (fun x => { x with stores := [⟨pa, 0, 0, 8, 1⟩] }) with links := (List.range 48).map (fun m => (m, { Link.init with state := 0 })) }

/-- Task 0 with one level of three contexts and a barrier at which one of the others has arrived, or both. -/
def wBarrier (l : List Nat) : State := w0.modTask 0 (fun k => { k with
  words := [0, BitVec.ofNat 64 (2 ^ 52), 0, 0, 0, 0, 0, 0, 3], bars := [⟨0, 0, l⟩] })

theorem wit_EarlyTriggerAndExit2 :
    let k := (wLastGroup 0).task ((wLastGroup 0).ctx 0).tid
    let pair := w0.modTask 0 (fun k => { k with words := [BitVec.ofNat 64 (2 ^ 15 + 2 ^ 12), BitVec.ofNat 64 (2 ^ 52), 0, 0, 0, 0, 0, 0, 1, 2] })
    let p := pair.task 0
    (∀ va ∈ [0, 0x400000], let s := wLastGroup va
      Acts s 0 ∧ readGuard s 0 gT = true ∧ (s.core (coreOf 0)).active = some 0 ∧ (s.ctx 0).stores = [] ∧
      (∀ q ∈ s.bound, q.2.tid = (s.ctx 0).tid → s.stuck q.1 = false)) ∧
    trigLevel k.words = some 0 ∧ groupOf k.words 0 ((wLastGroup 0).ctx 0).rank = 0 ∧ 0 ∉ k.triggered ∧
    taskSize k.words / sizeBelow k.words (0 + 1) = k.triggered.length + 1 ∧ k.tDone = false ∧
    (wordAt k.words 6).toNat % 2 ^ 48 = 0 ∧ trOk (translate (wTriggered 0x400000) 0 (.dispatch 0) 0 0x400000 .rmw false) = true ∧
    (wTriggered 0x400000).reach 0 0x400000 = true ∧
    Acts pair 0 ∧ trigLevel p.words = some 1 ∧ sizeBelow p.words (1 + 1) = 2 ∧ groupOf p.words 1 (pair.ctx 0).rank = 0 ∧ 0 ∉ p.triggered ∧
    0 < taskSize p.words / max 1 2 ∧ (0 * 2 + 1 ≠ (pair.ctx 0).rank ∧ 0 * 2 + 1 ∉ p.gone) ∧
    (∀ j, j < 2 → 0 * 2 + j = (pair.ctx 0).rank ∨ 0 * 2 + j ∈ ((pair.modTask 0 (fun k => { k with gone := [1] })).task 0).gone) := by
  and_intros <;> first
    | decide +kernel
    | exact acts_of (by decide +kernel)
    | (intro va h
       simp only [List.mem_cons, List.not_mem_nil, or_false] at h
       rcases h with rfl | rfl <;> and_intros <;> first | decide +kernel | exact acts_of (by decide +kernel))

theorem wit_ExitStoresAndBarriers :
    (∀ pa ∈ [some 0x2000000, some (192 * 2 ^ 30), none], Acts (wStores pa) 0 ∧ readGuard (wStores pa) 0 gT = true ∧
      ((wStores pa).core (coreOf 0)).active = some 0 ∧ ((wStores pa).ctx 0).stores = [⟨pa, 0, 0, 8, 1⟩] ∧ ((wStores pa).ctx 0).st = .active ∧
      trigLevel ((wStores pa).task ((wStores pa).ctx 0).tid).words = none) ∧
    (wStores (some 0x2000000)).reach (dieOf (coreOf 0)) 0x2000000 = true ∧ (wStores (some (192 * 2 ^ 30))).reach (dieOf (coreOf 0)) (192 * 2 ^ 30) = false ∧
    (∀ l ∈ [[1], [1, 2]], Acts (wBarrier l) 0 ∧ ((wBarrier l).core (coreOf 0)).active = some 0 ∧ trigLevel ((wBarrier l).task 0).words = none ∧
      ((wBarrier l).task 0).bars = [⟨0, 0, l⟩] ∧ groupRanks ((wBarrier l).task 0).words 0 0 = [0, 1, 2] ∧ ((wBarrier l).task 0).gone = [] ∧
      ((wBarrier l).ctx 0).rank = 0) := by
  and_intros
  · intro pa h
    simp only [List.mem_cons, List.not_mem_nil, or_false] at h
    rcases h with rfl | rfl | rfl <;> and_intros <;> first | decide +kernel | exact acts_of (by decide +kernel)
  · decide +kernel
  · decide +kernel
  · intro l h
    simp only [List.mem_cons, List.not_mem_nil, or_false] at h
    rcases h with rfl | rfl <;> and_intros <;> first | decide +kernel | exact acts_of (by decide +kernel)

/-- A core with a registered window that begins `n` cycles ahead and has `2 m` rows. -/
def wMeet (s : State) (n m : Nat) : State := s.modCore 0 (fun h => { h with wins := [⟨n, 2000, 2 * m, 0, 0, 0, 0, 1, 5, [], false, false⟩] })

theorem wit_ScheduleTraps :
    let s := wMeet wWin 1 2
    let k := s.core (coreOf 0)
    let ar := (List.range 1).map (fun i => ((readS s 0 5).toNat % 4096 + i) % 4096)
    let ap := ar.flatMap (fun y => (List.range 16).map (fun j => y * 16 + j))
    let words := (List.range ap.length).map (fun j => (s.ctx 0).wrapWord ((readS s 0 5).toNat + 8 * j))
    let M := tsRows (readTs wMx 0 15)
    let kx := (wMeet wMx (40 + 2) 1).core 0
    let kz := (wMeet wMx (1 + 1) 4).core 0
    let shape := readTs wMx 0 15
    let mrows := (List.range M).flatMap (fun i => (viewRows false 4095 i).map Res.row)
    Acts s 0 ∧ readGuard s 0 gT = true ∧ k.owner = some 0 ∧ k.locked ((words.map k.bank).eraseDups) = false ∧ k.tagsMeet 0 words = true ∧
    k.free [] (ar.map .row) [] = true ∧ 0 < regionCycles k words (ap.length / 32 + 1) ∧ k.claims = [] ∧ k.wins[0]?.map Window.cycles = some [1, 2] ∧
    Acts (wMeet wMx (40 + 2) 1) 0 ∧ kx.owner = some 0 ∧ kx.free [.tile 15, .latch 3] mrows [.feed] = true ∧ kx.tagOf 3 ≠ 15 ∧
    classOf (Fmt.ofCode (kx.tagOf 3)) = classOf (mmaFmt 0) ∧ 2 < M ∧ kx.claims = [] ∧ kx.wins[0]?.map Window.cycles = some [42] ∧
    Acts (wMeet wMx (1 + 1) 4) 0 ∧ kz.owner = some 0 ∧ kz.free (((List.range 3).flatMap (viewRows false 4095)).map Res.row) [] [] = true ∧
    kz.claims = [] ∧ kz.wins[0]?.map Window.cycles = some [2, 3, 4, 5] ∧ (3 + 1) / 2 = 2 ∧ tsRb shape ≤ 64 := by
  and_intros <;> first | decide +kernel | exact acts_of (by decide +kernel)

/-- Tile shape 15 with a type, rows of 64 bytes. -/
def wShape (ty : Nat) : State := wMx.modCore 0 (fun h => { h with
  ts := SMap.set tsReset h.ts 15 (BitVec.ofNat 64 (ty * 2 ^ 16 + 0x4020))
  queues := [(7, { Queue.init with sink := ty })] })

theorem wit_ShapeTraps :
    (∀ ty ∈ [1, 4, 9], let s := wShape ty
      let k := s.core (coreOf 0)
      let shape := readTs s 0 15
      let mrows := (List.range (tsRows shape)).flatMap (fun i => (viewRows true 0 i).map Res.row)
      Acts s 0 ∧ readGuard s 0 gT = true ∧ k.owner = some 0 ∧ k.free [.tile 15] [.latch 3] [.path] = true ∧ tsType shape = ty ∧ tsRb shape = 64 ∧
      k.free [.tile 15, .latch 3] mrows [.feed] = true ∧ k.free [] [.latch 3] [.pop] = true ∧ (k.queue 7).sink = ty) ∧
    ((wShape 1).core 0).tagOf 2 = 15 ∧ classOf (Fmt.ofCode (((wShape 1).core 0).tagOf 3)) ≠ classOf (mmaFmt 1) ∧
    (((wShape 1).modCore 0 (fun h => { h with latTag := [(3, 1)] })).core 0).tagOf 3 = 1 ∧ classOf (Fmt.ofCode 1) = classOf (mmaFmt 1) := by
  and_intros
  · intro ty h
    simp only [List.mem_cons, List.not_mem_nil, or_false] at h
    rcases h with rfl | rfl | rfl <;> and_intros <;> first | decide +kernel | exact acts_of (by decide +kernel)
  all_goals decide +kernel

/-- `wCq` with token 31 pending, and the same with a line that no queue has, or an address between lines. -/
def wTok (s : State) : State := s.modCtx 0 (fun x => x.tokPend 31)

theorem wit_CopyPostBlocks :
    let s := wTok (wCq 0)
    let s' := trState (wTr s 6 .rmw)
    let odd := wTok (wCtx (atS 6 1))
    let img : List W64 := [BitVec.ofNat 64 (2 * 2 ^ 3), 0, BitVec.ofNat 64 (8 * 2 ^ 48), BitVec.ofNat 64 (3 * 2 ^ 32), 0, 0, 0, 0]
    Acts s 0 ∧ readGuard s 0 gT = true ∧ (s.core (coreOf 0)).active = some 0 ∧ (s.ctx 0).tokPending 31 = true ∧ canonical (readS s 0 6).toNat = true ∧
    (readS s 0 6).toNat % 64 = 0 ∧ trOk (wTr s 6 .rmw) = true ∧ trPa (wTr s 6 .rmw) / 64 = 0x2000040 / 64 ∧
    s'.qheads.find? (fun p => p.1 == 0x2000040 / 64) = some (0x2000040 / 64, ⟨false, 0, 0, 0x2000040, 0x3000000, 4, 0⟩) ∧
    s'.reach (dieOf (coreOf 0)) 0x2000040 = true ∧ (s'.ctx 0).stores = [] ∧
    (s'.core (coreOf 0)).locked ((imageWords s' 0 0 (if false then 16 else 8)).map (s'.core (coreOf 0)).bank) = false ∧
    (trState (wTr (wTok wLd) 6 .rmw)).qheads.find? (fun p => p.1 == trPa (wTr (wTok wLd) 6 .rmw) / 64) = none ∧
    Acts (wTok wLd) 0 ∧ Acts odd 0 ∧ (odd.ctx 0).tokPending 31 = true ∧ (readS odd 0 6).toNat % 64 ≠ 0 ∧
    imageWindow img = some (8, 0, 4, 0) ∧ windowClash ((wMeet w0 9 1).core 0) 8 4 = some (schedInfo 5 0 9) ∧ windowClash ((wMeet w0 10 1).core 0) 8 4 = none := by
  and_intros <;> first | decide +kernel | exact acts_of (by decide +kernel)

/-- A pending result with a destination and a value of 7, and with an event or none. -/
def wRes (d : Dst) (ev : BitVec 7) : Pend := ⟨d, 7, 2, ev, 0, false, false, 0, 1, 1, 0⟩

theorem wit_PendingWorkLands2 : ∀ d ∈ [Dst.s 3, .s 0, .p 3, .p 0, .v 3, .vm 3, .vm 0, .lc 3, .sys 0x045, .ts 3], ∀ ev ∈ [(0 : BitVec 7), 1],
    let s := wCtx (fun x => { x with pend := [wRes d ev] })
    s.Still ∧ (s.ctx 0).pend[0]? = some (wRes d ev) ∧ (s.ctx 0).captured = false ∧ (wRes d ev).landed = false ∧ (wRes d ev).dead = false ∧
    (wRes d ev).dst = d := by
  intro d hd ev he
  simp only [List.mem_cons, List.not_mem_nil, or_false] at hd he
  rcases hd with rfl | rfl | rfl | rfl | rfl | rfl | rfl | rfl | rfl | rfl <;> rcases he with rfl | rfl <;>
    and_intros <;> first | decide +kernel | exact still_of (by decide +kernel)

/-- Tile commands in their last cycle that move accumulator rows. -/
theorem wit_AccumulatorCommandsLand :
    let s := wCore (fun h => { h with tcmds := [⟨true, true, [(0, 2), (1, spWords)], 1, [0], 0⟩, ⟨false, true, [(4, 8)], 1, [8], 0⟩] })
    s.Still ∧ (s.core 0).tcmds[0]? = some ⟨true, true, [(0, 2), (1, spWords)], 1, [0], 0⟩ ∧ ([(0, 2), (1, spWords)].map Prod.fst : List Nat).Nodup ∧
    (s.core 0).tcmds[1]? = some ⟨false, true, [(4, 8)], 1, [8], 0⟩ ∧ ([(4, 8)].map Prod.snd : List Nat).Nodup := by
  and_intros <;> first | decide +kernel | exact still_of (by decide +kernel)

/-- A package whose event ring of 16 entries at 0x700000 is free. -/
def wRing (s : State) : State := s.modDie 0 (fun d => { d with devq := BitVec.ofNat 64 (4 * 2 ^ 59 + 0x700000) })

theorem wit_EventsOfAContext2 :
    let s := wRing wQuantum
    let r := wRegion.modCtx 0 (fun x => { atSys 0x03A 1 (atSys 0x044 3 (atSys 0x04D (2 ^ 52 + 2 ^ 51 + 64) x)) with trapOrder := 1, crOrder := [0, 2] })
    let x := r.ctx 0
    s.Still ∧ evRoom s (dieOf 0) = true ∧ (s.die 0).events = [] ∧ (s.core 0).wasActive = some 0 ∧ (s.ctx 0).quant ≠ 0 ∧ (s.ctx 1).st = .ready ∧
    (s.ctx 0).quant ≤ (s.ctx 0).quota + 1 ∧
    r.Still ∧ x.st = .active ∧ x.trap = none ∧ (∀ p ∈ x.pend, p.landed = true) ∧ (x.sysReg 0x048).toNat ≠ 0 ∧
    (x.sysReg (0x04C + ((x.sysReg 0x048).toNat - 1))).getLsbD 51 = x.kLevel ∧ (x.sysReg 0x044).getLsbD 1 = true ∧
    x.trapOrder < x.crOrder.getD ((x.sysReg 0x048).toNat - 1) 0 := by
  and_intros <;> first | decide +kernel | exact still_of (by decide +kernel)

/-- A window over FP32 rows, INT32 rows or a row of FP64, whose pair of rows is there. -/
def wPair (fmt : Nat) : Window := ⟨1, 8, 2, 0, fmt, 0, 0, 1, 5, [(0, List.replicate 32 3, []), (1, List.replicate 32 4, [])], false, false⟩

theorem wit_MatrixWorkLands2 : ∀ fmt ∈ [0, 4, 1],
    let row : RowWrite := ⟨1, 8, fmt, true, List.replicate (if fmt = 1 then 32 else 64) 3, [], 0, ⟨0, 0, 0, 5, 1, 0⟩⟩
    let s := wCore (fun h => { h with rows := [row], wins := [wPair fmt] })
    (s.core 0).rows[0]? = some row ∧ row.left ≤ 1 ∧ (fmt ≠ 1 → row.vals.length ≤ 64) ∧ (fmt = 1 → row.vals.length ≤ 32) ∧
    (s.core 0).wins[0]? = some (wPair fmt) ∧ (wPair fmt).did = false ∧ (wPair fmt).start ≤ 1 ∧ (wPair fmt).next < ((wPair fmt).rows + 1) / 2 ∧
    (wPair fmt).ready = [(2 * (wPair fmt).next, List.replicate 32 3, []), (2 * (wPair fmt).next + 1, List.replicate 32 4, [])] ∧
    2 * (wPair fmt).next + 2 ≤ (wPair fmt).rows := by
  intro fmt h
  simp only [List.mem_cons, List.not_mem_nil, or_false] at h
  rcases h with rfl | rfl | rfl <;> and_intros <;> decide +kernel

theorem wit_MaceCommandsRun2 :
    let s := wCore (fun h => { h with mace := [wMace true false [] [], wMace false false [1] []] })
    let head := (wMaces 2).modTask 0 (fun k => { k with state := 5 })
    (s.core 0).mace = wMace true false [] [] :: [wMace false false [1] []] ∧ (wMace true false [] []).started = true ∧
    (wMace true false [] []).finished = true ∧ (s.core 0).pushes = 0 ∧ s.whereIs 0 0 = some 0 ∧
    (head.task 0).state = 5 ∧ (head.core 0).mace.head? = some (wMace false false [1] []) ∧ (wMace false false [1] []).tid = 0 ∧
    (head.core 0).mace.head?.map MaceCmd.tid ≠ some 7 ∧ ((head.modTask 7 (fun k => { k with state := 5 })).task 7).state = 5 := by
  and_intros <;> decide +kernel

theorem wit_SealReports :
    let w0 := (eWrite wVia (0x620000 + 8) (BitVec.ofNat 64 2)).on (engState (wSealAt (wSeal 0)))
    let w1 := (eWrite wVia 0x620000 (BitVec.ofNat 64 (1 * 2 ^ 62 + 0 * 2 ^ 59 + 0 * 2 ^ 56 + 0))).on (engState w0)
    (0x620008 : Nat) % 16 ≠ 0 ∧ (0x620000 : Nat) % 16 = 0 ∧ engOk w0 = true ∧ engOk w1 = true := by
  and_intros <;> decide +kernel

/-- A packet in its payload, all of it translated: operation, source and destination spaces, the type, SRC, DST and the row's length, with the
bytes read. -/
def wPay (op ssp dsp fmt src dst len done : Nat) (buf : List (Nat × Bool)) : Packet :=
  { wPacket .payload op done [BitVec.ofNat 64 src, BitVec.ofNat 64 dst, BitVec.ofNat 64 len, 0, 0, 0, 0] with
      words := BitVec.ofNat 64 (op * 2 ^ 16 + fmt * 2 ^ 12 + ssp * 2 ^ 5 + dsp * 2 ^ 3) ::
        [BitVec.ofNat 64 src, BitVec.ofNat 64 dst, BitVec.ofNat 64 len, 0, 0, 0, 0]
      ahead := len, buf := buf }
def wBytes : List (Nat × Bool) := List.replicate 8 (5, false)

/-- Its next access of payload goes through. -/
def wMoves (p : Packet) (s : State) : Bool := engOk ((payloadStep p (p.via 0 51)).on s)

theorem wit_CopyPayload :
    let mem := wPay 0 0 0 0 0x2000000 0x2100004 8 0 wBytes
    let add := wPay 4 0 0 0 0x2000000 0x2100000 8 4 (wBytes.take 4)
    let sp := wPay 6 0 1 4 0x2000000 16 8 0 wBytes
    let tags := { sp with words := BitVec.ofNat 64 (0 * 2 ^ 16 + 3 * 2 ^ 10 + 2 ^ 3) :: sp.words.drop 1 }
    let chk := wPay 0 0 3 0 0x2000000 0 8 0 wBytes
    let rowMid := wPay 4 0 2 0 0x2000000 8 128 0 wBytes
    let rowEnd := wPay 4 0 2 0 0x2000000 8 128 120 wBytes
    let win := wMap.modCore 0 (fun h => { h with wins := [⟨0, 8, 2, 0, 0, 0, 0, rowEnd.seq, rowEnd.line, [], false, false⟩] })
    let load := wPay 0 0 0 0 0x2000003 0x2100000 16 0 []
    let spl := wPay 0 1 0 0 8 0x2100000 16 0 []
    let amo := wPay 8 0 0 0 1 0x2100000 8 0 []
    let spa := wPay 8 0 1 0 1 16 4 0 []
    mem.arith = false ∧ mem.done + min (8 - 0x2100004 % 8) (mem.len - 0) ≤ mem.ahead ∧ min (8 - 0x2100004 % 8) (mem.len - 0) ≤ mem.buf.length ∧
    engOk ((eTrans (mem.via 0 51) 0x2100004 .write).on wMap) = true ∧ wMoves mem wMap = true ∧
    add.arith = true ∧ add.dsp ≠ 2 ∧ add.fmt.width / 8 = 4 ∧ add.done + 4 ≤ add.ahead ∧ add.buf.length = 4 ∧
    engOk ((eTrans (add.via 0 51) (0x2100000 + 4) .rmw).on wMap) = true ∧ wMoves add wMap = true ∧
    sp.dsp = 1 ∧ sp.bounds = [] ∧ (wMap.core 0).locked [(wMap.core 0).bank (16 / 8)] = false ∧ wMoves sp wMap = true ∧
    tags.cact = 3 ∧ tags.ckv = false ∧ 16 % 8 + 8 = 8 ∧ wMoves tags wMap = true ∧
    chk.dsp = 3 ∧ wMoves chk wMap = true ∧
    rowMid.dsp = 2 ∧ 0 + 8 ≠ rowMid.len ∧ wMoves rowMid wMap = true ∧ 120 + 8 = rowEnd.len ∧ wMoves rowEnd win = true ∧
    (∃ x ∈ (win.core (rowEnd.dst / 2 ^ 32 % 2 ^ 9)).wins, x.desc = rowEnd.line ∧ x.seq = rowEnd.seq) ∧
    load.op ≠ 1 ∧ load.buf.length < 8 ∧ engOk ((cReadIn (load.via 0 51) 0x2000003 5).on wMap) = true ∧ wMoves load wMap = true ∧
    spl.ssp = 1 ∧ 8 + spl.len ≤ 0x300000 ∧ (wMap.core 0).locked [(wMap.core 0).bank (8 / 8)] = false ∧ wMoves spl wMap = true ∧
    amo.dsp = 0 ∧ engOk ((eTrans (amo.via 0 51) amo.dst .rmw).on wMap) = true ∧
    trPa (translate wMap 0 (.copy 0 51) 0 amo.dst .rmw false) = 0x2100000 ∧ wMap.badAt 0x2100000 amo.len = false ∧
    engOk ((amoStep amo (amo.via 0 51)).on wMap) = true ∧
    spa.dsp = 1 ∧ spa.bounds = [] ∧ (wMap.core 0).bad 1 (16 / 8) = false ∧ engOk ((amoStep spa (spa.via 0 51)).on wMap) = true := by
  and_intros <;> decide +kernel

/-- A queue that is removed while its descriptor is within reach, and an engine with nothing that a squash could not read. -/
theorem wit_CopyQueueRemoval :
    let s := wCopy.writeN 0x600008 8 1
    (s.engine 0 51).queues.find? (fun q => q.desc == 0x600000 && q.regAsid == 0) = some wCopyQ ∧ s.word (64 * wCopyQ.line) = s.word (64 * wCopyQ.line + 8) ∧
    s.reach 0 (64 * wCopyQ.line) = true ∧ (s.engine 0 51).unread = [] ∧ testAllUnread wCopy 0 51 = wCopy ∧
    ((testAllUnread wCopy 0 51).engine 0 51).queues[0]? = some wCopyQ := by
  and_intros <;> decide +kernel

/-- A sampler command with its operands. -/
def wPick (op x a b : Nat) : SampCmd := { wSampCmd op none with x := x, a := BitVec.ofNat 64 a, b := BitVec.ofNat 64 b }

/-- A candidate file of two candidates of logit 2.0 and 1.0, tokens 7 and 9. -/
def wFile : CandFile := ⟨0x3F800000, 64, 0x3F800000, [⟨0x40000000, 7⟩, ⟨0x3F800000, 9⟩]⟩

theorem wit_SampledValues :
    let finite (x : Nat) : Prop := x ≠ 0x7F800000 ∧ isNan32 x = false ∧ Num.lt (.fin false 0 0) (Fmt.decode .f32 x) = true
    let w := sums 0 wFile.logits
    let e := min wFile.entries.length wFile.k
    let cut := wPick 5 0 0x3F000000 0
    let t := Fmt.decode .f32 (fmul .f32 .rne 0 0x3F000000 (w.getLastD 0)).1
    let r := wPick 6 0 1 2
    let d := Fmt.decode .f32 ((Machine.Num.mul (.fin false (fieldOf (draw r.a r.b) 63 40) (-24)) (Fmt.decode .f32 (w.getLastD 0))).1.pack .f32 .rdn false 0).1
    finite 0x40000000 ∧ ¬finite 0x7F800000 ∧ ¬finite 0x7FC00000 ∧ ¬finite 0x80000000 ∧
    isNan32 0x3F000000 = false ∧ Num.lt (Fmt.decode .f32 0x3F000000) (.fin false 1 0) = true ∧ Num.lt (Fmt.decode .f32 0x3F800000) (.fin false 1 0) = false ∧
    isNan32 0x7FC00000 = true ∧ e ≠ 0 ∧ finite (w.getLastD 0) ∧ w.length = 2 ∧ cut.a.toNat % 2 ^ 32 = 0x3F000000 ∧
    (w[0]?.map (fun c => Num.lt (Fmt.decode .f32 c) t)) = some false ∧
    ((w.map (fun c => Num.lt d (Fmt.decode .f32 c))).findIdx? (fun b => b)).isSome = true ∧
    min ([] : List Cand).length 64 = 0 ∧ finite ((sums 0 wFile.linear).getLastD 0) ∧
    (7 : BitVec 32).toNat = (wPick 7 3 7 0).a.toNat % 2 ^ 32 ∧ (wPick 7 3 8 0).a.toNat % 2 ^ 32 ∉ wFile.entries.map (fun c => c.idx.toNat) := by
  and_intros <;> decide +kernel

theorem wit_LaunchSteps2 :
    let s := wRing (wRecs .waiting)
    evRoom s 0 = true ∧ (s.die 0).events = [] ∧ (s.die 0).recs[0]? = some (wRec .waiting) ∧ s.depsDone 0 0 (wRec .waiting).deps = true ∧
    (wRec .waiting).watch = none ∧ (wRec .waiting).wait = false ∧ (wRec .waiting).die = 0 := by
  and_intros <;> decide +kernel

theorem wit_ReliabilityAndLinks2 :
    let h := (wQueue 1).core 0
    h.bad 2 7 = false ∧ (∀ e ∈ (latchWord h (8191 / 2048) (8191 % 2048)).2, h.bad 3 (latPlace (8191 / 2048) (latchWord h (8191 / 2048) (8191 % 2048)).1 e) = false) ∧
    h.bad 4 (2 * 65535) = false ∧ h.bad 4 (2 * 65535 + 1) = false ∧ ((h.queue (112 / 16)).entries[112 % 16]?.map QEntry.poison) = some false ∧
    (∀ j, j < 4 → h.bad 6 (4 * 1023 + j) = false) ∧ (wQueue 1).pstate ≠ 3 ∧ (wQueue 1).linkOn (48 + 2) = false := by
  and_intros <;> decide +kernel

/-- `wPorts` with accesses through BAR2 translated; `wRested` with both votes for PA3. -/
def wXlat : State := wPorts.modDie 0 (fun d => { d with hcfg := 1 })
def wDeep : State := { wRested with hostP3 := true, kernP3 := true }

theorem wit_PortsPowerAndBoot2 :
    let host (va : Nat) (acc : Acc) := translate wXlat 0 (.host 0) (fieldOf (wXlat.die 0).hcfg 63 48) va acc false
    let net (acc : Acc) := translate wPorts 0 (.net 0) (fieldOf (wPorts.die 0).netcfg 63 48) 0x400000 acc false
    let stor := translate wPorts 0 (.stor 0) (fieldOf (wPorts.die 0).storcfg 63 48) 0x400000 .read false
    let sleeps := wPorts.modDie 0 (fun d => { d with asleep := true, bootStage := 3 })
    let down := { w0 with pstate := 3, links := (List.range 48).map (fun m => (m, { Link.init with lost := [0, 1] })) }
    let at_ (n : Nat) := wDie (fun d => { d with bootNext := n })
    (wXlat.die 0).hcfg.getLsbD 0 = true ∧ sx48 (fieldOf (wXlat.die 0).hcfg 47 36 * 2 ^ 36 + 0x400000) = 0x400000 ∧
    trOk (host 0x400000 .write) = true ∧ trOk (host 0x400000 .read) = true ∧ trPa (host 0x400000 .write) = 0x400000 ∧ wXlat.reach 0 0x400000 = true ∧
    (match host 0x40000000 .write with | .absent _ _ => true | _ => false) = true ∧
    (sleeps.die 0).asleep = true ∧ (sleeps.die 0).hspeed ≠ 0 ∧ sleeps.pstate = 0 ∧
    ((wPorts.modDie 0 (fun d => { d with bootStage := 3 })).die 0).asleep = false ∧
    trOk (net .read) = true ∧ trOk (net .rmw) = true ∧ trPa (net .rmw) = 0x400000 ∧ (trState (net .rmw)).badAt 0x400000 8 = false ∧ trOk stor = true ∧
    wDeep.pstate < 3 ∧ powerTarget wDeep = 3 ∧ (wDeep.die 0).bootStop = false ∧
    ({ w0 with pstate := 3 } : State).pstate = 3 ∧ (w0.link 47).lost.length < 2 ∧ down.pstate = 3 ∧ (∀ n, n < 48 → 2 ≤ (down.link n).lost.length) ∧
    ((at_ 5).die 0).bootNext = 5 ∧ ((at_ 1).die 0).bootStop = false ∧ (at_ 1).pstate = 0 ∧ ((at_ 1).die (1 - 0)).bootStop = false ∧
    ((at_ 1).die 0).held = [] ∧ ((at_ 1).die 0).asleep = false ∧ linksUp (trainLinks w0) = true ∧ linksUp (trainLinks down) = false ∧
    w0.ksrc = false ∧ w0.flashBlock 3 = [] ∧ (w0.poolAt ⟨0, 0⟩).en = false := by
  and_intros <;> decide +kernel

/-! What the commands of the sequence engines write: a command goes through in a state in which the accesses that the statement names do. -/

/-- The die's KV pool 0 with two blocks of which one is taken, its first of `n` references, a sequence record at 0x600000 with committed and tree
positions, a block table of 4 entries at 0x620000 with one entry, and a second record at 0x602000. -/
def wKv (clen tlen nblk n : Nat) : State :=
  (wMem [(0x500000, 2 ^ 62 + n), (0x600000, tlen * 2 ^ 32 + clen), (0x600010, 0x620000), (0x600018, nblk * 2 ^ 32 + 4), (0x620000, 77),
    (0x620008, 0x400000), (0x602010, 0x630000), (0x602018, 4)]).modPool ⟨0, 0⟩
    (fun _ => { wPool true 1 with nblk := 2, free := 1 })

/-- The same with a hash table of 16 slots at 0x650000. -/
def wTable : State := (wKv 0 0 0 1).modPool ⟨0, 0⟩ (fun p => { p with htLog := 4, ht := 0x650000 })

/-- A command of Anise in it goes through. -/
def wAnise (s : State) (op x : Nat) (a b : W64) : Bool :=
  engOk ((aniseRun s { wCmd op 9 31 with x := x, a := a, b := b } 0).on s)

/-- Pool 0 of die 0 plain, a grammar of one state and one transition that does `op`, an end token 5 at which the state accepts, a record at 0x600000
with one entry whose stack is `node`, a second record at 0x601000 without entries, both bound, and a node at 0x400010 of a block with one node. -/
def wGrammar (op node : Nat) : State :=
  (wPools true 0 (wGramWords ++ [(0x610008, 5 * 2 ^ 32 + 2 ^ 16), (0x610100, 2 ^ 16 + 0xFFFF), (0x610108, 1), (0x610200, 0xFFFF * 2 ^ 32 + op * 2 ^ 14), (0x620000, node), (0x600058, 0x400000),
    (0x600060, 2), (0x400000, 2 ^ 63 + 1), (0x400018, 2 ^ 32), (0x500000, 2 ^ 62 + 1), (0x601038, 0x630000), (0x601040, 0x610000), (0x601050, 4 * 2 ^ 32)])).modCore 0
    (fun h =>
      let hd (a : Nat) : List W64 := BitVec.ofNat 64 a :: BitVec.ofNat 64 (2 ^ 48 + 64) :: BitVec.ofNat 64 (5 * 2 ^ 32 + 2 ^ 16) ::
        ((wGramWords.take 8).drop 2).map (fun p => BitVec.ofNat 64 p.2)
      { h with gslots := [(0, hd 0x600000), (1, hd 0x601000)] })

/-- A command of Clove in it goes through. -/
def wClove (s : State) (op x : Nat) (a b : W64) : Bool := engOk ((cloveRun s { wCmd op 9 31 with x := x, a := a, b := b } 0).on s)

/-- A schedule block at 0x600000 with its map at 0x601000, one dimension of `ext` granules in tiles of one, `nw` workers, and RUN, PROG, PGEO and the
first granules; a tile record at 0x602000 that names granule 0, and a rewrite image at 0x603000. -/
def wSched (ext nw run prog pgeo map : Nat) : State :=
  wMem [(0x600000, 2 ^ 32), (0x600008, run), (0x600010, prog), (0x600018, 0x1000), (0x600020, nw), (0x600028, ext * 2 ^ 32 + 2 ^ 16 + 2 ^ 8),
    (0x600058, pgeo), (0x600060, 2 ^ 8), (0x601000, map), (0x602000, 1), (0x602008, 1), (0x602018, 1), (0x603000, 1), (0x603008, 2 ^ 8)]

/-- A command of the walker on it, and what it replies. -/
def wSchedRun (s : State) (op : Nat) (b : W64) : Except Stop (Option W64 × State) :=
  (walkRun false (walkVia 0 (wSeq op 0x600000 b)) (wSeq op 0x600000 b)).on s

theorem wit_AniseWrites :
    -- balloc, bfree, bfree.ref, and a block that has no free one after it
    wAnise wAlloc 8 0 0 0 = true ∧ wAnise wFree 9 0 0x400000 0 = true ∧ wAnise wFree 9 1 0x400000 0 = true ∧
    (match (allocate ⟨0, 0⟩ false).on (wAlloc.modPool ⟨0, 0⟩ (fun p => { p with free := 0 })) with | .error e => some e.halt | .ok _ => none) = some (.fail 3) ∧
    -- kvapp: into a new block, into a block of one reference, into one of two; kvapp.list of a partial block and of a whole one
    wAnise (wKv 0 0 0 1) 10 0 0x600000 3 = true ∧ wAnise (wKv 0 1 1 1) 10 0 0x600000 3 = true ∧ wAnise (wKv 0 1 1 2) 10 0 0x600000 3 = true ∧
    wAnise (wKv 0 0 0 1) 10 1 0x600000 (BitVec.ofNat 64 (15 * 2 ^ 48 + 0x640000)) = true ∧
    wAnise (wKv 0 0 0 1) 10 1 0x600000 (BitVec.ofNat 64 (16 * 2 ^ 48 + 0x640000)) = true ∧
    -- kvfork, kvroll, kvcommit, kvwin and kvwin.set
    wAnise (wKv 0 1 1 1) 11 0 0x602000 0x600000 = true ∧ wAnise (wKv 0 1 1 1) 12 0 0x600000 0 = true ∧ wAnise (wKv 0 1 1 1) 13 0 0x600000 1 = true ∧
    wAnise (wKv 1 1 1 1) 14 0 0x600000 0 = true ∧ wAnise (wKv 16 16 1 1) 14 1 0x600000 16 = true ∧ (wKv 0 0 0 1).inReplay 0 = false ∧
    -- a key inserted into an empty hash table, and found there
    engVal false ((insertKey ⟨0, 0⟩ false 5 0x400000 1 0).on wTable) = true ∧
    (engVal none ((lookup ⟨0, 0⟩ false 5).on (engState ((insertKey ⟨0, 0⟩ false 5 0x400000 2 0).on wTable)))).isSome = true := by
  and_intros <;> decide +kernel

theorem wit_CloveWrites :
    -- gbind, gbind.reset, gbind.drop
    wClove (wGrammar 0 0) 16 0 0x600000 0 = true ∧ wClove (wGrammar 0 0) 16 1 0x601000 1 = true ∧ wClove (wGrammar 0 0x400010) 16 2 0x600000 0 = true ∧
    -- gstep: keep, push, pop, replace, and the end token
    wClove (wGrammar 0 0) 17 0 0x600000 0 = true ∧ wClove (wGrammar 1 0) 17 0 0x600000 0 = true ∧ wClove (wGrammar 2 0x400010) 17 0 0x600000 0 = true ∧
    wClove (wGrammar 3 0x400010) 17 0 0x600000 0 = true ∧ wClove (wGrammar 0 0) 17 0 0x600000 5 = true ∧
    -- gmask, gfork, groll, groll.pos, gcommit
    wClove (wGrammar 0 0x400010) 18 0 0x600000 0 = true ∧ wClove (wGrammar 0 0x400010) 19 0 0x601000 0x600000 = true ∧
    wClove (wGrammar 0 0) 20 0 0x600000 0 = true ∧ wClove (wGrammar 0 0) 20 1 0x600000 0 = true ∧ wClove (wGrammar 0 0) 21 0 0x600000 0 = true ∧
    (match (boundRec 0 ⟨.clove 0, 0, 0, false⟩ 0x602000).on (wGrammar 0 0) with | .error e => some e.halt | .ok _ => none) = some (.fail 13) := by
  and_intros <;> decide +kernel

theorem wit_WalkerWrites :
    let val (r : Except Stop (Option W64 × State)) : Option W64 := engVal none r
    -- itnext: a tile, none placed here, all done; a switch, and one to a geometry that is not valid
    val (wSchedRun (wSched 2 1 0 0 0 0) 22 0x602000) = some 0 ∧ val (wSchedRun (wSched 1 2 0 0 0 0) 22 (BitVec.ofNat 64 (2 ^ 58 + 0x602000))) = some 0x8000000000000001 ∧
    val (wSchedRun (wSched 1 1 0 1 0 0) 22 0x602000) = some 0x8000000000000002 ∧
    val (wSchedRun (wSched 1 1 (2 ^ 47) 1 1 0) 22 0x602000) = some 0x8000000000000002 ∧
    (match wSchedRun (wSched 1 1 (2 ^ 47) 1 0 0) 22 0x602000 with | .error e => some e.halt | .ok _ => none) = some (.fail 17) ∧
    -- schw, and one on a locked block; itdone and ityield of granule 0
    engOk (wSchedRun (wSched 2 1 0 0 0 0) 25 0x603000) = true ∧
    (match wSchedRun ((wSched 2 1 0 0 0 0).writeN 0x600000 8 (2 ^ 63 + 2 ^ 32)) 25 0x603000 with | .error e => some e.halt | .ok _ => none) = some (.fail 6) ∧
    engOk (wSchedRun (wSched 2 1 0 0 0 1) 23 0x602000) = true ∧ engOk (wSchedRun (wSched 2 1 0 0 0 1) 24 0x602000) = true := by
  and_intros <;> decide +kernel

/-! Signed blocks of TYPE 2 and 3 with a payload of 8 zero bytes, their modulus the prime 2^3071 + 2291 and
their signatures calculated outside the model from RFC 8017 (R406). A block of TYPE 4 or 1 carries the root key, whose hash is an opaque constant, so that none can be written down. -/

/-- The modulus's hash, and the signature of the block of a type. -/
def wKey : Nat := 0x810e8406f2f08647c9a8a8713b4c0578ffffe65aa12543a0fef8616fbecbb775
def wSign (ty : Nat) : Nat :=
  if ty = 2 then 0x27ab7c575bfb779a9f2cc2cdc2c4785fac73905b1f59466bacd9c867e604e44b7864cc22b8c3bde67def0364f4d45bc385cbb0ea3b414096a6e1df5d56c3f1d48b92d34447472cb5289f61d23a539bbbc65cfa4e5abc58692f00e65276c839cdaf84c0f9b56eba1ac67877fc7ae24dcbef0715f67ed71832e7b38ca10ffaea28b985d97b615086691707925dfd16b190f95a3524fc165b13834c7b283749adb9713723c3cc00c0cfddc4680bc4e303a8379b0b147e8ca0ef00d22571fcf8400c4755be2920c2e7ddf69ab6485697a75b6bb84e7fb800b5b3eadddc25309cca2d1bf278675255d5c14990b5402f15f93929efcbf6e1cfee58c41cc1a7976519a85eb783ef2af29ac31b16408ce61acc9a98e79f3b703f014805876128868d3c2fbb70af61e9b798d3ddba4da1e5b76cc4ca9c079b3ffef5b31a72caed6da736fc1922d4f4ac25b04550a8ff4bd1cdda78f9405c3de01216a73635d8c726d7939fbd5e30a5d27b4274fceabe75c8fe512dbbf5edab05421be307da6931b3099b11
  else 0x5bd0b33c0578bf5978afabded8879a323b7bdfff7c311547f430929fd5a804e76d2c403d49d54ae820d557765ea1522a7c7da74e135a787e82b2b193677098875267e0d011e1aa4ecc7282c3eb195c3cd2e15209730feab30dca38f70850a0df270105ec414d182ee6274f56419eefef8bcd407c1a15f7c7c21a28e35e4af2555176f6d256699fd5853e8b263be32522ce3ce713df65b1c089c322e775ca8a8a29509a6402dc343c8f991138eecf5b5765ed32713d7f9a67181bd6f7be469a4027842f476055dd3d9faccd8cf1992836cc33bcb4766ffaaea974df6af41ffb9f3c055b11fac6cc59e796c440e0f65c7fdc37507f0f4249f21b12d8d9f75e3d11ad15ee0d1531053c298051e693210aa414b5a17fce4ecf5f8eb9b564ae050644b74f243d9ebf8787e3d8635c1d9836afe383b0c7e043bd156fa79428ac54bf3bfd9494263eb732062d6025810ccf69908f73e6e384c9290edac13b4cdaab17d9d6ca3c442dae999a6d3f1bdf1f2dda9ce00c850196f0229ce6580d1e673de88

/-- The block of a type. -/
def wBlock (ty : Nat) : Signed :=
  [8, 0, 0, 0, 0, 0, ty, 0] ++ List.replicate 8 0 ++ beBytes wKey 32 ++ [128] ++ List.replicate 381 0 ++ [8, 243] ++ List.replicate 24 0 ++ beBytes (wSign ty) 384

/-- The block in flash, the signing key named, boot at a stage. -/
def wStage (n ty : Nat) : State :=
  { w0.modDie 0 (fun d => { d with bootNext := n, signKey := some wKey }) with flash := [(ty, (wBlock ty).map (fun b => BitVec.ofNat 8 b))] }

/-- The memory cells of bytes from an address on. -/
def wCells : Nat → List Nat → List Host.Cell
  | _, [] => []
  | k, b :: l => if b = 0 then wCells (k + 1) l else (k, BitVec.ofNat 8 b) :: wCells (k + 1) l

/-- Boot at stage 5, the kernel's block in the die's memory, loaded by the host as the configuration's KSRC says. -/
def wKernel : State :=
  { (wStage 5 3).modDie 0 (fun d => { d with kload := true }) with
      flash := [(1, 24 :: List.replicate 463 0 ++ [1])], mem := wCells 0 (wBlock 3) }

theorem get_cells (l : List Nat) : ∀ k i, SMap.get (0 : Byte) (wCells k l) i = if i < k then 0 else BitVec.ofNat 8 (l.getD (i - k) 0) := by
  induction l with
  | nil => intro k i; simp [wCells, SMap.get]
  | cons b l ih =>
    intro k i
    rcases Nat.lt_trichotomy i k with h | h | h
    · unfold wCells; split
      · rw [ih, if_pos (by omega : i < k + 1)]
      · rw [SMap.get, if_neg (by omega), ih, if_pos (by omega : i < k + 1)]
    · subst h; unfold wCells; split
      · rename_i h0; rw [ih, if_pos (by omega), if_neg (by omega)]; simp [h0]
      · rw [SMap.get, if_pos rfl]; simp
    · obtain ⟨n, rfl⟩ : ∃ n, i = k + 1 + n := ⟨i - (k + 1), by omega⟩
      have e : k + 1 + n - k = n + 1 := by omega
      have e2 : k + 1 + n - (k + 1) = n := by omega
      unfold wCells; split
      · rw [ih, if_neg (by omega), if_neg (by omega), e, e2]; simp
      · rw [SMap.get, if_neg (by omega), ih, if_neg (by omega), if_neg (by omega), e, e2]; simp

theorem map_getD (l : List Nat) {n : Nat} (h : n ≤ l.length) (f : Nat → Nat) :
    (List.range n).map (fun i => f (l.getD i 0)) = (l.take n).map f := by
  refine List.ext_getElem (by simp; omega) (fun i h1 h2 => ?_)
  simp at h1
  simp [List.getElem?_eq_getElem (show i < l.length by omega)]

theorem kernel_block {s : State} {l : List Nat} {n : Nat} (hm : s.mem = wCells 0 l) (hb : l.map (fun b => (BitVec.ofNat 8 b).toNat) = l)
    (hn : Signed.len (l.take 448) = n) (hl : 448 + n + 384 = l.length) : kernelBlock s 0 = l := by
  have hf (k : Nat) (hk : k ≤ l.length) : (List.range k).map (fun i => (s.byte (kernelBase 0 + i)).toNat) = l.take k := by
    have h1 : (fun i => (s.byte (kernelBase 0 + i)).toNat) = fun i => (BitVec.ofNat 8 (l.getD i 0)).toNat := by
      funext i; rw [State.byte, hm, get_cells]; simp [kernelBase]
    rw [h1, map_getD l hk (fun b => (BitVec.ofNat 8 b).toNat), List.map_take, hb]
  simp only [kernelBlock]
  rw [hf 448 (by omega), hn, hf _ (by omega), hl, List.take_length]

theorem test_sha_modulus : sha256 ([128] ++ List.replicate 381 0 ++ [8, 243]) = wKey := by decide +kernel

theorem test_block : blockCode (wBlock 2) 2 0 [wKey] = none ∧ blockCode (wBlock 3) 3 0 [wKey] = none := by decide +kernel

theorem block_keys {b : Signed} {t n r k : Nat} (h : blockCode b t n [k] = none) : blockCode b t n [r, k] = none := by
  simp only [blockCode, List.contains_cons] at h ⊢
  split at h
  · cases h
  · rename_i h1
    rw [if_neg]
    · exact h
    · revert h1; cases (Signed.khash b == r) <;> simp

theorem take_block {s : State} {t : Nat} {b : Signed} (hk : keysFor (s.die 0) t = [Config.rootKeyHash, wKey]) (hf : SMap.get 0 s.floors t = 0)
    (hb : blockCode b t 0 [wKey] = none) : takeBlock s 0 t b = .ok (acceptBlock s 0 t b) := by
  rw [takeBlock, hk, hf, block_keys hb]

theorem block_refused (s : State) (die t : Nat) (b : Signed) (h : Signed.kind b ≠ t) : ∃ c, takeBlock s die t b = .error c := by
  simp only [takeBlock, blockCode, bne_iff_ne.mpr h, Bool.true_or]
  split <;> rename_i e <;> [exact ⟨_, rfl⟩; skip]
  split at e <;> simp at e

theorem wit_BootAcceptsABlock :
    (∃ u, takeBlock (wStage 2 2) 0 2 ((wStage 2 2).flashBlock 2) = .ok u) ∧ wKernel.ksrc = true ∧ (wKernel.die 0).kload = true ∧ (wKernel.die 0).bootNext = 5 ∧
    (wStage 5 3).ksrc = false ∧ (wStage 5 3).flashBlock 3 ≠ [] ∧
    ∃ u, takeBlock wKernel 0 3 (kernelBlock wKernel 0) = .ok u := by
  have h2 : (wStage 2 2).flashBlock 2 = wBlock 2 := by decide +kernel
  have h3 : kernelBlock wKernel 0 = wBlock 3 := kernel_block (n := 8) rfl (by decide +kernel) (by decide +kernel) (by decide +kernel)
  exact ⟨⟨_, by rw [h2]; exact take_block rfl (by decide +kernel) test_block.1⟩, by decide +kernel, by decide +kernel, by decide +kernel, by decide +kernel, by decide +kernel,
    ⟨_, by rw [h3]; exact take_block rfl (by decide +kernel) test_block.2⟩⟩

theorem wit_BootRefusesABlock (s : State) : (∃ c, takeBlock s 0 4 (w0.flashBlock 4) = .error c) ∧ (∃ c, takeBlock s 0 2 (w0.flashBlock 2) = .error c) ∧
    ∃ c, takeBlock s 0 3 (kernelBlock w0 0) = .error c :=
  ⟨block_refused s 0 4 _ (by decide +kernel), block_refused s 0 2 _ (by decide +kernel), block_refused s 0 3 _ (by decide +kernel)⟩

end Sys2Proof
end

/-! ## The control family (05_control.md): scalar integer arithmetic, immediates, compares and predicates, and the return from a trap

Each instruction of these rows is a bundle of one slot, and what such a bundle comes to is said once (`Laws/Issue.lean`): an exposed result, a
transfer of control, or a trap. What is left for a row is that the model's result is the one the spec words. -/

namespace Sys2Proof.Machine

/-! ### The events and values of the scalar integer rows (R126) -/

/-- The event of a signed result `p` (R126): IOVF exactly where it lies outside 64 bits. -/
def overflowEvent (p : Int) : Cats := if p < -(2 ^ 63) ∨ 2 ^ 63 ≤ p then catIOVF else 0

/-- A test of the bits gives the event when it tells whether the signed result lies outside 64 bits. -/
theorem iovfIf_eq_overflowEvent {b : Bool} {p : Int} (h : b = true ↔ p < -(2 ^ 63) ∨ 2 ^ 63 ≤ p) : iovfIf b = overflowEvent p :=
  if_congr h rfl rfl

/-- The sign test of a sum is the library's signed overflow. -/
theorem addOvf_eq_saddOverflow (x y : W64) : addOvf x y = x.saddOverflow y := (BitVec.saddOverflow_eq x y).symm

/-- The sign test of a difference is the library's signed overflow: with different signs, the result's sign is the subtrahend's. -/
theorem subOvf_eq_ssubOverflow (x y : W64) : subOvf x y = x.ssubOverflow y := by
  rw [BitVec.ssubOverflow_eq, subOvf]
  cases x.msb <;> cases y.msb <;> simp

theorem addOvf_iff (x y : W64) : addOvf x y = true ↔ x.toInt + y.toInt < -(2 ^ 63) ∨ 2 ^ 63 ≤ x.toInt + y.toInt := by
  simp [addOvf_eq_saddOverflow, BitVec.saddOverflow, or_comm]

theorem subOvf_iff (x y : W64) : subOvf x y = true ↔ x.toInt - y.toInt < -(2 ^ 63) ∨ 2 ^ 63 ≤ x.toInt - y.toInt := by
  simp [subOvf_eq_ssubOverflow, BitVec.ssubOverflow, or_comm]

theorem mulOvf_iff (x y : W64) : mulOvf x y = true ↔ x.toInt * y.toInt < -(2 ^ 63) ∨ 2 ^ 63 ≤ x.toInt * y.toInt := by
  simp only [mulOvf, Bool.or_eq_true, decide_eq_true_eq, Int.sub_lt_iff, Int.lt_add_one_iff]

/-- The high half of an unsigned product is a quotient of natural numbers. -/
theorem mulHigh_unsigned (x y : W64) : mulHigh 1 x y = BitVec.ofNat 64 (x.toNat * y.toNat / 2 ^ 64) := by
  rw [← BitVec.ofInt_natCast]
  simp [mulHigh]

/-- The one quotient that overflows: the least number by -1. -/
theorem eq_intMin_and_eq_allOnes_iff (x y : W64) :
    (x == BitVec.intMin 64 && y == BitVec.allOnes 64) = true ↔ x.toInt = -(2 ^ 63) ∧ y.toInt = -1 := by
  rw [Bool.and_eq_true, beq_iff_eq, beq_iff_eq, ← BitVec.toInt_inj, ← BitVec.toInt_inj (y := BitVec.allOnes 64), BitVec.toInt_intMin,
    BitVec.toInt_allOnes]
  norm_num

theorem divide_signed (x y : W64) :
    divide false x y = (if y = 0 then BitVec.allOnes 64 else BitVec.ofInt 64 (x.toInt.tdiv y.toInt),
      if y ≠ 0 ∧ x.toInt = -(2 ^ 63) ∧ y.toInt = -1 then catIOVF else if y = 0 then catDZ else 0) := by
  have e : iovfIf (x == BitVec.intMin 64 && y == BitVec.allOnes 64) = if x.toInt = -(2 ^ 63) ∧ y.toInt = -1 then catIOVF else 0 :=
    if_congr (eq_intMin_and_eq_allOnes_iff x y) rfl rfl
  by_cases h : y = 0
  · simp only [divide, h, ne_eq, not_true, false_and, if_true, if_false]
  · simp only [divide, h, ne_eq, not_false_iff, true_and, Bool.false_eq_true, if_false, e]

theorem divide_unsigned (x y : W64) :
    divide true x y = (if y = 0 then BitVec.allOnes 64 else x / y, if y = 0 then catDZ else 0) := by
  by_cases h : y = 0
  · simp only [divide, if_pos h]
  · simp only [divide, if_neg h, if_true]

theorem remainder_signed (x y : W64) :
    remainder false x y = (if y = 0 then x else BitVec.ofInt 64 (x.toInt.tmod y.toInt), if y = 0 then catDZ else 0) := by
  by_cases h : y = 0
  · simp only [remainder, if_pos h]
  · simp only [remainder, if_neg h, Bool.false_eq_true, if_false]

theorem remainder_unsigned (x y : W64) :
    remainder true x y = (if y = 0 then x else x % y, if y = 0 then catDZ else 0) := by
  by_cases h : y = 0
  · simp only [remainder, if_pos h]
  · simp only [remainder, if_neg h, if_true]

/-- Of two registers, the one that a signed comparison picks. -/
theorem ite_slt (x y v w : W64) : (if x.slt y = true then v else w) = if x.toInt < y.toInt then v else w :=
  if_congr BitVec.slt_iff_toInt_lt rfl rfl

/-- Of two registers, the one that an unsigned comparison picks. -/
theorem ite_ult (x y v w : W64) : (if x.ult y = true then v else w) = if x.toNat < y.toNat then v else w :=
  if_congr BitVec.ult_iff_lt rfl rfl

/-- A row that writes a scalar register, alone in its bundle, exposes its value and its event. -/
theorem exec_scalar {s : State} {c bound : Nat} {u : SUnit} {g : Guard} {d : BitVec 6} {run : Nat → State → Verdict} {i : Instr} {v w : W64}
    {ev ew : Cats} (h : Acts s c) (hg : readGuard s c g = true) (hi : exec i s = issueOne ⟨SUnit.slot u, g, noAccess, run⟩ s)
    (hr : run c s = .issued (exposeS s c (SUnit.slot u) d.toNat v bound ev)) (hv : v = w) (he : ev = ew) :
    exec i s = .next (issuedNext (expose s c (SUnit.slot u) (.s d.toNat) w.toNat bound ew) c) := by
  subst hv he
  rw [hi]
  exact issueOne_expose h rfl hg hr

/-- A row of two sources exposes the value and the event of its function. -/
theorem exec_scalar2 {s : State} {c bound : Nat} {u : SUnit} {g : Guard} {d a b : BitVec 6} {f : W64 → W64 → W64 × Cats} {i : Instr}
    {v : W64} {ev : Cats} (h : Acts s c) (hg : readGuard s c g = true)
    (hi : exec i s = issueOne ⟨SUnit.slot u, g, noAccess, scalar2 u d a b bound f⟩ s) (hf : f (readS s c a.toNat) (readS s c b.toNat) = (v, ev)) :
    exec i s = .next (issuedNext (expose s c (SUnit.slot u) (.s d.toNat) v.toNat bound ev) c) :=
  exec_scalar h hg hi rfl (congrArg Prod.fst hf) (congrArg Prod.snd hf)

/-- Settles O9: every row is `exec_scalar2` with its function. Where the function computes with bits, or in another order of cases, a lemma above ties it
to the spec's wording; the eight rows at the end are the spec's word for word. -/
theorem scalarIntegerResults : Obligations.ScalarIntegerResults := by
  unfold Obligations.ScalarIntegerResults
  intro s c u g d a b h hg x y out iovf dz srr
  refine ⟨fun q => by cases u <;> exact ⟨rfl, rfl, rfl, rfl, rfl, rfl, rfl, rfl, rfl, rfl, rfl, rfl, rfl, rfl⟩, by decide,
    ?add, ?sub, ?mul, ?mulhSigned, ?mulhUnsigned, ?mulhMixed, ?divSigned, ?divUnsigned, ?remSigned, ?remUnsigned,
    ?and, ?or, ?xor, ?shl, ?shr, ?sra, ?minSigned, ?minUnsigned, ?maxSigned, ?maxUnsigned⟩
  case add => exact exec_scalar2 h hg rfl (congrArg (Prod.mk _) (iovfIf_eq_overflowEvent (addOvf_iff x y)))
  case sub => exact exec_scalar2 h hg rfl (congrArg (Prod.mk _) (iovfIf_eq_overflowEvent (subOvf_iff x y)))
  case mul => exact exec_scalar2 h hg rfl (congrArg (Prod.mk _) (iovfIf_eq_overflowEvent (mulOvf_iff x y)))
  case mulhUnsigned => exact exec_scalar2 h hg rfl (congrArg (·, 0) (mulHigh_unsigned x y))
  case divSigned => exact exec_scalar2 h hg rfl (divide_signed x y)
  case divUnsigned => exact exec_scalar2 h hg rfl (divide_unsigned x y)
  case remSigned => exact exec_scalar2 h hg rfl (remainder_signed x y)
  case remUnsigned => exact exec_scalar2 h hg rfl (remainder_unsigned x y)
  case minSigned => exact exec_scalar2 h hg rfl (congrArg (·, 0) (ite_slt y x y x))
  case minUnsigned => exact exec_scalar2 h hg rfl (congrArg (·, 0) (ite_ult y x y x))
  case maxSigned => exact exec_scalar2 h hg rfl (congrArg (·, 0) (ite_slt x y y x))
  case maxUnsigned => exact exec_scalar2 h hg rfl (congrArg (·, 0) (ite_ult x y y x))
  all_goals exact exec_scalar2 h hg rfl rfl

/-! ### Immediates (R127) -/

/-- What `movh` makes of a register (R127): its bits move up by 15, those above bit 63 are lost, and the immediate stands below. -/
def shiftIn (x : W64) (i : BitVec 15) : W64 := BitVec.ofNat 64 (x.toNat * 2 ^ 15 % 2 ^ 64 + i.toNat)

/-- The shifted register is 0 where the immediate stands, so that their union is their sum. -/
theorem shiftLeft_or_eq_shiftIn (x : W64) (i : BitVec 15) : x <<< 15 ||| i.setWidth 64 = shiftIn x i := by
  have hi : i.toNat < 2 ^ 15 := i.isLt
  have hx : x.toNat * 2 ^ 15 % 2 ^ 64 = (x.toNat % 2 ^ 49) <<< 15 := by rw [Nat.shiftLeft_eq]; omega
  apply BitVec.eq_of_toNat_eq
  rw [shiftIn, BitVec.toNat_or, BitVec.toNat_shiftLeft, BitVec.toNat_setWidth, BitVec.toNat_ofNat, Nat.shiftLeft_eq, hx,
    Nat.mod_eq_of_lt (a := i.toNat) (by omega), ← Nat.shiftLeft_add_eq_or_of_lt hi, Nat.shiftLeft_eq]
  omega

/-- Shifting in the low digit of a number, in base 2^15, below the digits above it gives the number. -/
theorem shiftIn_ofNat_div (n : Nat) : shiftIn (BitVec.ofNat 64 (n / 2 ^ 15)) (BitVec.ofNat 15 n) = BitVec.ofNat 64 n := by
  apply BitVec.eq_of_toNat_eq
  simp only [shiftIn, BitVec.toNat_ofNat]
  omega

/-- A small immediate is its own sign extension. -/
theorem ofInt_toInt_ofNat {n : Nat} (h : n < 2 ^ 14) : BitVec.ofInt 64 (BitVec.ofNat 15 n).toInt = BitVec.ofNat 64 n := by
  have hn : (BitVec.ofNat 15 n).toNat = n := by rw [BitVec.toNat_ofNat]; omega
  rw [BitVec.toInt_eq_toNat_of_lt (by omega), hn, BitVec.ofInt_natCast]

/-- One `movi` and four `movh` build any value: the immediates are its five digits in base 2^15, the highest below 2^4 (R127). -/
theorem exists_immediates (v : W64) :
    ∃ i0 i1 i2 i3 i4 : BitVec 15, shiftIn (shiftIn (shiftIn (shiftIn (BitVec.ofInt 64 i0.toInt) i1) i2) i3) i4 = v := by
  let n := v.toNat
  have hn : n / 2 ^ 15 / 2 ^ 15 / 2 ^ 15 / 2 ^ 15 < 2 ^ 14 := by have : n < 2 ^ 64 := v.isLt; omega
  refine ⟨.ofNat 15 (n / 2 ^ 15 / 2 ^ 15 / 2 ^ 15 / 2 ^ 15), .ofNat 15 (n / 2 ^ 15 / 2 ^ 15 / 2 ^ 15), .ofNat 15 (n / 2 ^ 15 / 2 ^ 15),
    .ofNat 15 (n / 2 ^ 15), .ofNat 15 n, ?_⟩
  rw [ofInt_toInt_ofNat hn, shiftIn_ofNat_div, shiftIn_ofNat_div, shiftIn_ofNat_div, shiftIn_ofNat_div]
  simp [n]

/-- `addi` adds as integers, modulo 2^64. -/
theorem add_signExtend (x : W64) (i : BitVec 15) : x + i.signExtend 64 = BitVec.ofInt 64 (x.toInt + i.toInt) := by
  rw [BitVec.ofInt_add, BitVec.ofInt_toInt]
  rfl

/-- The event of `addi` is that of the integer sum. -/
theorem iovfIf_addOvf_signExtend (x : W64) (i : BitVec 15) :
    iovfIf (addOvf x (i.signExtend 64)) = overflowEvent (x.toInt + i.toInt) := by
  rw [iovfIf_eq_overflowEvent (addOvf_iff x _), BitVec.toInt_signExtend_of_le (by omega)]

/-- Settles O10: each of the three exposes one result; the digits in base 2^15 give the immediates of any value. -/
theorem scalarImmediates : Obligations.ScalarImmediates := by
  unfold Obligations.ScalarImmediates
  intro s c u g d i h hg x out si
  refine ⟨by cases u <;> rfl, by cases u <;> rfl, by cases u <;> rfl, by decide, by decide, ?_⟩
  intro low high
  exact ⟨exec_scalar h hg rfl rfl rfl rfl, exec_scalar h hg rfl rfl (shiftLeft_or_eq_shiftIn x i) rfl, exists_immediates,
    exec_scalar h hg rfl rfl (add_signExtend x i) (iovfIf_addOvf_signExtend x i)⟩

/-! ### Compares and predicates (R123 to R125) -/

/-- The eight integer conditions (R123): the codes in order, and for each the relation of the registers as the table words it. -/
theorem condInt_eq (x y : W64) :
    condInt 0 x y = decide (x = y) ∧ condInt 1 x y = decide (x ≠ y) ∧ condInt 2 x y = decide (x.toInt < y.toInt) ∧
    condInt 3 x y = decide (y.toInt ≤ x.toInt) ∧ condInt 4 x y = decide (x.toNat < y.toNat) ∧ condInt 5 x y = decide (y.toNat ≤ x.toNat) ∧
    condInt 6 x y = decide (x.toInt ≤ y.toInt) ∧ condInt 7 x y = decide (x.toNat ≤ y.toNat) := by
  have hs (a b : W64) : (!a.slt b) = decide (b.toInt ≤ a.toInt) := by simp [BitVec.slt_eq_decide, ← decide_not]
  have hu (a b : W64) : (!a.ult b) = decide (b.toNat ≤ a.toNat) := by simp [BitVec.ult_eq_decide, ← decide_not]
  exact ⟨beq_eq_decide x y, by simp [condInt, bne, beq_eq_decide], BitVec.slt_eq_decide, hs x y, BitVec.ult_eq_decide, hu x y, hs y x, hu y x⟩

/-- A row that writes a predicate, alone in its bundle, exposes the value and no event. -/
theorem exec_predicate {s : State} {c : Nat} {u : SUnit} {g : Guard} {p : BitVec 4} {run : Nat → State → Verdict} {i : Instr} {v w : Bool}
    (h : Acts s c) (hg : readGuard s c g = true) (hi : exec i s = issueOne ⟨SUnit.slot u, g, noAccess, run⟩ s)
    (hr : run c s = .issued (exposeP s c (SUnit.slot u) p.toNat v 1)) (hv : v = w) :
    exec i s = .next (issuedNext (expose s c (SUnit.slot u) (.p p.toNat) w.toNat 1 0) c) := by
  subst hv
  rw [hi]
  exact issueOne_expose h rfl hg hr

/-- Settles O11: each row is `exec_predicate`; the integer compares by `condInt_eq`, `pxor` with p0 since p0 reads true. -/
theorem comparesAndPredicates : Obligations.ComparesAndPredicates := by
  unfold Obligations.ComparesAndPredicates
  intro s c u g p q r a b h hg x y out sp
  obtain ⟨eq, ne, lt, ge, ltu, geu, le, leu⟩ := condInt_eq x y
  refine ⟨by cases u <;> rfl, by cases u <;> rfl, by cases u <;> rfl, by decide, fun t => readP_zero t c,
    exec_predicate h hg rfl rfl eq, exec_predicate h hg rfl rfl ne, exec_predicate h hg rfl rfl lt, exec_predicate h hg rfl rfl ge,
    exec_predicate h hg rfl rfl ltu, exec_predicate h hg rfl rfl geu, exec_predicate h hg rfl rfl le, exec_predicate h hg rfl rfl leu,
    fun _ => exec_predicate h hg rfl rfl rfl, fun _ => exec_predicate h hg rfl rfl rfl, exec_predicate h hg rfl rfl rfl,
    exec_predicate h hg rfl rfl rfl, exec_predicate h hg rfl rfl rfl, exec_predicate h hg rfl rfl ?inverse⟩
  case inverse => exact Bool.bne_true _

/-! ### The return from a trap (R148) -/

/-- A bundle of one slot that traps, schedule violations (09_matrix.md R216) apart: the trap is taken at this bundle, and what it begins is
settled. -/
theorem issueOne_trap {s : State} {c code : Nat} {info : W64} {o : SlotOp} (h : Acts s c) (hm : o.mem c s = none)
    (hg : readGuard s c o.guard = true) (hr : o.run c s = .trap code info) (hc : code ≠ 6) : issueOne o s = .next (trapped s c code info) := by
  have ht : takenOf [.trap code info] = some (.trap code info) := by simp [takenOf, Verdict.sched, lowestOf, hc]
  unfold issueOne
  simp only [h.acting, issueSlots, walkSlots_none hm, runSlots, hg, hr, Bool.not_true, Bool.false_eq_true, if_false, settle, freezeSpent, ht,
    trapped]

/-- A return changes the level and TPRIV alone of the system registers (R148): the level becomes PREV, and no handler is active. -/
theorem returnTrap_sysReg (x : Context) :
    (returnTrap x).kLevel = (x.sysReg 0x044).getLsbD 0 ∧ (returnTrap x).sysReg 0x044 = (if (x.sysReg 0x044).getLsbD 0 then 1 else 0) ∧
    ∀ r, r ≠ 0x03A → r ≠ 0x044 → (returnTrap x).sysReg r = x.sysReg r := by
  refine ⟨?_, Context.sysReg_setSys_same _ _ _, fun r hk ht => ?_⟩
  · rw [Context.kLevel, returnTrap, Context.sysReg_setSys_ne _ _ (by decide), Context.sysReg_setSys_same]
    cases (x.sysReg 0x044).getLsbD 0 <;> rfl
  · rw [returnTrap, Context.sysReg_setSys_ne _ _ ht, Context.sysReg_setSys_ne _ _ hk]

/-- What was kept for the bundle of a resumption concerns no register, and not the place of execution. -/
@[simp] theorem Context.takeResume_rest (x : Context) (h p : Nat) :
    (x.takeResume h p).handle = x.handle ∧ (x.takeResume h p).pc = x.pc ∧ (x.takeResume h p).bubble = x.bubble ∧
    (x.takeResume h p).sys = x.sys ∧ (x.takeResume h p).sr = x.sr ∧ (x.takeResume h p).pr = x.pr := by
  unfold Context.takeResume
  split <;> exact ⟨rfl, rfl, rfl, rfl, rfl, rfl⟩

/-- The context after a bundle that returns to offset `p` of image `h` (R148, R136): returned, at its target after two bubbles, with what was kept for
that bundle taken up again. -/
def Context.afterReturn (x : Context) (h p : Nat) : Context :=
  Context.takeResume { returnTrap { x.afterBundle with pc := x.pc } with handle := h, pc := p, bubble := 2 } h p

/-- The place and the registers after a return (R148). -/
theorem Context.afterReturn_spec (x : Context) (h p : Nat) :
    (x.afterReturn h p).handle = h ∧ (x.afterReturn h p).pc = p ∧ (x.afterReturn h p).bubble = 2 ∧
    (x.afterReturn h p).kLevel = (x.sysReg 0x044).getLsbD 0 ∧
    (x.afterReturn h p).sysReg 0x044 = (if (x.sysReg 0x044).getLsbD 0 then 1 else 0) ∧
    (x.afterReturn h p).sr = x.sr ∧ (x.afterReturn h p).pr = x.pr ∧
    ∀ r, r ≠ 0x03A → r ≠ 0x044 → (x.afterReturn h p).sysReg r = x.sysReg r := by
  have hs (r : Nat) : (x.afterReturn h p).sysReg r = (returnTrap { x.afterBundle with pc := x.pc }).sysReg r := by
    simp [Context.afterReturn, Context.sysReg]
  obtain ⟨hk, ht, hr⟩ := returnTrap_sysReg { x.afterBundle with pc := x.pc }
  refine ⟨by simp [afterReturn], by simp [afterReturn], by simp [afterReturn], ?_, (hs _).trans ht, ?_, ?_,
    fun r h1 h2 => (hs r).trans (hr r h1 h2)⟩
  · rw [kLevel, hs]; exact hk
  · simp [afterReturn, returnTrap, afterBundle]
  · simp [afterReturn, returnTrap, afterBundle]

/-- The end of a bundle that returns from a trap. -/
theorem finishIssue_ret {s : State} {c h p : Nat} (hn : (s.ctx c).nxt = .ret h p 2) :
    finishIssue s c = (({ s with free := s.free + 1 } : State).performTagged (coreOf c)).setCtx c ((s.ctx c).afterReturn h p) := by
  have hx : (({ s with free := s.free + 1 } : State).performTagged (coreOf c)).ctx c = s.ctx c := State.ctx_performTagged _ _ _
  unfold finishIssue
  simp only [hx, hn]
  rfl

/-- A bundle of one slot that returns from a trap. -/
theorem issueOne_ret {s : State} {c h p : Nat} {o : SlotOp} (ha : Acts s c) (hm : o.mem c s = none) (hg : readGuard s c o.guard = true)
    (hr : o.run c s = .issued (setNext s c (.ret h p 2))) :
    ∃ t, issueOne o s = .next t ∧ t.ctx c = (s.ctx c).afterReturn h p := by
  have hn : ((setNext s c (.ret h p 2)).ctx c).nxt = .ret h p 2 := by simp [setNext]
  have hc : (finishIssue (setNext s c (.ret h p 2)) c).Calm := by
    rw [finishIssue_ret hn]
    exact ha.toCalm.congr (by simp [setNext]) (by simp [setNext])
  refine ⟨finishIssue (setNext s c (.ret h p 2)) c, ?_, ?_⟩
  · rw [issueOne_walked ha (by rwa [walkSlots_none hm]) (by rwa [walkSlots_none hm]), settleIssue_calm hc]
  · rw [finishIssue_ret hn, State.ctx_setCtx_same]
    simp only [setNext, State.ctx_modCtx_same]
    rfl

/-- Settles O24: the three cases of `opBrTret`; the return's is `issueOne_ret`, a trap's is `issueOne_trap`. -/
theorem trapReturnRestoresTheLevel : Obligations.TrapReturnRestoresTheLevel := by
  unfold Obligations.TrapReturnRestoresTheLevel
  intro s c g h hg tpc image p prev
  have hp : tpc.toNat % 2 ^ 24 / 32 * 32 = p := by simp only [p]; omega
  have run : opBrTret c s = if !(s.ctx c).kLevel then .trap 3 0 else if s.imageLen image ≤ p then .trap 9 (BitVec.ofNat 64 p)
      else .issued (setNext s c (.ret image p 2)) := by
    rw [← hp]; rfl
  refine ⟨rfl, by decide, fun hk hin => ?returns, fun hk hout => ?fetch, fun hu => ?priv⟩
  case returns =>
    obtain ⟨t, ht, hx⟩ := issueOne_ret (o := rowBrTret g) h rfl hg (h := image) (p := p) (by simp [rowBrTret, run, hk, hin])
    exact ⟨t, ht, hx ▸ (s.ctx c).afterReturn_spec image p⟩
  case fetch => exact issueOne_trap (o := rowBrTret g) h rfl hg (by simp [rowBrTret, run, hk, hout]) (by decide)
  case priv => exact issueOne_trap (o := rowBrTret g) h rfl hg (by simp [rowBrTret, run, hu]) (by decide)

end Sys2Proof.Machine

/-! ## The vector family (07_vector.md): bitwise operations, shifts, comparisons, selection and moves

Each row reads its operands, of which reading a hold operand may latch a marking (02_bundle.md R46, R47), and exposes one result from the state in
which that is done. What is left for a row is its result, element by element. -/

namespace Sys2Proof.Machine

/-! ### Reading hold operands begins nothing (R46, R47) -/

/-- Nothing is left to settle in `s`, and its context c stands between two bundles: what a bundle of c needs of the state from which it exposes. -/
structure State.Between (s : State) (c : Nat) : Prop extends State.Calm s where
  between : (s.ctx c).nxt = .seq

theorem Acts.toBetween {s : State} {c : Nat} (h : Acts s c) : s.Between c := ⟨h.toCalm, h.between⟩

/-- A marking latches a vector in the core, and nothing else changes. -/
theorem State.Between.readHeld {s : State} {c : Nat} (h : s.Between c) (f : BitVec 6) : (readHeld s c f).2.Between c := by
  unfold Machine.readHeld
  dsimp only
  split
  case isTrue plain => exact h
  case isFalse =>
    split
    case isTrue marking => exact ⟨h.toCalm.congr rfl rfl, h.between⟩
    case isFalse heldUse => split <;> exact h

/-- Two hold fields are read one after the other, the later field first. -/
theorem readHeld2_state (s : State) (c : Nat) (fa fb : BitVec 6) : (readHeld2 s c fa fb).2.2 = (readHeld (readHeld s c fb).2 c fa).2 := by
  unfold readHeld2
  dsimp only
  split <;> rfl

theorem State.Between.readHeld2 {s : State} {c : Nat} (h : s.Between c) (fa fb : BitVec 6) : (readHeld2 s c fa fb).2.2.Between c := by
  rw [readHeld2_state]
  exact (h.readHeld fb).readHeld fa

/-! ### A vector row alone in its bundle -/

/-- A vector row exposes its result, without an event, from the state `t` in which its operands are read. -/
theorem exec_vector {s t : State} {c v bound : Nat} {g : Guard} {r : Dst} {run : Nat → State → Verdict} {i : Instr} (h : Acts s c)
    (hg : readGuard s c g = true) (ht : t.Between c) (hi : exec i s = issueOne ⟨4, g, noAccess, run⟩ s)
    (hr : run c s = .issued (expose t c 4 r v bound 0)) : exec i s = .next (issuedNext (expose t c 4 r v bound 0) c) := by
  rw [hi]
  exact issueOne_issued h rfl hg hr (by rw [expose_nxt]; exact ht.between) (expose_calm ht.toCalm ..)

/-! ### Elements (R166) -/

/-- An element fits its width. -/
@[simp] theorem elem_mod (f : Fmt) (v : Vec) (i : Nat) : elem f v i % 2 ^ f.width = elem f v i := Nat.mod_eq_of_lt (BitVec.isLt _)

/-- An operation over two lists with indices from `k` on gives one result for each pair. -/
theorem zipEv_map_range (F : Nat → Nat → Nat → Nat × Cats) (n : Nat) : ∀ (k : Nat) (a b : Nat → Nat),
    (zipEv F k ((List.range n).map a) ((List.range n).map b)).1 = (List.range n).map (fun i => (F (k + i) (a i) (b i)).1) := by
  induction n with
  | zero => exact fun _ _ _ => rfl
  | succ n ih =>
    intro k a b
    rw [List.range_succ_eq_map, List.map_cons, List.map_cons, List.map_cons, List.map_map, List.map_map, List.map_map, zipEv]
    refine congrArg (List.cons _) ((ih (k + 1) _ _).trans (List.map_congr_left fun i _ => ?_))
    simp only [Function.comp_apply, Nat.succ_eq_add_one, Nat.add_right_comm k 1 i, Nat.add_assoc]

/-- Lanes of 32 bits are INT32 elements. -/
theorem ofLanes_eq (l : List Nat) : ofLanes l = ofElems .i32 l := rfl

/-- The vector whose element i is `el i`, of which the element's width is kept. -/
def ofElements (f : Fmt) (el : Nat → Nat) : Vec := ofElems f ((List.range f.lanes).map (fun i => el i % 2 ^ f.width))

/-- The vector of moved elements: they fit their width. -/
theorem ofElems_map_elem (f : Fmt) (v : Vec) (p : Nat → Nat) :
    ofElems f ((List.range f.lanes).map (fun i => elem f v (p i))) = ofElements f (fun i => elem f v (p i)) := by
  simp only [ofElements, elem_mod]

/-- The vector of one code in every element. -/
theorem ofElems_replicate (f : Fmt) {x y : Nat} (h : x = y % 2 ^ f.width) : ofElems f (List.replicate f.lanes x) = ofElements f (fun _ => y) := by
  rw [ofElements, List.map_const', List.length_range, h]

/-- The vector of an operation over the elements of two vectors, element by element. -/
theorem ofElems_zipEv {F : Nat → Nat → Nat → Nat × Cats} {f : Fmt} {va vb : Vec} {el : Nat → Nat}
    (h : ∀ i, (F i (elem f va i) (elem f vb i)).1 = el i % 2 ^ f.width) : ofElems f (zipEv F 0 (elems f va) (elems f vb)).1 = ofElements f el := by
  simp only [elems, zipEv_map_range, Nat.zero_add, h, ofElements]

/-- Rows that expose equal vectors issue alike. -/
theorem issued_exposeV_congr {t : State} {c n bound : Nat} {v w : Vec} (h : v = w) :
    Verdict.issued (exposeV t c 4 n v bound 0) = .issued (exposeV t c 4 n w bound 0) := by
  rw [h]

/-! ### The results of the rows, element by element (R172 to R176) -/

section
variable (d a b : BitVec 6) (t cd m : BitVec 3) (c : Nat) (s : State)

/-- A left shift by bits [5:0] gives 0 from the element's width on. -/
theorem opVxShl_eq : opVxShl d a b t c s = .issued (exposeV (readHeld2 s c a b).2.2 c 4 d.toNat (ofElements (Fmt.ofCode t.toNat) fun i =>
    let n := elem (Fmt.ofCode t.toNat) (readHeld2 s c a b).2.1 i % 64
    if (Fmt.ofCode t.toNat).width ≤ n then 0 else elem (Fmt.ofCode t.toNat) (readHeld2 s c a b).1 i * 2 ^ n) 2 0) := by
  unfold opVxShl vShift
  generalize readHeld2 s c a b = r
  refine issued_exposeV_congr (ofElems_zipEv fun i => ?_)
  rw [apply_ite (· % _), Nat.zero_mod]
  rfl

/-- A right shift by bits [5:0] gives 0 from the element's width on; below it, the quotient fits because it is no larger than the element. -/
theorem opVxShr_eq : opVxShr d a b t c s = .issued (exposeV (readHeld2 s c a b).2.2 c 4 d.toNat (ofElements (Fmt.ofCode t.toNat) fun i =>
    let n := elem (Fmt.ofCode t.toNat) (readHeld2 s c a b).2.1 i % 64
    if (Fmt.ofCode t.toNat).width ≤ n then 0 else elem (Fmt.ofCode t.toNat) (readHeld2 s c a b).1 i / 2 ^ n) 2 0) := by
  unfold opVxShr vShift
  generalize readHeld2 s c a b = r
  refine issued_exposeV_congr (ofElems_zipEv fun i => ?_)
  have fits (k : Nat) : elem (Fmt.ofCode t.toNat) r.1 i / k < 2 ^ (Fmt.ofCode t.toNat).width := (Nat.div_le_self _ _).trans_lt (BitVec.isLt _)
  rw [apply_ite (· % _), Nat.zero_mod, Nat.mod_eq_of_lt (fits _)]
  rfl

/-- The selection takes the element of the first vector where the mask's bit is 1, of the second elsewhere. -/
theorem opVxSel_eq : opVxSel d a b m c s = .issued (exposeV (readHeld2 s c a b).2.2 c 4 d.toNat (ofElements .i32 fun i =>
    if (readVm s c m.toNat).getLsbD i then elem .i32 (readHeld2 s c a b).1 i else elem .i32 (readHeld2 s c a b).2.1 i) 2 0) := by
  unfold opVxSel
  generalize readHeld2 s c a b = r
  simp only [ofLanes_eq]
  refine issued_exposeV_congr (ofElems_zipEv fun i => ?_)
  rw [apply_ite (· % _), elem_mod, elem_mod]

/-- The comparison's mask: the elements of the two vectors are compared in pairs. -/
theorem opVxCmp_eq : opVxCmp m a b cd t c s = .issued (expose (readHeld2 s c a b).2.2 c 4 (.vm m.toNat)
    (maskOf (if Fmt.ofCode t.toNat = .f64 then 2 else 1) ((List.range (Fmt.ofCode t.toNat).lanes).map fun i =>
      let f := Fmt.ofCode t.toNat
      let x := elem f (readHeld2 s c a b).1 i
      let y := elem f (readHeld2 s c a b).2.1 i
      if f.isInt then condInt cd.toNat (BitVec.ofInt 64 (signedOf f.width x)) (BitVec.ofInt 64 (signedOf f.width y)) else condFloat f cd.toNat x y))
    2 0) := by
  unfold opVxCmp
  generalize readHeld2 s c a b = r
  simp only [elems, List.zip_map', List.map_map]
  rfl

/-- The permutation of 32-bit lanes. -/
theorem opVxPerm_lanes (ht : t ≠ 1) : opVxPerm d a b t c s = .issued (exposeV (readHeld2 s c a b).2.2 c 4 d.toNat (ofElements .i32 fun i =>
    elem .i32 (readHeld2 s c a b).1 (elem .i32 (readHeld2 s c a b).2.1 i % 64)) 3 0) := by
  unfold opVxPerm
  generalize readHeld2 s c a b = r
  simp only [ht, if_false]
  exact issued_exposeV_congr (ofElems_map_elem .i32 r.1 _)

/-- The permutation of 64-bit elements. -/
theorem opVxPerm_pairs (ht : t = 1) : opVxPerm d a b t c s = .issued (exposeV (readHeld2 s c a b).2.2 c 4 d.toNat (ofElements .f64 fun i =>
    elem .f64 (readHeld2 s c a b).1 (elem .i32 (readHeld2 s c a b).2.1 (2 * i) % 32)) 3 0) := by
  unfold opVxPerm
  generalize readHeld2 s c a b = r
  simp only [ht, if_true]
  exact issued_exposeV_congr (ofElems_map_elem .f64 r.1 _)

/-- The broadcast keeps the low bits of the register, as many as the element's width. -/
theorem opVxBcast_eq : opVxBcast d a t c s = .issued (exposeV s c 4 d.toNat (ofElements (Fmt.ofCode t.toNat) fun _ => (readS s c a.toNat).toNat) 2 0) :=
  issued_exposeV_congr (ofElems_replicate _ rfl)

/-- The immediate's sign extension fits a lane. -/
theorem opVxMovi_eq (i : BitVec 15) : opVxMovi d i c s = .issued (exposeV s c 4 d.toNat (ofElements .i32 fun _ => (i.signExtend 32).toNat) 2 0) :=
  issued_exposeV_congr (ofElems_replicate .i32 (Nat.mod_eq_of_lt (BitVec.isLt _)).symm)

end

/-- Settles O33: each row is `exec_vector`, from the state in which its operands are read, with its result as the lemma above gives it; the bitwise
rows, the copy and the extraction are the spec's word for word. -/
theorem vectorBitsAndMoves : Obligations.VectorBitsAndMoves := by
  unfold Obligations.VectorBitsAndMoves
  intro s c g d a b l t cd m i15 h hg f va vb s' out gives
  have from0 : s.Between c := h.toBetween
  have from1 : (readHeld s c a).2.Between c := from0.readHeld a
  have from2 : (readHeld2 s c a b).2.2.Between c := from0.readHeld2 a b
  refine ⟨rfl, by decide, ?and, ?or, ?xor, ?shl, ?shr, ?cmp, ?sel, fun ht => ?permLanes, fun ht => ?permPairs, ?bcast, ?movi, ?mov, ?ext⟩
  case shl => exact exec_vector h hg from2 rfl (opVxShl_eq d a b t c s)
  case shr => exact exec_vector h hg from2 rfl (opVxShr_eq d a b t c s)
  case cmp => exact exec_vector h hg from2 rfl (opVxCmp_eq a b t cd m c s)
  case sel => exact exec_vector h hg from2 rfl (opVxSel_eq d a b m c s)
  case permLanes => exact exec_vector h hg from2 rfl (opVxPerm_lanes d a b t c s ht)
  case permPairs => exact exec_vector h hg from2 rfl (opVxPerm_pairs d a b t c s ht)
  case bcast => exact exec_vector h hg from0 rfl (opVxBcast_eq d a t c s)
  case movi => exact exec_vector h hg from0 rfl (opVxMovi_eq d c s i15)
  case mov | ext => exact exec_vector h hg from1 rfl rfl
  case and | or | xor => exact exec_vector h hg from2 rfl rfl

end Sys2Proof.Machine

/-! ## The sampling family (13_sampling.md): the attach set and the return queues

`kdep` always issues. A pop issues once the oldest reserved entry of its queue has arrived, and blocks its context until then. What a bundle of one
slot that blocks comes to is said once, for every blocking condition that records nothing else. -/

namespace Sys2Proof.Machine

/-! ### A bundle of one slot that blocks (01_organisation.md R20, R21) -/

/-- A block leaves a context as it was, but for its state and for what it counts of its bundle. -/
theorem blockContext_ctx (s : State) (c : Nat) (why : Block) :
    (blockContext s c why .none).ctx c = { s.ctx c with st := .blocked, why := why, frz := 0, spent := 0, test := none } := by
  simp [blockContext, barIssue, dropIssue]

/-- The core of a context that blocks holds no ACTIVE context. -/
theorem blockContext_active {s : State} {c : Nat} (why : Block) (ha : (s.core (coreOf c)).active = some c) :
    ((blockContext s c why .none).core (coreOf c)).active = none := by
  simp [blockContext, barIssue, dropIssue, ha]

/-- A context that holds issue and blocks gives it up, at its place and with its registers. -/
theorem blockContext_blocksOn {s : State} {c : Nat} (why : Block) (ha : (s.core (coreOf c)).active = some c) :
    BlocksOn s (blockContext s c why .none) c why := by
  have hx := blockContext_ctx s c why
  refine ⟨by rw [hx], by rw [hx], by rw [hx], by rw [hx], blockContext_active why ha, ?regs⟩
  case regs => rw [hx]; exact ⟨rfl, rfl, rfl, rfl, rfl, rfl, rfl, rfl, rfl⟩

/-- A bundle of one slot that blocks: its context blocks, and nothing is left to settle. -/
theorem issueOne_block {s : State} {c : Nat} {why : Block} {o : SlotOp} (h : Acts s c) (hm : o.mem c s = none)
    (hg : readGuard s c o.guard = true) (hr : o.run c s = .block why .none) : issueOne o s = .next (blockContext s c why .none) := by
  have calm : (blockContext s c why .none).Calm := h.toCalm.congr rfl rfl
  unfold issueOne
  simp only [h.acting, issueSlots, walkSlots_none hm, runSlots, hg, hr, Bool.not_true, Bool.false_eq_true, if_false, settle]
  exact congrArg _ (settleIssue_calm calm)

/-- A row without an access that blocks, alone in its bundle. -/
theorem exec_blocksOn {s : State} {c slot : Nat} {why : Block} {g : Guard} {run : Nat → State → Verdict} {i : Instr} (h : Acts s c)
    (hg : readGuard s c g = true) (ha : (s.core (coreOf c)).active = some c) (hi : exec i s = issueOne ⟨slot, g, noAccess, run⟩ s)
    (hr : run c s = .block why .none) : ∃ u, exec i s = .next u ∧ BlocksOn s u c why :=
  ⟨_, hi.trans (issueOne_block h rfl hg hr), blockContext_blocksOn why ha⟩

/-! ### The pops of the return queues (R300, 10_copy.md R243) -/

/-- A row that exposes a scalar result, alone in its bundle, after its context has changed to `f` of it. -/
theorem exec_modCtx_expose {s : State} {c slot bound : Nat} {v : W64} {g : Guard} {d : BitVec 6} {f : Context → Context}
    {run : Nat → State → Verdict} {i : Instr} (h : Acts s c) (hg : readGuard s c g = true) (hf : (f (s.ctx c)).nxt = (s.ctx c).nxt)
    (hi : exec i s = issueOne ⟨slot, g, noAccess, run⟩ s) (hr : run c s = .issued (exposeS (s.modCtx c f) c slot d.toNat v bound 0)) :
    exec i s = .next (issuedNext (expose (s.modCtx c f) c slot (.s d.toNat) v.toNat bound 0) c) := by
  have calm : (s.modCtx c f).Calm := h.toCalm.congr rfl rfl
  rw [hi]
  exact issueOne_issued h rfl hg hr (by rw [expose_nxt, State.ctx_modCtx_same, hf, h.between]) (expose_calm calm ..)

section
variable {s : State} {c : Nat} (d : BitVec 6) {e : AqEntry} {r : List AqEntry}

theorem opDxAqpop_arrived (hq : (s.ctx c).aq = e :: r) (hv : e.arrived = true) :
    opDxAqpop d c s = .issued (exposeS (s.modCtx c (fun x => { x with aq := r })) c 6 d.toNat e.val 2 0) := by
  simp [opDxAqpop, hq, hv]

theorem opSqRpop_arrived (hq : (s.ctx c).rq = e :: r) (hv : e.arrived = true) :
    opSqRpop d c s = .issued (exposeS (s.modCtx c (fun x => { x with rq := r })) c 7 d.toNat e.val 2 0) := by
  simp [opSqRpop, hq, hv]

/-- An empty queue blocks as an oldest entry does whose value has not arrived. -/
theorem opDxAqpop_waiting (hw : ∀ e r, (s.ctx c).aq = e :: r → e.arrived = false) : opDxAqpop d c s = .block .aqEmpty .none := by
  unfold opDxAqpop
  split
  case h_1 empty => rfl
  case h_2 e r hq => simp [hw e r hq]

/-- The sampler's queue blocks in the same two cases, on a condition of its own. -/
theorem opSqRpop_waiting (hw : ∀ e r, (s.ctx c).rq = e :: r → e.arrived = false) : opSqRpop d c s = .block .rqEmpty .none := by
  unfold opSqRpop
  split
  case h_1 empty => rfl
  case h_2 e r hq => simp [hw e r hq]

end

/-- Settles O39: `kdep` issues with the attach set written; a pop is `exec_modCtx_expose` where the oldest entry has arrived, and `exec_blocksOn`
elsewhere. -/
theorem attachSetAndReturns : Obligations.AttachSetAndReturns := by
  unfold Obligations.AttachSetAndReturns
  intro s c g k1 k2 k3 d h hg ha x
  refine ⟨fun t => readS_zero t c, ?kdep, fun e r hq hv => ?aqpop, fun e r hq hv => ?rpop, fun hw => ?aqEmpty, fun hw => ?rqEmpty⟩
  case kdep =>
    have calm : (s.modCtx c (fun x => { x with att := [k1.toNat, k2.toNat, k3.toNat] })).Calm := h.toCalm.congr rfl rfl
    exact issueOne_issued (o := rowDxKdep g k1 k2 k3) h rfl hg rfl (by rw [State.ctx_modCtx_same]; exact h.between) calm
  case aqpop => exact exec_modCtx_expose h hg rfl rfl (opDxAqpop_arrived d hq hv)
  case rpop => exact exec_modCtx_expose h hg rfl rfl (opSqRpop_arrived d hq hv)
  case aqEmpty => exact exec_blocksOn h hg ha rfl (opDxAqpop_waiting d hw)
  case rqEmpty => exact exec_blocksOn h hg ha rfl (opSqRpop_waiting d hw)

end Sys2Proof.Machine

/-! ## The format table (02_bundle.md R50, R51): decoding and encoding agree

A field of 21 bits is the row of its parts exactly when each of its sections is the part that stands there (`eq_append2` to `eq_append6`); the
layouts of the table are instances. Both directions then go cell by cell. -/

namespace Sys2Proof

theorem extractLsb'_extractLsb' {n : Nat} (x : BitVec n) {p q v w : Nat} (h : p + w ≤ v) :
    (x.extractLsb' q v).extractLsb' p w = x.extractLsb' (q + p) w := by
  ext i hi
  have : p + i < v := by omega
  simp [this, Nat.add_assoc]

theorem eq_append2 {v w : Nat} (x : BitVec v) (y : BitVec w) (f : BitVec (v + w)) :
    f = x ++ y ↔ f.extractLsb' w v = x ∧ f.extractLsb' 0 w = y := by
  constructor
  · rintro rfl
    exact ⟨by rw [BitVec.extractLsb'_append_eq_of_le le_rfl, Nat.sub_self, BitVec.extractLsb'_eq_self],
      by rw [BitVec.extractLsb'_append_eq_of_add_le (by omega), BitVec.extractLsb'_eq_self]⟩
  · rintro ⟨rfl, rfl⟩
    rw [BitVec.extractLsb'_append_extractLsb'_eq_extractLsb' (by simp), BitVec.extractLsb'_eq_self]

section
variable {u v w x y z : Nat} (a : BitVec u) (b : BitVec v) (c : BitVec w) (d : BitVec x) (e : BitVec y) (h : BitVec z)

theorem eq_append3 (f : BitVec (u + v + w)) :
    f = a ++ b ++ c ↔ f.extractLsb' (w + v) u = a ∧ f.extractLsb' w v = b ∧ f.extractLsb' 0 w = c := by
  rw [eq_append2, eq_append2, extractLsb'_extractLsb' f (by omega), extractLsb'_extractLsb' f (by omega), and_assoc]; rfl

theorem eq_append4 (f : BitVec (u + v + w + x)) : f = a ++ b ++ c ++ d ↔
    f.extractLsb' (x + (w + v)) u = a ∧ f.extractLsb' (x + w) v = b ∧ f.extractLsb' x w = c ∧ f.extractLsb' 0 x = d := by
  rw [eq_append2, eq_append3]
  simp only [extractLsb'_extractLsb' f (show w + v + u ≤ u + v + w by omega), extractLsb'_extractLsb' f (show w + v ≤ u + v + w by omega),
    extractLsb'_extractLsb' f (show 0 + w ≤ u + v + w by omega), and_assoc, Nat.add_zero]

theorem eq_append5 (f : BitVec (u + v + w + x + y)) : f = a ++ b ++ c ++ d ++ e ↔
    f.extractLsb' (y + (x + (w + v))) u = a ∧ f.extractLsb' (y + (x + w)) v = b ∧ f.extractLsb' (y + x) w = c ∧ f.extractLsb' y x = d ∧
    f.extractLsb' 0 y = e := by
  rw [eq_append2, eq_append4]
  simp only [extractLsb'_extractLsb' f (show x + (w + v) + u ≤ u + v + w + x by omega),
    extractLsb'_extractLsb' f (show x + w + v ≤ u + v + w + x by omega), extractLsb'_extractLsb' f (show x + w ≤ u + v + w + x by omega),
    extractLsb'_extractLsb' f (show 0 + x ≤ u + v + w + x by omega), and_assoc, Nat.add_zero]

theorem eq_append6 (f : BitVec (u + v + w + x + y + z)) : f = a ++ b ++ c ++ d ++ e ++ h ↔
    f.extractLsb' (z + (y + (x + (w + v)))) u = a ∧ f.extractLsb' (z + (y + (x + w))) v = b ∧ f.extractLsb' (z + (y + x)) w = c ∧
    f.extractLsb' (z + y) x = d ∧ f.extractLsb' z y = e ∧ f.extractLsb' 0 z = h := by
  rw [eq_append2, eq_append5]
  simp only [extractLsb'_extractLsb' f (show y + (x + (w + v)) + u ≤ u + v + w + x + y by omega),
    extractLsb'_extractLsb' f (show y + (x + w) + v ≤ u + v + w + x + y by omega),
    extractLsb'_extractLsb' f (show y + x + w ≤ u + v + w + x + y by omega), extractLsb'_extractLsb' f (show y + x ≤ u + v + w + x + y by omega),
    extractLsb'_extractLsb' f (show 0 + y ≤ u + v + w + x + y by omega), and_assoc, Nat.add_zero]

end

section
variable (f : BitVec 21)

@[simp] theorem layout_2_19 (a : BitVec 2) (b : BitVec 19) : f = a ++ b ↔
    fmtBits f 19 2 = a ∧ fmtBits f 0 19 = b := eq_append2 a b f

@[simp] theorem layout_5_16 (a : BitVec 5) (b : BitVec 16) : f = a ++ b ↔
    fmtBits f 16 5 = a ∧ fmtBits f 0 16 = b := eq_append2 a b f

@[simp] theorem layout_6_15 (a : BitVec 6) (b : BitVec 15) : f = a ++ b ↔
    fmtBits f 15 6 = a ∧ fmtBits f 0 15 = b := eq_append2 a b f

@[simp] theorem layout_16_5 (a : BitVec 16) (b : BitVec 5) : f = a ++ b ↔
    fmtBits f 5 16 = a ∧ fmtBits f 0 5 = b := eq_append2 a b f

@[simp] theorem layout_2_3_16 (a : BitVec 2) (b : BitVec 3) (c : BitVec 16) : f = a ++ b ++ c ↔
    fmtBits f 19 2 = a ∧ fmtBits f 16 3 = b ∧ fmtBits f 0 16 = c := eq_append3 a b c f

@[simp] theorem layout_2_6_13 (a : BitVec 2) (b : BitVec 6) (c : BitVec 13) : f = a ++ b ++ c ↔
    fmtBits f 19 2 = a ∧ fmtBits f 13 6 = b ∧ fmtBits f 0 13 = c := eq_append3 a b c f

@[simp] theorem layout_4_4_13 (a b : BitVec 4) (c : BitVec 13) : f = a ++ b ++ c ↔
    fmtBits f 17 4 = a ∧ fmtBits f 13 4 = b ∧ fmtBits f 0 13 = c := eq_append3 a b c f

@[simp] theorem layout_4_6_11 (a : BitVec 4) (b : BitVec 6) (c : BitVec 11) : f = a ++ b ++ c ↔
    fmtBits f 17 4 = a ∧ fmtBits f 11 6 = b ∧ fmtBits f 0 11 = c := eq_append3 a b c f

@[simp] theorem layout_6_3_12 (a : BitVec 6) (b : BitVec 3) (c : BitVec 12) : f = a ++ b ++ c ↔
    fmtBits f 15 6 = a ∧ fmtBits f 12 3 = b ∧ fmtBits f 0 12 = c := eq_append3 a b c f

@[simp] theorem layout_6_12_3 (a : BitVec 6) (b : BitVec 12) (c : BitVec 3) : f = a ++ b ++ c ↔
    fmtBits f 15 6 = a ∧ fmtBits f 3 12 = b ∧ fmtBits f 0 3 = c := eq_append3 a b c f

@[simp] theorem layout_2_2_4_13 (a b : BitVec 2) (c : BitVec 4) (d : BitVec 13) : f = a ++ b ++ c ++ d ↔
    fmtBits f 19 2 = a ∧ fmtBits f 17 2 = b ∧ fmtBits f 13 4 = c ∧ fmtBits f 0 13 = d := eq_append4 a b c d f

@[simp] theorem layout_3_6_2_10 (a : BitVec 3) (b : BitVec 6) (c : BitVec 2) (d : BitVec 10) : f = a ++ b ++ c ++ d ↔
    fmtBits f 18 3 = a ∧ fmtBits f 12 6 = b ∧ fmtBits f 10 2 = c ∧ fmtBits f 0 10 = d := eq_append4 a b c d f

@[simp] theorem layout_4_4_4_9 (a b c : BitVec 4) (d : BitVec 9) : f = a ++ b ++ c ++ d ↔
    fmtBits f 17 4 = a ∧ fmtBits f 13 4 = b ∧ fmtBits f 9 4 = c ∧ fmtBits f 0 9 = d := eq_append4 a b c d f

@[simp] theorem layout_4_6_2_9 (a : BitVec 4) (b : BitVec 6) (c : BitVec 2) (d : BitVec 9) : f = a ++ b ++ c ++ d ↔
    fmtBits f 17 4 = a ∧ fmtBits f 11 6 = b ∧ fmtBits f 9 2 = c ∧ fmtBits f 0 9 = d := eq_append4 a b c d f

@[simp] theorem layout_5_5_5_6 (a b c : BitVec 5) (d : BitVec 6) : f = a ++ b ++ c ++ d ↔
    fmtBits f 16 5 = a ∧ fmtBits f 11 5 = b ∧ fmtBits f 6 5 = c ∧ fmtBits f 0 6 = d := eq_append4 a b c d f

@[simp] theorem layout_5_6_6_4 (a : BitVec 5) (b c : BitVec 6) (d : BitVec 4) : f = a ++ b ++ c ++ d ↔
    fmtBits f 16 5 = a ∧ fmtBits f 10 6 = b ∧ fmtBits f 4 6 = c ∧ fmtBits f 0 4 = d := eq_append4 a b c d f

@[simp] theorem layout_6_6_1_8 (a b : BitVec 6) (c : BitVec 1) (d : BitVec 8) : f = a ++ b ++ c ++ d ↔
    fmtBits f 15 6 = a ∧ fmtBits f 9 6 = b ∧ fmtBits f 8 1 = c ∧ fmtBits f 0 8 = d := eq_append4 a b c d f

@[simp] theorem layout_6_6_2_7 (a b : BitVec 6) (c : BitVec 2) (d : BitVec 7) : f = a ++ b ++ c ++ d ↔
    fmtBits f 15 6 = a ∧ fmtBits f 9 6 = b ∧ fmtBits f 7 2 = c ∧ fmtBits f 0 7 = d := eq_append4 a b c d f

@[simp] theorem layout_6_6_3_6 (a b : BitVec 6) (c : BitVec 3) (d : BitVec 6) : f = a ++ b ++ c ++ d ↔
    fmtBits f 15 6 = a ∧ fmtBits f 9 6 = b ∧ fmtBits f 6 3 = c ∧ fmtBits f 0 6 = d := eq_append4 a b c d f

@[simp] theorem layout_6_6_5_4 (a b : BitVec 6) (c : BitVec 5) (d : BitVec 4) : f = a ++ b ++ c ++ d ↔
    fmtBits f 15 6 = a ∧ fmtBits f 9 6 = b ∧ fmtBits f 4 5 = c ∧ fmtBits f 0 4 = d := eq_append4 a b c d f

@[simp] theorem layout_6_6_6_3 (a b c : BitVec 6) (d : BitVec 3) : f = a ++ b ++ c ++ d ↔
    fmtBits f 15 6 = a ∧ fmtBits f 9 6 = b ∧ fmtBits f 3 6 = c ∧ fmtBits f 0 3 = d := eq_append4 a b c d f

@[simp] theorem layout_3_6_6_3_3 (a : BitVec 3) (b c : BitVec 6) (d e : BitVec 3) : f = a ++ b ++ c ++ d ++ e ↔
    fmtBits f 18 3 = a ∧ fmtBits f 12 6 = b ∧ fmtBits f 6 6 = c ∧ fmtBits f 3 3 = d ∧ fmtBits f 0 3 = e := eq_append5 a b c d e f

@[simp] theorem layout_4_6_6_3_2 (a : BitVec 4) (b c : BitVec 6) (d : BitVec 3) (e : BitVec 2) : f = a ++ b ++ c ++ d ++ e ↔
    fmtBits f 17 4 = a ∧ fmtBits f 11 6 = b ∧ fmtBits f 5 6 = c ∧ fmtBits f 2 3 = d ∧ fmtBits f 0 2 = e := eq_append5 a b c d e f

@[simp] theorem layout_6_3_3_5_4 (a : BitVec 6) (b c : BitVec 3) (d : BitVec 5) (e : BitVec 4) : f = a ++ b ++ c ++ d ++ e ↔
    fmtBits f 15 6 = a ∧ fmtBits f 12 3 = b ∧ fmtBits f 9 3 = c ∧ fmtBits f 4 5 = d ∧ fmtBits f 0 4 = e := eq_append5 a b c d e f

@[simp] theorem layout_6_6_3_3_3 (a b : BitVec 6) (c d e : BitVec 3) : f = a ++ b ++ c ++ d ++ e ↔
    fmtBits f 15 6 = a ∧ fmtBits f 9 6 = b ∧ fmtBits f 6 3 = c ∧ fmtBits f 3 3 = d ∧ fmtBits f 0 3 = e := eq_append5 a b c d e f

@[simp] theorem layout_6_6_4_4_1 (a b : BitVec 6) (c d : BitVec 4) (e : BitVec 1) : f = a ++ b ++ c ++ d ++ e ↔
    fmtBits f 15 6 = a ∧ fmtBits f 9 6 = b ∧ fmtBits f 5 4 = c ∧ fmtBits f 1 4 = d ∧ fmtBits f 0 1 = e := eq_append5 a b c d e f

@[simp] theorem layout_2_4_6_3_2_4 (a : BitVec 2) (b : BitVec 4) (c : BitVec 6) (d : BitVec 3) (e : BitVec 2) (h : BitVec 4) :
    f = a ++ b ++ c ++ d ++ e ++ h ↔ fmtBits f 19 2 = a ∧ fmtBits f 15 4 = b ∧ fmtBits f 9 6 = c ∧ fmtBits f 6 3 = d ∧ fmtBits f 4 2 = e ∧
      fmtBits f 0 4 = h := eq_append6 a b c d e h f

end

/-- The parts of a slot word (R35). -/
theorem eq_header (w : SlotWord) (g : Guard) (op : BitVec 6) (f : BitVec 21) : w = header g op f ↔
    (⟨w.extractLsb' 28 4, w.getLsbD 27⟩ : Guard) = g ∧ w.extractLsb' 21 6 = op ∧ w.extractLsb' 0 21 = f := by
  have bit : w.getLsbD 27 = g.neg ↔ w.extractLsb' 27 1 = BitVec.ofBool g.neg := by
    refine ⟨fun h => ?_, fun h => by simpa using congrArg (·.getLsbD 0) h⟩
    ext i hi
    obtain rfl : i = 0 := by omega
    simp [← h]
  refine (eq_append4 g.p (BitVec.ofBool g.neg) op f w).trans ?_
  rw [Guard.mk.injEq, bit, and_assoc]

theorem header_inj {g g' : Guard} {op op' : BitVec 6} {f f' : BitVec 21} : header g op f = header g' op' f' ↔ g = g' ∧ op = op' ∧ f = f' := by
  obtain ⟨hg, hop, hf⟩ := (eq_header _ g op f).1 rfl
  rw [eq_header, hg, hop, hf]

/-- Every slot word is the header of its parts. -/
theorem header_parts (w : SlotWord) : w = header ⟨w.extractLsb' 28 4, w.getLsbD 27⟩ (w.extractLsb' 21 6) (w.extractLsb' 0 21) :=
  (eq_header w _ _ _).2 ⟨rfl, rfl, rfl⟩

@[simp] theorem fmtBits_all (f : BitVec 21) : fmtBits f 0 21 = f := BitVec.extractLsb'_eq_self

/-- The one layout whose parts are all fixed: the word of `s.get.sum`. -/
@[simp] theorem eq_four_iff (f : BitVec 21) : f = 4#21 ↔ fmtBits f 15 6 = 0 ∧ fmtBits f 9 6 = 0 ∧ fmtBits f 3 6 = 0 ∧ fmtBits f 0 3 = 4 :=
  layout_6_6_6_3 f 0 0 0 4

/-! ### From an instruction to its word and back -/

@[simp] theorem cell_eq_ok {r : Bool} {x : Except SealKind Instr} {i : Instr} : cell r x = .ok i ↔ r = true ∧ x = .ok i := by
  cases r <;> simp [cell]

section
variable {i : Instr} {sl : Slot} {g : Guard} {op : BitVec 6} {f : BitVec 21}

/-- Instruction i is the NOP of slot `sl`, of which every bit is 0, or the candidate of its cell `op`, under its own guard. -/
def DecodesCell (i : Instr) (sl : Slot) (g : Guard) (op : BitVec 6) (f : BitVec 21) : Prop :=
  (i = sl.nop ∧ header g op f = 0) ∨ (op ≠ 0 ∧ i.guard = g ∧ decodeCell sl g op.toNat f = .ok i)

/-- The two scalar slots have the same cells, but for the three that SB lacks. -/
theorem decodesCell_of_encode_scalar (hsl : sl = .sa ∨ sl = .sb) (hs : i.saOnly = false)
    (h : encode i = some (sl, header g op f)) : DecodesCell i sl g op f := by
  obtain ⟨x, hx⟩ : ∃ x, x = (sl, header g op f) := ⟨_, rfl⟩
  rw [← hx] at h
  cases i <;> cases h <;> obtain ⟨rfl, hw⟩ := Prod.mk.inj hx
  case saNop | sbNop => exact .inl ⟨rfl, hw.symm⟩
  case saAdd | saSub | saMul | saMulh | saDiv | saRem | saAnd | saOr | saXor | saShl | saShr | saSra | saMin | saMax | saCmp | saPand | saPor | saPxor |
      saMovi | saMovh | saAddi | saLdB64 | saLdB32 | saLdB16 | saLdB8 | saStB64 | saStB32 | saStB16 | saStB8 | saFaddF64 | saFsubF64 | saFmulF64 |
      saFdivF64 | saFaddF32 | saFsubF32 | saFmulF32 | saFdivF32 | saFcvt | saFcmpF64 | saFcmpF32 | saMfsr | saMtsr | saTshape =>
    simp only [header_inj, eq_comm (b := f)] at hw
    obtain ⟨rfl, rfl, hf⟩ := hw
    refine .inr ⟨by decide, rfl, ?_⟩
    split <;> simp_all [decodeCell, decodeSa, Instr.saOnly]
  all_goals simp at hsl

theorem decodesCell_of_encode_engine (hsl : ¬(sl = .sa ∨ sl = .sb)) 
    (h : encode i = some (sl, header g op f)) : DecodesCell i sl g op f := by
  obtain ⟨x, hx⟩ : ∃ x, x = (sl, header g op f) := ⟨_, rfl⟩
  rw [← hx] at h
  cases i <;> cases h <;> obtain ⟨rfl, hw⟩ := Prod.mk.inj hx
  case saNop | sbNop => simp at hsl
  case brNop | ldNop | vxNop | mxNop | dxNop | sqNop => exact .inl ⟨rfl, hw.symm⟩
  case saAdd | saSub | saMul | saMulh | saDiv | saRem | saAnd | saOr | saXor | saShl | saShr | saSra | saMin | saMax | saCmp | saPand | saPor | saPxor |
      saMovi | saMovh | saAddi | saLdB64 | saLdB32 | saLdB16 | saLdB8 | saStB64 | saStB32 | saStB16 | saStB8 | saFaddF64 | saFsubF64 | saFmulF64 |
      saFdivF64 | saFaddF32 | saFsubF32 | saFmulF32 | saFdivF32 | saFcvt | saFcmpF64 | saFcmpF32 | saMfsr | saMtsr | saTshape =>
    exact absurd (by split <;> simp) hsl
  all_goals
    simp [header_inj, eq_comm (b := f)] at hw
    obtain ⟨rfl, rfl, hf⟩ := hw
    refine .inr ⟨by decide, rfl, ?_⟩
    simp [decodeCell, decodeBr, decodeLd, decodeVx, decodeMx, decodeDx, decodeSq, hf]

theorem decodesCell_of_encode (hs : i.saOnly = false) (h : encode i = some (sl, header g op f)) : DecodesCell i sl g op f := by
  by_cases hsl : sl = .sa ∨ sl = .sb
  · exact decodesCell_of_encode_scalar hsl hs h
  · exact decodesCell_of_encode_engine hsl h

/-- Instruction i is the cell `op` of slot `sl` with the format field `f`, under guard `g`, which is p0 where it must be. -/
def EncodesCell (i : Instr) (sl : Slot) (g : Guard) (op : BitVec 6) (f : BitVec 21) : Prop :=
  encode i = some (sl, header i.guard op f) ∧ (if fixedGuard i then i.guard = guardP0 else i.guard = g)

theorem encodesCell_intro {k : Nat} {f' : BitVec 21} (hop : op.toNat = k) (he : encode i = some (sl, header i.guard (BitVec.ofNat 6 k) f'))
    (hf : f = f') (hg : if fixedGuard i then i.guard = guardP0 else i.guard = g) : EncodesCell i sl g op f := by
  subst hop hf
  exact ⟨by rw [he, BitVec.ofNat_toNat, BitVec.setWidth_eq], hg⟩

theorem encodesCell_of_decodeSa {u : SUnit} (h : decodeSa u g op.toNat f = .ok i) :
    EncodesCell i (if u = .a then .sa else .sb) g op f := by
  dsimp only [decodeSa, cell] at h
  repeat' split at h
  all_goals cases h
  all_goals exact encodesCell_intro ‹_› (by cases u <;> rfl) (by simp_all) rfl

theorem encodesCell_of_decodeCell (h : decodeCell sl g op.toNat f = .ok i) : EncodesCell i sl g op f := by
  cases sl <;> dsimp only [decodeCell, decodeBr, decodeLd, decodeVx, decodeMx, decodeDx, decodeSq, cell] at h
  case sa => exact encodesCell_of_decodeSa h
  all_goals repeat' split at h
  case sb.isFalse => exact encodesCell_of_decodeSa h
  all_goals cases h
  all_goals exact encodesCell_intro ‹_› rfl (by simp_all) rfl

/-- A word decodes to the NOP where every bit of it is 0, and to a candidate of its cell that passes the checks of R55. -/
theorem decodeSlot_header_eq_ok : decodeSlot sl (header g op f) = .ok i ↔ (i = sl.nop ∧ header g op f = 0) ∨
    (op ≠ 0 ∧ decodeCell sl g op.toNat f = .ok i ∧ i.rangeOk = true ∧ g.ok = true ∧ (fixedGuard i = true → g = guardP0) ∧ i.holdOk = true) := by
  obtain ⟨hg, hop, hf⟩ := (eq_header _ g op f).1 rfl
  have zero : header g op f = 0 → op = 0 := fun h => hop ▸ h ▸ rfl
  have num : op.toNat = 0 ↔ op = 0 := by rw [BitVec.toNat_eq]; rfl
  unfold decodeSlot
  simp only [hg, hop, hf, num]
  split
  case isTrue h0 => split <;> grind
  case isFalse h0 =>
    split
    case h_1 e he => simp_all
    case h_2 j hj =>
      have p0 : (⟨0, false⟩ : Guard) = guardP0 := rfl
      simp only [p0]
      split_ifs <;> grind

theorem EncodesCell.guard_ok (h : EncodesCell i sl g op f) (hg : g.ok = true) : i.guard.ok = true := by
  obtain ⟨-, h⟩ := h
  split at h
  case isTrue => rw [h]; rfl
  case isFalse => rwa [h]

theorem EncodesCell.encode_eq (h : EncodesCell i sl g op f) (hg : fixedGuard i = true → g = guardP0) : encode i = some (sl, header g op f) := by
  obtain ⟨he, h⟩ := h
  split at h
  case isTrue hf => rw [he, h, hg hf]
  case isFalse => rw [he, h]

/-- Among the instructions with an encoding, those whose guard is fixed have p0. -/
theorem guard_of_fixedGuard (h : fixedGuard i = true) : i.guard = guardP0 := by
  cases i <;> cases h <;> rfl

end

/-- Settles O7. -/
theorem decodeOfEncode : Obligations.DecodeOfEncode := by
  intro i sl w hi he
  simp only [Instr.wellFormed, Bool.and_eq_true, Bool.not_eq_true'] at hi
  obtain ⟨⟨⟨⟨hguard, hrange⟩, hhold⟩, -⟩, hsa⟩ := hi
  rw [header_parts w] at he ⊢
  refine decodeSlot_header_eq_ok.2 ((decodesCell_of_encode hsa he).imp_right fun ⟨hop, hg, hd⟩ => ?_)
  exact ⟨hop, hd, hrange, hg ▸ hguard, fun hf => hg ▸ guard_of_fixedGuard hf, hhold⟩

/-- Settles O8. -/
theorem encodeOfDecode : Obligations.EncodeOfDecode := by
  intro i sl w h
  rw [header_parts w] at h ⊢
  rcases decodeSlot_header_eq_ok.1 h with ⟨rfl, hw⟩ | ⟨-, hd, hrange, hguard, hfixed, hhold⟩
  · rw [hw]
    cases sl <;> exact ⟨rfl, rfl, rfl, rfl⟩
  · have hc := encodesCell_of_decodeCell hd
    exact ⟨hc.encode_eq hfixed, hc.guard_ok hguard, hrange, hhold⟩

end Sys2Proof

/-! ## The step and the bundle (01_organisation.md R9, 02_bundle.md R37 to R40)

An instruction is the slot operation `slotOp` alone in its bundle, or a device step. -/

namespace Sys2Proof.Machine

/-! ### Slot instructions -/

/-- A slot instruction is its row alone in a bundle, under its own guard. -/
theorem exec_of_slotOp {i : Instr} {o : SlotOp} (h : slotOp i = some o) (s : State) : exec i s = issueOne o s ∧ o.guard = i.guard := by
  cases i <;> cases h <;> exact ⟨rfl, rfl⟩

/-- A bundle whose one slot has a false guard walks nothing (R39). -/
theorem walkSlots_guard_false {s : State} {c : Nat} {o : SlotOp} (hg : readGuard s c o.guard = false) : walkSlots c [o] s = s := by
  simp only [walkSlots, hg, Bool.not_false, Bool.true_or, if_true]
  split <;> rfl

/-- A bundle of one slot whose guard is false, whatever its access. -/
theorem issueOne_guard_false {s : State} {c : Nat} {o : SlotOp} (h : Acts s c) (hg : readGuard s c o.guard = false) :
    issueOne o s = .next (issuedNext s c) := by
  unfold issueOne
  simp only [h.acting, issueSlots, walkSlots_guard_false hg, runSlots, hg, Bool.not_false, if_true]
  rw [finishIssue_seq h.between, settleIssue_calm (h.toCalm.congr (issuedNext_unwinds s c) (issuedNext_tasks s c))]

/-- A bundle of one slot always has a next state. -/
theorem issueOne_next (o : SlotOp) (s : State) : ∃ t, issueOne o s = .next t := by
  unfold issueOne
  split <;> exact ⟨_, rfl⟩

/-- The NOP of a slot, alone in its bundle. -/
theorem issueOne_nop {s : State} {c slot : Nat} (h : Acts s c) : issueOne ⟨slot, always, noAccess, opNop⟩ s = .next (issuedNext s c) :=
  issueOne_issued h rfl rfl rfl h.between h.toCalm

/-- Settles O2: a false guard is `issueOne_guard_false`, a NOP `issueOne_nop`. -/
theorem falseGuardsAndNopsHaveNoEffect : Obligations.FalseGuardsAndNopsHaveNoEffect := by
  intro s c i h
  refine ⟨fun o ho _ hg => ?_, fun hi => ?_⟩
  · obtain ⟨he, hgo⟩ := exec_of_slotOp ho s
    rw [he]
    exact issueOne_guard_false h (hgo ▸ hg)
  · simp only [List.mem_cons, List.not_mem_nil, or_false] at hi
    rcases hi with rfl | rfl | rfl | rfl | rfl | rfl | rfl | rfl <;> exact issueOne_nop h

/-- Settles O3: the effect of the earlier slot is in the state that `runSlots` gives up where an answer prevents issue. -/
theorem bundleIsWholeOrNothing : Obligations.BundleIsWholeOrNothing := by
  intro s t c code info o p w hgo hro hgp hrp
  have run : runSlots c [o, p] w = (t, [.trap code info]) := by simp [runSlots, hgo, hro, hgp, hrp]
  have taken : takenOf [.trap code info] = some (.trap code info) := by
    unfold takenOf
    by_cases hc : code = 6 <;> simp [lowestOf, Verdict.sched, hc]
  simp only [issueSlots, w, run, settle, freezeSpent, taken]

/-- Settles O4: a slot instruction is `issueOne_next`; a device step is its effect, settled. -/
theorem everyInstructionAnswersNext : Obligations.EveryInstructionAnswersNext := by
  intro i s
  cases h : slotOp i with
  | some o =>
    rw [(exec_of_slotOp h s).1]
    exact issueOne_next o s
  | none => cases i <;> cases h <;> exact ⟨_, rfl⟩

/-! ### The stops of a step -/

/-- The ACTIVE context's part of a cycle stops where its fetch finds no bundle, with `unsealed`, and nowhere else. -/
theorem issuePhase_error_iff {v : State} {g c : Nat} {f : Fault} : issuePhase v g c = .error f ↔
    f = .unsealed ∧ ∃ w, boundary v c = (w, false) ∧ (fetchFrom c ((w.seal (w.ctx c).handle).code.length + 1) w).1 = .bad := by
  unfold issuePhase
  rcases hb : boundary v c with ⟨w, spent⟩
  cases spent
  case true => simp
  case false =>
    rcases hf : fetchFrom c ((w.seal (w.ctx c).handle).code.length + 1) w with ⟨k, u⟩
    cases k
    case bad => simp [hf, eq_comm]
    case skip => simp [hf]
    case pastEnd ev =>
      simp only [hf, Prod.mk.injEq, and_true, exists_eq_left', reduceCtorEq, and_false, iff_false]
      split <;> simp
    case slots ops =>
      simp only [hf, Prod.mk.injEq, and_true, exists_eq_left', reduceCtorEq, and_false, iff_false]
      split
      · simp
      · split <;> simp

/-- A cycle of an existing core stops exactly where its fetch finds no bundle. -/
theorem coreCycle_cases {u : State} {g : Nat} (hg : g < 320) :
    (FetchesNoBundle u g ∧ coreCycle u g = .fault .unsealed) ∨ (¬FetchesNoBundle u g ∧ ∃ t, coreCycle u g = .next t) := by
  have hfb : FetchesNoBundle u g ↔ ∃ c, ((takeIssue (giveUpIssue (keepTags u g) g) g).core g).active = some c ∧
      ∃ f, issuePhase (takeIssue (giveUpIssue (keepTags u g) g) g) g c = .error f := by
    simp only [issuePhase_error_iff, FetchesNoBundle, exists_eq_left, exists_and_left]
  rw [hfb]
  unfold coreCycle
  rw [if_neg (by omega)]
  cases ha : ((takeIssue (giveUpIssue (keepTags u g) g) g).core g).active with
  | none => simp [ha]
  | some c =>
    cases hp : issuePhase (takeIssue (giveUpIssue (keepTags u g) g) g) g c with
    | error f => simp [ha, hp, (issuePhase_error_iff.1 hp).1]
    | ok t => simp [ha, hp]

/-- A step in which core g moves stops as that core's cycle does. -/
theorem step_of_coreMoves {s u : State} {g : Nat} (h : CoreMoves s g u) :
    (∀ f, coreCycle u g = .fault f → step s = .fault f) ∧ ((∃ t, coreCycle u g = .next t) → ∃ t, step s = .next t) := by
  obtain ⟨hp, ⟨hm, rfl, rfl⟩ | ⟨r, hm, rfl⟩⟩ := h
  · simp only [step, hm, hp, ne_eq, not_true, if_false]
    exact ⟨fun f hf => by rw [hf], fun ⟨t, ht⟩ => ⟨advance t, by rw [ht]⟩⟩
  · simp only [step, hm, performMove, hp, if_true]
    exact ⟨fun f hf => hf, fun ht => ht⟩

/-- A step in which no core moves has a next state. -/
theorem step_of_not_coreMoves {s : State} (h : ∀ g u, ¬CoreMoves s g u) : ∃ t, step s = .next t := by
  unfold step
  cases hm : s.moves with
  | nil =>
    by_cases hp : s.pstate = 0
    · exact absurd ⟨hp, .inl ⟨hm, rfl, rfl⟩⟩ (h s.focus s)
    · exact ⟨advance s, by simp [hp]⟩
  | cons m r =>
    cases m with
    | core g =>
      by_cases hp : s.pstate = 0
      · exact absurd ⟨hp, .inr ⟨r, hm, rfl⟩⟩ (h g { s with moves := r })
      · exact ⟨{ s with moves := r }, by simp [performMove, hp]⟩
    | event i => exact everyInstructionAnswersNext i _
    | evictL1 g line => exact ⟨_, rfl⟩
    | evictTlb k => exact ⟨_, rfl⟩

/-- Which core moves is determined. -/
theorem CoreMoves.unique {s u u' : State} {g g' : Nat} (h : CoreMoves s g u) (h' : CoreMoves s g' u') : g = g' ∧ u = u' := by
  obtain ⟨-, ⟨hm, rfl, rfl⟩ | ⟨r, hm, rfl⟩⟩ := h <;> obtain ⟨-, ⟨hm', rfl, rfl⟩ | ⟨r', hm', rfl⟩⟩ := h' <;> simp_all

/-- Settles O5: a step stops as the cycle of the core that moves (`coreCycle_cases`), and nowhere else. -/
theorem stepStopsOnlyOutsideTheMachine : Obligations.StepStopsOnlyOutsideTheMachine := by
  intro s
  by_cases h : ∃ g u, CoreMoves s g u
  case neg =>
    obtain ⟨t, ht⟩ := step_of_not_coreMoves fun g u hm => h ⟨g, u, hm⟩
    simp only [ht, reduceCtorEq, false_iff]
    exact ⟨fun ⟨g, u, hm, _⟩ => h ⟨g, u, hm⟩, fun ⟨g, u, hm, _⟩ => h ⟨g, u, hm⟩, .inl ⟨t, rfl⟩⟩
  case pos =>
    obtain ⟨g, u, hm⟩ := h
    have only {p : Nat → State → Prop} : (∃ g' u', CoreMoves s g' u' ∧ p g' u') ↔ p g u :=
      ⟨fun ⟨g', u', hm', hp⟩ => by obtain ⟨rfl, rfl⟩ := hm.unique hm'; exact hp, fun hp => ⟨g, u, hm, hp⟩⟩
    rw [only (p := fun g _ => 320 ≤ g), only (p := fun g u => g < 320 ∧ FetchesNoBundle u g)]
    obtain ⟨stops, goes⟩ := step_of_coreMoves hm
    by_cases hg : 320 ≤ g
    case pos =>
      have hs := stops .noCore (if_pos hg)
      simp [hs, hg, Nat.not_lt.2 hg]
    case neg =>
      rcases coreCycle_cases (u := u) (Nat.not_le.1 hg) with ⟨hb, hc⟩ | ⟨hb, hc⟩
      · simp [stops _ hc, hb, Nat.not_le.1 hg]
      · obtain ⟨t, ht⟩ := goes hc
        simp [ht, hb, Nat.not_le.1 hg]

end Sys2Proof.Machine

/-! ## The control family (05_control.md): scalar floating point, system registers, tile shapes, loads and stores

A load or a store is translated first; what a translation leaves alone is what the slot reads. -/

namespace Sys2Proof.Machine

/-! ### Rows that expose a result, or trap -/

/-- A row that exposes one result, from a state `t` between bundles, alone in its bundle. -/
theorem exec_exposed {s t : State} {c slot slot' v bound : Nat} {ev : Cats} {g : Guard} {d : Dst} {run : Nat → State → Verdict} {i : Instr}
    (h : Acts s c) (hg : readGuard s c g = true) (ht : t.Between c) (hi : exec i s = issueOne ⟨slot, g, noAccess, run⟩ s)
    (hr : run c s = .issued (expose t c slot' d v bound ev)) : exec i s = .next (issuedNext (expose t c slot' d v bound ev) c) := by
  rw [hi]
  exact issueOne_issued h rfl hg hr (by rw [expose_nxt]; exact ht.between) (expose_calm ht.toCalm ..)

/-- A row without an access that traps, schedule violations apart, alone in its bundle. -/
theorem exec_trapped {s : State} {c slot code : Nat} {info : W64} {g : Guard} {run : Nat → State → Verdict} {i : Instr}
    (h : Acts s c) (hg : readGuard s c g = true) (hi : exec i s = issueOne ⟨slot, g, noAccess, run⟩ s)
    (hr : run c s = .trap code info) (hc : code ≠ 6) : exec i s = .next (trapped s c code info) :=
  hi.trans (issueOne_trap h rfl hg hr hc)

/-! ### Floating point (R128, R129) -/

/-- The draw of an instruction under SR; under another mode it takes none (R77). -/
theorem useDraws_eq (s : State) (c slot n : Nat) (rm : RM) : useDraws s c slot n rm = if rm = .sr then useDraws s c slot n .sr else s := by
  by_cases h : rm = .sr
  · rw [if_pos h, h]
  · rw [if_neg h, useDraws, if_neg h]

theorem State.Between.useDraws {s : State} {c : Nat} (h : s.Between c) (slot n : Nat) (rm : RM) : (useDraws s c slot n rm).Between c := by
  unfold Machine.useDraws
  split
  · exact ⟨h.toCalm.congr rfl rfl, by simp [expose, h.between]⟩
  · exact h

/-- A row that rounds under a mode, alone in its bundle: its draw, if any, and its result. -/
theorem exec_rounded {s : State} {c bound : Nat} {u : SUnit} {g : Guard} {d : BitVec 6} {run : Nat → State → Verdict} {i : Instr} {r : W64} {n : Nat}
    {ev : Cats} {rm : RM} (h : Acts s c) (hg : readGuard s c g = true) (hi : exec i s = issueOne ⟨SUnit.slot u, g, noAccess, run⟩ s)
    (hr : run c s = .issued (exposeS (useDraws s c (SUnit.slot u) 1 rm) c (SUnit.slot u) d.toNat r bound ev)) (hn : r.toNat = n) :
    exec i s = .next (issuedNext (expose (if rm = .sr then useDraws s c (SUnit.slot u) 1 .sr else s) c (SUnit.slot u) (.s d.toNat) n bound ev) c) := by
  subst hn
  rw [← useDraws_eq]
  exact exec_exposed h hg (h.toBetween.useDraws ..) hi hr

/-- A register is an FP64 operand as it stands. -/
theorem toNat_mod_f64 (x : W64) : x.toNat % 2 ^ Fmt.f64.width = x.toNat := Nat.mod_eq_of_lt x.isLt

/-- Settles O12: each row is `exec_rounded`; an FP64 operand is the whole register. -/
theorem scalarFloatResults : Obligations.ScalarFloatResults := by
  intro s c u g d a b h hg dr x y out frm
  have row64 (op : Fmt → RM → W64 → Nat → Nat → Nat × Cats) (bound : Nat) (i : Instr)
      (hi : exec i s = issueOne ⟨SUnit.slot u, g, noAccess, float2 u .f64 op d a b bound⟩ s) : exec i s = out frm (op .f64 frm dr x y) bound :=
    exec_rounded h hg hi (by rw [float2, toNat_mod_f64, toNat_mod_f64]) (BitVec.toNat_ofNat _ 64)
  have row32 (op : Fmt → RM → W64 → Nat → Nat → Nat × Cats) (bound : Nat) (i : Instr)
      (hi : exec i s = issueOne ⟨SUnit.slot u, g, noAccess, float2 u .f32 op d a b bound⟩ s) :
      exec i s = out frm (op .f32 frm dr (x % 2 ^ 32) (y % 2 ^ 32)) bound :=
    exec_rounded h hg hi rfl (BitVec.toNat_ofNat _ 64)
  exact ⟨row64 fadd 4 _ rfl, row64 fsub 4 _ rfl, row64 fmul 4 _ rfl, row64 fdiv 20 _ rfl, row32 fadd 4 _ rfl, row32 fsub 4 _ rfl,
    row32 fmul 4 _ rfl, row32 fdiv 12 _ rfl, fun f t rn => exec_rounded h hg rfl rfl (Nat.mod_eq_of_lt (BitVec.isLt _)).symm⟩

/-! ### System registers (R120 to R122) -/

theorem sysKRead_iff (n : Nat) : sysKRead n = true ↔ 0x040 ≤ n ∧ n ≤ 0x046 := by simp [sysKRead]

theorem sysKWrite_iff (n : Nat) : sysKWrite n = true ↔ (0x040 ≤ n ∧ n ≤ 0x046) ∨ n = 0x003 := by simp [sysKWrite, sysKRead, or_comm]

/-- Settles O13: the branches of `opSaMfsr` and `opSaMtsr`, of which each exposes one result, writes nothing, or traps. -/
theorem systemRegisterMoves : Obligations.SystemRegisterMoves := by
  intro s c u g r n h hg kOnly k v out
  have hr : sysKRead n.toNat = true ↔ kOnly := sysKRead_iff _
  have hw : sysKWrite n.toNat = true ↔ kOnly ∨ n.toNat = 0x003 := sysKWrite_iff _
  have mayRead (hl : k = true ∨ ¬kOnly) : (sysKRead n.toNat && !k) = false := by
    rw [← hr] at hl
    rcases hl with hl | hl <;> simp [hl]
  have mayWrite (hl : k = true ∨ (¬kOnly ∧ n.toNat ≠ 0x003)) : (sysKWrite n.toNat && !k) = false := by
    rw [← not_or, ← hw] at hl
    rcases hl with hl | hl <;> simp [hl]
  refine ⟨fun hl => ?read, fun hl hn => ?counter, fun hl hn ha => ?system, fun hn ha => ?frm, fun hl hn => ?readTrap, fun hl hn => ?writeTrap,
    fun w => ⟨rfl, rfl, rfl, rfl, rfl, rfl, rfl, rfl⟩⟩
  case read => exact exec_exposed h hg h.toBetween rfl (by rw [opSaMfsr, mayRead hl]; rfl)
  case counter =>
    have hn0 : n.toNat ≠ 0 := by omega
    have hf : ¬(n.toNat = 0 ∧ (s.task (s.ctx c).tid).aud = true) := fun hf => hn0 hf.1
    exact exec_exposed h hg h.toBetween rfl (by rw [opSaMtsr, mayWrite hl, if_neg (by simp), if_neg hf, if_pos hn])
  case system => exact exec_exposed h hg h.toBetween rfl (by rw [opSaMtsr, mayWrite hl, if_neg (by simp), if_neg ha, if_neg hn])
  case frm =>
    have hl : (sysKWrite n.toNat && !k) = false := by rw [hn]; rfl
    exact issueOne_issued (o := rowSaMtsr u g r n) h rfl hg (by simp only [rowSaMtsr, opSaMtsr, hl, hn, ha]; rfl) h.between h.toCalm
  case readTrap => exact exec_trapped h hg rfl (by simp [opSaMfsr, hr.2 hn, show (s.ctx c).kLevel = false from hl]) (by decide)
  case writeTrap => exact exec_trapped h hg rfl (by simp [opSaMtsr, hw.2 hn, show (s.ctx c).kLevel = false from hl]) (by decide)

/-! ### Tile shapes (R133) -/

/-- The bits of a tile shape outside its fields: [63:20], 15 and [7:6]. -/
theorem and_shapeMask_eq_zero_iff (v : W64) :
    v &&& 0xFFFFFFFFFFF080C0 = 0 ↔ v.toNat / 2 ^ 20 = 0 ∧ v.toNat / 2 ^ 15 % 2 = 0 ∧ v.toNat / 2 ^ 6 % 4 = 0 := by
  have mask : ∀ i < 64, (0xFFFFFFFFFFF080C0 : W64).getLsbD i = (decide (20 ≤ i) || decide (i = 15) || decide (i = 6) || decide (i = 7)) := by decide
  have bits : v &&& 0xFFFFFFFFFFF080C0 = 0 ↔ (∀ i, 20 ≤ i → v.toNat.testBit i = false) ∧ v.toNat.testBit 15 = false ∧
      v.toNat.testBit 6 = false ∧ v.toNat.testBit 7 = false := by
    constructor
    · intro h
      have off (i : Nat) (hi : i < 64) (hm : (0xFFFFFFFFFFF080C0 : W64).getLsbD i = true) : v.toNat.testBit i = false := by
        have bit : (v &&& 0xFFFFFFFFFFF080C0).getLsbD i = (0 : W64).getLsbD i := by rw [h]
        rw [BitVec.getLsbD_and, hm, Bool.and_true] at bit
        exact bit.trans BitVec.getLsbD_zero
      refine ⟨fun i hi => ?_, off 15 (by decide) (by decide), off 6 (by decide) (by decide), off 7 (by decide) (by decide)⟩
      by_cases h64 : i < 64
      · exact off i h64 (by rw [mask i h64]; simp [hi])
      · exact Nat.testBit_lt_two_pow (v.isLt.trans_le (Nat.pow_le_pow_right (by decide) (Nat.not_lt.1 h64)))
    · rintro ⟨high, h15, h6, h7⟩
      refine BitVec.eq_of_getLsbD_eq fun i hi => ?_
      rw [BitVec.getLsbD_and, mask i hi, BitVec.getLsbD]
      by_cases h20 : 20 ≤ i
      · simp [high i h20]
      · by_cases hi15 : i = 15
        · simp [hi15, h15]
        · by_cases hi6 : i = 6
          · simp [hi6, h6]
          · by_cases hi7 : i = 7
            · simp [hi7, h7]
            · simp [h20, hi15, hi6, hi7]
  have low : (∀ i, 20 ≤ i → v.toNat.testBit i = false) ↔ v.toNat / 2 ^ 20 = 0 :=
    ⟨fun h => Nat.div_eq_of_lt (Nat.lt_pow_two_of_testBit _ h),
      fun h i hi => Nat.testBit_lt_two_pow ((Nat.lt_of_div_eq_zero (by decide) h).trans_le (Nat.pow_le_pow_right (by decide) hi))⟩
  rw [bits, low]
  simp only [Nat.testBit_eq_decide_div_mod_eq, decide_eq_false_iff_not]
  omega

theorem shapeOk_iff (v : W64) : shapeOk v = true ↔
    v.toNat / 2 ^ 20 = 0 ∧ v.toNat / 2 ^ 15 % 2 = 0 ∧ v.toNat / 2 ^ 6 % 4 = 0 ∧ v.toNat / 2 ^ 16 % 16 ≤ 9 ∧
      1 ≤ v.toNat / 2 ^ 8 % 128 ∧ v.toNat / 2 ^ 8 % 128 ≤ 64 ∧ 1 ≤ v.toNat % 64 ∧ v.toNat % 64 ≤ 32 := by
  simp only [shapeOk, Bool.and_eq_true, beq_iff_eq, and_shapeMask_eq_zero_iff, and_assoc, decide_eq_true_iff]
  rfl

/-- Settles O14: the three branches of `opSaTshape`, of which the test of the shape is `shapeOk_iff`. -/
theorem tileShapeWrite : Obligations.TileShapeWrite := by
  intro s c g t a h hg v ok
  have hok : shapeOk v = true ↔ ok := shapeOk_iff v
  refine ⟨fun ho hv => ?written, fun ho hv => ?illegal, fun ho => ?notOwner⟩
  case written => exact exec_exposed h hg h.toBetween rfl (by simp [opSaTshape, isOwner, ho, hok.2 hv, v, SUnit.slot])
  case illegal =>
    have hbad : shapeOk (readS s c a.toNat) = false := Bool.eq_false_iff.2 fun hs => hv (hok.1 hs)
    exact exec_trapped h hg rfl (by simp [opSaTshape, isOwner, ho, hbad, v]) (by decide)
  case notOwner => exact exec_trapped h hg rfl (by simp [opSaTshape, isOwner, ho, SUnit.slot]) (by decide)

end Sys2Proof.Machine

/-! ## Ordinary loads and stores (R130, R131)

Their address is translated first. Of a context a translation changes its state and its watch alone (R138), so that the slot then reads the
registers of before; and its second translation, in the slot, changes nothing further. -/

namespace Sys2Proof.Machine

/-! ### What a store or a translation changes of the contexts -/

theorem SMap.get_map {α : Type} (d : α) (f : α → α) (hf : f d = d) (m : SMap α) (k : Nat) :
    SMap.get d (m.map (fun p => (p.1, f p.2))) k = f (SMap.get d m k) := by
  induction m with
  | nil => exact hf.symm
  | cons p r ih =>
    simp only [List.map_cons, SMap.get, ih]
    split <;> rfl

/-- A context whose watch a store has met: the watch ends, and a context that waits for it is READY (R138). -/
def Context.wake (x : Context) : Context := { x with watch := none, st := if x.st = .blocked then .ready else x.st }

/-- A context is as before, or a store has met its watch. -/
def Context.Woken (x y : Context) : Prop := y = x ∨ (x.watch ≠ none ∧ y = x.wake)

theorem Context.Woken.refl (x : Context) : x.Woken x := .inl rfl

theorem Context.Woken.trans {x y z : Context} (h : x.Woken y) (k : y.Woken z) : x.Woken z := by
  rcases h with rfl | ⟨hw, rfl⟩
  · exact k
  · rcases k with rfl | ⟨kw, -⟩
    · exact .inr ⟨hw, rfl⟩
    · exact absurd rfl kw

/-- A woken context keeps all but its state and its watch. -/
theorem Context.Woken.same {x y : Context} (h : x.Woken y) : y = { x with st := y.st, watch := y.watch } := by
  rcases h with rfl | ⟨-, rfl⟩ <;> rfl

theorem Context.Woken.st {x y : Context} (h : x.Woken y) (hs : x.st ≠ .blocked) : y.st = x.st := by
  rcases h with rfl | ⟨-, rfl⟩
  · rfl
  · exact if_neg hs

theorem Context.Woken.unwatched {x y : Context} (h : x.Woken y) (hw : x.watch = none) : y = x :=
  h.elim id fun k => absurd hw k.1

/-- What accesses to memory, and the translations before them, can change: memory with its timestamps, poison and translations; a core's clock
and copies; the watches that a store meets. Nothing else of the state. -/
structure State.Accessed (s t : State) : Prop where
  ctx : ∀ c, (s.ctx c).Woken (t.ctx c)
  core : ∀ g, t.core g = { s.core g with pts := (t.core g).pts, l1 := (t.core g).l1 }
  die : ∀ d, t.die d = { s.die d with recs := (t.die d).recs }
  rest : t = { s with mem := t.mem, memPoison := t.memPoison, lines := t.lines, tlbs := t.tlbs, ctxs := t.ctxs, cores := t.cores, dies := t.dies,
                      harts := t.harts, pts := t.pts, free := t.free }

theorem State.Accessed.refl (s : State) : s.Accessed s := ⟨fun _ => .refl _, fun _ => rfl, fun _ => rfl, rfl⟩

theorem State.Accessed.trans {s t u : State} (h : s.Accessed t) (k : t.Accessed u) : s.Accessed u where
  ctx c := (h.ctx c).trans (k.ctx c)
  core g := by rw [k.core g, h.core g]
  die d := by rw [k.die d, h.die d]
  rest := by rw [k.rest, h.rest]

section Accessed
variable {s t : State} (h : s.Accessed t)
include h

theorem State.Accessed.tasks : t.tasks = s.tasks := by rw [h.rest]
theorem State.Accessed.task (n : Nat) : t.task n = s.task n := congrArg (SMap.get _ · n) h.tasks
theorem State.Accessed.unwinds : t.unwinds = s.unwinds := by rw [h.rest]
theorem State.Accessed.links : t.links = s.links := by rw [h.rest]
theorem State.Accessed.seals : t.seals = s.seals := by rw [h.rest]
theorem State.Accessed.reach (d pa : Nat) : t.reach d pa = s.reach d pa := by rw [State.reach, h.links, State.reach]
theorem State.Accessed.calm (hc : s.Calm) : t.Calm := ⟨h.unwinds ▸ hc.noUnwind, h.tasks ▸ hc.noKill⟩

/-- A context keeps what no store changes. -/
theorem State.Accessed.kept {β : Type} (f : Context → β) (hf : ∀ x st w, f { x with st := st, watch := w } = f x) (c : Nat) :
    f (t.ctx c) = f (s.ctx c) := by
  rw [(h.ctx c).same]
  exact hf ..

theorem State.Accessed.between {c : Nat} (hb : s.Between c) : t.Between c :=
  ⟨h.calm hb.toCalm, (h.kept (·.nxt) (fun _ _ _ => rfl) c).trans hb.between⟩
theorem State.Accessed.nxt (c : Nat) : (t.ctx c).nxt = (s.ctx c).nxt := h.kept (·.nxt) (fun _ _ _ => rfl) c
theorem State.Accessed.tid (c : Nat) : (t.ctx c).tid = (s.ctx c).tid := h.kept (·.tid) (fun _ _ _ => rfl) c
theorem State.Accessed.rank (c : Nat) : (t.ctx c).rank = (s.ctx c).rank := h.kept (·.rank) (fun _ _ _ => rfl) c
theorem State.Accessed.stores (c : Nat) : (t.ctx c).stores = (s.ctx c).stores := h.kept (·.stores) (fun _ _ _ => rfl) c
theorem State.Accessed.kLevel (c : Nat) : (t.ctx c).kLevel = (s.ctx c).kLevel := h.kept (·.kLevel) (fun _ _ _ => rfl) c
theorem State.Accessed.sysReg (c r : Nat) : (t.ctx c).sysReg r = (s.ctx c).sysReg r := h.kept (·.sysReg r) (fun _ _ _ => rfl) c

theorem State.Accessed.asidOf (c : Nat) : t.asidOf c = s.asidOf c := by rw [State.asidOf, h.task, h.tid, State.asidOf]

theorem State.Accessed.readS (hf : t.free = s.free) (c n : Nat) : readS t c n = readS s c n := by
  simp only [Machine.readS, State.openValue, State.freeAt, hf, h.kept (·.isOpen (.s n)) (fun _ _ _ => rfl) c, h.kept (·.sr) (fun _ _ _ => rfl) c]

theorem State.Accessed.readGuard (hf : t.free = s.free) (c : Nat) (g : Guard) : readGuard t c g = readGuard s c g := by
  simp only [Machine.readGuard, readP, State.openValue, State.freeAt, hf, h.kept (·.isOpen (.p g.p.toNat)) (fun _ _ _ => rfl) c,
    h.kept (·.pr) (fun _ _ _ => rfl) c]

end Accessed

/-- An access that changes neither a context nor a core nor a die. -/
theorem State.Accessed.of_eq {s t : State} (hc : t.ctxs = s.ctxs) (hg : t.cores = s.cores) (hd : t.dies = s.dies)
    (hr : t = { s with mem := t.mem, memPoison := t.memPoison, lines := t.lines, tlbs := t.tlbs, ctxs := t.ctxs, cores := t.cores, dies := t.dies,
                       harts := t.harts, pts := t.pts, free := t.free }) : s.Accessed t where
  ctx c := .inl (congrArg (SMap.get _ · c) hc)
  core g := by rw [show t.core g = s.core g from congrArg (SMap.get _ · g) hg]
  die d := by rw [show t.die d = s.die d from congrArg (SMap.get _ · d) hd]
  rest := hr

/-- An access that changes a core's clock and copies. -/
theorem State.Accessed.modCore (s : State) (g : Nat) {f : Core → Core} (hf : ∀ x, f x = { x with pts := (f x).pts, l1 := (f x).l1 }) :
    s.Accessed (s.modCore g f) where
  ctx _ := .refl _
  core e := by
    by_cases h : e = g
    · subst h
      rw [State.core_modCore_same]
      exact hf _
    · rw [State.core_modCore_ne _ _ h]
  die _ := rfl
  rest := rfl

theorem State.Accessed.setPts (s : State) (a : Agent) (t : Nat) : s.Accessed (s.setPts a t) := by
  cases a with
  | core g => exact .modCore s g (f := fun x => { x with pts := tick64 t }) fun _ => rfl
  | clove g => exact .modCore s g (f := fun x => { x with pts := tick64 t }) fun _ => rfl
  | _ => exact .of_eq rfl rfl rfl rfl

theorem State.Accessed.raise (s : State) (a : Agent) (t : Nat) : s.Accessed (s.raise a t) := by
  unfold State.raise
  split
  · exact .refl s
  · exact .setPts ..

theorem State.Accessed.lines (s : State) (l : SMap (Nat × Nat)) : s.Accessed { s with lines := l } := .of_eq rfl rfl rfl rfl

theorem State.Accessed.loadHome (s : State) (a : Agent) (pa lease : Nat) : s.Accessed (s.loadHome a pa lease) := by
  unfold State.loadHome
  exact (State.Accessed.lines s _).trans (.setPts _ a _)

theorem State.Accessed.readAll (s : State) (a : Agent) (l : List Nat) : s.Accessed (s.readAll a l) := by
  unfold State.readAll
  induction l generalizing s with
  | nil => exact .refl s
  | cons p r ih => exact (State.Accessed.loadHome s a p 1).trans (ih _)

theorem State.Accessed.loadPhys (s : State) (a : Agent) (pa n : Nat) (b : Bool) : s.Accessed (s.loadPhys a pa n b).2.2 := by
  unfold State.loadPhys
  dsimp only
  split
  · next g =>
    split
    · dsimp only
      exact .setPts ..
    · split
      · dsimp only
        exact .loadHome ..
      · have lease := State.Accessed.loadHome s (.core g) pa (Config.freeLease s.free % 256 + 1)
        have drawn (u : State) : u.Accessed { u with free := s.free + 1 } := .of_eq rfl rfl rfl rfl
        exact (lease.trans (drawn _)).trans (.modCore _ _ (f := fun x => { x with l1 := _ }) fun _ => rfl)
  · dsimp only
    exact .loadHome ..

theorem State.ctx_wake (s : State) (line c : Nat) : (s.wake line).ctx c = if (s.ctx c).watch = some line then (s.ctx c).wake else s.ctx c := by
  have : (s.wake line).ctxs = s.ctxs.map (fun p => (p.1, if p.2.watch = some line then p.2.wake else p.2)) := by
    refine List.map_congr_left fun p _ => ?_
    split <;> rfl
  rw [State.ctx, this]
  exact SMap.get_map Context.init (fun x => if x.watch = some line then x.wake else x) rfl s.ctxs c

theorem State.Accessed.wake (s : State) (line : Nat) : s.Accessed (s.wake line) where
  ctx c := by
    rw [State.ctx_wake]
    split
    · next h => exact .inr ⟨by simp [h], rfl⟩
    · exact .refl _
  core _ := rfl
  die d := by
    have : (s.wake line).die d = { s.die d with recs := (s.die d).recs.map (fun r => if r.watch = some line then { r with watch := none } else r) } :=
      SMap.get_map Die.init (fun x => { x with recs := x.recs.map (fun r => if r.watch = some line then { r with watch := none } else r) }) rfl s.dies d
    rw [this]
  rest := rfl

theorem State.Accessed.writeN (n : Nat) : ∀ (s : State) (pa v : Nat), s.Accessed (s.writeN pa n v) := by
  induction n with
  | zero => exact fun s _ _ => .refl s
  | succ n ih =>
    intro s pa v
    have one : s.Accessed (s.setByte pa (BitVec.ofNat 8 v)) := .of_eq rfl rfl rfl rfl
    exact one.trans (ih _ (pa + 1) (v / 256))

theorem State.Accessed.clearBad (s : State) (pa n : Nat) : s.Accessed (s.clearBad pa n) := by
  unfold State.clearBad
  induction List.range ((pa + n - 1) / 8 + 1 - pa / 8) generalizing s with
  | nil => exact .refl s
  | cons i r ih =>
    refine .trans ?_ (ih _)
    dsimp only
    split
    · exact .of_eq rfl rfl rfl rfl
    · exact .refl s

theorem State.Accessed.refreshL1 (s : State) (a : Agent) (line : Nat) : s.Accessed (s.refreshL1 a line) := by
  unfold State.refreshL1
  split
  · dsimp only
    split
    · exact .modCore _ _ (f := fun x => { x with l1 := _ }) fun _ => rfl
    · exact .refl s
  · exact .refl s

theorem State.Accessed.stampStore (s : State) (a : Agent) (line : Nat) : s.Accessed (s.stampStore a line) :=
  (State.Accessed.lines s _).trans (.setPts _ a _)

theorem State.Accessed.storePhys (s : State) (a : Agent) (pa n v : Nat) : s.Accessed (s.storePhys a pa n v) :=
  (((State.Accessed.writeN n s pa v).trans (.clearBad ..)).trans (.stampStore ..)).trans ((State.Accessed.refreshL1 ..).trans (.wake ..))

theorem State.Accessed.of_eq_ctx {s t : State} (hc : ∀ c, t.ctx c = s.ctx c) (hg : t.cores = s.cores) (hd : t.dies = s.dies)
    (hr : t = { s with mem := t.mem, memPoison := t.memPoison, lines := t.lines, tlbs := t.tlbs, ctxs := t.ctxs, cores := t.cores, dies := t.dies,
                       harts := t.harts, pts := t.pts, free := t.free }) : s.Accessed t where
  ctx c := .inl (hc c)
  core g := by rw [show t.core g = s.core g from congrArg (SMap.get _ · g) hg]
  die d := by rw [show t.die d = s.die d from congrArg (SMap.get _ · d) hd]
  rest := hr

/-- A change of a context that concerns neither its state nor its watch can as well be made before the access. -/
theorem State.Accessed.modCtx {s t : State} (h : s.Accessed t) (c : Nat) {f : Context → Context}
    (hf : ∀ x st w, f { x with st := st, watch := w } = { f x with st := st, watch := w }) : (s.modCtx c f).Accessed (t.modCtx c f) where
  ctx e := by
    by_cases he : e = c
    · subst he
      rw [State.ctx_modCtx_same, State.ctx_modCtx_same]
      have self := hf (s.ctx e) (s.ctx e).st (s.ctx e).watch
      have hst : (f (s.ctx e)).st = (s.ctx e).st := by rw [self]
      have hw : (f (s.ctx e)).watch = (s.ctx e).watch := by rw [self]
      rcases h.ctx e with hx | ⟨hx, hy⟩
      · rw [hx]
        exact .refl _
      · refine .inr ⟨hw ▸ hx, ?_⟩
        rw [hy, Context.wake, hf, Context.wake, hst]
    · rw [State.ctx_modCtx_ne _ _ he, State.ctx_modCtx_ne _ _ he]
      exact h.ctx e
  core := h.core
  die := h.die
  rest := by
    have hs : t.modCtx c f = { t with ctxs := (t.modCtx c f).ctxs } := rfl
    rw [hs, h.rest]
    rfl

/-- The state that a translation leaves, however it ends; a walk that waits leaves that before it. -/
def Tr.state (s : State) : Tr → State
  | .ok _ _ t => t
  | .absent _ t => t
  | .refused t => t
  | .wait => s

theorem walkTr_accessed (s : State) (d : Nat) (a : Agent) (asid va : Nat) (acc : Acc) (k : Bool) : s.Accessed ((walkTr s d a asid va acc k).state s) := by
  have read : s.Accessed (s.readAll a (walkPlaces s d asid va)) := .readAll ..
  have keep (u : State) (l : List Tlb) : u.Accessed { u with tlbs := l } := .of_eq rfl rfl rfl rfl
  unfold walkTr
  dsimp only
  repeat' split
  case h_3.isFalse.isTrue => exact read.trans (keep ..)
  case h_3.isFalse.isFalse => exact (read.trans (.storePhys ..)).trans (keep ..)
  · exact .refl s
  · exact .refl s
  all_goals exact read

theorem translate_state_accessed (s : State) (d : Nat) (a : Agent) (asid va : Nat) (acc : Acc) (k : Bool) :
    s.Accessed ((translate s d a asid va acc k).state s) := by
  unfold translate
  repeat' split
  · exact .refl s
  · exact .refl s
  · exact walkTr_accessed ..
  · exact walkTr_accessed ..

theorem translate_accessed {s t : State} {d asid va pa : Nat} {a : Agent} {acc : Acc} {k : Bool} {pte : W64}
    (h : translate s d a asid va acc k = .ok pa pte t) : s.Accessed t := by
  simpa [h, Tr.state] using translate_state_accessed s d a asid va acc k

/-- A translation that ends well is held already, or a walk has found it. -/
theorem translate_ok {s t : State} {d asid va pa : Nat} {a : Agent} {acc : Acc} {k : Bool} {pte : W64}
    (h : translate s d a asid va acc k = .ok pa pte t) : canonical va = true ∧ (t = s ∨ walkTr s d a asid va acc k = .ok pa pte t) := by
  unfold translate at h
  split at h
  · simp only [reduceCtorEq] at h
  · rename_i hc
    refine ⟨by simp_all, ?_⟩
    repeat' split at h
    · injection h with _ _ h3
      exact .inl h3.symm
    · exact .inr h
    · exact .inr h

/-! ### What a slot reads after its translation -/

section Translated
variable {s t : State} {d asid va pa : Nat} {a : Agent} {acc : Acc} {k : Bool} {pte : W64}

theorem translate_readS (h : translate s d a asid va acc k = .ok pa pte t) (c n : Nat) : readS t c n = readS s c n :=
  (translate_accessed h).readS (translate_rest h).2 c n

theorem translate_readGuard (h : translate s d a asid va acc k = .ok pa pte t) (c : Nat) (g : Guard) : readGuard t c g = readGuard s c g :=
  (translate_accessed h).readGuard (translate_rest h).2 c g

end Translated

/-- A bundle of one slot whose access translates: its walk is that translation. -/
theorem walkSlots_translated {s t : State} {c va pa : Nat} {acc : Acc} {pte : W64} {o : SlotOp} (hm : o.mem c s = some (va, acc))
    (hg : readGuard s c o.guard = true) (hc : canonical va = true)
    (ht : translate s (dieOf (coreOf c)) (.core (coreOf c)) (s.asidOf c) va acc (s.ctx c).kLevel = .ok pa pte t) : walkSlots c [o] s = t := by
  rw [State.asidOf] at ht
  simp [walkSlots, hm, hg, hc, ht]

/-- A bundle of one slot whose access translates, and which issues without a transfer of control. -/
theorem issueOne_translated {s t u : State} {c va pa : Nat} {acc : Acc} {pte : W64} {o : SlotOp} (h : Acts s c) (hm : o.mem c s = some (va, acc))
    (hg : readGuard s c o.guard = true)
    (ht : translate s (dieOf (coreOf c)) (.core (coreOf c)) (s.asidOf c) va acc (s.ctx c).kLevel = .ok pa pte t)
    (hr : o.run c t = .issued u) (hn : (u.ctx c).nxt = .seq) : issueOne o s = .next (settleIssue (issuedNext u c)) := by
  have hw : walkSlots c [o] s = t := walkSlots_translated hm hg (translate_ok ht).1 ht
  rw [issueOne_walked h (by rw [hw, translate_readGuard ht]; exact hg) (by rw [hw]; exact hr), finishIssue_seq hn]

theorem flushStores_none {s : State} {c : Nat} (h : (s.ctx c).stores = []) : flushStores s c = s := by
  rw [flushStores, h]
  rfl

theorem ordAccess_of_aligned {va n : Nat} {acc : Acc} (hb : va < 2 ^ 64) (hc : canonical va = true) (hn : va % n = 0) :
    ordAccess va n acc = some (va, acc) := by
  rw [ordAccess, Nat.mod_eq_of_lt hb]
  simp [hc, hn]

theorem ordAccess_of_misaligned {va n : Nat} {acc : Acc} (hb : va < 2 ^ 64) (h : canonical va = false ∨ va % n ≠ 0) : ordAccess va n acc = none := by
  rw [ordAccess, Nat.mod_eq_of_lt hb]
  rcases h with h | h <;> simp [h]

/-! ### Scalar loads and stores -/

/-- A load at a translated address, where no store of the context waits and its place is within reach. -/
theorem loadVirt_translated {s t u : State} {c va pa n v : Nat} {pte : W64} (hb : va < 2 ^ 64) (hn : va % n = 0)
    (ht : translate s (dieOf (coreOf c)) (.core (coreOf c)) (s.asidOf c) va .read (s.ctx c).kLevel = .ok pa pte t)
    (hst : (t.ctx c).stores = []) (hr : t.reach (dieOf (coreOf c)) (t.placeOf (s.asidOf c) va pa) = true)
    (hl : t.loadPhys (.core (coreOf c)) (t.placeOf (s.asidOf c) va pa) n
      (pteBypass pte || decide (memBytes ≤ t.placeOf (s.asidOf c) va pa)) = (v, false, u)) :
    loadVirt t c va n false = .val v (t.placeOf (s.asidOf c) va pa / 64) u := by
  have again : translate t (dieOf (coreOf c)) (.core (coreOf c)) (s.asidOf c) va .read (t.ctx c).kLevel = .ok pa pte t := by
    rw [(translate_accessed ht).kLevel]
    exact translate_again ht
  simp only [loadVirt, Nat.mod_eq_of_lt hb, (translate_ok ht).1, hn, again, flushStores_none hst, (translate_accessed ht).asidOf, hst, hr, hl]
  rfl

/-- A load of each size, alone in its bundle. -/
theorem issueOne_scalarLoad {s t u' : State} {c pa n v : Nat} {pte : W64} {u : SUnit} {g : Guard} {d a b : BitVec 6} {sx : Bool} (h : Acts s c)
    (hg : readGuard s c g = true) (hn : (readS s c a.toNat + readS s c b.toNat).toNat % n = 0)
    (ht : translate s (dieOf (coreOf c)) (.core (coreOf c)) (s.asidOf c) (readS s c a.toNat + readS s c b.toNat).toNat .read (s.ctx c).kLevel =
      .ok pa pte t)
    (hst : (t.ctx c).stores = [])
    (hr : t.reach (dieOf (coreOf c)) (t.placeOf (s.asidOf c) (readS s c a.toNat + readS s c b.toNat).toNat pa) = true)
    (hl : t.loadPhys (.core (coreOf c)) (t.placeOf (s.asidOf c) (readS s c a.toNat + readS s c b.toNat).toNat pa) n
      (pteBypass pte || decide (memBytes ≤ t.placeOf (s.asidOf c) (readS s c a.toNat + readS s c b.toNat).toNat pa)) = (v, false, u'))
    (hs : (u'.ctx c).nxt = .seq) :
    issueOne ⟨SUnit.slot u, g, scalarAccess a b n .read, scalarLoad u d a b sx n⟩ s =
      .next (settleIssue (issuedNext (expose u' c (SUnit.slot u) (.s d.toNat)
        (if sx then BitVec.ofInt 64 (signedOf (8 * n) v) else BitVec.ofNat 64 v).toNat 2 0) c)) := by
  refine issueOne_translated h (ordAccess_of_aligned (BitVec.isLt _) (translate_ok ht).1 hn) hg ht ?_ (by rw [expose_nxt]; exact hs)
  have addr : scalarAddr t c a b = (readS s c a.toNat + readS s c b.toNat).toNat := by rw [scalarAddr, translate_readS ht, translate_readS ht]
  simp only [scalarLoad, addr, loadVirt_translated (BitVec.isLt _) hn ht hst hr hl]
  rfl

/-- Settles O15: `issueOne_scalarLoad` at each size. -/
theorem scalarLoads : Obligations.ScalarLoads := by
  intro s s' s'' c pa v pte u g d a b n x h hg va at_ out hc hn ht hst hr hl hs
  refine ⟨?_, ?_, ?_, ?_⟩ <;> rintro rfl
  · exact issueOne_scalarLoad (sx := false) h hg hn ht hst hr hl hs
  · refine (issueOne_scalarLoad (sx := x == 1) h hg hn ht hst hr hl hs).trans ?_
    simp [out]
  · refine (issueOne_scalarLoad (sx := x == 1) h hg hn ht hst hr hl hs).trans ?_
    simp [out]
  · refine (issueOne_scalarLoad (sx := x == 1) h hg hn ht hst hr hl hs).trans ?_
    simp [out]

/-- A store of each size, alone in its bundle. -/
theorem issueOne_scalarStore {s t : State} {c pa n : Nat} {pte : W64} {u : SUnit} {g : Guard} {d a b : BitVec 6} (h : Acts s c)
    (hg : readGuard s c g = true) (hn : (readS s c a.toNat + readS s c b.toNat).toNat % n = 0)
    (ht : translate s (dieOf (coreOf c)) (.core (coreOf c)) (s.asidOf c) (readS s c a.toNat + readS s c b.toNat).toNat .write (s.ctx c).kLevel =
      .ok pa pte t)
    (hst : (t.ctx c).stores.length < 16) (hs : (t.ctx c).nxt = .seq) :
    issueOne ⟨SUnit.slot u, g, scalarAccess a b n .write, scalarStore d a b n⟩ s =
      .next (settleIssue (issuedNext (t.modCtx c (fun x => { x with
        stores := x.stores ++ [⟨some (t.placeOf (s.asidOf c) (readS s c a.toNat + readS s c b.toNat).toNat pa),
          (readS s c a.toNat + readS s c b.toNat).toNat, s.asidOf c, n, (readS s c d.toNat).toNat % 2 ^ (8 * n)⟩] })) c)) := by
  refine issueOne_translated h (ordAccess_of_aligned (BitVec.isLt _) (translate_ok ht).1 hn) hg ht ?_ (by simpa using hs)
  have addr : scalarAddr t c a b = (readS s c a.toNat + readS s c b.toNat).toNat := by rw [scalarAddr, translate_readS ht, translate_readS ht]
  have again : translate t (dieOf (coreOf c)) (.core (coreOf c)) (s.asidOf c) (readS s c a.toNat + readS s c b.toNat).toNat .write
      (t.ctx c).kLevel = .ok pa pte t := by
    rw [(translate_accessed ht).kLevel]
    exact translate_again ht
  simp only [scalarStore, addr, translate_readS ht, storeVirt, Nat.mod_eq_of_lt (BitVec.isLt _), (translate_ok ht).1, hn, again,
    if_neg (Nat.not_le.2 hst), (translate_accessed ht).asidOf]
  rfl

/-- Settles O16: `issueOne_scalarStore` at each size. -/
theorem scalarStores : Obligations.ScalarStores := by
  intro s s' c pa pte u g d a b n h hg va v out hc hn ht hst hs
  refine ⟨?_, ?_, ?_, ?_⟩ <;> rintro rfl <;> exact issueOne_scalarStore h hg hn ht hst hs

/-- Settles O17: such an access is not translated, and the alignment is the first test of `loadVirt` and of `storeVirt`. -/
theorem misalignedAccessTraps : Obligations.MisalignedAccessTraps := by
  intro s c u g d a b x h hg va out bad
  have load (sx : Bool) (n : Nat) (hb : bad n) : issueOne ⟨SUnit.slot u, g, scalarAccess a b n .read, scalarLoad u d a b sx n⟩ s = out := by
    refine issueOne_trap h (ordAccess_of_misaligned va.isLt hb) hg ?_ (by decide)
    have stop : loadVirt s c va.toNat n false = .stop (.trap 10 va) := by
      rw [loadVirt, Nat.mod_eq_of_lt va.isLt]
      rcases hb with hb | hb <;> simp [hb]
    show scalarLoad u d a b sx n c s = _
    rw [scalarLoad, scalarAddr, stop]
  have store (n : Nat) (hb : bad n) : issueOne ⟨SUnit.slot u, g, scalarAccess a b n .write, scalarStore d a b n⟩ s = out := by
    refine issueOne_trap h (ordAccess_of_misaligned va.isLt hb) hg ?_ (by decide)
    show storeVirt s c va.toNat n _ = _
    rw [storeVirt, Nat.mod_eq_of_lt va.isLt]
    rcases hb with hb | hb <;> simp [hb]
  exact ⟨fun hb => ⟨load false 8 hb, store 8 hb⟩, fun hb => ⟨load (x == 1) 4 hb, store 4 hb⟩, fun hb => ⟨load (x == 1) 2 hb, store 2 hb⟩,
    fun hb => ⟨load (x == 1) 1 hb, store 1 hb⟩⟩

end Sys2Proof.Machine

/-! ## The control family (05_control.md): branches, loops, delays, traps and regions

What a bundle does after it has issued is left as a note in its context; `finishIssue` then acts on it. Each note has one lemma here. -/

namespace Sys2Proof.Machine

/-! ### Changes of one context, and of the cores -/

theorem State.modCtx_modCtx (s : State) (c : Nat) (f h : Context → Context) : (s.modCtx c f).modCtx c h = s.modCtx c (fun x => h (f x)) := by
  simp [State.modCtx, State.setCtx, State.ctx]

theorem State.performTagged_modCtx (s : State) (g c : Nat) (f : Context → Context) :
    (s.modCtx c f).performTagged g = (s.performTagged g).modCtx c f := by
  unfold State.performTagged
  rw [show (s.modCtx c f).core g = s.core g from rfl]
  split <;> rfl

/-- The end of a bundle, after a change of its context. -/
theorem issuedNext_modCtx (s : State) (c : Nat) (f : Context → Context) :
    issuedNext (s.modCtx c f) c = (({ s with free := s.free + 1 } : State).performTagged (coreOf c)).modCtx c (fun x => (f x).afterBundle) := by
  have swap : ({ s.modCtx c f with free := (s.modCtx c f).free + 1 } : State).performTagged (coreOf c) =
    (({ s with free := s.free + 1 } : State).performTagged (coreOf c)).modCtx c f := State.performTagged_modCtx { s with free := s.free + 1 } _ c f
  rw [issuedNext, swap, State.modCtx_modCtx]

/-- A note for after the bundle does not outlive it. -/
theorem issuedNext_setNext (s : State) (c : Nat) (n : Next) : issuedNext (setNext s c n) c = issuedNext s c := issuedNext_modCtx s c _

theorem jumpNext_setNext (s : State) (c p b : Nat) (n : Next) : jumpNext (setNext s c n) c p b = jumpNext s c p b := by
  rw [jumpNext, issuedNext_setNext, jumpNext]

theorem expose_setNext (s : State) (c slot v b : Nat) (d : Dst) (ev : Cats) (n : Next) :
    expose (setNext s c n) c slot d v b ev = setNext (expose s c slot d v b ev) c n := by
  rw [expose, setNext, State.modCtx_modCtx, expose, setNext, State.modCtx_modCtx]

@[simp] theorem setNext_ctx (s : State) (c : Nat) (n : Next) : (setNext s c n).ctx c = { s.ctx c with nxt := n } := State.ctx_modCtx_same ..

@[simp] theorem issuedNext_ctx (s : State) (c : Nat) : (issuedNext s c).ctx c = (s.ctx c).afterBundle := by
  rw [issuedNext, State.ctx_modCtx_same, State.ctx_performTagged]
  rfl

/-- A bundle has issued with a change `f` of its context at its end, in place of nothing. -/
def issuedWith (s : State) (c : Nat) (f : Context → Context) : State := (issuedNext s c).modCtx c f

theorem issuedWith_calm {s : State} (h : s.Calm) (c : Nat) (f : Context → Context) : (issuedWith s c f).Calm :=
  h.congr (by simp [issuedWith, issuedNext_unwinds]) (by simp [issuedWith, issuedNext_tasks])

@[simp] theorem issuedWith_ctx (s : State) (c : Nat) (f : Context → Context) : (issuedWith s c f).ctx c = f (s.ctx c).afterBundle := by
  rw [issuedWith, State.ctx_modCtx_same, issuedNext_ctx]

/-! ### What the notes come to at the end of the bundle -/

section Notes
variable (s : State) (c : Nat)

/-- The context at the end of a bundle with a note. -/
theorem ctx_performTagged_setNext (n : Next) :
    (({ setNext s c n with free := s.free + 1 } : State).performTagged (coreOf c)).ctx c = { s.ctx c with nxt := n } := by
  rw [State.ctx_performTagged]
  exact setNext_ctx s c n

theorem performTagged_setNext_setCtx (n : Next) (x : Context) :
    (({ setNext s c n with free := s.free + 1 } : State).performTagged (coreOf c)).setCtx c x =
      (({ s with free := s.free + 1 } : State).performTagged (coreOf c)).setCtx c x := by
  have : ({ setNext s c n with free := s.free + 1 } : State) = ({ s with free := s.free + 1 } : State).modCtx c (fun x => { x with nxt := n }) := rfl
  rw [this, State.performTagged_modCtx]
  simp [State.modCtx, State.setCtx]

theorem issuedWith_eq_setCtx (f : Context → Context) :
    issuedWith s c f = (({ s with free := s.free + 1 } : State).performTagged (coreOf c)).setCtx c (f (s.ctx c).afterBundle) := by
  rw [issuedWith, issuedNext, State.modCtx_modCtx, State.modCtx, State.ctx_performTagged]
  rfl

theorem finishIssue_delay (n : Nat) : finishIssue (setNext s c (.delay n)) c = issuedWith s c (fun x => { x with delay := n }) := by
  have hf : (setNext s c (.delay n)).free = s.free := rfl
  unfold finishIssue
  simp only [hf, ctx_performTagged_setNext, performTagged_setNext_setCtx, issuedWith_eq_setCtx]
  rfl

theorem finishIssue_clearLog : finishIssue (setNext s c .clearLog) c = issuedWith s c (fun x => { x.fevClear with fevClr := true }) := by
  have hf : (setNext s c .clearLog).free = s.free := rfl
  unfold finishIssue
  simp only [hf, ctx_performTagged_setNext, performTagged_setNext_setCtx, issuedWith_eq_setCtx]
  rfl

theorem finishIssue_openRegion (w : W64) : finishIssue (setNext s c (.openRegion w)) c =
    issuedWith s c (fun x => x.openRegion w) := by
  have hf : (setNext s c (.openRegion w)).free = s.free := rfl
  unfold finishIssue
  simp only [hf, ctx_performTagged_setNext, performTagged_setNext_setCtx, issuedWith_eq_setCtx]
  rfl

theorem finishIssue_closeRegion : finishIssue (setNext s c .closeRegion) c = issuedWith s c Context.closeRegion := by
  have hf : (setNext s c .closeRegion).free = s.free := rfl
  unfold finishIssue
  simp only [hf, ctx_performTagged_setNext, performTagged_setNext_setCtx, issuedWith_eq_setCtx]
  rfl

theorem issuedWith_id : issuedWith s c id = issuedNext s c := by
  rw [issuedWith, issuedNext, State.modCtx_modCtx]
  rfl

theorem finishIssue_trap (code : Nat) (info : W64) :
    finishIssue (setNext s c (.trap code info)) c = takeTrap (issuedNext s c) c code info (s.ctx c).handle ((s.ctx c).pc + 32) := by
  have hf : (setNext s c (.trap code info)).free = s.free := rfl
  unfold finishIssue
  simp only [hf, ctx_performTagged_setNext, performTagged_setNext_setCtx, ← issuedWith_id, issuedWith_eq_setCtx]
  rfl

end Notes

/-- A bundle of one slot that leaves a note for its end. -/
theorem issueOne_noted {s : State} {c : Nat} {n : Next} {o : SlotOp} (h : Acts s c) (hm : o.mem c s = none) (hg : readGuard s c o.guard = true)
    (hr : o.run c s = .issued (setNext s c n)) : issueOne o s = .next (settleIssue (finishIssue (setNext s c n) c)) :=
  issueOne_walked h (by rwa [walkSlots_none hm]) (by rwa [walkSlots_none hm])

/-- A bundle of one slot whose note changes its context alone. -/
theorem issueOne_issuedWith {s : State} {c : Nat} {n : Next} {f : Context → Context} {o : SlotOp} (h : Acts s c) (hm : o.mem c s = none)
    (hg : readGuard s c o.guard = true) (hr : o.run c s = .issued (setNext s c n)) (hn : finishIssue (setNext s c n) c = issuedWith s c f) :
    issueOne o s = .next (issuedWith s c f) := by
  rw [issueOne_noted h hm hg hr, hn, settleIssue_calm (issuedWith_calm h.toCalm c f)]

theorem readGuard_always (s : State) (c : Nat) : readGuard s c always = true := rfl

/-! ### Branches (R134 to R136) -/

theorem regTarget_eq (v : W64) : regTarget v = v.toNat % 2 ^ 24 - v.toNat % 32 := by
  unfold regTarget
  omega

theorem branchBubbles_eq (s : State) (c : Nat) (g : Guard) :
    branchBubbles s c g none = if (s.ctx c).settled (.p g.p.toNat) then 0 else 1 := by simp [branchBubbles]

theorem jumpTo_inside {s : State} {c t b : Nat} (h : t < s.imageLen (s.ctx c).handle) : jumpTo s c t b = .issued (setNext s c (.jump t b)) := by
  rw [jumpTo, if_neg (Nat.not_le.2 h)]

theorem jumpTo_outside {s : State} {c t b : Nat} (h : ¬t < s.imageLen (s.ctx c).handle) : jumpTo s c t b = .trap 9 (BitVec.ofNat 64 t) := by
  rw [jumpTo, if_pos (Nat.not_lt.1 h)]

/-- A taken branch, of a row without an access, from a state `t` between bundles in which the slot's results are exposed. -/
theorem exec_jumps {s t : State} {c p b slot : Nat} {g : Guard} {run : Nat → State → Verdict} {i : Instr} (h : Acts s c)
    (hg : readGuard s c g = true) (ht : t.Calm) (hi : exec i s = issueOne ⟨slot, g, noAccess, run⟩ s)
    (hr : run c s = .issued (setNext t c (.jump p b))) : exec i s = .next (jumpNext t c p b) := by
  rw [hi, issueOne_jump (p := p) (b := b) h rfl hg hr (by simp) (ht.congr (by simp [setNext]) (by simp [setNext])), jumpNext_setNext]

/-- Settles O18: each branch is `exec_jumps` inside its image and `exec_trapped` outside it. -/
theorem branchesTransferControl : Obligations.BranchesTransferControl := by
  intro s c g o a h hg x rel reg bub inside fetchTrap
  have register (v : W64) (i : Instr) (run : Nat → State → Verdict) (hi : exec i s = issueOne ⟨0, g, noAccess, run⟩ s)
      (hr : run c s = jumpTo s c (regTarget v) 2) :
      (inside (reg v) → exec i s = .next (jumpNext s c (reg v) 2)) ∧ (¬inside (reg v) → exec i s = fetchTrap (reg v)) := by
    rw [regTarget_eq v] at hr
    exact ⟨fun ht => exec_jumps h hg h.toCalm hi (hr.trans (jumpTo_inside ht)),
      fun ht => exec_trapped h hg hi (hr.trans (jumpTo_outside ht)) (by decide)⟩
  have link : (BitVec.ofNat 64 (x.pc + 32)).toNat = (x.pc + 32) % 2 ^ 64 := BitVec.toNat_ofNat ..
  obtain ⟨jmprIn, jmprOut⟩ := register (readS s c a.toNat) (.brJmpr g a) _ rfl rfl
  obtain ⟨retIn, retOut⟩ := register (readS s c 62) (.brRet g) _ rfl rfl
  refine ⟨fun ht => ⟨?_, ?_⟩, fun ht => ⟨?_, ?_⟩, jmprIn, jmprOut, retIn, retOut⟩
  · exact exec_jumps h hg h.toCalm rfl ((jumpTo_inside ht).trans (by rw [branchBubbles_eq]))
  · refine exec_jumps h hg (expose_calm h.toCalm ..) rfl ?_
    rw [← link, ← expose_setNext, opBrCall, branchTarget, jumpTo_inside ht, branchBubbles_eq]
    rfl
  · exact exec_trapped h hg rfl (jumpTo_outside ht) (by decide)
  · exact exec_trapped h hg rfl (by rw [opBrCall, branchTarget, jumpTo_outside ht]) (by decide)

/-- Settles O19: `lset` and a `loop` that falls through expose one result; the other two cases are those of a branch. -/
theorem loopsCountDown : Obligations.LoopsCountDown := by
  intro s c g l o a h hg x v rel bub
  have bubbles : branchBubbles s c g (some l.toNat) = bub := rfl
  refine ⟨exec_exposed h hg h.toBetween rfl rfl, fun hv => ?_, fun hv ht => ?_, fun hv ht => ?_⟩
  · exact exec_exposed h hg h.toBetween rfl (if_neg (Nat.not_lt.2 hv))
  · refine exec_jumps h hg (expose_calm h.toCalm ..) rfl ?_
    rw [← expose_setNext, opBrLoop, if_pos hv, branchTarget, jumpTo_inside ht, bubbles]
  · refine exec_trapped h hg rfl ?_ (by decide)
    rw [opBrLoop, if_pos hv, branchTarget, jumpTo_outside (Nat.not_lt.2 ht)]

/-! ### Delays and the first-event log (R38, R152) -/

theorem Context.sysReg_setSys (x : Context) (n m : Nat) (v : W64) : (x.setSys n v).sysReg m = if m = n then v else x.sysReg m := by
  split
  · next h => rw [h, sysReg_setSys_same]
  · next h => exact sysReg_setSys_ne x v h

theorem Context.fevClear_sysReg (x : Context) (r : Nat) :
    x.fevClear.sysReg r = if r = 0x004 ∨ r = 0x005 ∨ r = 0x006 then 0 else x.sysReg r := by
  simp only [fevClear, sysReg_setSys]
  grind

/-- Settles O20: the notes `delay` and `clearLog`. -/
theorem delayAndLogClear : Obligations.DelayAndLogClear := by
  intro s c g n h
  have delay (m : Nat) (hm : ((s.ctx c).due).getD n.toNat = m) :
      exec (.brDelay n) s = .next ((issuedNext s c).modCtx c (fun x => { x with delay := m - 1 })) := by
    subst hm
    exact issueOne_issuedWith (o := rowBrDelay n) h rfl (readGuard_always s c) rfl (finishIssue_delay s c _)
  refine ⟨fun hd => delay _ (by rw [hd]; rfl), fun m hd => delay m (by rw [hd]; rfl), fun hg => ?_⟩
  refine ⟨_, issueOne_issuedWith (o := rowBrFevclr g) h rfl hg rfl (finishIssue_clearLog s c), ?_⟩
  rw [issuedWith_ctx]
  exact ⟨rfl, Context.fevClear_sysReg _, rfl, rfl, rfl⟩

/-! ### Traps (R145, R147, R149) -/

/-- The context after it has entered a handler. -/
def Context.entered (x : Context) (t : PendTrap) : Context :=
  let y := ((((x.setSys 0x041 (place t.handle t.pc)).setSys 0x042 (BitVec.ofNat 64 t.code)).setSys 0x043 t.info).setSys 0x044
    (if x.kLevel then 3 else 2)).setSys 0x03A 1
  { y with handle := (x.sysReg 0x040 >>> 52).toNat, pc := ((x.sysReg 0x040).extractLsb' 11 13).toNat * 2048 + 64 * t.code, trap := none, frz := 0,
           spent := 0, delay := 0, bubble := 0, watch := none, test := none, trapOrder := y.order, due := none, barPass := none, barIn := none }

theorem Context.entered_sysReg (x : Context) (t : PendTrap) (r : Nat) : (x.entered t).sysReg r =
    if r = 0x03A then 1 else if r = 0x044 then (if x.kLevel then 3 else 2) else if r = 0x043 then t.info
    else if r = 0x042 then BitVec.ofNat 64 t.code else if r = 0x041 then place t.handle t.pc else x.sysReg r := by
  rw [entered, sysReg_place]
  simp only [sysReg_setSys]

theorem Context.entered_rest (x : Context) (t : PendTrap) : (x.entered t).handle = (x.sysReg 0x040 >>> 52).toNat ∧
    (x.entered t).pc = ((x.sysReg 0x040).extractLsb' 11 13).toNat * 2048 + 64 * t.code ∧ (x.entered t).sr = x.sr ∧ (x.entered t).pr = x.pr := by
  simp [entered]

/-- A trap that can enter its handler changes its context, and ends the holds and the wait of its core. -/
theorem enterTrap_ready {s : State} {c : Nat} {t : PendTrap} (ha : ((s.ctx c).sysReg 0x044).getLsbD 1 = false)
    (hv : (((s.ctx c).sysReg 0x040).extractLsb' 11 13).toNat * 2048 + 64 * t.code < s.imageLen ((s.ctx c).sysReg 0x040 >>> 52).toNat) :
    enterTrap s c t = (s.modCtx c (fun x => x.entered t)).modCore (coreOf c) (fun g => { g with hold := none, wait := none }) := by
  have level : ((((s.ctx c).setSys 0x041 (place t.handle t.pc)).setSys 0x042 (BitVec.ofNat 64 t.code)).setSys 0x043 t.info).kLevel = (s.ctx c).kLevel := by
    simp only [Context.kLevel, Context.sysReg_setSys]
    rfl
  unfold enterTrap
  simp only [ha, decide_eq_false (Nat.not_le.2 hv), Bool.or_false, Bool.false_eq_true, if_false, level, State.modCtx, Context.entered]

/-- What is kept for a resumption concerns no register, no pending result, no place and no number of the context. -/
theorem Context.keepResume_rest (x : Context) (h p : Nat) : (x.keepResume h p).sys = x.sys ∧ (x.keepResume h p).sr = x.sr ∧
    (x.keepResume h p).pr = x.pr ∧ (x.keepResume h p).pend = x.pend ∧ (x.keepResume h p).pc = x.pc ∧ (x.keepResume h p).tid = x.tid ∧
    SameRegisters x (x.keepResume h p) := by
  unfold Context.keepResume
  split <;> exact ⟨rfl, rfl, rfl, rfl, rfl, rfl, rfl, rfl, rfl, rfl, rfl, rfl, rfl, rfl, rfl⟩

theorem Context.keepResume_sysReg (x : Context) (h p r : Nat) : (x.keepResume h p).sysReg r = x.sysReg r := by
  rw [sysReg, (x.keepResume_rest h p).1, sysReg]

/-- A trap that is taken while nothing is pending, and whose handler can be entered. -/
theorem takeTrap_ready {s : State} {c code : Nat} (info : W64) (handle pc : Nat) (h : HandlerReady s c code) :
    takeTrap s c code info handle pc =
      (s.modCtx c (fun x => (x.keepResume handle pc).entered ⟨code, info, handle, pc⟩)).modCore (coreOf c) (fun g => { g with hold := none, wait := none }) := by
  have drained : ((s.ctx c).keepResume handle pc).pend.all (fun p => p.landed) = true := by
    rw [((s.ctx c).keepResume_rest handle pc).2.2.2.1, List.all_eq_true]
    exact h.drained
  unfold takeTrap
  simp only [State.ctx_modCtx_same, drained, if_true]
  rw [enterTrap_ready, State.modCtx_modCtx]
  · simp only [State.ctx_modCtx_same, Context.keepResume_sysReg]
    exact h.noHandler
  · simp only [State.ctx_modCtx_same, Context.keepResume_sysReg]
    exact h.vector

/-- A context that has entered its handler, from one with the registers of context c. -/
theorem Entered.of_ctx {s t : State} {c code handle pc : Nat} {info : W64} {y : Context} (ctx : t.ctx c = y.entered ⟨code, info, handle, pc⟩)
    (kept : ∀ r, y.sysReg r = (s.ctx c).sysReg r) (sr : y.sr = (s.ctx c).sr) (pr : y.pr = (s.ctx c).pr) (noHold : (t.core (coreOf c)).hold = none) :
    Entered s t c code info handle pc := by
  have reg (r : Nat) := y.entered_sysReg ⟨code, info, handle, pc⟩ r
  obtain ⟨image, vector, sr', pr'⟩ := y.entered_rest ⟨code, info, handle, pc⟩
  rw [kept] at image vector
  constructor
  case level => simp [ctx, Context.kLevel, reg]
  case tpriv => simp [ctx, reg, Context.kLevel, kept]
  case image => rw [ctx, image]
  case vector => rw [ctx, vector]
  case scalar => rw [ctx, sr', sr]
  case predicates => rw [ctx, pr', pr]
  case tvb => simp [ctx, reg, kept]
  case scratch => simp [ctx, reg, kept]
  case noHold => exact noHold
  all_goals simp [ctx, reg]

theorem takeTrap_ready_entered {s : State} {c code : Nat} (info : W64) (handle pc : Nat) (h : HandlerReady s c code) :
    Entered s (takeTrap s c code info handle pc) c code info handle pc := by
  have ctx : (takeTrap s c code info handle pc).ctx c = ((s.ctx c).keepResume handle pc).entered ⟨code, info, handle, pc⟩ := by
    simp only [takeTrap_ready info handle pc h, State.parts_modCore, State.ctx_modCtx_same]
  obtain ⟨-, sr, pr, -⟩ := (s.ctx c).keepResume_rest handle pc
  refine .of_ctx ctx ((s.ctx c).keepResume_sysReg handle pc) sr pr ?_
  rw [takeTrap_ready info handle pc h, State.core_modCore_same]

theorem takeTrap_ready_calm {s : State} {c code : Nat} (info : W64) (handle pc : Nat) (h : HandlerReady s c code) (hc : s.Calm) :
    (takeTrap s c code info handle pc).Calm := by
  rw [takeTrap_ready info handle pc h]
  exact hc.congr (by simp) (by simp)

/-- A bundle that issues and then enters a handler. -/
theorem issueOne_enters {s : State} {c code : Nat} {info : W64} {o : SlotOp} (h : Acts s c) (hm : o.mem c s = none) (hg : readGuard s c o.guard = true)
    (hr : o.run c s = .issued (setNext s c (.trap code info))) (hh : HandlerReady s c code) :
    ∃ t, issueOne o s = .next t ∧ Entered s t c code info (s.ctx c).handle ((s.ctx c).pc + 32) := by
  have ready : HandlerReady (issuedNext s c) c code := by
    refine ⟨?_, ?_, ?_⟩
    · rw [issuedNext_ctx]; exact hh.drained
    · rw [issuedNext_ctx]; exact hh.noHandler
    · have seals : (issuedNext s c).seals = s.seals := by
        unfold issuedNext State.performTagged
        split <;> simp
      rw [issuedNext_ctx, State.imageLen, State.seal, seals]
      exact hh.vector
  have calm : (issuedNext s c).Calm := h.toCalm.congr (issuedNext_unwinds s c) (issuedNext_tasks s c)
  refine ⟨takeTrap (issuedNext s c) c code info (s.ctx c).handle ((s.ctx c).pc + 32), ?_, ?_⟩
  · rw [issueOne_noted h hm hg hr, finishIssue_trap, settleIssue_calm (takeTrap_ready_calm _ _ _ ready calm)]
  · have e := takeTrap_ready_entered info (s.ctx c).handle ((s.ctx c).pc + 32) ready
    obtain ⟨tpc, tcause, tinfo, tpriv, level, image, vector, scalar, predicates, tvb, scratch, noHold⟩ := e
    rw [issuedNext_ctx] at tpriv image vector scalar predicates tvb scratch
    exact ⟨tpc, tcause, tinfo, tpriv, level, image, vector, scalar, predicates, tvb, scratch, noHold⟩

/-- Settles O21: both leave the note of a trap, whose handler is then entered. -/
theorem systemCallsEnterTheHandler : Obligations.SystemCallsEnterTheHandler := fun _ _ g n h hg =>
  ⟨fun hh => issueOne_enters (o := rowBrSys g n) h rfl hg rfl hh, fun hh => issueOne_enters (o := rowBrBrk g n) h rfl hg rfl hh⟩

/-- A trap that is taken while results are pending is noted. -/
theorem takeTrap_pending {s : State} {c : Nat} (code : Nat) (info : W64) (handle pc : Nat) (h : ∃ p ∈ (s.ctx c).pend, p.landed = false) :
    takeTrap s c code info handle pc = s.modCtx c (fun x => { x.keepResume handle pc with
      trap := some ⟨code, info, handle, pc⟩, frz := 0, spent := 0, delay := 0, bubble := 0, watch := none, test := none }) := by
  obtain ⟨p, hp, hl⟩ := h
  have pending : ((s.ctx c).keepResume handle pc).pend.all (fun p => p.landed) = false := by
    rw [((s.ctx c).keepResume_rest handle pc).2.2.2.1, List.all_eq_false]
    exact ⟨p, hp, by simp [hl]⟩
  unfold takeTrap
  simp only [State.ctx_modCtx_same, pending, Bool.false_eq_true, if_false, State.modCtx_modCtx]

/-- Settles O22: the two cases of `takeTrap`, that the pending results have landed and that one has not. -/
theorem trapEntryWritesTheTrapRegisters : Obligations.TrapEntryWritesTheTrapRegisters := by
  intro s c code info handle pc
  refine ⟨takeTrap_ready_entered info handle pc, fun hp => ?_⟩
  obtain ⟨-, -, -, -, hpc, -, sr, pr, lc, vr, vm, sys, tok, att, cand⟩ := (s.ctx c).keepResume_rest handle pc
  rw [takeTrap_pending code info handle pc hp]
  simp only [State.ctx_modCtx_same]
  exact ⟨trivial, hpc, ⟨sr, pr, lc, vr, vm, sys, tok, att, cand⟩, fun a => rfl⟩

/-! ### Double traps (R149) -/

theorem State.task_setTask_ne (s : State) {tid n : Nat} (x : Task) (h : n ≠ tid) : (s.setTask tid x).task n = s.task n := SMap.get_set_ne _ _ _ h

theorem State.task_modTask_ne (s : State) {tid n : Nat} (f : Task → Task) (h : n ≠ tid) : (s.modTask tid f).task n = s.task n :=
  SMap.get_set_ne _ _ _ h

/-- A stopped context leaves its barriers; nothing else of a task changes. -/
theorem State.stopContext_kill (s : State) (c tid : Nat) : ((s.stopContext c).task tid).kill = (s.task tid).kill := by
  show ((s.modTask (s.ctx c).tid (fun t => t.leaveRank (s.ctx c).rank)).task tid).kill = _
  by_cases h : tid = (s.ctx c).tid
  · subst h
    rw [State.task_modTask_same]
    rfl
  · rw [State.task_modTask_ne _ _ h]

theorem State.stopTask_kill (s : State) (t : Nat) (me : Option Nat) (tid : Nat) : ((s.stopTask t me).task tid).kill = (s.task tid).kill := by
  unfold State.stopTask
  generalize s.bound.filter _ = l
  induction l generalizing s with
  | nil => rfl
  | cons p r ih =>
    rw [List.foldl_cons, ih]
    split
    · rfl
    · exact State.stopContext_kill s p.1 tid

theorem foldl_modCtx_tasks {α : Type} (l : List α) (k : α → Nat) (f : Context → Context) (s : State) :
    (l.foldl (fun s p => s.modCtx (k p) f) s).tasks = s.tasks := by
  induction l generalizing s with
  | nil => rfl
  | cons p r ih => rw [List.foldl_cons, ih]; rfl

/-- A kill of a bound task that is not being killed. -/
theorem State.beginKill_bound {s : State} {tid code : Nat} (h2 : (s.task tid).state = 2) (hk : (s.task tid).kill = none) :
    ((s.beginKill tid code).task tid).state = 5 ∧ ((s.beginKill tid code).task tid).kill = some code := by
  unfold State.beginKill
  simp only [h2, true_or, if_true, State.task_modTask_same, true_and]
  rw [State.task, foldl_modCtx_tasks, ← State.task, State.stopTask_kill, hk]
  rfl

/-- Settles O23: such a trap is a double trap, and begins the kill of a bound task. -/
theorem doubleTrapKills : Obligations.DoubleTrapKills := by
  intro s c code info handle pc hp h2 hk hd
  have drained : ((s.ctx c).keepResume handle pc).pend.all (fun p => p.landed) = true := by
    rw [((s.ctx c).keepResume_rest handle pc).2.2.2.1, List.all_eq_true]
    exact hp
  have double : (((s.ctx c).sysReg 0x044).getLsbD 1 ||
      decide (s.imageLen ((s.ctx c).sysReg 0x040 >>> 52).toNat ≤ (((s.ctx c).sysReg 0x040).extractLsb' 11 13).toNat * 2048 + 64 * code)) = true := by
    rw [Bool.or_eq_true, decide_eq_true_iff]
    exact hd
  have tid : ((s.ctx c).keepResume handle pc).tid = (s.ctx c).tid := ((s.ctx c).keepResume_rest handle pc).2.2.2.2.2.1
  have killed : takeTrap s c code info handle pc =
      ((s.modCtx c (fun x => x.keepResume handle pc)).modCtx c (fun x => { x with trap := none })).beginKill (s.ctx c).tid 12 := by
    unfold takeTrap enterTrap
    simp only [State.ctx_modCtx_same, drained, if_true, Context.keepResume_sysReg, tid]
    exact if_pos double
  rw [killed]
  exact State.beginKill_bound h2 hk

/-! ### Containment regions (R150) -/

theorem Context.openRegion_sysReg (x : Context) (w : W64) (r : Nat) : (x.openRegion w).sysReg r =
    if r = 0x048 then BitVec.ofNat 64 ((x.sysReg 0x048).toNat + 1) else if r = 0x04C + (x.sysReg 0x048).toNat then w else x.sysReg r := by
  rw [← sysReg_setSys x, ← sysReg_setSys]
  rfl

theorem Context.closeRegion_sysReg (x : Context) (r : Nat) : x.closeRegion.sysReg r =
    if r = 0x048 then BitVec.ofNat 64 ((x.sysReg 0x048).toNat - 1) else x.sysReg r := by
  rw [← sysReg_setSys]
  rfl

theorem Context.afterBundle_sysReg (x : Context) (r : Nat) : x.afterBundle.sysReg r = x.sysReg r := rfl

theorem Context.openRegion_pc (x : Context) (w : W64) : (x.openRegion w).pc = x.pc := rfl

/-- Settles O25: the notes `openRegion` and `closeRegion`, and the traps at the two ends of the depth. -/
theorem containmentRegionsNest : Obligations.ContainmentRegionsNest := by
  intro s c o h x j
  have target : branchTarget x.pc o.toInt = ((x.pc : Int) + 32 * o.toInt).toNat := rfl
  have depth (k : Nat) (hk : k < 2 ^ 64) : x.sysReg 0x048 = BitVec.ofNat 64 k ↔ j = k := by
    rw [← BitVec.toNat_inj, BitVec.toNat_ofNat, Nat.mod_eq_of_lt hk]
  refine ⟨fun hj => ?opens, fun hj => ?closes, fun hj => ?openTrap, fun hj => ?closeTrap⟩
  case opens =>
    have h4 : ¬x.sysReg 0x048 = 4 := by rw [show (4 : W64) = BitVec.ofNat 64 4 from rfl, depth 4 (by decide)]; omega
    refine ⟨_, issueOne_issuedWith (o := rowBrCrgnOpen o) h rfl (readGuard_always s c) (if_neg h4)
      (finishIssue_openRegion s c _), ?_⟩
    rw [issuedWith_ctx]
    have reg (w : W64) (r : Nat) : ((s.ctx c).afterBundle.openRegion w).sysReg r =
        if r = 0x048 then BitVec.ofNat 64 (j + 1) else if r = 0x04C + j then w else x.sysReg r := Context.openRegion_sysReg ..
    refine ⟨Context.openRegion_pc .., by rw [reg, if_pos rfl], by rw [reg, if_neg (by omega), if_pos rfl, target], fun r hr hr' => by rw [reg, if_neg hr, if_neg hr']⟩
  case closes =>
    have h0 : ¬x.sysReg 0x048 = 0 := by rw [show (0 : W64) = BitVec.ofNat 64 0 from rfl, depth 0 (by decide)]; omega
    refine ⟨_, issueOne_issuedWith (o := rowBrCrgnClose) h rfl (readGuard_always s c) (if_neg h0)
      (finishIssue_closeRegion s c), ?_⟩
    rw [issuedWith_ctx]
    have reg (r : Nat) : (s.ctx c).afterBundle.closeRegion.sysReg r = if r = 0x048 then BitVec.ofNat 64 (j - 1) else x.sysReg r := by
      exact Context.closeRegion_sysReg ..
    exact ⟨rfl, by rw [reg, if_pos rfl], fun r hr => by rw [reg, if_neg hr]⟩
  case openTrap => exact exec_trapped h (readGuard_always s c) rfl (if_pos ((depth 4 (by decide)).2 hj)) (by decide)
  case closeTrap => exact exec_trapped h (readGuard_always s c) rfl (if_pos ((depth 0 (by decide)).2 hj)) (by decide)

end Sys2Proof.Machine

/-! ## The control family (05_control.md): token waits, barriers, triggers and exits -/

namespace Sys2Proof.Machine

/-! ### Tables: what an entry of a changed table is -/

theorem SMap.mem_del {α : Type} {m : SMap α} {k : Nat} {p : Nat × α} (h : p ∈ SMap.del m k) : p ∈ m := by
  induction m with
  | nil => exact h
  | cons q r ih =>
    rw [SMap.del] at h
    split at h
    · exact List.mem_cons_of_mem _ (ih h)
    · exact (List.mem_cons.1 h).elim (fun e => e ▸ List.mem_cons_self) fun e => List.mem_cons_of_mem _ (ih e)

theorem SMap.mem_put {α : Type} {m : SMap α} {k : Nat} {v : α} {p : Nat × α} (h : p ∈ SMap.put m k v) : p = (k, v) ∨ p ∈ m := by
  induction m with
  | nil => exact .inl (List.mem_singleton.1 h)
  | cons q r ih =>
    rw [SMap.put] at h
    split at h
    · exact List.mem_cons.1 h
    · rcases List.mem_cons.1 h with rfl | h
      · exact .inr List.mem_cons_self
      · exact (ih h).imp id (List.mem_cons_of_mem _)

theorem SMap.mem_set {α : Type} [DecidableEq α] {d : α} {m : SMap α} {k : Nat} {v : α} {p : Nat × α} (h : p ∈ SMap.set d m k v) :
    p = (k, v) ∨ p ∈ m := by
  rw [SMap.set] at h
  split at h
  · exact .inr (SMap.mem_del h)
  · exact (SMap.mem_put h).imp id SMap.mem_del

theorem SMap.get_mem {α : Type} (d : α) (m : SMap α) (k : Nat) : SMap.get d m k = d ∨ (k, SMap.get d m k) ∈ m := by
  induction m with
  | nil => exact .inl rfl
  | cons p r ih =>
    rw [SMap.get]
    split
    · next h => exact .inr (h ▸ List.mem_cons_self)
    · exact ih.imp id (List.mem_cons_of_mem _)

/-- In a state in which nothing is left to settle no task is being killed. -/
theorem State.Calm.task_state {s : State} (h : s.Calm) (tid : Nat) : (s.task tid).state ≠ 5 := by
  rcases SMap.get_mem Task.init s.tasks tid with e | e
  · rw [State.task, e]
    decide
  · exact h.noKill _ e

theorem State.Calm.setTask {s : State} (h : s.Calm) (tid : Nat) {t : Task} (ht : t.state ≠ 5) : (s.setTask tid t).Calm :=
  ⟨h.noUnwind, fun _ hp => (SMap.mem_set hp).elim (fun e => e ▸ ht) (h.noKill _)⟩

theorem State.Calm.modTask {s : State} (h : s.Calm) (tid : Nat) {f : Task → Task} (hf : (f (s.task tid)).state = (s.task tid).state) :
    (s.modTask tid f).Calm := h.setTask tid (hf ▸ h.task_state tid)

/-! ### Token waits and barriers (R139, R140) -/

/-- A slot without an access that issues with its effect, alone in its bundle. -/
theorem exec_effect {s t : State} {c slot : Nat} {g : Guard} {run : Nat → State → Verdict} {i : Instr} (h : Acts s c) (hg : readGuard s c g = true)
    (ht : t.Between c) (hi : exec i s = issueOne ⟨slot, g, noAccess, run⟩ s) (hr : run c s = .issued t) : exec i s = .next (issuedNext t c) :=
  hi.trans (issueOne_issued h rfl hg hr ht.between ht.toCalm)

theorem one_le_sizeBelow (ws : List W64) (n : Nat) : 1 ≤ sizeBelow ws n := by
  induction n with
  | zero => exact Nat.le_refl 1
  | succ n ih => exact Nat.mul_pos ih (by omega)

/-- A group of more than one context has a member other than a given rank. -/
theorem exists_other_rank {ws : List W64} {i g r : Nat} (h : sizeBelow ws (i + 1) ≠ 1) : ∃ q ∈ groupRanks ws i g, q ≠ r := by
  have := one_le_sizeBelow ws (i + 1)
  by_cases hr : g * sizeBelow ws (i + 1) + 0 = r
  · exact ⟨_, List.mem_map.2 ⟨1, List.mem_range.2 (by omega), rfl⟩, by omega⟩
  · exact ⟨_, List.mem_map.2 ⟨0, List.mem_range.2 (by omega), rfl⟩, hr⟩

/-- A barrier for which a member waits does not complete. -/
theorem completeBar_open {s : State} {tid : Nat} {b : Barrier}
    (h : ∃ r ∈ groupRanks (s.task tid).words b.level b.group, r ∉ b.arrived ∧ r ∉ (s.task tid).gone) : completeBar s tid b = s := by
  obtain ⟨r, hr, ha, hg⟩ := h
  refine if_neg fun hc => ?_
  rw [Bool.and_eq_true, List.all_eq_true] at hc
  have := hc.1 r hr
  simp [ha, hg] at this

/-- The first member of a larger group arrives. -/
theorem arriveBar_first {s : State} {c i : Nat} (hs : (s.ctx c).stores = []) (hb : (s.task (s.ctx c).tid).bars = [])
    (hgone : (s.task (s.ctx c).tid).gone = []) (hn : sizeBelow (s.task (s.ctx c).tid).words (i + 1) ≠ 1) :
    arriveBar s c i = (s.modCtx c (fun y => { y with barIn := some i })).setTask (s.ctx c).tid { s.task (s.ctx c).tid with
      bars := [⟨i, groupOf (s.task (s.ctx c).tid).words i (s.ctx c).rank, [(s.ctx c).rank]⟩] } := by
  have stuck : (s.modCtx c (fun y => { y with barIn := some i })).stuck c = false := by simp [State.stuck, hs]
  have none : (s.task (s.ctx c).tid).arrived i (groupOf (s.task (s.ctx c).tid).words i (s.ctx c).rank) = [] := by simp [Task.arrived, hb]
  unfold arriveBar
  simp only [flushStores_none hs, stuck, Bool.false_eq_true, if_false, State.ctx_modCtx_same]
  rw [show (s.modCtx c (fun y => { y with barIn := some i })).task (s.ctx c).tid = s.task (s.ctx c).tid from rfl, none, hb]
  refine completeBar_open ?_
  obtain ⟨q, hq, hne⟩ := exists_other_rank (ws := (s.task (s.ctx c).tid).words) (g := groupOf (s.task (s.ctx c).tid).words i (s.ctx c).rank)
    (r := (s.ctx c).rank) hn
  rw [State.task_setTask_same]
  exact ⟨q, hq, by simpa using hne, by simp [hgone]⟩

/-- A bundle of one slot that blocks, with what it registers. -/
theorem issueOne_blocks {s : State} {c : Nat} {why : Block} {p : Patch} {o : SlotOp} (h : Acts s c) (hm : o.mem c s = none)
    (hg : readGuard s c o.guard = true) (hr : o.run c s = .block why p) : issueOne o s = .next (settleIssue (blockContext s c why p)) := by
  unfold issueOne
  simp only [h.acting, issueSlots, walkSlots_none hm, runSlots, hg, hr, Bool.not_true, Bool.false_eq_true, if_false, settle]
  rfl

/-- A member of a larger group, the first to arrive, blocks. -/
theorem blockContext_arrive {s : State} {c i : Nat} (hs : (s.ctx c).stores = [])
    (hb : (s.task (s.ctx c).tid).bars = []) (hgone : (s.task (s.ctx c).tid).gone = [])
    (hn : sizeBelow (s.task (s.ctx c).tid).words (i + 1) ≠ 1) :
    blockContext s c .barrier (.arrive i) = ((blockContext s c .barrier .none).modCtx c (fun y => { y with barIn := some i })).setTask (s.ctx c).tid
      { s.task (s.ctx c).tid with bars := [⟨i, groupOf (s.task (s.ctx c).tid).words i (s.ctx c).rank, [(s.ctx c).rank]⟩] } := by
  have ctx := blockContext_ctx s c .barrier
  have tid : ((blockContext s c .barrier .none).ctx c).tid = (s.ctx c).tid := by rw [ctx]
  have rank : ((blockContext s c .barrier .none).ctx c).rank = (s.ctx c).rank := by rw [ctx]
  have stores : ((blockContext s c .barrier .none).ctx c).stores = [] := by rw [ctx]; exact hs
  have task : (blockContext s c .barrier .none).task = s.task := rfl
  have first := arriveBar_first (s := blockContext s c .barrier .none) (c := c) (i := i) stores (by rw [tid, task]; exact hb)
    (by rw [tid, task]; exact hgone) (by rw [tid, task]; exact hn)
  rw [tid, rank, task] at first
  exact first

theorem arrive_blocksOn {s : State} {c i : Nat} (hc : s.Calm) (ha : (s.core (coreOf c)).active = some c) (hs : (s.ctx c).stores = [])
    (hb : (s.task (s.ctx c).tid).bars = []) (hgone : (s.task (s.ctx c).tid).gone = [])
    (hn : sizeBelow (s.task (s.ctx c).tid).words (i + 1) ≠ 1) :
    (blockContext s c .barrier (.arrive i)).Calm ∧ BlocksOn s (blockContext s c .barrier (.arrive i)) c .barrier ∧
    ((blockContext s c .barrier (.arrive i)).task (s.ctx c).tid).bars =
      [⟨i, groupOf (s.task (s.ctx c).tid).words i (s.ctx c).rank, [(s.ctx c).rank]⟩] := by
  have blocked : (blockContext s c .barrier .none).Calm := hc.congr rfl rfl
  have arrived : ((blockContext s c .barrier .none).modCtx c (fun y => { y with barIn := some i })).Calm := blocked.congr (by simp) (by simp)
  obtain ⟨st, why, pc, handle, idle, regs⟩ := blockContext_blocksOn .barrier ha
  obtain ⟨sr, pr, lc, vr, vm, sys, tok, att, cand⟩ := regs
  have ctx := State.ctx_modCtx_same (blockContext s c .barrier .none) c (fun y => { y with barIn := some i })
  have core := (State.parts_modCtx (blockContext s c .barrier .none) c (coreOf c) (fun y => { y with barIn := some i })).1
  rw [blockContext_arrive hs hb hgone hn]
  refine ⟨arrived.setTask _ (hc.task_state _), ?_, by rw [State.task_setTask_same]⟩
  generalize (blockContext s c .barrier .none).modCtx c (fun y => { y with barIn := some i }) = u at *
  have ctx' (k : Task) : (u.setTask (s.ctx c).tid k).ctx c = u.ctx c := rfl
  have core' (k : Task) : (u.setTask (s.ctx c).tid k).core (coreOf c) = u.core (coreOf c) := rfl
  exact ⟨by rw [ctx', ctx, st], by rw [ctx', ctx, why], by rw [ctx', ctx, pc], by rw [ctx', ctx, handle], by rw [core', core, idle],
    by rw [ctx', ctx]; exact ⟨sr, pr, lc, vr, vm, sys, tok, att, cand⟩⟩

/-- Settles O26: the branches of `opBrTokw` and of `opBrBar`. -/
theorem tokenWaitAndBarrier : Obligations.TokenWaitAndBarrier := by
  intro s c g k a h hg hact x v ws valid
  have run (hv : valid) : opBrBar a c s = if x.barPass = some v.toNat then .issued (s.modCtx c (fun y => { y with barPass := none }))
      else if sizeBelow ws (v.toNat + 1) = 1 then .issued s else .block .barrier (.arrive v.toNat) := by
    obtain ⟨h7, hl, hd⟩ := hv
    refine if_neg ?_
    show ¬(decide (7 < v.toNat) || decide (levels ws ≤ v.toNat) || lvDom ws v.toNat == 5) = true
    simp [hd]
    omega
  refine ⟨fun ht => ?tokGoes, fun ht => ?tokBlocks, fun hv hp => ?passes, fun hv hp h1 => ?alone, fun hv hp h1 hs hb hgone => ?arrives, fun hv => ?trap⟩
  case tokGoes =>
    exact exec_effect h hg ((State.Accessed.raise ..).between h.toBetween) rfl (if_neg (by rw [ht]; decide))
  case tokBlocks => exact exec_blocksOn h hg hact rfl (if_pos ht)
  case passes => exact exec_effect h hg ⟨h.toCalm.congr rfl rfl, by simpa using h.between⟩ rfl (by rw [run hv, if_pos hp])
  case alone => exact exec_effect h hg h.toBetween rfl (by rw [run hv, if_neg hp, if_pos h1])
  case arrives =>
    have settled : exec (.brBar g a) s = .next (settleIssue (blockContext s c .barrier (.arrive v.toNat))) := by
      exact issueOne_blocks (o := rowBrBar g a) h rfl hg ((run hv).trans (by rw [if_neg hp, if_neg h1]))
    obtain ⟨calm, blocks, bars⟩ := arrive_blocksOn h.toCalm hact hs hb hgone h1
    exact ⟨_, settled.trans (by rw [settleIssue_calm calm]), blocks, bars⟩
  case trap =>
    refine exec_trapped h hg rfl (if_pos ?_) (by decide)
    show (decide (7 < v.toNat) || decide (levels ws ≤ v.toNat) || lvDom ws v.toNat == 5) = true
    simp only [Bool.or_eq_true, decide_eq_true_iff, beq_iff_eq]
    by_contra hc
    exact hv ⟨by omega, by omega, fun h5 => hc (.inr h5)⟩

end Sys2Proof.Machine

/-! ## The control family (05_control.md): early triggers and exits (R28, R30 to R32, R143) -/

namespace Sys2Proof.Machine

/-! ### The stores of a context are performed (R131, R132) -/

/-- A change of a context that leaves it as it is. -/
theorem State.accessed_of_modCtx_self {s : State} {c : Nat} {f : Context → Context} (hf : f (s.ctx c) = s.ctx c) : (s.modCtx c f).Accessed s := by
  refine .of_eq_ctx (fun e => ?_) rfl rfl rfl
  by_cases he : e = c
  · subst he
    rw [State.ctx_modCtx_same, hf]
  · rw [State.ctx_modCtx_ne _ _ he]

/-- The oldest stores of a context, the first `j`, are gone. -/
def Context.dropStores (j : Nat) (x : Context) : Context := { x with stores := x.stores.drop j }

/-- Some of the oldest stores of context c have been performed, all of which had their place. -/
def State.Flushed (s t : State) (c : Nat) : Prop :=
  ∃ j, (s.modCtx c (Context.dropStores j)).Accessed t ∧ ∀ p ∈ (s.ctx c).stores.take j, p.pa.isSome = true

theorem State.Flushed.refl (s : State) (c : Nat) : s.Flushed s c := ⟨0, State.accessed_of_modCtx_self rfl, by simp⟩

theorem State.Flushed.stores_eq {s t : State} {c j : Nat} (h : (s.modCtx c (Context.dropStores j)).Accessed t) :
    (t.ctx c).stores = (s.ctx c).stores.drop j := by
  rw [h.stores, State.ctx_modCtx_same]
  rfl

theorem State.Flushed.trans {s t u : State} {c : Nat} (h : s.Flushed t c) (k : t.Flushed u c) : s.Flushed u c := by
  obtain ⟨i, hi, pi⟩ := h
  obtain ⟨j, hj, pj⟩ := k
  refine ⟨i + j, ?_, fun p hp => ?_⟩
  · have := (hi.modCtx c (f := Context.dropStores j) (fun _ _ _ => rfl)).trans hj
    rw [State.modCtx_modCtx] at this
    have e : (fun x => Context.dropStores j (Context.dropStores i x)) = Context.dropStores (i + j) := by
      funext x
      simp [Context.dropStores]
    rwa [e] at this
  · rw [List.take_add, List.mem_append] at hp
    rw [State.Flushed.stores_eq hi] at pj
    exact hp.elim (pi p) (pj p)

theorem performStore_flushed (s : State) (c : Nat) : s.Flushed (performStore s c) c := by
  unfold performStore
  split
  · exact .refl s c
  · next st r hs =>
    split
    · next pa hp =>
      split
      · exact .refl s c
      · have : (s.modCtx c (fun x => { x with stores := r })).Accessed _ := State.Accessed.storePhys _ (.core (coreOf c)) pa st.size st.val
        have e : s.modCtx c (fun x => { x with stores := r }) = s.modCtx c (Context.dropStores 1) := by
          simp [State.modCtx, Context.dropStores, hs]
        rw [e] at this ⊢
        exact ⟨1, this, by simp [hs, hp]⟩
    · exact .refl s c

theorem flushN_flushed (n : Nat) : ∀ (s : State) (c : Nat), s.Flushed (flushN s c n) c := by
  induction n with
  | zero => exact .refl
  | succ n ih => exact fun s c => (performStore_flushed s c).trans (ih _ c)

theorem flushStores_flushed (s : State) (c : Nat) : s.Flushed (flushStores s c) c := flushN_flushed _ s c

section Flushed
variable {s t : State} {c : Nat} (h : s.Flushed t c)
include h

theorem State.Flushed.tasks : t.tasks = s.tasks := h.elim fun _ k => k.1.tasks
theorem State.Flushed.task (n : Nat) : t.task n = s.task n := congrArg (SMap.get _ · n) h.tasks
theorem State.Flushed.unwinds : t.unwinds = s.unwinds := h.elim fun _ k => k.1.unwinds
theorem State.Flushed.calm (hc : s.Calm) : t.Calm := hc.congr h.unwinds h.tasks
theorem State.Flushed.reach (d pa : Nat) : t.reach d pa = s.reach d pa := h.elim fun _ k => k.1.reach d pa
theorem State.Flushed.core (g : Nat) : t.core g = { s.core g with pts := (t.core g).pts, l1 := (t.core g).l1 } := h.elim fun _ k => k.1.core g

/-- A context keeps what neither its stores' performing nor another's changes. -/
theorem State.Flushed.kept {β : Type} (f : Context → β) (hf : ∀ x st w r, f { x with st := st, watch := w, stores := r } = f x) :
    f (t.ctx c) = f (s.ctx c) := by
  obtain ⟨j, k, -⟩ := h
  rw [k.kept f (fun x st w => hf x st w x.stores) c, State.ctx_modCtx_same]
  exact hf (s.ctx c) (s.ctx c).st (s.ctx c).watch _

theorem State.Flushed.tid : (t.ctx c).tid = (s.ctx c).tid := h.kept (·.tid) fun _ _ _ _ => rfl
theorem State.Flushed.rank : (t.ctx c).rank = (s.ctx c).rank := h.kept (·.rank) fun _ _ _ _ => rfl

theorem State.Flushed.between (hb : s.Between c) : t.Between c :=
  ⟨h.calm hb.toCalm, (h.kept (·.nxt) fun _ _ _ _ => rfl).trans hb.between⟩

theorem State.Flushed.st (hs : (s.ctx c).st ≠ .blocked) : (t.ctx c).st = (s.ctx c).st := by
  obtain ⟨j, k, -⟩ := h
  have e : ((s.modCtx c (Context.dropStores j)).ctx c).st = (s.ctx c).st := by
    rw [State.ctx_modCtx_same]
    rfl
  rw [(k.ctx c).st (by rw [e]; exact hs), e]

/-- A store without a place is not performed, and none before it is dropped. -/
theorem State.Flushed.stores_none (hn : ∃ p ∈ (s.ctx c).stores, p.pa = none) : ∃ p ∈ (t.ctx c).stores, p.pa = none := by
  obtain ⟨j, k, hj⟩ := h
  obtain ⟨p, hp, hpa⟩ := hn
  rw [State.Flushed.stores_eq k]
  rw [← List.take_append_drop j (s.ctx c).stores, List.mem_append] at hp
  refine ⟨p, hp.resolve_left fun ht => ?_, hpa⟩
  simpa [hpa] using hj p ht

theorem State.Flushed.stores_some (hs : ∀ p ∈ (s.ctx c).stores, p.pa.isSome = true) : ∀ p ∈ (t.ctx c).stores, p.pa.isSome = true := by
  obtain ⟨j, k, -⟩ := h
  rw [State.Flushed.stores_eq k]
  exact fun p hp => hs p (List.mem_of_mem_drop hp)

end Flushed

/-- Where every store has a place within reach, all are performed. -/
theorem flushN_all (n : Nat) : ∀ {s : State} {c : Nat}, (s.ctx c).stores.length ≤ n →
    (∀ p ∈ (s.ctx c).stores, ∃ pa, p.pa = some pa ∧ s.reach (dieOf (coreOf c)) pa = true) → ((flushN s c n).ctx c).stores = [] := by
  induction n with
  | zero => exact fun hn _ => List.length_eq_zero_iff.1 (Nat.le_zero.1 hn)
  | succ n ih =>
    intro s c hn hp
    have one := performStore_flushed s c
    have shorter : (performStore s c |>.ctx c).stores = (s.ctx c).stores.drop 1 := by
      unfold performStore
      split
      · next hs => simp [hs]
      · next st r hs =>
        obtain ⟨pa, hpa, hr⟩ := hp st (by simp [hs])
        simp only [hpa, hr, Bool.not_true, Bool.false_eq_true, if_false]
        rw [(State.Accessed.storePhys ..).stores, State.ctx_modCtx_same, hs]
        rfl
    refine ih (by rw [shorter, List.length_drop]; omega) fun p hp' => ?_
    rw [shorter] at hp'
    obtain ⟨pa, hpa, hr⟩ := hp p (List.mem_of_mem_drop hp')
    exact ⟨pa, hpa, by rw [one.reach]; exact hr⟩

theorem flushStores_all {s : State} {c : Nat} (h : ∀ p ∈ (s.ctx c).stores, ∃ pa, p.pa = some pa ∧ s.reach (dieOf (coreOf c)) pa = true) :
    ((flushStores s c).ctx c).stores = [] := flushN_all _ (Nat.le_refl _) h

/-- An oldest store whose home is out of reach holds up every other. -/
theorem flushN_stuck {s : State} {c pa : Nat} {p : Store} {r : List Store} (hs : (s.ctx c).stores = p :: r) (hp : p.pa = some pa)
    (hr : s.reach (dieOf (coreOf c)) pa = false) (n : Nat) : flushN s c n = s := by
  have stuck : performStore s c = s := by simp [performStore, hs, hp, hr]
  induction n with
  | zero => rfl
  | succ n ih => rw [flushN, stuck, ih]

/-! ### Triggers (R30 to R32, R324) -/

/-- What goes on beside the tasks: contexts are as before, or a store has met their watch; no task changes, and nothing begins that is left to settle. -/
structure State.Aside (s t : State) : Prop where
  ctx : ∀ c, (s.ctx c).Woken (t.ctx c)
  core : ∀ g, t.core g = { s.core g with pts := (t.core g).pts, l1 := (t.core g).l1 }
  tasks : t.tasks = s.tasks
  unwinds : t.unwinds = s.unwinds

theorem State.Accessed.aside {s t : State} (h : s.Accessed t) : s.Aside t := ⟨h.ctx, h.core, h.tasks, h.unwinds⟩

theorem State.Aside.of_eq {s t : State} (hc : t.ctxs = s.ctxs) (hg : t.cores = s.cores) (ht : t.tasks = s.tasks) (hu : t.unwinds = s.unwinds) :
    s.Aside t where
  ctx c := .inl (congrArg (SMap.get _ · c) hc)
  core g := by rw [show t.core g = s.core g from congrArg (SMap.get _ · g) hg]
  tasks := ht
  unwinds := hu

theorem State.Aside.trans {s t u : State} (h : s.Aside t) (k : t.Aside u) : s.Aside u where
  ctx c := (h.ctx c).trans (k.ctx c)
  core g := by rw [k.core g, h.core g]
  tasks := k.tasks.trans h.tasks
  unwinds := k.unwinds.trans h.unwinds

theorem State.Aside.between {s t : State} {c : Nat} (h : s.Aside t) (hb : s.Between c) : t.Between c :=
  ⟨hb.toCalm.congr h.unwinds h.tasks, by rw [(h.ctx c).same]; exact hb.between⟩

theorem keepWrite_aside (s : State) (w : DWrite) (why : DWait) : s.Aside (keepWrite s w why) := .of_eq rfl rfl rfl rfl

theorem State.Aside.modDie (s : State) (d : Nat) (f : Die → Die) : s.Aside (s.modDie d f) := .of_eq rfl rfl rfl rfl

theorem dispatchFault_aside (s : State) (die asid va : Nat) (acc : Acc) (lvl queue tid serial : Nat) :
    s.Aside (dispatchFault s die asid va acc lvl queue tid serial) := .of_eq rfl rfl rfl rfl

theorem dispatchWrite_aside (s : State) (w : DWrite) : s.Aside (dispatchWrite s w) := by
  have walked := translate_state_accessed s w.die (.dispatch w.die) w.asid (sx48 w.va) w.acc false
  unfold dispatchWrite
  split
  · exact (State.Accessed.refl s).aside
  · split
    · split
      · exact (State.Accessed.storePhys ..).aside
      · exact keepWrite_aside ..
    · split
      · next t ht =>
        rw [ht] at walked
        split
        · exact keepWrite_aside ..
        · split
          · exact (State.Accessed.trans walked (.storePhys ..)).aside
          · exact (State.Accessed.trans walked (.storePhys ..)).aside
      · next t ht =>
        rw [ht] at walked
        exact (walked.aside.trans (keepWrite_aside ..)).trans (dispatchFault_aside ..)
      · next t ht =>
        rw [ht] at walked
        split
        · exact walked.aside.trans (keepWrite_aside ..)
        · exact walked.aside
      · exact keepWrite_aside ..

theorem triggerAll_aside (s : State) (tid : Nat) : s.Aside (triggerAll s tid) := by
  unfold triggerAll
  dsimp only
  split
  · exact keepWrite_aside ..
  · exact ((State.Aside.modDie ..).trans (State.Accessed.raise ..).aside).trans (dispatchWrite_aside ..)

/-- Groups of a task have triggered: the task notes them, and the trigger counter may have been raised beside. -/
structure State.Triggered (s t : State) (tid : Nat) : Prop where
  ctx : ∀ c, (s.ctx c).Woken (t.ctx c)
  core : ∀ g, t.core g = { s.core g with pts := (t.core g).pts, l1 := (t.core g).l1 }
  task : t.task tid = { s.task tid with triggered := (t.task tid).triggered, tDone := (t.task tid).tDone }
  calm : s.Calm → t.Calm

theorem State.Triggered.refl (s : State) (tid : Nat) : s.Triggered s tid := ⟨fun _ => .refl _, fun _ => rfl, rfl, id⟩

theorem State.Triggered.trans {s t u : State} {tid : Nat} (h : s.Triggered t tid) (k : t.Triggered u tid) : s.Triggered u tid where
  ctx c := (h.ctx c).trans (k.ctx c)
  core g := by rw [k.core g, h.core g]
  task := by rw [k.task, h.task]
  calm := k.calm ∘ h.calm

/-- A group that triggers: nothing where it has before; else it is noted, and with it that all have, which may raise the counter. -/
theorem triggerGroup_eq {s : State} {tid lv : Nat} (g : Nat) (hl : trigLevel (s.task tid).words = some lv) (hg : g ∉ (s.task tid).triggered) :
    triggerGroup s tid g =
      let all := decide (taskSize (s.task tid).words / sizeBelow (s.task tid).words (lv + 1) ≤ (s.task tid).triggered.length + 1)
      let u := s.modTask tid (fun t => { t with triggered := t.triggered ++ [g], tDone := t.tDone || all })
      if all && !(s.task tid).tDone then triggerAll u tid else u := by
  unfold triggerGroup
  simp only [hl, List.contains_iff_mem, hg, if_false, List.length_append, List.length_singleton]
  rfl

theorem triggerGroup_again {s : State} {tid g : Nat} (hg : g ∈ (s.task tid).triggered) : triggerGroup s tid g = s := by
  unfold triggerGroup
  dsimp only
  split
  · rfl
  · simp [hg]

theorem triggerGroup_triggered {s : State} {tid lv : Nat} (g : Nat) (hl : trigLevel (s.task tid).words = some lv) :
    s.Triggered (triggerGroup s tid g) tid ∧ ∀ h, h ∈ ((triggerGroup s tid g).task tid).triggered ↔ h ∈ (s.task tid).triggered ∨ h = g := by
  by_cases hg : g ∈ (s.task tid).triggered
  · rw [triggerGroup_again hg]
    exact ⟨.refl s tid, fun h => ⟨.inl, fun k => k.elim id (fun e => e ▸ hg)⟩⟩
  · rw [triggerGroup_eq g hl hg]
    dsimp only
    generalize decide (taskSize (s.task tid).words / sizeBelow (s.task tid).words (lv + 1) ≤ (s.task tid).triggered.length + 1) = all
    have noted : s.Triggered (s.modTask tid (fun t => { t with triggered := t.triggered ++ [g], tDone := t.tDone || all })) tid :=
      ⟨fun _ => .refl _, fun _ => rfl, by rw [State.task_modTask_same], fun hc => hc.modTask tid rfl⟩
    have mem (h : Nat) : h ∈ ((s.modTask tid (fun t => { t with triggered := t.triggered ++ [g], tDone := t.tDone || all })).task tid).triggered ↔
        h ∈ (s.task tid).triggered ∨ h = g := by simp
    split
    · have raised := triggerAll_aside (s.modTask tid (fun t => { t with triggered := t.triggered ++ [g], tDone := t.tDone || all })) tid
      have same : ∀ n, (triggerAll (s.modTask tid (fun t => { t with triggered := t.triggered ++ [g], tDone := t.tDone || all })) tid).task n = _ :=
        fun n => congrArg (SMap.get Task.init · n) raised.tasks
      refine ⟨noted.trans ⟨raised.ctx, raised.core, by rw [same]; rfl, fun hc => hc.congr raised.unwinds raised.tasks⟩, fun h => ?_⟩
      rw [same]
      exact mem h
    · exact ⟨noted, mem⟩

/-- The members of a group have all gone. -/
def Task.groupGone (k : Task) (lv g : Nat) : Prop := ∀ j < sizeBelow k.words (lv + 1), g * sizeBelow k.words (lv + 1) + j ∈ k.gone

/-- The groups of a list of which all members have gone trigger, and no others. -/
theorem foldl_triggerGone {tid lv : Nat} (l : List Nat) : ∀ {s : State}, trigLevel (s.task tid).words = some lv →
    let t := l.foldl (fun u g => if (List.range (sizeBelow (s.task tid).words (lv + 1))).all
      (fun j => (u.task tid).gone.contains (g * sizeBelow (s.task tid).words (lv + 1) + j)) then triggerGroup u tid g else u) s
    s.Triggered t tid ∧ ∀ h, h ∈ (t.task tid).triggered ↔ h ∈ (s.task tid).triggered ∨ (h ∈ l ∧ (s.task tid).groupGone lv h) := by
  induction l with
  | nil => exact fun _ => ⟨.refl _ tid, fun h => by simp⟩
  | cons g r ih =>
    intro s hl
    dsimp only
    rw [List.foldl_cons]
    have gone : ((List.range (sizeBelow (s.task tid).words (lv + 1))).all
        (fun j => (s.task tid).gone.contains (g * sizeBelow (s.task tid).words (lv + 1) + j)) = true) ↔ (s.task tid).groupGone lv g := by
      simp [Task.groupGone]
    split
    · next hg =>
      rw [gone] at hg
      obtain ⟨one, mem⟩ := triggerGroup_triggered g hl
      have words : ((triggerGroup s tid g).task tid).words = (s.task tid).words := by rw [one.task]
      have same (h : Nat) : ((triggerGroup s tid g).task tid).groupGone lv h ↔ (s.task tid).groupGone lv h := by rw [one.task]; rfl
      have rest := ih (s := triggerGroup s tid g) (by rw [words]; exact hl)
      rw [words] at rest
      obtain ⟨more, memr⟩ := rest
      refine ⟨one.trans more, fun h => ?_⟩
      rw [memr, mem, same, List.mem_cons]
      constructor
      · rintro ((k | rfl) | ⟨k, kg⟩)
        · exact .inl k
        · exact .inr ⟨.inl rfl, hg⟩
        · exact .inr ⟨.inr k, kg⟩
      · rintro (k | ⟨rfl | k, kg⟩)
        · exact .inl (.inl k)
        · exact .inl (.inr rfl)
        · exact .inr ⟨k, kg⟩
    · next hg =>
      rw [gone] at hg
      obtain ⟨more, memr⟩ := ih hl
      refine ⟨more, fun h => ?_⟩
      rw [memr, List.mem_cons]
      constructor
      · rintro (k | ⟨k, kg⟩)
        · exact .inl k
        · exact .inr ⟨.inr k, kg⟩
      · rintro (k | ⟨rfl | k, kg⟩)
        · exact .inl k
        · exact absurd kg hg
        · exact .inr ⟨k, kg⟩

/-- The groups whose contexts have all gone trigger. -/
theorem triggerGone_triggered {s : State} {tid lv : Nat} (hl : trigLevel (s.task tid).words = some lv) :
    s.Triggered (triggerGone s tid) tid ∧ ∀ h, h ∈ ((triggerGone s tid).task tid).triggered ↔ h ∈ (s.task tid).triggered ∨
      (h < taskSize (s.task tid).words / max 1 (sizeBelow (s.task tid).words (lv + 1)) ∧ (s.task tid).groupGone lv h) := by
  have all := foldl_triggerGone (List.range (taskSize (s.task tid).words / max 1 (sizeBelow (s.task tid).words (lv + 1)))) hl
  unfold triggerGone
  simp only [hl]
  simp only [List.mem_range] at all
  exact all

theorem triggerGone_none {s : State} {tid : Nat} (hl : trigLevel (s.task tid).words = none) : triggerGone s tid = s := by
  unfold triggerGone
  simp only [hl]

/-! ### Barriers complete (R140) -/

/-- Barriers of a task have completed: the contexts that waited at them may go on, and the task keeps the others. -/
structure State.Passed (s t : State) (tid : Nat) : Prop where
  ctx : ∀ c, (s.ctx c).st ≠ .blocked → (t.ctx c).st = (s.ctx c).st
  same : ∀ c, (t.ctx c).pend = (s.ctx c).pend ∧ (t.ctx c).watch = (s.ctx c).watch ∧ (t.ctx c).stores = (s.ctx c).stores
  core : ∀ g, t.core g = { s.core g with pts := (t.core g).pts }
  task : t.task tid = { s.task tid with bars := (t.task tid).bars }
  calm : s.Calm → t.Calm

theorem State.Passed.refl (s : State) (tid : Nat) : s.Passed s tid := ⟨fun _ _ => rfl, fun _ => ⟨rfl, rfl, rfl⟩, fun _ => rfl, rfl, id⟩

theorem State.Passed.trans {s t u : State} {tid : Nat} (h : s.Passed t tid) (k : t.Passed u tid) : s.Passed u tid where
  ctx c hc := by rw [k.ctx c (by rw [h.ctx c hc]; exact hc), h.ctx c hc]
  same c := by
    obtain ⟨p, w, r⟩ := k.same c
    rw [p, w, r]
    exact h.same c
  core g := by rw [k.core g, h.core g]
  task := by rw [k.task, h.task]
  calm := k.calm ∘ h.calm

theorem Context.passBar_rest (x : Context) (lv : Nat) : (x.st ≠ .blocked → (x.passBar lv).st = x.st) ∧ (x.passBar lv).pend = x.pend ∧
    (x.passBar lv).watch = x.watch ∧ (x.passBar lv).stores = x.stores := by
  unfold Context.passBar
  dsimp only
  split
  · exact ⟨fun h => if_neg h, rfl, rfl, rfl⟩
  · exact ⟨fun _ => rfl, rfl, rfl, rfl⟩

theorem State.Passed.modWho (s : State) (t tid rank lv : Nat) : s.Passed (s.modWho t rank (fun x => x.passBar lv)) tid := by
  unfold State.modWho
  split
  · next c _ =>
    have one (e : Nat) : ((s.modCtx c (fun x => x.passBar lv)).ctx e = s.ctx e) ∨ ((s.modCtx c (fun x => x.passBar lv)).ctx e = (s.ctx e).passBar lv) := by
      by_cases h : e = c
      · subst h
        exact .inr (State.ctx_modCtx_same ..)
      · exact .inl (State.ctx_modCtx_ne _ _ h)
    refine ⟨fun e he => ?_, fun e => ?_, fun _ => rfl, rfl, fun hc => hc.congr rfl rfl⟩
    · rcases one e with h | h
      · rw [h]
      · rw [h]
        exact ((s.ctx e).passBar_rest lv).1 he
    · rcases one e with h | h
      · rw [h]
        exact ⟨rfl, rfl, rfl⟩
      · rw [h]
        exact ((s.ctx e).passBar_rest lv).2
  · split
    · exact ⟨fun _ _ => rfl, fun _ => ⟨rfl, rfl, rfl⟩, fun _ => rfl, rfl, fun hc => hc.congr rfl rfl⟩
    · exact ⟨fun _ _ => rfl, fun _ => ⟨rfl, rfl, rfl⟩, fun _ => rfl, rfl, fun hc => hc.congr rfl rfl⟩

theorem State.Passed.raise (s : State) (g ts tid : Nat) : s.Passed (s.raise (.core g) ts) tid := by
  unfold State.raise
  split
  · exact .refl s tid
  · refine ⟨fun _ _ => rfl, fun _ => ⟨rfl, rfl, rfl⟩, fun e => ?_, rfl, fun hc => hc.congr rfl rfl⟩
    show (s.modCore g (fun x => { x with pts := tick64 ts })).core e = { s.core e with pts := ((s.modCore g (fun x => { x with pts := tick64 ts })).core e).pts }
    by_cases h : e = g
    · subst h
      rw [State.core_modCore_same]
    · rw [State.core_modCore_ne _ _ h]

theorem State.Passed.foldl {α : Type} {tid : Nat} {f : State → α → State} (hf : ∀ (s : State) x, s.Passed (f s x) tid) (l : List α) :
    ∀ s : State, s.Passed (l.foldl f s) tid := by
  induction l with
  | nil => exact fun s => .refl s tid
  | cons x r ih => exact fun s => (hf s x).trans (ih _)

/-- Whether a barrier of a task is complete. -/
def Task.barComplete (k : Task) (b : Barrier) : Prop :=
  (∀ r ∈ groupRanks k.words b.level b.group, r ∈ b.arrived ∨ r ∈ k.gone) ∧ b.arrived ≠ []

theorem barComplete_iff (k : Task) (b : Barrier) :
    ((groupRanks k.words b.level b.group).all (fun r => b.arrived.contains r || k.gone.contains r) && !b.arrived.isEmpty) = true ↔ k.barComplete b := by
  simp [Task.barComplete]

theorem foldl_tasks {α : Type} {f : State → α → State} (hf : ∀ s x, (f s x).tasks = s.tasks) (l : List α) :
    ∀ s : State, (l.foldl f s).tasks = s.tasks := by
  induction l with
  | nil => exact fun _ => rfl
  | cons x r ih => exact fun s => (ih _).trans (hf s x)

theorem State.modWho_tasks (s : State) (tid rank : Nat) (f : Context → Context) : (s.modWho tid rank f).tasks = s.tasks := by
  unfold State.modWho
  split
  · exact (State.modCtx_rest ..).2.2.2.2.2.2.2.2.2.2.2.1
  · split <;> rfl

/-- The barriers of a task but for those of a level and a group. -/
def Task.otherBars (k : Task) (b : Barrier) : List Barrier := k.bars.filter (fun y => !(y.level == b.level && y.group == b.group))

theorem Task.mem_otherBars {k : Task} {b y : Barrier} : y ∈ k.otherBars b ↔ y ∈ k.bars ∧ ¬(y.level = b.level ∧ y.group = b.group) := by
  simp [Task.otherBars, ← not_and_or]

/-- A barrier completes, or is open and nothing changes. -/
theorem completeBar_passed (s : State) (tid : Nat) (b : Barrier) : s.Passed (completeBar s tid b) tid ∧
    ((s.task tid).barComplete b → ((completeBar s tid b).task tid).bars = (s.task tid).otherBars b) ∧
    (¬(s.task tid).barComplete b → completeBar s tid b = s) := by
  by_cases hb : (s.task tid).barComplete b
  · have hc := (barComplete_iff (s.task tid) b).2 hb
    have done : s.Passed (s.setTask tid { s.task tid with bars := (s.task tid).otherBars b }) tid :=
      ⟨fun _ _ => rfl, fun _ => ⟨rfl, rfl, rfl⟩, fun _ => rfl, by rw [State.task_setTask_same], fun h => h.setTask tid (h.task_state tid)⟩
    have who := State.Passed.foldl (f := fun s r => s.modWho tid r (fun x => x.passBar b.level)) (fun s r => State.Passed.modWho s tid tid r b.level)
      b.arrived (s.setTask tid { s.task tid with bars := (s.task tid).otherBars b })
    have whoTasks := foldl_tasks (f := fun s r => s.modWho tid r (fun x => x.passBar b.level)) (fun s r => State.modWho_tasks ..)
      b.arrived (s.setTask tid { s.task tid with bars := (s.task tid).otherBars b })
    have up (ts : Nat) (cs : List Nat) (u : State) := State.Passed.foldl (f := fun s c => s.raise (.core (coreOf c)) ts)
      (fun s c => State.Passed.raise s (coreOf c) ts tid) cs u
    have upTasks (ts : Nat) (cs : List Nat) (u : State) := foldl_tasks (f := fun s c => s.raise (.core (coreOf c)) ts)
      (fun s c => (State.Accessed.raise s (.core (coreOf c)) ts).tasks) cs u
    unfold completeBar
    simp only [hc, if_true]
    have bars (u : State) (hu : u.tasks = (s.setTask tid { s.task tid with bars := (s.task tid).otherBars b }).tasks) :
        (u.task tid).bars = (s.task tid).otherBars b := by rw [State.task, hu, ← State.task, State.task_setTask_same]
    exact ⟨(done.trans who).trans (up ..), fun _ => bars _ ((upTasks ..).trans whoTasks), fun h => absurd hb h⟩
  · have same : completeBar s tid b = s := if_neg fun hc => hb ((barComplete_iff _ b).1 hc)
    exact ⟨same.symm ▸ .refl s tid, fun h => absurd h hb, fun _ => same⟩

/-- Of the barriers in a list, those that are complete are taken from the task's, and no others. -/
theorem foldl_completeBar {tid : Nat} (l : List Barrier) : ∀ s : State,
    let t := l.foldl (fun s b => completeBar s tid b) s
    s.Passed t tid ∧ ∀ y, y ∈ (t.task tid).bars ↔ y ∈ (s.task tid).bars ∧
      ∀ b ∈ l, (s.task tid).barComplete b → ¬(y.level = b.level ∧ y.group = b.group) := by
  induction l with
  | nil => exact fun s => ⟨.refl s tid, fun y => by simp⟩
  | cons b r ih =>
    intro s
    obtain ⟨one, complete, open_⟩ := completeBar_passed s tid b
    obtain ⟨more, mem⟩ := ih (completeBar s tid b)
    have same (d : Barrier) : ((completeBar s tid b).task tid).barComplete d ↔ (s.task tid).barComplete d := by rw [one.task]; rfl
    refine ⟨one.trans more, fun y => ?_⟩
    rw [List.foldl_cons, mem, List.forall_mem_cons]
    simp only [same]
    by_cases hb : (s.task tid).barComplete b
    · rw [complete hb, Task.mem_otherBars, and_assoc]
      simp [hb]
    · rw [open_ hb]
      simp [hb]

theorem completeBars_passed (s : State) (tid : Nat) : s.Passed (completeBars s tid) tid ∧ ∀ y, y ∈ ((completeBars s tid).task tid).bars ↔
    y ∈ (s.task tid).bars ∧ ∀ b ∈ (s.task tid).bars, (s.task tid).barComplete b → ¬(y.level = b.level ∧ y.group = b.group) :=
  foldl_completeBar _ s

/-! ### Exits (R28, R132, R143) -/

/-- A context that has exited. -/
def Context.exited (x : Context) : Context :=
  { (x.setSys 0x048 0) with st := .exited, pend := [], settle := [], watch := none, crOrder := [], nxt := .seq, frz := 0, spent := 0, test := none,
                            due := none, barPass := none, barIn := none, resumes := [], exits := false, halt := false }

/-- The state in which context c has exited and its task counts it gone; no group has triggered and no barrier completed by that yet. -/
def leaveState (s : State) (c : Nat) : State :=
  let u := stopQueueOps (dropIssue (s.setCtx c (s.ctx c).exited) c) c
  u.modTask (s.ctx c).tid (fun t => { t with live := t.live - 1, gone := t.gone ++ [(s.ctx c).rank], ts := max t.ts (u.core (coreOf c)).pts })

theorem exitContext_leaves {s : State} {c : Nat} (h : ∀ p ∈ (s.ctx c).stores, p.pa.isSome = true) :
    exitContext s c = completeBars (triggerGone (leaveState (flushStores s c) c) (s.ctx c).tid) (s.ctx c).tid := by
  have placed : ((flushStores s c).ctx c).stores.any (fun t => t.pa.isNone) = false := by
    rw [List.any_eq_false]
    intro p hp
    have := (flushStores_flushed s c).stores_some h p hp
    rw [Option.isNone_eq_false_iff.2 this]
    decide
  rw [← (flushStores_flushed s c).tid]
  unfold exitContext
  simp only [placed, Bool.false_eq_true, if_false]
  rfl

theorem leaveState_ctx (s : State) (c : Nat) : (leaveState s c).ctx c = (s.ctx c).exited :=
  (show _ = (s.setCtx c (s.ctx c).exited).ctx c from rfl).trans (State.ctx_setCtx_same ..)

/-- The core of a context that exits has no ACTIVE context. -/
theorem leaveState_core {s : State} {c : Nat} (h : (s.core (coreOf c)).active = some c) :
    ((leaveState s c).core (coreOf c)).active = none ∧ ((leaveState s c).core (coreOf c)).last = c % 4 := by
  have drop : (dropIssue (s.setCtx c (s.ctx c).exited) c).core (coreOf c) =
      { s.core (coreOf c) with active := none, last := c % 4, hold := none, wait := none } := by
    rw [dropIssue, State.core_modCore_same]
    exact if_pos h
  have stop : (leaveState s c).core (coreOf c) = (stopQueueOps (dropIssue (s.setCtx c (s.ctx c).exited) c) c).core (coreOf c) := rfl
  rw [stop, stopQueueOps, State.core_modCore_same, drop]
  split <;> exact ⟨rfl, rfl⟩

/-- The task of a context that exits. -/
theorem leaveState_task (s : State) (c : Nat) : (leaveState s c).task (s.ctx c).tid = { s.task (s.ctx c).tid with
    live := (s.task (s.ctx c).tid).live - 1, gone := (s.task (s.ctx c).tid).gone ++ [(s.ctx c).rank],
    ts := ((leaveState s c).task (s.ctx c).tid).ts } := by
  rw [leaveState, State.task_modTask_same]
  rfl

theorem leaveState_calm {s : State} (h : s.Calm) (c : Nat) : (leaveState s c).Calm := by
  have u : (stopQueueOps (dropIssue (s.setCtx c (s.ctx c).exited) c) c).Calm := h.congr rfl rfl
  exact State.Calm.setTask u (s.ctx c).tid (u.task_state (s.ctx c).tid)

/-- What the exit of a context comes to. -/
structure Exits (s t : State) (c : Nat) : Prop where
  st : (t.ctx c).st = .exited
  pend : (t.ctx c).pend = []
  watch : (t.ctx c).watch = none
  stores : (t.ctx c).stores = ((flushStores s c).ctx c).stores
  active : (t.core (coreOf c)).active = none
  last : (t.core (coreOf c)).last = c % 4
  live : (t.task (s.ctx c).tid).live = (s.task (s.ctx c).tid).live - 1
  gone : (t.task (s.ctx c).tid).gone = (s.task (s.ctx c).tid).gone ++ [(s.ctx c).rank]
  triggered : ∀ lv, trigLevel (s.task (s.ctx c).tid).words = some lv → ∀ h, h ∈ (t.task (s.ctx c).tid).triggered ↔
    h ∈ (s.task (s.ctx c).tid).triggered ∨
      (h < taskSize (s.task (s.ctx c).tid).words / max 1 (sizeBelow (s.task (s.ctx c).tid).words (lv + 1)) ∧
        ∀ j < sizeBelow (s.task (s.ctx c).tid).words (lv + 1), h * sizeBelow (s.task (s.ctx c).tid).words (lv + 1) + j ∈
          (s.task (s.ctx c).tid).gone ++ [(s.ctx c).rank])
  bars : ∀ y, y ∈ (t.task (s.ctx c).tid).bars ↔ y ∈ (s.task (s.ctx c).tid).bars ∧ ∀ b ∈ (s.task (s.ctx c).tid).bars,
    ((∀ r ∈ groupRanks (s.task (s.ctx c).tid).words b.level b.group, r ∈ b.arrived ∨ r ∈ (s.task (s.ctx c).tid).gone ++ [(s.ctx c).rank]) ∧
      b.arrived ≠ []) → ¬(y.level = b.level ∧ y.group = b.group)
  calm : t.Calm

theorem exitContext_exits {s : State} {c : Nat} (hc : s.Calm) (ha : (s.core (coreOf c)).active = some c)
    (hs : ∀ p ∈ (s.ctx c).stores, p.pa.isSome = true) : Exits s (exitContext s c) c := by
  have flushed := flushStores_flushed s c
  have fa : ((flushStores s c).core (coreOf c)).active = some c := by rw [flushed.core]; exact ha
  rw [exitContext_leaves hs]
  have ctx := leaveState_ctx (flushStores s c) c
  have task := leaveState_task (flushStores s c) c
  obtain ⟨active, last⟩ := leaveState_core fa
  have calm := leaveState_calm (flushed.calm hc) c
  rw [flushed.tid, flushed.rank, flushed.task] at task
  generalize leaveState (flushStores s c) c = u at *
  have trig : u.Triggered (triggerGone u (s.ctx c).tid) (s.ctx c).tid ∧ ∀ lv, trigLevel (s.task (s.ctx c).tid).words = some lv → ∀ h,
      h ∈ ((triggerGone u (s.ctx c).tid).task (s.ctx c).tid).triggered ↔ h ∈ (u.task (s.ctx c).tid).triggered ∨
        (h < taskSize (u.task (s.ctx c).tid).words / max 1 (sizeBelow (u.task (s.ctx c).tid).words (lv + 1)) ∧
          (u.task (s.ctx c).tid).groupGone lv h) := by
    have words : (u.task (s.ctx c).tid).words = (s.task (s.ctx c).tid).words := by rw [task]
    rw [← words]
    cases hl : trigLevel (u.task (s.ctx c).tid).words with
    | none => exact ⟨by rw [triggerGone_none hl]; exact .refl u _, fun _ h => nomatch h⟩
    | some lv =>
      obtain ⟨t, m⟩ := triggerGone_triggered hl
      exact ⟨t, fun lv' h => by rw [← Option.some.inj h]; exact m⟩
  obtain ⟨triggered, mem⟩ := trig
  have woken := (triggered.ctx c).unwatched (by rw [ctx]; rfl)
  obtain ⟨passed, bars⟩ := completeBars_passed (triggerGone u (s.ctx c).tid) (s.ctx c).tid
  obtain ⟨pend, watch, stores⟩ := passed.same c
  have tgone : ((triggerGone u (s.ctx c).tid).task (s.ctx c).tid).gone = (s.task (s.ctx c).tid).gone ++ [(s.ctx c).rank] := by rw [triggered.task, task]
  have twords : ((triggerGone u (s.ctx c).tid).task (s.ctx c).tid).words = (s.task (s.ctx c).tid).words := by rw [triggered.task, task]
  have tbars : ((triggerGone u (s.ctx c).tid).task (s.ctx c).tid).bars = (s.task (s.ctx c).tid).bars := by rw [triggered.task, task]
  refine ⟨?st, ?pend, ?watch, ?stores, ?active, ?last, ?live, ?gone, ?triggered, ?bars, passed.calm (triggered.calm calm)⟩
  case st => rw [passed.ctx c (by rw [woken, ctx]; exact nofun), woken, ctx]; rfl
  case pend => rw [pend, woken, ctx]; rfl
  case watch => rw [watch, woken, ctx]; rfl
  case stores => rw [stores, woken, ctx]; rfl
  case active => rw [passed.core, triggered.core]; exact active
  case last => rw [passed.core, triggered.core]; exact last
  case live => rw [passed.task, triggered.task, task]
  case gone => rw [passed.task]; exact tgone
  case triggered =>
    intro lv hl h
    rw [passed.task]
    show h ∈ ((triggerGone u (s.ctx c).tid).task (s.ctx c).tid).triggered ↔ _
    rw [mem lv hl h, task]
    rfl
  case bars =>
    intro y
    rw [bars, tbars]
    simp only [Task.barComplete, twords, tgone]

/-- A context with a ring-slot store whose page is absent does not exit yet (16_faults.md R369). -/
theorem exitContext_waits {s : State} {c : Nat} (hs : ∃ p ∈ (s.ctx c).stores, p.pa = none) :
    exitContext s c = (flushStores s c).modCtx c (fun x => { x with nxt := .seq, exits := true }) := by
  have absent : ((flushStores s c).ctx c).stores.any (fun t => t.pa.isNone) = true := by
    obtain ⟨p, hp, hn⟩ := (flushStores_flushed s c).stores_none hs
    exact List.any_eq_true.2 ⟨p, hp, by rw [hn]; rfl⟩
  unfold exitContext
  simp only [absent, if_true]
  rfl

/-! ### What a bundle's end leaves of its core -/

theorem Core.performTagged_active (g : Core) : g.performTagged.active = g.active := by
  unfold Core.performTagged
  dsimp only
  split
  · rfl
  · next due =>
    show ((g.spw.filter _).foldl Core.performWrite g).active = g.active
    clear due
    generalize g.spw.filter _ = l
    induction l generalizing g with
    | nil => rfl
    | cons w r ih =>
      rw [List.foldl_cons, ih]
      unfold Core.performWrite
      split <;> rfl

theorem State.performTagged_active (s : State) (g : Nat) : ((s.performTagged g).core g).active = (s.core g).active := by
  unfold State.performTagged
  split
  · rfl
  · rw [State.core_modCore_same, Core.performTagged_active]

/-- The state at the end of an exit's bundle, before the exit. -/
def exitBundle (s : State) (c : Nat) : State :=
  (({ s with free := s.free + 1 } : State).performTagged (coreOf c)).setCtx c { (s.ctx c).afterBundle with pc := (s.ctx c).pc }

theorem finishIssue_exit (s : State) (c : Nat) : finishIssue (setNext s c .exit) c = exitContext (exitBundle s c) c := by
  have hf : (setNext s c .exit).free = s.free := rfl
  unfold finishIssue
  simp only [hf, ctx_performTagged_setNext, performTagged_setNext_setCtx]
  rfl

theorem exitBundle_ctx (s : State) (c : Nat) : (exitBundle s c).ctx c = { (s.ctx c).afterBundle with pc := (s.ctx c).pc } := State.ctx_setCtx_same ..

theorem exitBundle_tasks (s : State) (c : Nat) : (exitBundle s c).tasks = s.tasks := by simp [exitBundle]

theorem exitBundle_task (s : State) (c n : Nat) : (exitBundle s c).task n = s.task n := congrArg (SMap.get _ · n) (exitBundle_tasks s c)

theorem exitBundle_calm {s : State} (h : s.Calm) (c : Nat) : (exitBundle s c).Calm := h.congr (by simp [exitBundle]) (exitBundle_tasks s c)

theorem exitBundle_active (s : State) (c : Nat) : ((exitBundle s c).core (coreOf c)).active = (s.core (coreOf c)).active := by
  show ((({ s with free := s.free + 1 } : State).performTagged (coreOf c)).core (coreOf c)).active = _
  rw [State.performTagged_active]
  rfl

theorem exitBundle_reach (s : State) (c d pa : Nat) : (exitBundle s c).reach d pa = s.reach d pa := by
  have : (exitBundle s c).links = s.links := by
    unfold exitBundle State.performTagged
    split <;> simp
  rw [State.reach, this, State.reach]

/-! ### Early triggers -/

/-- `br.early` alone in its bundle: what its context's group does, after the stores. -/
theorem exec_early {s t : State} {c : Nat} {g : Guard} (h : Acts s c) (hg : readGuard s c g = true) (ht : earlyTrigger s c = t) (hb : t.Between c) :
    exec (.brEarly g) s = .next (issuedNext t c) := exec_effect h hg hb rfl (by rw [← ht]; rfl)

theorem earlyTrigger_none {s : State} {c : Nat} (hl : trigLevel (s.task (s.ctx c).tid).words = none) : earlyTrigger s c = flushStores s c := by
  unfold earlyTrigger
  simp only [(flushStores_flushed s c).tid, (flushStores_flushed s c).task, hl]

theorem earlyTrigger_some {s : State} {c lv : Nat} (hl : trigLevel (s.task (s.ctx c).tid).words = some lv) :
    earlyTrigger s c = triggerGroup (flushStores s c) (s.ctx c).tid (groupOf (s.task (s.ctx c).tid).words lv (s.ctx c).rank) := by
  unfold earlyTrigger
  simp only [(flushStores_flushed s c).tid, (flushStores_flushed s c).rank, (flushStores_flushed s c).task, hl]

/-- The trigger of a whole task raises the counter of its record, where no store holds it up. -/
theorem triggerAll_free {s : State} {tid : Nat} (hs : ∀ p ∈ s.bound, p.2.tid = tid → s.stuck p.1 = false) :
    triggerAll s tid =
      let k := s.task tid
      let b := s.modDie k.die (fun d => { d with recs := d.recs.map (fun r => if r.serial = k.rec_ then { r with trig := true } else r) })
      dispatchWrite (b.raise (.dispatch k.die) (b.taskTs tid))
        ⟨0, k.die, k.asid, (wordAt k.words 6).toNat % 2 ^ 48, none, k.q, tid, k.rec_, .link, .virt⟩ := by
  have free : s.bound.any (fun p => p.2.tid == tid && s.stuck p.1) = false := by
    rw [List.any_eq_false]
    intro p hp
    by_cases ht : p.2.tid = tid
    · simp [ht, hs p hp ht]
    · simp [ht]
  unfold triggerAll
  simp only [free, Bool.false_eq_true, if_false]

/-- A group that triggers while others have not. -/
theorem triggerGroup_one {s : State} {tid lv g : Nat} (hl : trigLevel (s.task tid).words = some lv) (hg : g ∉ (s.task tid).triggered)
    (hn : (s.task tid).triggered.length + 1 < taskSize (s.task tid).words / sizeBelow (s.task tid).words (lv + 1)) :
    triggerGroup s tid g = s.modTask tid (fun t => { t with triggered := t.triggered ++ [g] }) := by
  rw [triggerGroup_eq g hl hg]
  simp only [decide_eq_false (Nat.not_le.2 hn), Bool.false_and, Bool.or_false, Bool.false_eq_true, if_false]

/-- The last group of a task triggers. -/
theorem triggerGroup_last {s : State} {tid lv g : Nat} (hl : trigLevel (s.task tid).words = some lv) (hg : g ∉ (s.task tid).triggered)
    (hn : taskSize (s.task tid).words / sizeBelow (s.task tid).words (lv + 1) ≤ (s.task tid).triggered.length + 1) (hd : (s.task tid).tDone = false) :
    triggerGroup s tid g = triggerAll (s.modTask tid (fun t => { t with triggered := t.triggered ++ [g], tDone := true })) tid := by
  rw [triggerGroup_eq g hl hg]
  simp only [decide_eq_true hn, hd, Bool.or_true, Bool.not_false, Bool.and_self, if_true]

/-- Settles O27: `br.early` by the cases of `triggerGroup`, `br.exit` by `exitContext_exits` and `exitContext_waits`. -/
theorem earlyTriggerAndExit : Obligations.EarlyTriggerAndExit := by
  intro s c g h hg hact x k f
  have flushed : s.Flushed f c := flushStores_flushed s c
  have fb : f.Between c := flushed.between h.toBetween
  have ftask (n : Nat) : f.task n = s.task n := flushed.task n
  have exits : (∀ p ∈ x.stores, p.pa.isSome = true) → exec (.brExit g) s = .next (exitContext (exitBundle s c) c) ∧
      Exits (exitBundle s c) (exitContext (exitBundle s c) c) c := by
    intro hs
    have e : Exits (exitBundle s c) (exitContext (exitBundle s c) c) c :=
      exitContext_exits (exitBundle_calm h.toCalm c) ((exitBundle_active s c).trans hact) (by rw [exitBundle_ctx]; exact hs)
    exact ⟨(issueOne_noted (o := rowBrExit g) h rfl hg rfl).trans (by rw [finishIssue_exit, settleIssue_calm e.calm]), e⟩
  have ectx : (exitBundle s c).ctx c = { x.afterBundle with pc := x.pc } := exitBundle_ctx s c
  have etid : ((exitBundle s c).ctx c).tid = x.tid := by rw [ectx]; rfl
  have erank : ((exitBundle s c).ctx c).rank = x.rank := by rw [ectx]; rfl
  have estores : ((exitBundle s c).ctx c).stores = x.stores := by rw [ectx]; rfl
  refine ⟨flushStores_none, fun hl => exec_early h hg (earlyTrigger_none hl) fb, fun lv hl => ?some, fun hl hs => ?exitNone, fun hst hn => ?exitWaits⟩
  case some =>
    intro n grp
    have early : earlyTrigger s c = triggerGroup f x.tid grp := earlyTrigger_some hl
    have fl : trigLevel (f.task x.tid).words = some lv := by rw [ftask]; exact hl
    refine ⟨fun hm => ?again, fun hm hlt => ?one, fun hm hle hd hst => ?all, fun hgrp hs => ?exit⟩
    case again => exact exec_early h hg (early.trans (triggerGroup_again (by rw [ftask]; exact hm))) fb
    case one =>
      refine exec_early h hg (early.trans ?_) ⟨fb.toCalm.modTask x.tid rfl, fb.between⟩
      exact triggerGroup_one fl (by rw [ftask]; exact hm) (by rw [ftask]; exact hlt)
    case all =>
      intro a b u va
      have raised : earlyTrigger s c = dispatchWrite u ⟨0, k.die, k.asid, va, none, k.q, x.tid, k.rec_, .link, .virt⟩ := by
        have atask : a.task x.tid = { k with triggered := k.triggered ++ [grp], tDone := true } := by
          rw [State.task_modTask_same, ftask]
        have all : triggerAll a x.tid = dispatchWrite u ⟨0, k.die, k.asid, va, none, k.q, x.tid, k.rec_, .link, .virt⟩ := by
          rw [triggerAll_free (s := a) hst, atask]
        rw [early, triggerGroup_last fl (by rw [ftask]; exact hm) (by rw [ftask]; exact hle) (by rw [ftask]; exact hd)]
        exact all
      have ab : a.Between c := ⟨fb.toCalm.modTask x.tid rfl, fb.between⟩
      have ub : u.Between c := ((State.Aside.modDie a _ _).trans (State.Accessed.raise b _ _).aside).between ab
      refine ⟨fun h0 => ?_, fun pa p t h0 ht hr => ?_⟩
      · refine exec_early h hg (raised.trans ?_) ub
        rw [dispatchWrite, if_pos h0]
      · have acc := (translate_accessed ht).trans (State.Accessed.storePhys t (.dispatch k.die) pa 8 ((t.readN pa 8 + 1) % 2 ^ 64))
        refine exec_early h hg (raised.trans ?_) (acc.between ub)
        rw [dispatchWrite, if_neg h0, if_neg nofun]
        simp only [DWrite.acc, ht, hr, Bool.not_true, Bool.false_eq_true, if_false]
    case exit =>
      obtain ⟨ex, e⟩ := exits hs
      have trig := e.triggered lv (by rw [etid, exitBundle_task]; exact hl)
      rw [etid, erank, exitBundle_task] at trig
      refine ⟨_, ex, e.st, fun hh hk => (trig hh).2 (.inl hk), fun hall => (trig grp).2 (.inr ⟨hgrp, fun j hj => ?_⟩), fun hex hk hc => ?_⟩
      · rw [List.mem_append, List.mem_singleton]
        exact (hall j hj).symm
      · obtain ⟨j, hj, hne, hgone⟩ := hex
        have := ((trig grp).1 hc).resolve_left hk |>.2 j hj
        rw [List.mem_append, List.mem_singleton] at this
        exact this.elim hgone hne
  case exitNone =>
    obtain ⟨ex, e⟩ := exits hs
    have live := e.live
    have gone := e.gone
    have bars := e.bars
    have stores := e.stores
    rw [etid, exitBundle_task] at live gone bars
    rw [erank] at gone bars
    refine ⟨_, ex, e.st, e.pend, e.watch, live, gone, e.active, e.last, fun hr => ?_, fun p r pa hp hpa hr => ?_, fun b hb huniq => ⟨fun hall hne y hy hc => ?_, fun hex => ?_⟩⟩
    · rw [stores]
      refine flushStores_all fun p hp => ?_
      rw [estores] at hp
      obtain ⟨pa, hpa⟩ := Option.isSome_iff_exists.1 (hs p hp)
      exact ⟨pa, hpa, by rw [exitBundle_reach]; exact hr p hp pa hpa⟩
    · rw [stores, flushStores, flushN_stuck (estores.trans hp) hpa (by rw [exitBundle_reach]; exact hr), estores]
    · refine ((bars y).1 hy).2 b hb ⟨fun r hr => ?_, hne⟩ hc
      rw [List.mem_append, List.mem_singleton]
      exact hall r hr
    · obtain ⟨r, hr, ha, hgone, hrank⟩ := hex
      refine (bars b).2 ⟨hb, fun d hd hcomp hsame => ?_⟩
      have hdb : d = b := huniq d hd hsame.1.symm hsame.2.symm
      subst hdb
      have := (hcomp.1 r hr).resolve_left ha
      rw [List.mem_append, List.mem_singleton] at this
      exact this.elim hgone hrank
  case exitWaits =>
    have waits := exitContext_waits (s := exitBundle s c) (c := c) (by rw [estores]; exact hn)
    have bf := flushStores_flushed (exitBundle s c) c
    have calm : (exitContext (exitBundle s c) c).Calm := by
      rw [waits]
      exact (bf.calm (exitBundle_calm h.toCalm c)).congr (by simp) (by simp)
    have ctx : (exitContext (exitBundle s c) c).ctx c = { (flushStores (exitBundle s c) c).ctx c with nxt := .seq, exits := true } := by
      rw [waits, State.ctx_modCtx_same]
    have task : (exitContext (exitBundle s c) c).task x.tid = k := by
      rw [waits, (State.parts_modCtx ..).2.1, bf.task, exitBundle_task]
    have active : ((exitBundle s c).ctx c).st = .active := by rw [ectx]; exact hst
    have st : ((flushStores (exitBundle s c) c).ctx c).st = .active := (bf.st (by rw [active]; decide)).trans active
    exact ⟨_, (issueOne_noted (o := rowBrExit g) h rfl hg rfl).trans (by rw [finishIssue_exit, settleIssue_calm calm]), by rw [ctx]; exact st,
      by rw [ctx], by rw [task], by rw [task]⟩

end Sys2Proof.Machine

/-! ## The control family (05_control.md): `br.waita` and `br.pload` (R137, R142) -/

namespace Sys2Proof.Machine

/-- A bundle of one slot whose access translates, and which does not issue. -/
theorem issueOne_translated_settle {s t : State} {c va pa : Nat} {acc : Acc} {pte : W64} {o : SlotOp} {v : Verdict} (h : Acts s c)
    (hm : o.mem c s = some (va, acc)) (hg : readGuard s c o.guard = true)
    (ht : translate s (dieOf (coreOf c)) (.core (coreOf c)) (s.asidOf c) va acc (s.ctx c).kLevel = .ok pa pte t)
    (hr : o.run c t = v) (hv : ∀ u, v ≠ .issued u) : issueOne o s = .next (settleIssue (settle t c [v])) := by
  have hw : walkSlots c [o] s = t := walkSlots_translated hm hg (translate_ok ht).1 ht
  have hgt : readGuard t c o.guard = true := by rw [translate_readGuard ht]; exact hg
  unfold issueOne
  simp only [h.acting, issueSlots, hw, runSlots, hgt, hr, Bool.not_true, Bool.false_eq_true, if_false]

/-- A frozen cycle, where no limit on it is set (R22, R23). -/
theorem freezeCycle_unlimited {s : State} {c : Nat} (h : ((s.ctx c).sysReg 0x003).toNat % 2 ^ 32 = 0) (n : Nat) :
    freezeCycle s c n = s.modCtx c (fun y => { y with frz := y.frz + 1, spent := n }) := by
  have never : waitOver s c = false := by
    unfold waitOver
    simp only [h]
    rfl
  unfold freezeCycle
  simp only [never, Bool.false_eq_true, if_false]

/-- The read of a `br.waita` at a translated address, where no store of the context waits and its place is within reach. -/
theorem loadVirt_home {s t : State} {c va pa n : Nat} {pte : W64} (hb : va < 2 ^ 64) (hn : va % n = 0)
    (ht : translate s (dieOf (coreOf c)) (.core (coreOf c)) (s.asidOf c) va .read (s.ctx c).kLevel = .ok pa pte t)
    (hst : (t.ctx c).stores = []) (hr : t.reach (dieOf (coreOf c)) (t.placeOf (s.asidOf c) va pa) = true)
    (hbad : t.badAt (t.placeOf (s.asidOf c) va pa) n = false) :
    loadVirt t c va n true = .val (t.readN (t.placeOf (s.asidOf c) va pa) n) (t.placeOf (s.asidOf c) va pa / 64)
      (t.loadHome (.core (coreOf c)) (t.placeOf (s.asidOf c) va pa) 0) := by
  have again : translate t (dieOf (coreOf c)) (.core (coreOf c)) (s.asidOf c) va .read (t.ctx c).kLevel = .ok pa pte t := by
    rw [(translate_accessed ht).kLevel]
    exact translate_again ht
  simp only [loadVirt, Nat.mod_eq_of_lt hb, (translate_ok ht).1, hn, again, flushStores_none hst, (translate_accessed ht).asidOf, hst, hr, hbad]
  rfl

/-- A context that has blocked after an access keeps the place and the registers of before it. -/
theorem BlocksOn.of_accessed {s t u : State} {c : Nat} {why : Block} (h : s.Accessed t) (b : BlocksOn t u c why) : BlocksOn s u c why := by
  obtain ⟨st, why, pc, handle, idle, regs⟩ := b
  obtain ⟨sr, pr, lc, vr, vm, sys, tok, att, cand⟩ := regs
  rw [(h.ctx c).same] at pc handle sr pr lc vr vm sys tok att cand
  exact ⟨st, why, pc, handle, idle, sr, pr, lc, vr, vm, sys, tok, att, cand⟩

/-- Predicates exposed one after another change neither the note of the context nor what is left to settle. -/
theorem foldl_expose_between {c : Nat} (f : Nat → Dst) (v : Nat → Nat) (l : List Nat) : ∀ {t : State}, (t.ctx c).nxt = .seq →
    ((l.foldl (fun t j => expose t c 0 (f j) (v j) 2 0) t).ctx c).nxt = .seq := by
  induction l with
  | nil => exact id
  | cons j r ih => exact fun h => ih (by rw [expose_nxt]; exact h)

/-- Settles O28: the cases of `opBrWaita`, after the walk of its access; `br.pload` is a load that exposes eight predicates. -/
theorem waitsAndPredicateLoads : Obligations.WaitsAndPredicateLoads := by
  intro s s' c pa pte g a b cd h hg hact x va at_ hcan hal ht hst hr hlim t holds
  have acc := translate_accessed ht
  have vab : va < 2 ^ 64 := BitVec.isLt _
  have access : wordAccess a 8 .read c s = some (va, .read) := ordAccess_of_aligned vab hcan hal
  have addr : (readS s' c a.toNat).toNat = va := by rw [translate_readS ht]
  have test : (s'.ctx c).test = x.test := acc.kept (·.test) (fun _ _ _ => rfl) c
  have frz : (s'.ctx c).frz = x.frz := acc.kept (·.frz) (fun _ _ _ => rfl) c
  have pc : (s'.ctx c).pc = x.pc := acc.kept (·.pc) (fun _ _ _ => rfl) c
  have lim : ((s'.ctx c).sysReg 0x003).toNat % 2 ^ 32 = 0 := by rw [acc.sysReg]; exact hlim
  refine ⟨fun hx hn => ?passes, fun hx => ?blocks, fun hx h0 hbad => ?freezes, fun hx h0 hbad => ?tests, fun v u hl hn => ?pload⟩
  case passes =>
    exact issueOne_translated (o := rowBrWaita g a b cd) h access hg ht (by simp only [rowBrWaita, opBrWaita, test, hx]) hn
  case blocks =>
    have run : (rowBrWaita g a b cd).run c s' = .block .address .none := by simp only [rowBrWaita, opBrWaita, test, hx]
    have calm : (blockContext s' c .address .none).Calm := (acc.calm h.toCalm).congr rfl rfl
    have active : (s'.core (coreOf c)).active = some c := by rw [acc.core]; exact hact
    refine ⟨blockContext s' c .address .none, ?_, .of_accessed acc (blockContext_blocksOn .address active), by rw [blockContext_ctx]⟩
    refine (issueOne_translated_settle (o := rowBrWaita g a b cd) h access hg ht run nofun).trans ?_
    exact congrArg _ (settleIssue_calm calm)
  case freezes =>
    have run : (rowBrWaita g a b cd).run c s' = .stall := by
      simp only [rowBrWaita, opBrWaita, test, hx, addr, loadVirt_home vab hal ht hst hr hbad, frz, h0, if_true]
    have frozen : settle s' c [.stall] = s'.modCtx c (fun y => { y with frz := y.frz + 1, spent := (s'.ctx c).spent }) :=
      freezeCycle_unlimited lim _
    have calm : (settle s' c [.stall]).Calm := by
      rw [frozen]
      exact (acc.calm h.toCalm).congr (by simp) (by simp)
    refine ⟨settle s' c [.stall], ?_, ?_⟩
    · rw [← settleIssue_calm calm]
      exact issueOne_translated_settle (o := rowBrWaita g a b cd) h access hg ht run nofun
    · rw [frozen, State.ctx_modCtx_same]
      exact ⟨by rw [frz, h0], pc, test.trans hx⟩
  case tests =>
    let u := t.modCtx c (fun y => { y with test := some holds, watch := if holds then y.watch else some (at_ / 64) })
    have readB : readS s' c b.toNat = readS s c b.toNat := translate_readS ht c _
    have run : (rowBrWaita g a b cd).run c s' = .testing u := by
      simp only [rowBrWaita, opBrWaita, test, hx, addr, loadVirt_home vab hal ht hst hr hbad, frz, if_neg h0, readB]
      rfl
    have home : s'.Accessed t := .loadHome ..
    have same := acc.trans home
    let w := u.modCore (coreOf c) (fun g => { g with wait := none })
    have wctx : w.ctx c = { t.ctx c with test := some holds, watch := if holds then (t.ctx c).watch else some (at_ / 64) } := by
      simp only [w, u, State.parts_modCore, State.ctx_modCtx_same]
    have wlim : ((w.ctx c).sysReg 0x003).toNat % 2 ^ 32 = 0 := by
      rw [wctx]
      exact (congrArg (·.toNat % 2 ^ 32) (same.sysReg c 0x003)).trans hlim
    have frozen : settle s' c [.testing u] = w.modCtx c (fun y => { y with frz := y.frz + 1, spent := (s'.ctx c).spent }) :=
      freezeCycle_unlimited wlim _
    have calm : (settle s' c [.testing u]).Calm := by
      rw [frozen]
      exact (same.calm h.toCalm).congr (by simp [w, u]) (by simp [w, u])
    refine ⟨settle s' c [.testing u], ?_, ?_⟩
    · rw [← settleIssue_calm calm]
      exact issueOne_translated_settle (o := rowBrWaita g a b cd) h access hg ht run nofun
    · rw [frozen, State.ctx_modCtx_same, wctx]
      exact ⟨rfl, same.kept (·.pc) (fun _ _ _ => rfl) c, congrArg (· + 1) (same.kept (·.frz) (fun _ _ _ => rfl) c), fun hh => by rw [hh]; rfl, rfl⟩
  case pload =>
    refine issueOne_translated (o := rowBrPload g a) h access hg ht ?_ (foldl_expose_between _ _ _ hn)
    simp only [rowBrPload, opBrPload, addr, loadVirt_translated vab hal ht hst hr hl]
    rfl

end Sys2Proof.Machine

/-! ## The scratchpad (06_scratchpad.md): loads, stores, tile commands and tag sets -/

namespace Sys2Proof.Machine

theorem State.Between.setCore {s : State} {c : Nat} (h : s.Between c) (g : Nat) (x : Core) : (s.setCore g x).Between c :=
  ⟨h.toCalm.congr (by simp) (by simp), h.between⟩

theorem State.Between.expose {s : State} {c : Nat} (h : s.Between c) (slot v b : Nat) (d : Dst) (ev : Cats) : (expose s c slot d v b ev).Between c :=
  ⟨expose_calm h.toCalm .., by rw [expose_nxt]; exact h.between⟩

/-! ### Loads (R160) -/

theorem readWords_clean {g : Core} {gn : Nat} {ws : List Nat} (h : ∀ w ∈ ws, g.bad 1 w = false) :
    readWords g gn ws = .ok (ws.map (fun w => SMap.get 0 g.sp w)) := by
  have : ws.find? (fun w => g.bad 1 w) = none := List.find?_eq_none.2 fun w hw => by rw [h w hw]; decide
  rw [readWords, this]

/-- A load of words, in the cycle in which it may go. -/
theorem laLoad_goes {addrs : List Nat} {m : BitVec 2} {c : Nat} {s : State} (put : State → List W64 → State) (hl : (s.ctx c).spLines ≠ 0)
    (hw : accessWait (s.core (coreOf c)) m.toNat (s.ctx c).spent
      (maxSame ((addrs.map (s.ctx c).wrapWord).map (s.core (coreOf c)).bank) - 1) (addrs.map (s.ctx c).wrapWord) = none)
    (hb : ∀ w ∈ addrs.map (s.ctx c).wrapWord, (s.core (coreOf c)).bad 1 w = false) :
    laLoad addrs m c s put = .issued (put (s.setCore (coreOf c) (((s.core (coreOf c)).tagAfter m.toNat (addrs.map (s.ctx c).wrapWord)).use
      (addrs.map (s.ctx c).wrapWord))) ((addrs.map (s.ctx c).wrapWord).map (fun w => SMap.get 0 (s.core (coreOf c)).sp w))) := by
  unfold laLoad
  simp only [if_neg hl, hw, readWords_clean hb]

theorem laLoad_empty {addrs : List Nat} {m : BitVec 2} {c : Nat} {s : State} (put : State → List W64 → State) (hl : (s.ctx c).spLines = 0) :
    laLoad addrs m c s put = .issued (put s (addrs.map (fun _ => 0))) := by
  unfold laLoad
  rw [if_pos hl]

/-- The words of a form, from its addresses. -/
theorem map_laAddrs (s : State) (c : Nat) (b : BitVec 6) (o : BitVec 7) (unit step n : Nat) (f : Nat → Nat) :
    (laAddrs s c b o unit step n).map f = (List.range n).map (fun j => f (((readS s c b.toNat).toNat + unit * o.toNat) % 2 ^ 22 + step * j)) := by
  rw [laAddrs, List.map_map]
  rfl

theorem wordsVec_zeros (n : Nat) : (wordsVec (List.replicate n 0)).toNat = 0 := by
  have : packLanes 64 ((List.replicate n (0 : W64)).map (fun w => w.toNat)) = 0 := by
    induction n with
    | zero => rfl
    | succ n ih => simpa [List.replicate_succ, packLanes] using ih
  rw [wordsVec, this, BitVec.toNat_ofNat, Nat.zero_mod]

/-- Settles O29: the two cases of `laLoad` for each of the three forms. -/
theorem scratchpadLoads : Obligations.ScratchpadLoads := by
  intro s c g d b m o h hg x k base place row goes held out
  have words (unit step n : Nat) : (laAddrs s c b o unit step n).map x.wrapWord = row unit step n := map_laAddrs ..
  have load (unit step n bound : Nat) (dst : Dst) (val : List W64 → Nat) (run : Nat → State → Verdict) (i : Instr)
      (hi : exec i s = issueOne ⟨3, g, noAccess, run⟩ s)
      (hr : run c s = laLoad (laAddrs s c b o unit step n) m c s (fun s vs => expose s c 3 dst (val vs) bound 0)) :
      (x.spLines ≠ 0 → goes (row unit step n) → exec i s = out (row unit step n) dst (val ((row unit step n).map held)) bound) ∧
      (x.spLines = 0 → exec i s = .next (issuedNext (expose s c 3 dst (val (List.replicate n 0)) bound 0) c)) := by
    refine ⟨fun hl hgo => ?_, fun hl => ?_⟩
    · rw [← words] at hgo ⊢
      exact exec_exposed h hg (h.toBetween.setCore ..) hi (hr.trans (laLoad_goes _ hl hgo.1 hgo.2))
    · refine exec_exposed h hg h.toBetween hi (hr.trans ((laLoad_empty _ hl).trans ?_))
      simp [laAddrs, Function.comp_def]
  obtain ⟨w, w0⟩ := load 8 8 1 3 (.s d.toNat) (fun vs => (wordAt vs 0).toNat) _ (.ldW g d b m o) rfl rfl
  obtain ⟨r, r0⟩ := load 256 8 32 4 (.v d.toNat) (fun vs => (wordsVec vs).toNat) _ (.ldRow g d b m o) rfl rfl
  obtain ⟨l, l0⟩ := load 8 768 32 4 (.v d.toNat) (fun vs => (wordsVec vs).toNat) _ (.ldCol g d b m o) rfl rfl
  rw [wordsVec_zeros] at r0 l0
  exact ⟨w, r, l, fun hl => ⟨w0 hl, r0 hl, l0 hl⟩⟩

/-! ### Stores (R107 to R109, R160) -/

theorem modeTag_eq (m : BitVec 2) : modeTag m.toNat = if m = 2 then some false else if m = 3 then some true else none := by
  revert m
  decide

/-- A store of words, in the cycle in which it may go. -/
theorem laStore_goes {addrs : List Nat} {vals : List W64} {m : BitVec 2} {c : Nat} {s : State} (hl : (s.ctx c).spLines ≠ 0)
    (hw : accessWait (s.core (coreOf c)) m.toNat (s.ctx c).spent
      (maxSame ((addrs.map (s.ctx c).wrapWord).map (s.core (coreOf c)).bank) - 1) (addrs.map (s.ctx c).wrapWord) = none) :
    laStore addrs vals m c s = .issued (s.setCore (coreOf c) { (s.core (coreOf c)).use (addrs.map (s.ctx c).wrapWord) with
      spw := (s.core (coreOf c)).spw ++ ((addrs.map (s.ctx c).wrapWord).zip vals).map
        (fun p => ⟨p.1, p.2, if m = 2 then some false else if m = 3 then some true else none, 0, if m = 0 then 2 else 0⟩) }) := by
  unfold laStore
  simp only [if_neg hl, hw, modeTag_eq]

theorem laStore_empty {addrs : List Nat} {vals : List W64} {m : BitVec 2} {c : Nat} {s : State} (hl : (s.ctx c).spLines = 0) :
    laStore addrs vals m c s = .issued s := by
  unfold laStore
  rw [if_pos hl]

/-- The one tagged write of a bundle is performed at its end (R109). -/
theorem Core.performTagged_single {g : Core} {l : List SpWrite} {w : SpWrite} (hs : g.spw = l ++ [w]) (hl : ∀ y ∈ l, y.bound ≠ 0) (hw : w.bound = 0) :
    ∃ spw, g.performTagged = { g.performWrite w with spw := spw } := by
  have due : g.spw.filter (fun w => w.bound == 0) = [w] := by
    have : l.filter (fun w => w.bound == 0) = [] := List.filter_eq_nil_iff.2 fun y hy => by simpa using hl y hy
    simp [hs, this, hw]
  exact ⟨_, by rw [performTagged, due]; rfl⟩

/-- A scratchpad write in its word and the word's tag. -/
theorem Core.performWrite_word (g : Core) (w : SpWrite) : SMap.get 0 (g.performWrite w).sp w.word = w.val ∧ (g.performWrite w).bad 1 w.word = false ∧
    SMap.get false (g.performWrite w).tag w.word = w.tag.getD (SMap.get false g.tag w.word) := by
  unfold performWrite
  split
  · next ht => simp [Core.bad, Core.setBad, ht]
  · next b ht => simp [Core.bad, Core.setBad, Core.setTags, ht]

/-- The core of a context at the end of its bundle, where it has tagged writes. -/
theorem issuedNext_core (s : State) (c : Nat) (h : (s.core (coreOf c)).spw ≠ []) :
    (issuedNext s c).core (coreOf c) = (s.core (coreOf c)).performTagged := by
  have waiting : ¬(({ s with free := s.free + 1 } : State).core (coreOf c)).spw.isEmpty = true := by
    rw [List.isEmpty_iff]
    exact h
  rw [issuedNext, (State.parts_modCtx ..).1, State.performTagged, if_neg waiting, State.core_modCore_same]
  rfl

/-- Settles O30: the two cases of `laStore` for each of the three forms; the tagged word of `st.w` is performed by `performTagged`. -/
theorem scratchpadStores : Obligations.ScratchpadStores := by
  intro s c g d b m o h hg x k base row goes out words
  have places (unit step n : Nat) : (laAddrs s c b o unit step n).map x.wrapWord = row unit step n := map_laAddrs ..
  have store (unit step n : Nat) (vals : List W64) (run : Nat → State → Verdict) (i : Instr) (hi : exec i s = issueOne ⟨3, g, noAccess, run⟩ s)
      (hr : run c s = laStore (laAddrs s c b o unit step n) vals m c s) :
      (x.spLines ≠ 0 → goes (row unit step n) → exec i s = out (row unit step n) vals) ∧ (x.spLines = 0 → exec i s = .next (issuedNext s c)) := by
    refine ⟨fun hl hgo => ?_, fun hl => exec_effect h hg h.toBetween hi (hr.trans (laStore_empty hl))⟩
    rw [← places] at hgo ⊢
    exact exec_effect h hg (h.toBetween.setCore ..) hi (hr.trans (laStore_goes hl hgo))
  obtain ⟨w, w0⟩ := store 8 8 1 [readS s c d.toNat] _ (.stW g d b m o) rfl rfl
  obtain ⟨r, r0⟩ := store 256 8 32 words _ (.stRow g d b m o) rfl rfl
  obtain ⟨l, l0⟩ := store 8 768 32 words _ (.stCol g d b m o) rfl rfl
  refine ⟨w, fun hl hgo hm hk => ?_, r, l, fun hl => ⟨w0 hl, r0 hl, l0 hl⟩⟩
  have single : row 8 8 1 = [x.wrapWord (base 8)] := rfl
  let wr : SpWrite :=
    ⟨x.wrapWord (base 8), readS s c d.toNat, if m = 2 then some false else if m = 3 then some true else none, 0, if m = 0 then 2 else 0⟩
  let k' : Core := { k.use [x.wrapWord (base 8)] with spw := k.spw ++ [wr] }
  have stored : exec (.stW g d b m o) s = .next (issuedNext (s.setCore (coreOf c) k') c) := w hl hgo
  have core : (s.setCore (coreOf c) k').core (coreOf c) = k' := by simp [State.core, State.setCore]
  obtain ⟨spw, performed⟩ := Core.performTagged_single (g := k') rfl hk (if_neg hm : wr.bound = 0)
  obtain ⟨hsp, hbad, htag⟩ := k'.performWrite_word wr
  refine ⟨_, stored, fun p hp => ?_⟩
  obtain rfl : p = wr.word := List.mem_singleton.1 hp
  rw [issuedNext_core _ _ (by rw [core]; simp [k']), core, performed]
  refine ⟨hsp, hbad, fun h2 => ?_, fun h3 => ?_, fun h1 => ?_⟩
  · exact htag.trans (by simp [wr, h2])
  · exact htag.trans (by simp [wr, h3])
  · exact htag.trans (by simp [wr, h1, k', Core.use])

end Sys2Proof.Machine

/-! ## The scratchpad (06_scratchpad.md): tile commands and tag sets (R161 to R164) -/

namespace Sys2Proof.Machine

/-- A bundle of one slot that would issue but for a schedule violation: its trap is taken (09_matrix.md R216). -/
theorem issueOne_sched {s : State} {c : Nat} {info : W64} {o : SlotOp} (h : Acts s c) (hm : o.mem c s = none)
    (hg : readGuard s c o.guard = true) (hr : o.run c s = .trap 6 info) : issueOne o s = .next (trapped s c 6 info) := by
  have ht : takenOf [.trap 6 info] = some (.trap 6 info) := rfl
  unfold issueOne
  simp only [h.acting, issueSlots, walkSlots_none hm, runSlots, hg, hr, Bool.not_true, Bool.false_eq_true, if_false, settle, freezeSpent, ht,
    trapped]

/-! ### The first cycle that meets a window (R216) -/

/-- The better of two meetings of windows: the earlier one. -/
def earlierHit (best : Option (Nat × Nat)) (p : Nat × Nat) : Option (Nat × Nat) :=
  match best with
  | none => some p
  | some q => if p.2 < q.2 then some p else some q

/-- The window that a cycle meets, with the cycle. -/
def Core.hitAt (g : Core) (t : Nat) : Option (Nat × Nat) :=
  match g.wins.findIdx? (fun w => w.cycles.contains t) with
  | some i => some (i, t)
  | none => none

theorem Core.meetsWindow_eq (g : Core) (cs : List Nat) : g.meetsWindow cs = (cs.filterMap g.hitAt).foldl earlierHit none := rfl

theorem foldl_earlierHit {q : Nat × Nat} {l : List (Nat × Nat)} (h : ∀ p ∈ l, q.2 ≤ p.2) : l.foldl earlierHit (some q) = some q := by
  induction l with
  | nil => rfl
  | cons p r ih =>
    rw [List.foldl_cons, earlierHit, if_neg (Nat.not_lt.2 (h p List.mem_cons_self))]
    exact ih fun p hp => h p (List.mem_cons_of_mem _ hp)

theorem Core.hitAt_snd {g : Core} {t : Nat} {p : Nat × Nat} (h : g.hitAt t = some p) : p.2 = t := by
  unfold hitAt at h
  split at h
  · exact (Option.some.inj h) ▸ rfl
  · exact nomatch h

theorem Core.hitAt_none {g : Core} {t : Nat} (h : ∀ w ∈ g.wins, t ∉ w.cycles) : g.hitAt t = none := by
  have : g.wins.findIdx? (fun w => w.cycles.contains t) = none := List.findIdx?_eq_none_iff.2 fun w hw => by simpa using h w hw
  rw [hitAt, this]

/-- The oldest window that a cycle meets. -/
theorem Core.hitAt_first {g : Core} {t i : Nat} {w : Window} (hi : g.wins[i]? = some w) (hw : t ∈ w.cycles)
    (hf : ∀ n w, n < i → g.wins[n]? = some w → t ∉ w.cycles) : g.hitAt t = some (i, t) := by
  obtain ⟨hlt, hget⟩ := List.getElem?_eq_some_iff.1 hi
  have : g.wins.findIdx? (fun w => w.cycles.contains t) = some i := by
    rw [List.findIdx?_eq_some_iff_getElem]
    refine ⟨hlt, by rw [hget]; simpa using hw, fun n hn => ?_⟩
    simpa using hf n _ hn (List.getElem?_eq_getElem (hn.trans hlt))
  rw [hitAt, this]

/-- Of the port cycles `p 0` to `p (N - 1)`, which rise, the first that meets a window, and the oldest window that it meets. -/
theorem Core.meetsWindow_range {g : Core} {p : Nat → Nat} {N m i : Nat} {w : Window} (rise : Monotone p) (hm : m < N) (hi : g.wins[i]? = some w)
    (hw : p m ∈ w.cycles) (hf : ∀ n w, n < i → g.wins[n]? = some w → p m ∉ w.cycles) (he : ∀ n, n < m → ∀ w ∈ g.wins, p n ∉ w.cycles) :
    g.meetsWindow ((List.range N).map p) = some (i, p m) := by
  obtain ⟨k, rfl⟩ : ∃ k, N = m + (1 + k) := ⟨N - m - 1, by omega⟩
  have before : ((List.range m).map p).filterMap g.hitAt = [] := by
    rw [List.filterMap_eq_nil_iff]
    intro t ht
    obtain ⟨n, hn, rfl⟩ := List.mem_map.1 ht
    exact hitAt_none (he n (List.mem_range.1 hn))
  rw [meetsWindow_eq, List.range_add, List.map_append, List.filterMap_append, before, List.nil_append, List.range_add, List.range_one,
    List.map_append, List.map_append, List.filterMap_append, List.map_singleton, List.map_singleton, Nat.add_zero, List.filterMap_cons,
    hitAt_first hi hw hf]
  refine foldl_earlierHit fun q hq => ?_
  obtain ⟨t, ht, hit⟩ := List.mem_filterMap.1 hq
  rw [hitAt_snd hit]
  simp only [List.map_map, List.mem_map] at ht
  obtain ⟨n, -, rfl⟩ := ht
  exact rise (Nat.le_add_right m _)

theorem portCheck_window {g : Core} {p : Nat → Nat} {kind N m i : Nat} {w : Window} (rise : Monotone p) (hc : ∀ j, j < N → p j ∉ g.claims)
    (hm : m < N) (hi : g.wins[i]? = some w) (hw : p m ∈ w.cycles) (hf : ∀ n w, n < i → g.wins[n]? = some w → p m ∉ w.cycles)
    (he : ∀ n, n < m → ∀ w ∈ g.wins, p n ∉ w.cycles) :
    portCheck g kind ((List.range N).map p) = some (.trap 6 (schedInfo kind i (p m))) := by
  have free : ((List.range N).map p).any (fun t => g.claims.contains t) = false := by
    rw [List.any_eq_false]
    intro t ht
    obtain ⟨n, hn, rfl⟩ := List.mem_map.1 ht
    simpa using hc n (List.mem_range.1 hn)
  rw [portCheck, free]
  simp only [Bool.false_eq_true, if_false, Core.meetsWindow_range rise hm hi hw hf he]

/-- Settles O31: the branches of `tileCmd` and of `tagset`; a trap of the port's is that of the first cycle that meets a window. -/
theorem tileCommandsAndTagSet : Obligations.TileCommandsAndTagSet := by
  intro s c g t r b n m rows h hg x k base tp ar ap words own banks N open_ begun
  -- a command of the owner, where its banks, tags and resources are free: what is left is the port
  have owned (load acc : Bool) (ps : List Nat) (res : List Res) (ho : k.owner = some c) (hopen : open_ ps) (hfree : k.free [] res [] = true) :
      tileCmd load acc base ps res m c s =
        match (if load && acc then portCheck k 3 ((List.range (N ps)).map (fun i => i + 1)) else none) with
        | some v => v
        | none =>
          let k' := (k.tagAfter m.toNat (own ps)).mark res load (N ps + 2)
          .issued (s.setCore (coreOf c) { k' with
            tcmds := k'.tcmds ++ [⟨load, acc, ps.zip (words ps), chunkCycles k' ((words ps).take 32) + 1, banks ps, x.tid⟩] }) := by
    obtain ⟨hlock, htags⟩ := hopen
    have hown : isOwner s c = true := by simp [isOwner, ho, k]
    have gate : ¬(k.locked (banks ps) || !k.tagsMeet m.toNat (own ps) || !k.free [] res []) = true := by
      rw [hlock, htags, hfree]
      decide
    unfold tileCmd
    exact (if_neg (by rw [hown]; decide)).trans (if_neg gate)
  have goes (load acc : Bool) (ps : List Nat) (res : List Res) (run : Nat → State → Verdict) (i : Instr)
      (hi : exec i s = issueOne ⟨3, g, noAccess, run⟩ s) (hr : run c s = tileCmd load acc base ps res m c s)
      (hp : k.owner = some c → (if load && acc then portCheck k 3 ((List.range (N ps)).map (fun i => i + 1)) else none) = none)
      (ho : k.owner = some c) (hopen : open_ ps) (hfree : k.free [] res [] = true) : exec i s = begun load acc ps res :=
    exec_effect h hg (h.toBetween.setCore ..) hi (hr.trans ((owned load acc ps res ho hopen hfree).trans (by rw [hp ho])))
  have refused (load acc : Bool) (ps : List Nat) (res : List Res) (run : Nat → State → Verdict) (i : Instr) (ho : k.owner ≠ some c)
      (hi : exec i s = issueOne ⟨3, g, noAccess, run⟩ s) (hr : run c s = tileCmd load acc base ps res m c s) :
      exec i s = .next (trapped s c 4 3) := by
    have hown : isOwner s c = false := by simpa [isOwner] using ho
    exact exec_trapped h hg hi (hr.trans (by unfold tileCmd; simp only [hown]; rfl)) (by decide)
  have tags (full : Bool) (cnt : Nat) (hc : cnt = min (readS s c n.toNat).toNat 4096) (run : Nat → State → Verdict) (i : Instr)
      (hi : exec i s = issueOne ⟨3, g, noAccess, run⟩ s) (hr : run c s = tagset full b n c s)
      (hw : accessWait k 0 x.spent ((cnt + 255) / 256 - 1) (if x.spLines = 0 then [] else (List.range cnt).map (fun j => x.wrapWord (base + 8 * j))) = none) :
      exec i s = .next (issuedNext (s.setCore (coreOf c)
        (k.setTags (if x.spLines = 0 then [] else (List.range cnt).map (fun j => x.wrapWord (base + 8 * j))) full)) c) := by
    subst hc
    refine exec_effect h hg (h.toBetween.setCore ..) hi (hr.trans ?_)
    unfold tagset
    simp only [hw, x, k, base]
  refine ⟨goes true false tp [.tile t.toNat] _ _ rfl rfl fun _ => rfl, goes false false tp [.tile t.toNat] _ _ rfl rfl fun _ => rfl,
    fun ho hopen hfree hp => goes true true ap (ar.map .row) _ _ rfl rfl (fun _ => hp) ho hopen hfree,
    fun j i w ho hopen hfree hj hc hi hw hf he => ?window, goes false true ap (ar.map .row) _ _ rfl rfl fun _ => rfl, fun ho i hi => ?notOwner,
    fun hw => ⟨tags true _ rfl _ _ rfl rfl hw, tags false _ rfl _ _ rfl rfl hw⟩⟩
  case window =>
    refine issueOne_sched (o := rowLdAcc g r b m rows) h rfl hg ((owned true true ap (ar.map .row) ho hopen hfree).trans ?_)
    rw [if_pos (by rfl), portCheck_window (p := fun i => i + 1) (fun _ _ hle => Nat.add_le_add_right hle 1) hc hj hi hw hf he]
    rfl
  case notOwner =>
    simp only [List.mem_cons, List.not_mem_nil, or_false] at hi
    rcases hi with rfl | rfl | rfl | rfl
    · exact refused true false tp [.tile t.toNat] _ _ ho rfl rfl
    · exact refused false false tp [.tile t.toNat] _ _ ho rfl rfl
    · exact refused true true ap (ar.map .row) _ _ ho rfl rfl
    · exact refused false true ap (ar.map .row) _ _ ho rfl rfl

end Sys2Proof.Machine

/-! ## The vector family (07_vector.md): arithmetic, functions, and the queues between engines

A row gives a list of results, each a value and the events of its making; the vector holds the values, and the row records all the events. -/

namespace Sys2Proof.Machine

/-! ### Lists of results -/

/-- The events of a list of results, all together. -/
def catsOf (l : List (Nat × Cats)) : Cats := l.foldr (fun p ev => p.2 ||| ev) 0

theorem catsOf_cons (p : Nat × Cats) (l : List (Nat × Cats)) : catsOf (p :: l) = p.2 ||| catsOf l := rfl

theorem Cats.or_zero (e : Cats) : e ||| 0 = e := BitVec.or_zero

theorem Cats.zero_or (e : Cats) : 0 ||| e = e := BitVec.zero_or

theorem catsOf_append (l m : List (Nat × Cats)) : catsOf (l ++ m) = catsOf l ||| catsOf m := by
  induction l with
  | nil => exact (BitVec.zero_or).symm
  | cons p l ih => rw [List.cons_append, catsOf_cons, catsOf_cons, ih, BitVec.or_assoc]

/-- Results without events record none. -/
theorem catsOf_quiet {l : List (Nat × Cats)} (h : ∀ p ∈ l, p.2 = 0) : catsOf l = 0 := by
  induction l with
  | nil => rfl
  | cons p l ih => rw [catsOf_cons, h p List.mem_cons_self, ih fun q hq => h q (List.mem_cons_of_mem _ hq)]; rfl

theorem catsOf_replicate (n v : Nat) : catsOf (List.replicate n (v, 0)) = 0 :=
  catsOf_quiet fun _ hp => congrArg Prod.snd (List.eq_of_mem_replicate hp)

theorem catsOf_map_zero {α : Type} (l : List α) (v : α → Nat) : catsOf (l.map fun x => (v x, 0)) = 0 :=
  catsOf_quiet fun _ hp => by obtain ⟨_, -, rfl⟩ := List.mem_map.1 hp; rfl

/-- Events gathered from the left are the events gathered from the right. -/
theorem foldl_or_eq_catsOf {α : Type} (v : α → Nat) (ev : α → Cats) (l : List α) (e : Cats) :
    l.foldl (fun e x => e ||| ev x) e = e ||| catsOf (l.map fun x => (v x, ev x)) := by
  induction l generalizing e with
  | nil => exact (BitVec.or_zero).symm
  | cons x l ih => rw [List.foldl_cons, ih, List.map_cons, catsOf_cons, BitVec.or_assoc]

/-- An operation over two lists with indices from `k` on gives the list of its results. -/
theorem zipEv_results (F : Nat → Nat → Nat → Nat × Cats) (n : Nat) (a b : Nat → Nat) : ∀ k : Nat,
    (zipEv F k ((List.range n).map a) ((List.range n).map b)).2 = catsOf ((List.range n).map fun i => F (k + i) (a i) (b i)) := by
  induction n generalizing a b with
  | zero => exact fun _ => rfl
  | succ n ih =>
    intro k
    simp only [List.range_succ_eq_map, List.map_cons, List.map_map, zipEv, catsOf_cons]
    refine congrArg (_ ||| ·) ((ih (a ∘ Nat.succ) (b ∘ Nat.succ) (k + 1)).trans (congrArg catsOf (List.map_congr_left fun i _ => ?_)))
    simp only [Function.comp_apply, Nat.succ_eq_add_one, Nat.add_right_comm k 1 i, Nat.add_assoc]

/-- An operation over one list with indices from `k` on gives the list of its results. -/
theorem mapEv_results (F : Nat → Nat → Nat × Cats) (n : Nat) (a : Nat → Nat) : ∀ k : Nat,
    mapEv F k ((List.range n).map a) =
      (((List.range n).map fun i => F (k + i) (a i)).map Prod.fst, catsOf ((List.range n).map fun i => F (k + i) (a i))) := by
  induction n generalizing a with
  | zero => exact fun _ => rfl
  | succ n ih =>
    intro k
    simp only [List.range_succ_eq_map, List.map_cons, List.map_map, mapEv, catsOf_cons]
    rw [← List.map_map, List.map_map, ih (a ∘ Nat.succ) (k + 1)]
    simp only [Function.comp_def, Nat.succ_eq_add_one, Nat.add_right_comm k 1, Nat.add_assoc, Nat.add_zero, List.map_map]

/-- The results of an operation over the elements of two vectors. -/
theorem zipEv_elems (F : Nat → Nat → Nat → Nat × Cats) (f : Fmt) (va vb : Vec) :
    zipEv F 0 (elems f va) (elems f vb) =
      (((List.range f.lanes).map fun i => F i (elem f va i) (elem f vb i)).map Prod.fst,
        catsOf ((List.range f.lanes).map fun i => F i (elem f va i) (elem f vb i))) := by
  refine Prod.ext ?_ ?_
  · simp only [elems, zipEv_map_range, Nat.zero_add, List.map_map, Function.comp_def]
  · simp only [elems, zipEv_results, Nat.zero_add]

/-- The results of an operation over the elements of one vector. -/
theorem mapEv_elems (F : Nat → Nat → Nat × Cats) (f : Fmt) (n : Nat) (va : Vec) :
    mapEv F 0 ((List.range n).map (elem f va)) =
      (((List.range n).map fun i => F i (elem f va i)).map Prod.fst, catsOf ((List.range n).map fun i => F i (elem f va i))) := by
  simp only [mapEv_results, Nat.zero_add]

/-! ### Reading a hold operand touches the core's hold register alone -/

theorem readHeld_ctx (s : State) (c : Nat) (f : BitVec 6) (d : Nat) : (readHeld s c f).2.ctx d = s.ctx d := by
  unfold readHeld
  dsimp only
  split
  · rfl
  · split
    · rfl
    · split <;> rfl

theorem readHeld2_ctx (s : State) (c : Nat) (fa fb : BitVec 6) (d : Nat) : (readHeld2 s c fa fb).2.2.ctx d = s.ctx d := by
  rw [readHeld2_state, readHeld_ctx, readHeld_ctx]

/-- Reading a hold operand may latch a vector in a core; nothing else of the core changes. -/
theorem readHeld_core (s : State) (c : Nat) (f : BitVec 6) (n : Nat) : ∃ v, (readHeld s c f).2.core n = { s.core n with hold := v } := by
  unfold readHeld
  dsimp only
  split
  · exact ⟨_, rfl⟩
  · split
    · by_cases hn : n = coreOf c
      · exact ⟨some (readV s c (f.toNat - 32)), by rw [hn, State.core_modCore_same]⟩
      · exact ⟨_, State.core_modCore_ne _ _ hn⟩
    · split <;> exact ⟨_, rfl⟩

/-- Reading a hold operand leaves the free values of a cycle as they were. -/
theorem readHeld_freeAt (s : State) (c : Nat) (f : BitVec 6) (n : Nat) : (readHeld s c f).2.freeAt n = s.freeAt n := by
  unfold readHeld
  dsimp only
  split
  · rfl
  · split
    · rfl
    · split <;> rfl

/-- A system register other than the cycle counter reads the same after a hold operand is read. -/
theorem readHeld_readSys (s : State) (c : Nat) (f : BitVec 6) {n : Nat} (h : n ≠ 0x038) : readSys (readHeld s c f).2 c n = readSys s c n := by
  simp only [readSys, readLc, State.openValue, readHeld_ctx, readHeld_freeAt, h, if_false]

theorem readHeld_readFrm (s : State) (c : Nat) (f : BitVec 6) : readFrm (readHeld s c f).2 c = readFrm s c := by
  rw [readFrm, readFrm, readHeld_readSys s c f (by decide)]

theorem readHeld_readDraws (s : State) (c : Nat) (f : BitVec 6) : readDraws (readHeld s c f).2 c = readDraws s c := by
  rw [readDraws, readDraws, readHeld_readSys s c f (by decide), readHeld_readSys s c f (by decide), readHeld_ctx]

theorem readHeld2_readFrm (s : State) (c : Nat) (fa fb : BitVec 6) : readFrm (readHeld2 s c fa fb).2.2 c = readFrm s c := by
  rw [readHeld2_state, readHeld_readFrm, readHeld_readFrm]

theorem readHeld2_readDraws (s : State) (c : Nat) (fa fb : BitVec 6) : readDraws (readHeld2 s c fa fb).2.2 c = readDraws s c := by
  rw [readHeld2_state, readHeld_readDraws, readHeld_readDraws]

/-! ### Rows that expose a list of results -/

/-- The outcome of a vector row: its results and their events, exposed from the state `t` in which its operands are read. -/
def gives (t : State) (c d bound : Nat) (f : Fmt) (l : List (Nat × Cats)) : Host.Outcome State Fault Refusal :=
  .next (issuedNext (expose t c 4 (.v d) (ofElems f (l.map Prod.fst)).toNat bound (l.foldr (fun p ev => p.2 ||| ev) 0)) c)

/-- A vector row alone in its bundle. -/
theorem exec_gives {s t : State} {c d bound : Nat} {g : Guard} {run : Nat → State → Verdict} {i : Instr} {f : Fmt} {l : List (Nat × Cats)}
    (h : Acts s c) (hg : readGuard s c g = true) (ht : t.Between c) (hi : exec i s = issueOne ⟨4, g, noAccess, run⟩ s)
    (hr : run c s = .issued (exposeV t c 4 d (ofElems f (l.map Prod.fst)) bound (catsOf l))) : exec i s = gives t c d bound f l :=
  exec_exposed h hg ht hi hr

/-! ### Arithmetic (R169 to R171) -/

/-- A wrapped integer, with IOVF outside the range from -2^(w - 1) to 2^(w - 1) - 1. -/
theorem intWrap_eq (w : Nat) (v : Int) :
    intWrap w v = ((v.emod (2 ^ w)).toNat, if v < -(2 ^ (w - 1)) ∨ 2 ^ (w - 1) ≤ v then catIOVF else 0) := by
  unfold intWrap iovfIf
  simp only [Bool.or_eq_true, decide_eq_true_eq, Int.sub_one_lt_iff]

/-- Sums, differences and products: their draws, and one result an element. -/
theorem vArith_eq (fop : Fmt → RM → W64 → Nat → Nat → Nat × Cats) (iop : Int → Int → Int) (bound : Nat) (d a b : BitVec 6) (t : BitVec 3)
    (c : Nat) (s : State) :
    let f := Fmt.ofCode t.toNat
    let s' := (readHeld2 s c a b).2.2
    let l := (List.range f.lanes).map fun i =>
      let x := elem f (readHeld2 s c a b).1 i
      let y := elem f (readHeld2 s c a b).2.1 i
      if f.isInt then intWrap f.width (iop (signedOf f.width x) (signedOf f.width y)) else fop f (readFrm s c) ((readDraws s c).get i) x y
    vArith fop iop bound d a b t c s = .issued (exposeV (if f.isInt then s' else useDraws s' c 4 f.lanes (readFrm s c)) c 4 d.toNat
      (ofElems f (l.map Prod.fst)) (vBound f bound) (catsOf l)) := by
  simp only [vArith, zipEv_elems, readHeld2_readFrm, readHeld2_readDraws]

/-- The smaller or the larger elements, without an event. -/
theorem vMinMax_eq (isMin : Bool) (d a b : BitVec 6) (t : BitVec 3) (c : Nat) (s : State) :
    let f := Fmt.ofCode t.toNat
    let l : List (Nat × Cats) := (List.range f.lanes).map fun i =>
      let x := elem f (readHeld2 s c a b).1 i
      let y := elem f (readHeld2 s c a b).2.1 i
      (if f.isInt then (if decide (signedOf f.width x < signedOf f.width y) == isMin then x else y) else fminmax isMin f x y, 0)
    vMinMax isMin d a b t c s =
      .issued (exposeV (readHeld2 s c a b).2.2 c 4 d.toNat (ofElems f (l.map Prod.fst)) (vBound f 2) (catsOf l)) := by
  simp only [vMinMax, zipEv_elems, catsOf_map_zero]

/-- The fused multiply-adds: the addend's register is read with the operands. -/
theorem vFma_eq (f : Fmt) (d : BitVec 5) (a b : BitVec 6) (e : BitVec 4) (c : Nat) (s : State) :
    let l := (List.range f.lanes).map fun i => ffma f (readFrm s c) ((readDraws s c).get i) (elem f (readHeld2 s c a b).1 i)
      (elem f (readHeld2 s c a b).2.1 i) (elem f (readV s c e.toNat) i)
    vFma f d a b e c s = .issued (exposeV (useDraws (readHeld2 s c a b).2.2 c 4 f.lanes (readFrm s c)) c 4 d.toNat
      (ofElems f (l.map Prod.fst)) (vBound f 4) (catsOf l)) := by
  simp only [vFma, zipEv_elems, readHeld2_readFrm, readHeld2_readDraws]

/-- The magnitude of an element: IOVF for the most negative integer, whose magnitude wraps to itself. -/
theorem absElem_elem (f : Fmt) (v : Vec) (i : Nat) : absElem f (elem f v i) =
    if f.isInt then ((signedOf f.width (elem f v i)).natAbs, if signedOf f.width (elem f v i) = -(2 ^ (f.width - 1)) then catIOVF else 0)
    else (if (f.decode (elem f v i)).isNan then f.nanCode else elem f v i % 2 ^ (f.width - 1), 0) := by
  have hy : elem f v i < 2 ^ f.width := BitVec.isLt _
  generalize elem f v i = y at hy
  have hyi : (y : Int) % 2 ^ f.width = y := Int.emod_eq_of_lt (Int.natCast_nonneg y) (by exact_mod_cast hy)
  have double : (2 : Int) ^ f.width = 2 * 2 ^ (f.width - 1) := by cases f <;> rfl
  have mostNegative : y = 2 ^ (f.width - 1) ↔ signedOf f.width y = -(2 ^ (f.width - 1)) := by
    have below : (y : Int) < 2 ^ f.width := by exact_mod_cast hy
    have cast : ((2 ^ (f.width - 1) : Nat) : Int) = 2 ^ (f.width - 1) := by norm_cast
    rw [signedOf, Nat.mod_eq_of_lt hy, hyi]
    generalize 2 ^ (f.width - 1) = half at *
    split <;> omega
  unfold absElem Fmt.signBit
  by_cases hi : f.isInt = true
  · rw [if_pos hi, if_pos hi, Nat.mod_eq_of_lt hy]
    by_cases hm : y = 2 ^ (f.width - 1)
    · rw [if_pos hm, if_pos (mostNegative.1 hm), mostNegative.1 hm]
      simp [Int.natAbs_pow]
    · rw [if_neg hm, if_neg (mostNegative.not.1 hm)]
  · rw [if_neg hi, if_neg hi]
    split <;> rfl

/-- The magnitudes. -/
theorem opVxAbs_eq (d a : BitVec 6) (t : BitVec 3) (c : Nat) (s : State) :
    let f := Fmt.ofCode t.toNat
    let l := (List.range f.lanes).map fun i => absElem f (elem f (readHeld s c a).1 i)
    opVxAbs d a t c s = .issued (exposeV (readHeld s c a).2 c 4 d.toNat (ofElems f (l.map Prod.fst)) 2 (catsOf l)) := by
  simp only [opVxAbs, elems, mapEv_elems]

/-- Settles O32: each row is `exec_gives`, with its results as the lemma above gives them. -/
theorem vectorArithmetic : Obligations.VectorArithmetic := by
  unfold Obligations.VectorArithmetic
  intro s c g d a b t dd e h hg f va vb s' rm dr gives drawn x y ix iy wrap slow
  have from1 : (readHeld s c a).2.Between c := h.toBetween.readHeld a
  have from2 : s'.Between c := h.toBetween.readHeld2 a b
  have fromDrawn : (drawn s' f).Between c := by
    dsimp only [drawn]
    split
    · exact from2
    · exact from2.useDraws ..
  have arith (fop : Fmt → RM → W64 → Nat → Nat → Nat × Cats) (iop : Int → Int → Int) (bound : Nat) (i : Instr)
      (hi : exec i s = issueOne ⟨4, g, noAccess, vArith fop iop bound d a b t⟩ s) :
      gives i (drawn s' f) d.toNat (slow f bound) f (fun i => if f.isInt then wrap (iop (ix i) (iy i)) else fop f rm (dr i) (x i) (y i)) := by
    refine exec_gives h hg fromDrawn hi ((vArith_eq ..).trans ?_)
    simp only [intWrap_eq]
    rfl
  have minMax (isMin : Bool) (i : Instr) (hi : exec i s = issueOne ⟨4, g, noAccess, vMinMax isMin d a b t⟩ s) :
      gives i s' d.toNat (slow f 2) f (fun i => (if f.isInt then (if decide (ix i < iy i) == isMin then x i else y i) else fminmax isMin f (x i) (y i), 0)) :=
    exec_gives h hg from2 hi (vMinMax_eq ..)
  have fma (f : Fmt) (bound : Nat) (hb : vBound f 4 = bound) (i : Instr) (hi : exec i s = issueOne ⟨4, g, noAccess, vFma f dd a b e⟩ s) :
      gives i (useDraws s' c 4 f.lanes rm) dd.toNat bound f (fun i => ffma f rm (dr i) (elem f va i) (elem f vb i) (elem f (readV s c e.toNat) i)) := by
    subst hb
    exact exec_gives h hg (from2.useDraws ..) hi (vFma_eq ..)
  refine ⟨arith fadd (· + ·) 2 _ rfl, arith fsub (· - ·) 2 _ rfl, arith fmul (· * ·) 3 _ rfl, ?min, ?max, ?fma, ?abs⟩
  case min => simpa using minMax true _ rfl
  case max =>
    have larger (i : Nat) : (if decide (ix i < iy i) == false then x i else y i) = if ix i < iy i then y i else x i := by
      by_cases hlt : ix i < iy i <;> simp [hlt]
    simpa only [larger] using minMax false _ rfl
  case fma =>
    simp only [List.forall_mem_cons]
    exact ⟨fma .f32 4 rfl _ rfl, fma .f64 6 rfl _ rfl, fma .f16 4 rfl _ rfl, fma .bf16 4 rfl _ rfl, nofun⟩
  case abs =>
    refine exec_gives h hg from1 rfl ((opVxAbs_eq ..).trans ?_)
    simp only [absElem_elem]
    rfl

/-! ### Reductions, approximations and conversions (R86, R178 to R182) -/

/-- One result, as a list of results. -/
theorem catsOf_singleton (p : Nat × Cats) : catsOf [p] = p.2 := BitVec.or_zero

/-- A conversion between formats, element by element. -/
theorem vCvt_eq (sat : Bool) (d a : BitVec 6) (p q : BitVec 4) (c : Nat) (s : State) :
    let src := Fmt.ofCode p.toNat
    let dst := Fmt.ofCode q.toNat
    let n := if src = .f64 ∨ dst = .f64 then 32 else 64
    let l := (List.range n).map fun i => fconvert src dst (readFrm s c) sat ((readDraws s c).get i) (elem src (readHeld s c a).1 i)
    vCvt sat d a p q c s = .issued (exposeV (useDraws (readHeld s c a).2 c 4 n (readFrm s c)) c 4 d.toNat (ofElems dst (l.map Prod.fst)) 3 (catsOf l)) := by
  simp only [vCvt, mapEv_elems _ (Fmt.ofCode p.toNat), readHeld_readFrm, readHeld_readDraws, Bool.or_eq_true, decide_eq_true_eq]

/-- An approximation, element by element. -/
theorem vApprox_eq (F : Nat → Nat × Cats) (d a : BitVec 6) (c : Nat) (s : State) :
    let l := (List.range 64).map fun i => F (elem .f32 (readHeld s c a).1 i)
    vApprox F d a c s = .issued (exposeV (readHeld s c a).2 c 4 d.toNat (ofElems .f32 (l.map Prod.fst)) 6 (catsOf l)) := by
  have lanes : elems .f32 (readHeld s c a).1 = (List.range 64).map (elem .f32 (readHeld s c a).1) := rfl
  simp only [vApprox, lanes, mapEv_elems]
  rfl

/-- The sum of the enabled elements, in the tree's order. -/
theorem opVxRedsum_eq (d a b : BitVec 6) (t : BitVec 3) (c : Nat) (s : State) :
    let f := Fmt.ofCode t.toNat
    let h := readHeld s c a
    let r := tree (fun j x y => if f.isInt then intWrap f.width (signedOf f.width x + signedOf f.width y)
      else fadd f (readFrm s c) ((readDraws s c).get j) x y) 0 (masked f h.1 (readVm s c (b.toNat % 8)) (if f.isInt then 0 else f.signBit)) 6
    opVxRedsum d a b t c s = .issued (exposeV (if f.isInt then h.2 else useDraws h.2 c 4 (f.lanes - 1) (readFrm s c)) c 4 d.toNat
      (ofElems f [r.1]) (vBound f 8) r.2) := by
  simp only [opVxRedsum, readHeld_readFrm, readHeld_readDraws]

/-- The random values: one draw an element, from the counter on. -/
theorem opVxRand_eq (d a b : BitVec 6) (t : BitVec 3) (c : Nat) (s : State) :
    let f := Fmt.ofCode t.toNat
    let l : List (Nat × Cats) := (List.range f.lanes).map fun i =>
      let x := draw (readS s c a.toNat) (readS s c b.toNat + BitVec.ofNat 64 i)
      (match f with
       | .i32 => x.toNat / 2 ^ 32
       | .f64 => fracCode .f64 (x.toNat / 2 ^ 11) 53
       | _ => fracCode .f32 (x.toNat / 2 ^ 40) 24, 0)
    opVxRand d a b t c s = .issued (exposeV s c 4 d.toNat (ofElems f (l.map Prod.fst)) 4 (catsOf l)) := by
  intro f l
  simp only [l, catsOf_map_zero, List.map_map]
  rfl

/-- The largest of the enabled elements, in the tree's order. -/
theorem opVxRedmax_eq (d a b : BitVec 6) (t : BitVec 3) (c : Nat) (s : State) :
    let f := Fmt.ofCode t.toNat
    let h := readHeld s c a
    let r := tree (fun _ x y => (if f.isInt then (if signedOf f.width x < signedOf f.width y then y else x) else fminmax false f x y, 0)) 0
      (masked f h.1 (readVm s c (b.toNat % 8)) (if f.isInt then f.signBit else f.signed true f.infCode)) 6
    opVxRedmax d a b t c s = .issued (exposeV h.2 c 4 d.toNat (ofElems f [r.1]) (vBound f 8) 0) := by
  simp only [opVxRedmax]

/-- The largest magnitude of the elements and of the accumulated one, as FP32. -/
theorem opVxAmax_eq (d a b : BitVec 6) (t : BitVec 3) (c : Nat) (s : State) :
    let f := Fmt.ofCode t.toNat
    let m := (elems f (readHeld2 s c a b).1).foldl (fun m x =>
      if (f.decode x).isNan then m else fminmax false .f32 m ((f.decode x).abs.pack .f32 .rup false 0).1) (elem .f32 (readHeld2 s c a b).2.1 0)
    opVxAmax d a b t c s = .issued (exposeV (readHeld2 s c a b).2.2 c 4 d.toNat (ofElems .f32 [m]) 6 0) := by
  simp only [opVxAmax]
  rfl

/-- The values of the functions of R179 at NaN, infinities, zeros and exact powers. -/
theorem approximations_special :
    expElem 0x7FC00000 = (Fmt.f32.nanCode, 0) ∧ expElem 0x7F800000 = (0x7F800000, 0) ∧ expElem 0xFF800000 = (0, 0) ∧
      expElem 0 = (0x3F800000, 0) ∧ expElem 0x80000000 = (0x3F800000, 0) ∧ expElem 0x40400000 = (0x41000000, 0) ∧ expElem 0x43000000 = (0x7F800000, catOVF) ∧
      rcpElem 0x7FC00000 = (Fmt.f32.nanCode, 0) ∧ rcpElem 0x7F800000 = (0, 0) ∧ rcpElem 0xFF800000 = (0x80000000, 0) ∧
      rcpElem 0 = (0x7F800000, catDZ) ∧ rcpElem 0x80000000 = (0xFF800000, catDZ) ∧
      rsqrtElem 0x7FC00000 = (Fmt.f32.nanCode, 0) ∧ rsqrtElem 0x7F800000 = (0, 0) ∧ rsqrtElem 0xFF800000 = (Fmt.f32.nanCode, catINV) ∧
      rsqrtElem 0 = (0x7F800000, catDZ) ∧ rsqrtElem 0x80000000 = (0xFF800000, catDZ) ∧ rsqrtElem 0xBF800000 = (Fmt.f32.nanCode, catINV) := by
  refine ⟨rfl, rfl, rfl, ?_, ?_, ?_, ?_, rfl, rfl, rfl, rfl, rfl, rfl, rfl, rfl, rfl, rfl, rfl⟩ <;> decide

/-! ### The trellis rows (R187, R188) -/

/-- One step of the trellis: the costs, padded to 32 of them, and the decisions; the events are those of the costs. -/
theorem opVxAcs_eq (d a b : BitVec 6) (t : BitVec 3) (c : Nat) (s : State) :
    let n := 2 ^ t.toNat
    let st := acsState (readHeld2 s c a b).1 (readHeld2 s c a b).2.1 n
    let l := (List.range n).map (fun i => ((st i).1, (st i).2.2)) ++ List.replicate (32 - n) (0, 0) ++ (List.range n).map (fun i => ((st i).2.1, 0))
    opVxAcs d a b t c s = .issued (exposeV (readHeld2 s c a b).2.2 c 4 d.toNat (ofElems .f32 (l.map Prod.fst)) 3 (catsOf l)) := by
  intro n st l
  have events : catsOf l = catsOf ((List.range n).map fun i => ((st i).1, (st i).2.2)) := by
    rw [catsOf_append, catsOf_append, catsOf_map_zero, catsOf_replicate, Cats.or_zero, Cats.or_zero]
  have costs : ((List.range n).map st).foldl (fun e r => e ||| r.2.2) 0 = catsOf l := by
    rw [events, foldl_or_eq_catsOf (fun r => r.1), List.map_map, Cats.zero_or]
    rfl
  have values : l.map Prod.fst = ((List.range n).map st).map (fun r => r.1) ++ List.replicate (32 - n) 0 ++ ((List.range n).map st).map (fun r => r.2.1) := by
    simp only [l, List.map_append, List.map_map, List.map_replicate, Function.comp_def]
  rw [← costs, values]
  rfl

/-- Where no command of Mace runs, `vx.tval` finds the table as it is. -/
theorem tableNext_of_idle {s : State} {gn : Nat} (h : (s.core gn).mace = []) : s.tableNext gn = (s.core gn, fun _ => false) := by
  simp only [State.tableNext, h]

section
variable {d a : BitVec 6} {t : BitVec 3} {c : Nat} {s : State}

/-- The values of a HASHED definition. -/
theorem opVxTval_hashed (h : tdMode ((s.core (coreOf c)).tdaOf t.toNat) = 1) :
    let l : List (Nat × Cats) := (List.range 64).map fun i =>
      (((hashVal (elem .i32 (readHeld s c a).1 i % 2 ^ tdL ((s.core (coreOf c)).tdaOf t.toNat))).pack .f32 .rne false 0).1, 0)
    opVxTval d a t c s = .issued (exposeV (readHeld s c a).2 c 4 d.toNat (ofElems .f32 (l.map Prod.fst)) 4 (catsOf l)) := by
  simp only [opVxTval, h, elems, List.map_map, Function.comp_def, catsOf_map_zero]
  rfl

/-- A definition of F4B8 reads 0. -/
theorem opVxTval_f4b8 (h : tdMode ((s.core (coreOf c)).tdaOf t.toNat) = 2) :
    opVxTval d a t c s = .issued (exposeV (readHeld s c a).2 c 4 d.toNat (ofElems .f32 []) 4 0) := by
  simp only [opVxTval, h]
  rfl

/-- A definition of the table reads it, where nothing loads it and nothing in it is poisoned. -/
theorem opVxTval_table (h : tdMode ((s.core (coreOf c)).tdaOf t.toNat) = 0) (hm : (s.core (coreOf c)).mace = [])
    (hb : ∀ w, (s.core (coreOf c)).bad 6 w = false) :
    let l : List (Nat × Cats) := (List.range 64).map fun i => ((fconvert .f16 .f32 .rne false 0 (SMap.get (0 : BitVec 16) (s.core (coreOf c)).tab
      (tabPlace ((s.core (coreOf c)).tdaOf t.toNat) (elem .i32 (readHeld s c a).1 i % 2 ^ tdL ((s.core (coreOf c)).tdaOf t.toNat)))).toNat).1, 0)
    opVxTval d a t c s = .issued (exposeV (readHeld s c a).2 c 4 d.toNat (ofElems .f32 (l.map Prod.fst)) 4 (catsOf l)) := by
  intro l
  obtain ⟨v, hv⟩ := readHeld_core s c a (coreOf c)
  have still : (readHeld s c a).2.tableNext (coreOf c) = ((readHeld s c a).2.core (coreOf c), fun _ => false) :=
    tableNext_of_idle (by rw [hv]; exact hm)
  have sameTab : ((readHeld s c a).2.core (coreOf c)).tab = (s.core (coreOf c)).tab := by rw [hv]
  have sameBad (w : Nat) : ((readHeld s c a).2.core (coreOf c)).bad 6 w = false := by rw [hv]; exact hb w
  have idle : (s.core (coreOf c)).tableLoads = false := by rw [Core.tableLoads, hm]; rfl
  generalize (readHeld s c a).2.core (coreOf c) = g' at still sameTab sameBad
  have sound (r : Nat) (ws : List Nat) : (ws.zipIdx.map fun p => (p.1, p.2, if r.testBit p.2 then g' else s.core (coreOf c))).find?
      (fun p => p.2.2.bad 6 (tabPlace ((s.core (coreOf c)).tdaOf t.toNat) p.1)) = none := by
    refine List.find?_eq_none.2 fun p hp => ?_
    obtain ⟨q, -, rfl⟩ := List.mem_map.1 hp
    dsimp only
    split
    · simp [sameBad]
    · simp [hb]
  have either (b : Bool) : (if b then g' else s.core (coreOf c)).tab = (s.core (coreOf c)).tab := by cases b <;> simp [sameTab]
  have places (F : Nat → Nat) (ws : List Nat) : ws.zipIdx.map (fun p => F p.1) = ws.map F := by
    exact (List.map_map (f := Prod.fst) (g := F)).symm.trans (congrArg (List.map F) (List.zipIdx_map_fst 0 ws))
  simp only [opVxTval, h, still, idle, sound, List.map_map, Function.comp_def, either, Bool.false_and, Bool.false_eq_true, if_false]
  rw [places fun w => (fconvert .f16 .f32 .rne false 0 (SMap.get 0 (s.core (coreOf c)).tab (tabPlace ((s.core (coreOf c)).tdaOf t.toNat) w)).toNat).1]
  simp only [l, elems, List.map_map, Function.comp_def, catsOf_map_zero]
  rfl

end

/-- Settles O34: each row is `exec_gives`, with its results as the lemma above gives them; the special values are evaluated. -/
theorem vectorFunctions : Obligations.VectorFunctions := by
  unfold Obligations.VectorFunctions
  intro s c g d a b t p q h hg f hd va vb s' rm dr vm gives slow kept each
  have from0 : s.Between c := h.toBetween
  have from1 : hd.2.Between c := from0.readHeld a
  have from2 : s'.Between c := from0.readHeld2 a b
  have fromDrawn : (if f.isInt then hd.2 else useDraws hd.2 c 4 (f.lanes - 1) rm).Between c := by
    split
    · exact from1
    · exact from1.useDraws ..
  have approx (F : Nat → Nat × Cats) (i : Instr) (hi : exec i s = issueOne ⟨4, g, noAccess, vApprox F d a⟩ s) :
      gives i hd.2 .f32 6 (each 64 (fun i => F (elem .f32 hd.1 i))) := exec_gives h hg from1 hi (vApprox_eq ..)
  refine ⟨?redsum, ?redmax, approx expElem _ rfl, approx rcpElem _ rfl, approx rsqrtElem _ rfl, approximations_special, ?cvt, ?amax, ?scale, ?rand,
    ?acs, fun hh => ?hashed, fun hf => ?f4b8, fun ht hm hb => ?table⟩
  case redsum =>
    refine exec_gives h hg fromDrawn rfl ((opVxRedsum_eq ..).trans ?_)
    rw [catsOf_singleton]
    rfl
  case redmax => exact exec_gives h hg from1 rfl ((opVxRedmax_eq ..).trans (by rw [catsOf_singleton]; rfl))
  case cvt => exact ⟨exec_gives h hg (from1.useDraws ..) rfl (vCvt_eq ..), exec_gives h hg (from1.useDraws ..) rfl (vCvt_eq ..)⟩
  case amax => exact exec_gives h hg from2 rfl ((opVxAmax_eq ..).trans (by rw [catsOf_singleton]; rfl))
  case scale => exact exec_gives h hg from2 rfl (by rw [catsOf_cons, catsOf_singleton, Cats.zero_or]; rfl)
  case rand => exact exec_gives h hg from0 rfl ((opVxRand_eq ..).trans rfl)
  case acs => exact exec_gives h hg from2 rfl (opVxAcs_eq ..)
  case hashed => exact exec_gives h hg from1 rfl (opVxTval_hashed hh)
  case f4b8 => exact exec_gives h hg from1 rfl (opVxTval_f4b8 hf)
  case table => exact exec_gives h hg from1 rfl (opVxTval_table ht hm hb)

/-! ### Queues (R183 to R185) -/

/-- A slot without an access that stalls freezes its bundle for the cycle; the bank cycles spent stay as they were (R158). -/
theorem issueOne_stall {s : State} {c : Nat} {o : SlotOp} (h : Acts s c) (hm : o.mem = noAccess) (hg : readGuard s c o.guard = true)
    (hr : o.run c s = .stall) (hw : ((s.ctx c).sysReg 0x003).toNat % 2 ^ 32 = 0) :
    issueOne o s = .next (s.modCtx c (fun y => { y with frz := y.frz + 1 })) := by
  have frozen : settle s c [.stall] = freezeCycle s c (s.ctx c).spent := rfl
  have step : issueOne o s = .next (settleIssue (settle s c [.stall])) := by
    unfold issueOne
    simp only [h.acting, issueSlots, walkSlots, hm, noAccess, runSlots, hg, hr, Bool.not_true, Bool.false_eq_true, if_false]
  have calm : (s.modCtx c fun y => { y with frz := y.frz + 1, spent := (s.ctx c).spent }).Calm := h.toCalm.congr rfl rfl
  rw [step, frozen, freezeCycle_unlimited hw, settleIssue_calm calm]
  simp only [State.modCtx]

/-- Settles O35: a push and a pop issue with their queue changed, or stall. -/
theorem queuePushAndPop : Obligations.QueuePushAndPop := by
  unfold Obligations.QueuePushAndPop
  intro s c g v q h hg k qu hd
  have from0 : s.Between c := h.toBetween
  have from1 : hd.2.Between c := from0.readHeld v
  obtain ⟨x, hx⟩ := readHeld_core s c v (coreOf c)
  have sameQueue : ((readHeld s c v).2.core (coreOf c)).queue q.toNat = qu := by rw [hx]; rfl
  have full : qu.full = true ↔ 16 ≤ qu.entries.length + qu.freed := decide_eq_true_iff
  refine ⟨fun room => ?push, fun noRoom hw => ?pushFreezes, fun ps qu' hp => ?pop, fun none hw => ?popFreezes⟩
  case push =>
    have notFull : qu.full = false := Bool.eq_false_iff.2 (full.not.2 (Nat.not_le.2 room))
    refine exec_effect h hg (from1.setCore _ _) rfl ?_
    simp only [opVxPush, sameQueue, notFull, Bool.false_eq_true, if_false]
    rfl
  case pushFreezes => exact issueOne_stall (o := rowVxPush g v q) h rfl hg (by simp only [rowVxPush, opVxPush, sameQueue, full.2 noRoom, if_true]) hw
  case pop =>
    have popped : ((s.core (coreOf c)).queue q.toNat).pop = some (ps, false, qu') := hp
    exact exec_exposed h hg (from0.setCore _ _) rfl (by simp only [opVxPop, popped, Bool.false_eq_true, if_false]; rfl)
  case popFreezes => exact issueOne_stall (o := rowVxPop g v q) h rfl hg (by simp only [rowVxPop, opVxPop]; rw [show (s.core (coreOf c)).queue q.toNat = qu from rfl, none]) hw

end Sys2Proof.Machine

/-! ## The matrix family (09_matrix.md R205 to R223) -/

namespace Sys2Proof.Machine

/-! ### Marks (R212) -/

/-- Resources marked one group after the other. -/
theorem foldl_mark {α : Type} (rs : α → List Res) (write : Bool) (left : α → Nat) (l : List α) (g : Core) :
    l.foldl (fun g x => g.mark (rs x) write (left x)) g =
      { g with busy := g.busy ++ l.flatMap (fun x => (rs x).map (fun r => (⟨r, write, left x⟩ : Busy))) } := by
  induction l generalizing g with
  | nil => simp
  | cons x l ih =>
    rw [List.foldl_cons, ih, List.flatMap_cons, ← List.append_assoc]
    rfl

/-- The operand format is FP64 for type code 1 alone (R205). -/
theorem mmaFmt_f64 (t : BitVec 3) : (mmaFmt t.toNat == .f64) = (t == 1) := by
  revert t
  decide

/-- The delay of the array (R217). -/
theorem mmaDelay_eq (t : BitVec 3) : mmaDelay (mmaFmt t.toNat) = if t = 1 then 48 else 40 := by
  revert t
  decide

/-- The code of the accumulator's format in a row write. -/
def accCode (f : Fmt) : Nat := match f with | .f64 => 1 | .i32 => 4 | _ => 0

theorem accCode_eq (t : BitVec 3) : accCode (accFmt (mmaFmt t.toNat)) = if t = 1 then 1 else if t = 5 then 4 else 0 := by
  revert t
  decide

/-! ### The instructions of the owner, where their sources, destinations and ports are free -/

section
variable {s : State} {c : Nat}

/-- The row of accumulator writes that `mma` sends (R217). -/
def mmaWrites (s : State) (c : Nat) (l : BitVec 2) (a : BitVec 4) (r : BitVec 6) (t : BitVec 3) (o : BitVec 2) : List RowWrite :=
  let k := s.core (coreOf c)
  let shape := readTs s c a.toNat
  (List.range (tsRows shape)).map (fun m =>
    let x := mmaRow k a.toNat l.toNat shape (mmaFmt t.toNat) (Fmt.ofCode (k.tagOf l.toNat)) m
    ⟨(if t = 1 then 48 else 40) + m, (viewRows (t == 1) (readS s c r.toNat).toNat m).headD 0, accCode (accFmt (mmaFmt t.toNat)), o == 1,
      x.1, x.2.1, x.2.2, evPlace s c 5⟩)

/-- The rows of accumulator memory that `mma` writes, and when they have landed. -/
def mmaMarks (s : State) (c : Nat) (a : BitVec 4) (r : BitVec 6) (t : BitVec 3) : List Busy :=
  (List.range (tsRows (readTs s c a.toNat))).flatMap (fun m =>
    ((viewRows (t == 1) (readS s c r.toNat).toNat m).map Res.row).map (fun x => ⟨x, true, (if t = 1 then 48 else 40) + m + 1⟩))

theorem opMxMma_owned {l : BitVec 2} {a : BitVec 4} {r : BitVec 6} {t : BitVec 3} {o : BitVec 2}
    (ho : (s.core (coreOf c)).owner = some c)
    (hf : (s.core (coreOf c)).free [.tile a.toNat, .latch l.toNat] ((List.range (tsRows (readTs s c a.toNat))).flatMap (fun i =>
      (viewRows (t == 1) (readS s c r.toNat).toNat i).map Res.row)) [.feed] = true) :
    let k := s.core (coreOf c)
    let shape := readTs s c a.toNat
    opMxMma l a r t o c s =
      if k.tagOf l.toNat = 15 ∨ classOf (Fmt.ofCode (k.tagOf l.toNat)) ≠ classOf (mmaFmt t.toNat) then
        .trap 5 (BitVec.ofNat 64 (2 ^ 63 + k.tagOf l.toNat * 256 + t.toNat))
      else if t = 1 ∧ 32 < tsRb shape then .trap 5 shape
      else (portCheck k 1 ((List.range (tsRows shape)).map (fun m => (if t = 1 then 48 else 40) + m))).getD
        (.issued (s.setCore (coreOf c) { k with
          busy := k.busy ++ mmaMarks s c a r t ++ [Res.tile a.toNat, .latch l.toNat, .feed].map (fun x => ⟨x, false, tsRows shape⟩)
          rows := k.rows ++ mmaWrites s c l a r t o })) := by
  intro k shape
  have hown : isOwner s c = true := by simp [isOwner, ho]
  unfold opMxMma
  simp only [mmaFmt_f64, mmaDelay_eq, foldl_mark, hown, hf, Bool.not_true, Bool.false_eq_true, if_false]
  cases hp : portCheck k 1 ((List.range (tsRows shape)).map (fun m => (if t = 1 then 48 else 40) + m)) with
  | none =>
    simp only [hp, k, shape]
    rfl
  | some v => simp only [hp, k, shape, Option.getD_some]

/-- The rows of accumulator memory that `accz` writes in its j-th cycle: two FP32 rows where both are counted, or one FP64 row (R221). -/
def acczBoth (two : Bool) (cnt j : Nat) : Bool := two || decide (2 * j + 1 < cnt)

/-- The first of them. -/
def acczFirst (two : Bool) (row j : Nat) : Nat := if two then 2 * ((row + j) % 2048) else (row + 2 * j) % 4096

/-- The row of accumulator writes that `accz` sends. -/
def acczWrites (s : State) (c : Nat) (two : Bool) (cnt row cyc : Nat) : List RowWrite :=
  (List.range cyc).map (fun j =>
    let len := if acczBoth two cnt j then 64 else 32
    ⟨1 + j, acczFirst two row j, 4, false, List.replicate len 0, List.replicate len false, 0, evPlace s c 5⟩)

/-- The rows that `accz` marks. -/
def acczMarks (two : Bool) (cnt row cyc : Nat) : List Busy :=
  (List.range cyc).flatMap (fun j => (Res.row (acczFirst two row j) ::
    if acczBoth two cnt j then [.row (if two then acczFirst two row j + 1 else (row + 2 * j + 1) % 4096)] else []).map (fun x => ⟨x, true, j + 2⟩))

theorem acczMarks_eq (two : Bool) (cnt row cyc : Nat) : acczMarks two cnt row cyc = (List.range cyc).flatMap (fun j =>
    ((if two then viewRows true row j else if 2 * j + 1 < cnt then [(row + 2 * j) % 4096, (row + 2 * j + 1) % 4096]
      else [(row + 2 * j) % 4096]).map Res.row).map (fun x => ⟨x, true, j + 2⟩)) := by
  refine List.flatMap_congr fun j _ => ?_
  cases two
  · by_cases hj : 2 * j + 1 < cnt <;> simp [acczFirst, acczBoth, hj]
  · rfl

theorem acczWrites_eq (two : Bool) (cnt row cyc : Nat) : acczWrites s c two cnt row cyc = (List.range cyc).map (fun j =>
    let len := if two then 64 else if 2 * j + 1 < cnt then 64 else 32
    ⟨1 + j, if two then (viewRows true row j).headD 0 else (row + 2 * j) % 4096, 4, false, List.replicate len 0, List.replicate len false, 0,
      evPlace s c 5⟩) := by
  refine List.map_congr_left fun j _ => ?_
  cases two
  · by_cases hj : 2 * j + 1 < cnt <;> simp [acczFirst, acczBoth, hj]
  · rfl

theorem opMxAccz_owned {r n : BitVec 6} {two : Bool} {cnt row : Nat} (ho : (s.core (coreOf c)).owner = some c)
    (hn : accCount (readS s c n.toNat) = (two, cnt)) (hr : (readS s c r.toNat).toNat = row)
    (hf : (s.core (coreOf c)).free [] (((List.range cnt).flatMap (viewRows two row)).map Res.row) [] = true) :
    let k := s.core (coreOf c)
    let cyc := if two then cnt else (cnt + 1) / 2
    opMxAccz r n c s = (portCheck k 2 ((List.range cyc).map (fun j => 1 + j))).getD (.issued (s.setCore (coreOf c) { k with
      busy := k.busy ++ acczMarks two cnt row cyc
      rows := k.rows ++ acczWrites s c two cnt row cyc })) := by
  intro k cyc
  have hown : isOwner s c = true := by simp [isOwner, ho]
  unfold opMxAccz
  simp only [hn, hr, hown, hf, Bool.not_true, Bool.false_eq_true, if_false, foldl_mark, acczMarks_eq, acczWrites_eq, k, cyc]
  cases hp : portCheck (s.core (coreOf c)) 2 ((List.range (if two then cnt else (cnt + 1) / 2)).map (fun j => 1 + j)) with
  | none => rfl
  | some v => rfl

end

theorem mmaWrites_eq (s : State) (c : Nat) (l : BitVec 2) (a : BitVec 4) (r : BitVec 6) (t : BitVec 3) (o : BitVec 2) :
    mmaWrites s c l a r t o = (List.range (tsRows (readTs s c a.toNat))).map (fun m =>
      let x := mmaRow (s.core (coreOf c)) a.toNat l.toNat (readTs s c a.toNat) (mmaFmt t.toNat)
        (Fmt.ofCode ((s.core (coreOf c)).tagOf l.toNat)) m
      ⟨(if t = 1 then 48 else 40) + m, (viewRows (t == 1) (readS s c r.toNat).toNat m).headD 0, if t = 1 then 1 else if t = 5 then 4 else 0, o == 1,
        x.1, x.2.1, x.2.2, evPlace s c 5⟩) := by
  rw [← accCode_eq]
  rfl

/-- Settles O36: the branches of the six instructions; a trap of the port's is that of the first cycle that meets a window. -/
theorem matrixInstructions : Obligations.MatrixInstructions := by
  unfold Obligations.MatrixInstructions
  intro s c g l a d r n t q o h hg k out fa shape ty M row D at_ mrows busy mmaFree tagFits tshape meets schedv
  have owned (ho : k.owner = some c) : isOwner s c = true := by simpa [isOwner] using ho
  have fits (ht : tagFits) : ¬(k.tagOf l.toNat = 15 ∨ classOf (Fmt.ofCode (k.tagOf l.toNat)) ≠ classOf fa) := by
    rintro (hu | hc)
    · exact ht.1 hu
    · exact hc ht.2
  have window {kind N m i : Nat} {b : Nat} (hm : meets N (fun j => b + j) m i) :
      portCheck k kind ((List.range N).map (fun j => b + j)) = some (.trap 6 (schedInfo kind i (b + m))) := by
    obtain ⟨hlt, hclaims, ⟨w, hi, hw⟩, hf, he⟩ := hm
    exact portCheck_window (fun _ _ hle => Nat.add_le_add_left hle b) hclaims hlt hi hw hf he
  have mma (ho : k.owner = some c) (hf : mmaFree) := opMxMma_owned (s := s) (c := c) (l := l) (a := a) (r := r) (t := t) (o := o) ho hf
  refine ⟨fun ho hf ht => ?tag, fun ho hf ht h1 hrb => ?rb, fun m i ho hf ht hs hm => ?mmaWindow, fun ho hf hk => ?latqType, fun ho hf hk => ?lattType,
    fun ho hf hu hcl hs hp => ?mma, fun ho hf h4 h9 => ?latq, fun ho hf h4 h9 hs => ?latt, fun ho ha hd hr hp => ?ttr, ?accz, fun ho i hi => ?notOwner⟩
  case tag =>
    have bad : k.tagOf l.toNat = 15 ∨ classOf (Fmt.ofCode (k.tagOf l.toNat)) ≠ classOf fa := by
      by_contra hn
      exact ht (not_or.1 hn |>.imp_right Classical.not_not.1)
    exact exec_trapped h hg rfl ((mma ho hf).trans (if_pos bad)) (by decide)
  case rb => exact exec_trapped h hg rfl ((mma ho hf).trans ((if_neg (fits ht)).trans (if_pos ⟨h1, hrb⟩))) (by decide)
  case mmaWindow =>
    refine issueOne_sched (o := rowMxMma g l a r t o) h rfl hg ((mma ho hf).trans ((if_neg (fits ht)).trans ((if_neg hs).trans ?_)))
    rw [window hm]
    rfl
  case mma =>
    refine exec_effect h hg (h.toBetween.setCore ..) rfl ((mma ho hf).trans ((if_neg (fits ⟨hu, hcl⟩)).trans ((if_neg hs).trans ?_)))
    rw [hp, mmaWrites_eq]
    rfl
  case latqType => exact exec_trapped h hg rfl (by simp [opMxLatq, owned ho, hf, hk, k]) (by decide)
  case lattType => exact exec_trapped h hg rfl (by simp [opMxLatt, owned ho, hf, hk, k, shape]) (by decide)
  case latq =>
    refine exec_effect h hg (h.toBetween.setCore ..) rfl ?_
    unfold opMxLatq
    exact (if_neg (by rw [owned ho]; decide)).trans ((if_neg (by rw [hf]; decide)).trans (if_neg (not_or.2 ⟨h4, h9⟩)))
  case latt =>
    refine exec_effect h hg (h.toBetween.setCore ..) rfl ?_
    unfold opMxLatt
    exact (if_neg (by rw [owned ho]; decide)).trans ((if_neg (by rw [hf]; decide)).trans (if_neg (not_or.2 ⟨h4, not_or.2 ⟨h9, hs⟩⟩)))
  case ttr =>
    refine exec_effect h hg (h.toBetween.setCore ..) rfl ?_
    unfold opMxTtr
    exact (if_neg (by rw [owned ho]; decide)).trans (if_neg (by rw [ha, hd, hr, hp]; decide))
  case accz =>
    intro two cnt rows cyc both first
    have acc (ho : k.owner = some c) (hf : k.free [] (rows.map Res.row) [] = true) :=
      opMxAccz_owned (s := s) (c := c) (r := r) (n := n) (two := two) (cnt := cnt) (row := row) ho rfl rfl hf
    refine ⟨fun m i ho hf hm => ?window, fun ho hf hp => ?zero, fun ho hf hc => ?push, fun ho hf hc => ?nothing⟩
    case window =>
      refine issueOne_sched (o := rowMxAccz g r n) h rfl hg ((acc ho hf).trans ?_)
      rw [window hm]
      rfl
    case zero =>
      refine exec_effect h hg (h.toBetween.setCore ..) rfl ((acc ho hf).trans ?_)
      rw [hp]
      rfl
    case push =>
      refine exec_effect h hg (h.toBetween.setCore ..) rfl ?_
      unfold opMxAccq
      exact (if_neg (by rw [owned ho]; decide)).trans ((if_neg (by rw [hf]; decide)).trans (if_neg hc))
    case nothing =>
      refine exec_effect h hg h.toBetween rfl ?_
      unfold opMxAccq
      exact (if_neg (by rw [owned ho]; decide)).trans ((if_neg (by rw [hf]; decide)).trans (if_pos hc))
  case notOwner =>
    have hown : isOwner s c = false := by simpa [isOwner] using ho
    simp only [List.mem_cons, List.not_mem_nil, or_false] at hi
    rcases hi with rfl | rfl | rfl | rfl | rfl | rfl
    · exact exec_trapped h hg rfl (by simp [opMxMma, hown]) (by decide)
    · exact exec_trapped h hg rfl (by simp [opMxLatq, hown]) (by decide)
    · exact exec_trapped h hg rfl (by simp [opMxLatt, hown]) (by decide)
    · exact exec_trapped h hg rfl (by simp [opMxTtr, hown]) (by decide)
    · exact exec_trapped h hg rfl (by simp [opMxAccz, hown]) (by decide)
    · exact exec_trapped h hg rfl (by simp [opMxAccq, hown]) (by decide)

end Sys2Proof.Machine

/-! ## The exchange family (10_copy.md R81, R82, R244, R245; 08_trellis.md R190, R195 to R199): queue control and trellis cells -/

namespace Sys2Proof.Machine

/-! ### The queue engines end no context's bundle and begin nothing that is left to settle -/

theorem State.Between.modCore {s : State} {c : Nat} (h : s.Between c) (g : Nat) (f : Core → Core) : (s.modCore g f).Between c := h.setCore ..

theorem State.Between.modCtx {s : State} {c : Nat} (h : s.Between c) (d : Nat) {f : Context → Context} (hf : ∀ x, (f x).nxt = x.nxt) :
    (s.modCtx d f).Between c := by
  refine ⟨h.toCalm.congr rfl rfl, ?_⟩
  by_cases hd : c = d
  · rw [hd, State.ctx_modCtx_same, hf, ← hd]
    exact h.between
  · rw [State.ctx_modCtx_ne _ _ hd]
    exact h.between

theorem State.Between.modWho {s : State} {c : Nat} (h : s.Between c) (tid rank : Nat) {f : Context → Context} (hf : ∀ x, (f x).nxt = x.nxt) :
    (s.modWho tid rank f).Between c := by
  unfold State.modWho
  split
  · exact h.modCtx _ hf
  · split
    · exact ⟨h.toCalm.congr rfl rfl, h.between⟩
    · exact ⟨h.toCalm.congr rfl rfl, h.between⟩

theorem Context.setSys_nxt (x : Context) (n : Nat) (v : W64) : (x.setSys n v).nxt = x.nxt := rfl

theorem Context.record_nxt (x : Context) (ev : Cats) (order slot handle pc : Nat) : (x.record ev order slot handle pc).nxt = x.nxt := by
  unfold Context.record
  by_cases h : ev = 0
  · rw [if_pos h]
  · rw [if_neg h]
    lift_lets
    intro y
    have hy : y.nxt = x.nxt := Context.setSys_nxt x _ _
    clear_value y
    intro cat
    clear_value cat
    split
    · intro z
      show z.nxt = x.nxt
      rw [Context.setSys_nxt, Context.setSys_nxt]
      exact hy
    · exact hy

theorem State.Between.recordAt {s : State} {c : Nat} (h : s.Between c) (p : EvPlace) (ev : Cats) : (s.recordAt p ev).Between c := by
  unfold State.recordAt
  split
  · exact h
  · exact h.modWho _ _ fun x => Context.record_nxt x ..

theorem State.Between.retireTok {s : State} {c : Nat} (h : s.Between c) (tid rank k t : Nat) : (s.retireTok tid rank k t).Between c := by
  have done := h.modWho tid rank (f := fun x => x.tokDone k t) fun _ => rfl
  unfold State.retireTok State.noteTs
  split
  · exact ⟨done.toCalm.modTask tid rfl, done.between⟩
  · exact done

theorem State.Between.foldl {α : Type} {c : Nat} {f : State → α → State} (hf : ∀ s x, s.Between c → (f s x).Between c) (l : List α) :
    ∀ s : State, s.Between c → (l.foldl f s).Between c := by
  induction l with
  | nil => exact fun _ h => h
  | cons x l ih => exact fun s h => ih _ (hf s x h)

theorem latqStep_between {s : State} {c : Nat} (h : s.Between c) (gn : Nat) (o : LatqOp) : (latqStep s gn o).1.Between c :=
  (State.Between.foldl (fun _ f hs => (hs.modCore gn (fun g => g.landFlight o f)).recordAt o.place f.ev) _ s h).setCore ..

theorem tickLatqs_between {s : State} {c : Nat} (h : s.Between c) (gn : Nat) : (tickLatqs s gn).Between c := by
  have steps (os : List LatqOp) : ∀ p : State × List LatqOp, p.1.Between c → (os.foldl (fun (p : State × List LatqOp) o =>
      if o.did then (p.1, p.2 ++ [{ o with did := false }])
      else match latqStep p.1 gn o with | (s, some o) => (s, p.2 ++ [o]) | (s, none) => (s, p.2)) p).1.Between c := by
    induction os with
    | nil => exact fun _ hp => hp
    | cons o os ih =>
      intro p hp
      refine ih _ ?_
      dsimp only
      split
      · exact hp
      · have hs := latqStep_between hp gn o
        split <;> rename_i e <;> rw [e] at hs <;> exact hs
  unfold tickLatqs
  dsimp only
  split
  · exact h
  · exact (steps _ (s, []) h).modCore ..

theorem maceRetire_between {s : State} {c : Nat} (h : s.Between c) (gn : Nat) : (maceRetire s gn).Between c := by
  unfold maceRetire
  split
  · exact h
  · split
    · exact (h.modCore ..).retireTok ..
    · exact h

theorem maceStart_between {s : State} {c : Nat} (h : s.Between c) (gn : Nat) : (maceStart s gn).Between c := by
  unfold maceStart
  split
  · exact h
  · split
    · exact h.modCore ..
    · exact h

theorem macePushStep_between {s : State} {c : Nat} (h : s.Between c) (gn p : Nat) : (macePushStep s gn p).Between c := by
  unfold macePushStep
  dsimp only
  split
  · exact h
  · split
    · exact h
    · split
      · exact h.setCore ..
      · exact h.setCore ..

theorem tickMace_between {s : State} {c : Nat} (h : s.Between c) (gn : Nat) : (tickMace s gn).Between c := by
  unfold tickMace
  split
  · exact h
  · exact (macePushStep_between ((maceRetire_between (maceStart_between (maceRetire_between h gn) gn) gn).modCore ..) gn _).modCore ..

theorem queueEngines_between {s : State} {c : Nat} (h : s.Between c) (gn : Nat) : (queueEngines s gn).Between c := by
  unfold queueEngines
  split
  · exact h
  · exact (tickMace_between ((tickLatqs_between h gn).modCore ..) gn).modCore ..

/-! ### The calibration step (R81) -/

/-- What is left of the search for the greatest exponent that is not above a limit, after its first n steps. -/
structure Greatest (above : Int → Prop) (n : Nat) (k : Int) : Prop where
  low : -126 ≤ k
  high : k = -126 ∨ k < n - 126
  fits : k = -126 ∨ ¬above k
  most : ∀ j, k < j → j < n - 126 → above j

theorem Greatest.step {above : Int → Prop} {n : Nat} {k : Int} (h : Greatest above n k) [Decidable (above ((n : Int) - 126))] :
    Greatest above (n + 1) (if above ((n : Int) - 126) then k else (n : Int) - 126) := by
  obtain ⟨low, high, fits, most⟩ := h
  split
  case isTrue ha =>
    refine ⟨low, by omega, fits, fun j hj hn => ?_⟩
    by_cases e : j = (n : Int) - 126
    · exact e ▸ ha
    · exact most j hj (by omega)
  case isFalse ha => exact ⟨by omega, by omega, .inr ha, fun j hj hn => by omega⟩

theorem greatestExp_greatest (m lim : Num) : Greatest (fun k => Num.lt lim (Num.mul m (.fin false 1 k)).1 = true) 254 (greatestExp m lim) := by
  have steps (n : Nat) : Greatest (fun k => Num.lt lim (Num.mul m (.fin false 1 k)).1 = true) n (((List.range n).map fun (i : Nat) => (i : Int) - 126).foldl
      (fun best k => if Num.lt lim (Num.mul m (.fin false 1 k)).1 then best else k) (-126)) := by
    induction n with
    | zero => exact ⟨le_refl _, .inl rfl, .inl rfl, fun j hj hn => absurd (hj.trans hn) (lt_irrefl (-126))⟩
    | succ n ih =>
      rw [List.range_succ, List.map_append, List.foldl_append]
      exact ih.step
  exact steps 254

/-! ### Queue control (R244, R245) -/

/-- A queue-control action alone in its bundle. -/
theorem exec_qControl {s : State} {c slot : Nat} {g : Guard} {q : BitVec 3} {f : Queue → Queue} {run : Nat → State → Verdict} {i : Instr}
    (h : Acts s c) (hg : readGuard s c g = true) (hi : exec i s = issueOne ⟨slot, g, noAccess, run⟩ s) (hr : run c s = qControl q f c s) :
    exec i s = .next (issuedNext ((queueEngines s (coreOf c)).modCore (coreOf c) (fun k =>
      k.setQueue q.toNat (f (((queueEngines s (coreOf c)).core (coreOf c)).queue q.toNat)))) c) :=
  exec_effect h hg ((queueEngines_between h.toBetween _).modCore ..) hi hr

/-- A read of a queue register alone in its bundle. -/
theorem exec_qRead {s : State} {c : Nat} {g : Guard} {q : BitVec 3} {d : BitVec 6} {f : Queue → W64} {i : Instr} (h : Acts s c)
    (hg : readGuard s c g = true) (hi : exec i s = issueOne ⟨6, g, noAccess, qRead q d f⟩ s) :
    exec i s = .next (issuedNext (expose (queueEngines s (coreOf c)) c 6 (.s d.toNat)
      (f (((queueEngines s (coreOf c)).core (coreOf c)).queue q.toNat)).toNat 2 0) c) :=
  exec_exposed h hg (queueEngines_between h.toBetween _) hi rfl

/-- The corrections of a configuration (R245). -/
theorem Queue.setCfg_eq (q : Queue) (v : W64) :
    let side := v.getLsbD 15
    let rown := if side = true ∧ v.toNat / 2 ^ 16 % 256 = 0 then 1 else v.toNat / 2 ^ 16 % 256
    let cfg : Queue := { q with
      src := if v.toNat % 16 ≤ 9 then v.toNat % 16 else 0
      sink := if v.toNat / 2 ^ 4 % 16 ≤ 9 then v.toNat / 2 ^ 4 % 16 else 0
      rnd := if v.toNat / 2 ^ 11 % 8 ≤ 4 then v.toNat / 2 ^ 11 % 8 else 0
      sat := v.getLsbD 14, side := side, rown := rown }
    q.setCfg v = if side ≠ q.side ∨ rown ≠ q.rown then { cfg with entries := [], rowLeft := 0, scale := 0x3F800000, scaleBad := false } else cfg := by
  have flip (n b : Nat) : (if b < n then 0 else n) = if n ≤ b then n else 0 := by split <;> split <;> omega
  simp only [Queue.setCfg, flip, Bool.and_eq_true, beq_iff_eq, Bool.or_eq_true, bne_iff_ne, Queue.flush]

/-- Settles O37: each row is `exec_qControl` or `exec_qRead`; the calibration step's exponent is the greatest by `greatestExp_greatest`. -/
theorem queueControl : Obligations.QueueControl := by
  unfold Obligations.QueueControl
  intro s c g q a h hg u qu v wrote read side rown cfg sink most above
  have control (f : Queue → Queue) (run : Nat → State → Verdict) (i : Instr) (hi : exec i s = issueOne ⟨6, g, noAccess, run⟩ s)
      (hr : run c s = qControl q f c s) : exec i s = wrote (f qu) := exec_qControl h hg hi hr
  have reads (f : Queue → W64) (i : Instr) (hi : exec i s = issueOne ⟨6, g, noAccess, qRead q a f⟩ s) : exec i s = read (f qu) :=
    exec_qRead h hg hi
  refine ⟨?cfg, control (fun x => { x with cal := calStore v }) _ _ rfl rfl, control (fun x => { x with key := v }) _ _ rfl rfl,
    control (fun x => { x with ctr := v }) _ _ rfl rfl, fun hz => ?still, fun h0 hinf => ?step, control (fun x => { x with nsat := v.setWidth 32 }) _ _ rfl rfl,
    control Queue.flush _ _ rfl rfl, reads Queue.cfg _ rfl, reads (fun x => x.cal.setWidth 64) _ rfl, reads (fun x => x.amax.setWidth 64) _ rfl,
    reads (fun x => x.nsat.setWidth 64) _ rfl⟩
  case cfg => exact (control (fun x => x.setCfg v) (opDxQcfgCfg q a) _ rfl rfl).trans (congrArg wrote (Queue.setCfg_eq qu v))
  case still => exact (control Queue.step _ _ rfl rfl).trans (congrArg wrote (if_pos hz))
  case step =>
    have hk := greatestExp_greatest (Fmt.decode .f32 qu.amax.toNat) most
    refine ⟨greatestExp (Fmt.decode .f32 qu.amax.toNat) most, ?_, hk.low, ?_, hk.fits, fun j hj hn => hk.most j hj (by omega)⟩
    · exact (control Queue.step _ _ rfl rfl).trans (congrArg wrote (if_neg (not_or.2 ⟨h0, hinf⟩)))
    · have := hk.high
      omega

/-! ### Trellis cells (R190, R195 to R199) -/

theorem tdaStore_eq (v : W64) :
    let mode := if v.toNat / 2 ^ 8 % 4 = 3 then 0 else v.toNat / 2 ^ 8 % 4
    let bits := min (if mode = 0 then 12 else 16) (max 3 (v.toNat % 32))
    let out := if v.toNat / 2 ^ 16 % 16 = 3 then 3 else 2
    let size := max 2 (min 1024 (v.toNat / 2 ^ 32 % 2 ^ 11 / 2 * 2))
    tdaStore v = BitVec.ofNat 64 (v.toNat / 2 ^ 52 * 2 ^ 52 + size * 2 ^ 32 + out * 2 ^ 16 + mode * 2 ^ 8 + bits) := by
  have bits (m l : Nat) : (let l1 := if l < 3 then 3 else if 16 < l then 16 else l
      if m = 0 ∧ 12 < l1 then 12 else l1) = min (if m = 0 then 12 else 16) (max 3 l) := by
    have capped : (if l < 3 then 3 else if 16 < l then 16 else l) = min 16 (max 3 l) := by
      split
      · omega
      · split <;> omega
    dsimp only
    rw [capped]
    by_cases hm : m = 0
    · simp only [hm, true_and, if_true]
      split <;> omega
    · simp only [hm, false_and, if_false]
  have out (o : Nat) : (if o = 2 ∨ o = 3 then o else 2) = if o = 3 then 3 else 2 := by
    split <;> split <;> omega
  have size (n : Nat) : (if n < 2 then 2 else if 1024 < n then 1024 else n / 2 * 2) = max 2 (min 1024 (n / 2 * 2)) := by
    split
    · omega
    · split <;> omega
  simp only [tdaStore, out, size]
  rw [bits]
  rfl

theorem tdbStore_eq (v : W64) : tdbStore v = BitVec.ofNat 64 (v.toNat / 2 ^ 32 % 8 * 2 ^ 32 +
    packLanes 4 ((List.range 8).map (fun j => max 1 (min 4 (v.toNat / 2 ^ (4 * j) % 16))))) := by
  have step (x : Nat) : (if x = 0 then 1 else if 4 < x then 4 else x) = max 1 (min 4 x) := by
    split
    · omega
    · split <;> omega
  simp only [tdbStore, step]
  rfl

/-- The command of a decode, of the tokens that it consumes. -/
def decodeCmd (s : State) (c : Nat) (b : BitVec 6) (t q : BitVec 3) (k : BitVec 5) (deps : List Nat) : MaceCmd :=
  let cw := readS s c b.toNat
  ⟨false, (s.ctx c).tid, (s.ctx c).rank, (s.ctx c).order, k.toNat, deps, q.toNat, cw, cw.toNat % 2 ^ 22 / 8, (s.core (coreOf c)).tdaOf t.toNat,
    (s.core (coreOf c)).tdbOf t.toNat, 3, false, 2, 0, 0, 0, [], false, []⟩

theorem opDxMdec_eq (s : State) (c : Nat) (b : BitVec 6) (t q : BitVec 3) (k : BitVec 5) :
    opDxMdec b t q k c s = maceEnqueue k.toNat c s (decodeCmd s c b t q k) := rfl

/-- The command of a table load. -/
def loadCmd (s : State) (c : Nat) (a b : BitVec 6) (k : BitVec 5) (deps : List Nat) : MaceCmd :=
  ⟨true, (s.ctx c).tid, (s.ctx c).rank, (s.ctx c).order, k.toNat, deps, 0, readS s c b.toNat, (readS s c a.toNat).toNat % 2 ^ 22 / 8, 0, 0, 3,
    false, 0, 0, 0, 0, [], false, []⟩

theorem opDxTload_eq (s : State) (c : Nat) (a b : BitVec 6) (k : BitVec 5) :
    opDxTload a b k c s = maceEnqueue k.toNat c s (loadCmd s c a b k) := rfl

/-- Settles O38: definitions are written through `tdaStore_eq` and `tdbStore_eq`; a command joins Mace's queue in the last branch of `maceEnqueue`, and
blocks in the others. -/
theorem trellisCells : Obligations.TrellisCells := by
  unfold Obligations.TrellisCells
  intro s c g t q a b k h hg ha x hc cw v taken joins mode bits out size tda tdb
  have takenBetween : taken.Between c := h.toBetween.modCtx c fun y => by
    show (y.tokPend k.toNat).nxt = y.nxt
    unfold Context.tokPend
    split <;> rfl
  have enter (mk : List Nat → MaceCmd) (run : Nat → State → Verdict) (i : Instr) (hi : exec i s = issueOne ⟨6, g, noAccess, run⟩ s)
      (hr : run c s = maceEnqueue k.toNat c s mk) (hk : x.tokPending k.toNat = false) (hl : hc.mace.length < 8) : exec i s = joins (mk x.deps) := by
    refine exec_effect h hg (takenBetween.modCore ..) hi (hr.trans ?_)
    unfold maceEnqueue
    exact (if_neg (by rw [hk]; decide)).trans (if_neg (Nat.not_le.2 hl))
  have full (mk : List Nat → MaceCmd) (run : Nat → State → Verdict) (i : Instr) (hi : exec i s = issueOne ⟨6, g, noAccess, run⟩ s)
      (hr : run c s = maceEnqueue k.toNat c s mk) (hk : x.tokPending k.toNat = false) (hl : 8 ≤ hc.mace.length) :
      ∃ u, exec i s = .next u ∧ BlocksOn s u c .maceFull := by
    refine exec_blocksOn h hg ha hi (hr.trans ?_)
    unfold maceEnqueue
    exact (if_neg (by rw [hk]; decide)).trans (if_pos hl)
  have pending (mk : List Nat → MaceCmd) (run : Nat → State → Verdict) (i : Instr) (hi : exec i s = issueOne ⟨6, g, noAccess, run⟩ s)
      (hr : run c s = maceEnqueue k.toNat c s mk) (hk : x.tokPending k.toNat = true) : ∃ u, exec i s = .next u ∧ BlocksOn s u c (.token k.toNat) := by
    refine exec_blocksOn h hg ha hi (hr.trans ?_)
    unfold maceEnqueue
    exact if_pos hk
  refine ⟨?wa, ?wb, ?ra, ?rb, fun hk hl => ?joins, fun hk hl i hi => ?full, fun hk i hi => ?pending⟩
  case wa => exact exec_effect h hg (h.toBetween.modCore ..) rfl (by rw [opDxTdefWa, tdaStore_eq])
  case wb => exact exec_effect h hg (h.toBetween.modCore ..) rfl (by rw [opDxTdefWb, tdbStore_eq])
  case ra => exact exec_exposed h hg h.toBetween rfl rfl
  case rb => exact exec_exposed h hg h.toBetween rfl rfl
  case joins =>
    have decode := enter _ (opDxMdec b t q k) (.dxMdec g b t q k) rfl (opDxMdec_eq ..) hk hl
    have load := enter _ (opDxTload a b k) (.dxTload g a b k) rfl (opDxTload_eq ..) hk hl
    exact ⟨decode, load⟩
  case full =>
    simp only [List.mem_cons, List.not_mem_nil, or_false] at hi
    rcases hi with rfl | rfl
    · exact full _ _ _ rfl (opDxMdec_eq ..) hk hl
    · exact full _ _ _ rfl (opDxTload_eq ..) hk hl
  case pending =>
    simp only [List.mem_cons, List.not_mem_nil, or_false] at hi
    rcases hi with rfl | rfl
    · exact pending _ _ _ rfl (opDxMdec_eq ..) hk
    · exact pending _ _ _ rfl (opDxTload_eq ..) hk

end Sys2Proof.Machine

/-! ## The step and the bundle (02_bundle.md R34 to R41; 01_organisation.md R21), words of the spec, and reset -/

namespace Sys2Proof.Machine

/-- Settles O6: each word is decoded. -/
theorem specWordsDecode : Obligations.SpecWordsDecode := by
  unfold Obligations.SpecWordsDecode
  decide +kernel

/-! ### The bundle of one slot -/

/-- Every instruction of a decoded bundle is decoded from a word of a slot. -/
theorem decodeFrom_mem {b : Bundle} {l : List Instr} : ∀ {k n : Nat}, decodeFrom b n k = .ok l → ∀ i ∈ l, ∃ sl w, decodeSlot sl w = .ok i := by
  intro k
  induction k generalizing l with
  | zero =>
    intro n h i hi
    rw [← Except.ok.inj h] at hi
    exact absurd hi List.not_mem_nil
  | succ k ih =>
    intro n h i hi
    unfold decodeFrom at h
    split at h
    · exact nomatch h
    · next j hj =>
      split at h
      · exact nomatch h
      · next r hr =>
        rw [← Except.ok.inj h, List.mem_cons] at hi
        exact hi.elim (fun e => ⟨_, _, e ▸ hj⟩) (ih hr i)

/-- An instruction that a slot's word holds is a slot operation. -/
theorem slotOp_of_encode {i : Instr} {p : Slot × SlotWord} (h : encode i = some p) : ∃ o, slotOp i = some o := by
  cases i <;> cases h <;> exact ⟨_, rfl⟩

/-- Of a bundle with one instruction, the other slots are NOPs. -/
theorem filter_aloneIn {sl : Nat} {i : Instr} (hs : sl < 8) (hi : i.isNop = false) : (aloneIn sl i).filter (fun i => !i.isNop) = [i] := by
  have places : (List.range 8).filter (fun n => n = sl) = [sl] := by
    interval_cases sl <;> rfl
  have test (n : Nat) : (!(if n = sl then i else (slotAt n).nop).isNop) = decide (n = sl) := by
    by_cases hn : n = sl
    · simp [hn, hi]
    · have nop : (slotAt n).nop.isNop = true := by cases slotAt n <;> rfl
      simp [hn, nop]
  rw [aloneIn, List.filter_map]
  simp only [Function.comp_def, test, places, List.map_singleton, if_true]

/-- The tags that a core keeps for Mace are no part of what its context is or reads. -/
theorem keepTags_eq (s : State) (g : Nat) : ∃ t, keepTags s g = s.modCore g (fun x => { x with tagWas := t }) ∨ keepTags s g = s := by
  unfold keepTags
  split
  · exact ⟨none, .inr rfl⟩
  · exact ⟨some (s.core g).tag, .inl rfl⟩

/-- What stands before the fetch of a bundle does nothing (R38, R136, R147, R305, R369, R370). -/
theorem boundary_at {s : State} {c : Nat} (h : (s.ctx c).AtBundle) : boundary s c = (s, false) := by
  obtain ⟨hTrap, -, -, -, -, hDelay, hBubble, hExit⟩ := h
  simp [boundary, hTrap, hDelay, hBubble, hExit]

theorem lowestUnresolved_placed {l : List Store} (h : ∀ t ∈ l, t.pa.isSome = true) : lowestUnresolved l = none := by
  unfold lowestUnresolved
  induction l with
  | nil => rfl
  | cons t l ih =>
    rw [List.foldl_cons, if_pos (h t List.mem_cons_self)]
    exact ih fun u hu => h u (List.mem_cons_of_mem _ hu)

theorem boundaryEvents_at {s : State} {c : Nat} (h : (s.ctx c).AtBundle) : boundaryEvents s c = (s, false) := by
  obtain ⟨-, hRefused, hWait, hSquash, hPlaced, -, -, -⟩ := h
  simp [boundaryEvents, hRefused, hWait, mayTakeSquash, hSquash, resolveStores, lowestUnresolved_placed hPlaced]

theorem fetch_eq {s : State} {c : Nat} {b : Bundle} {is : List Instr} (hc : (s.seal (s.ctx c).handle).code[(s.ctx c).pc / 32]? = some b)
    (hd : decodeBundle b = .ok is) : fetch s c = some is := by
  simp only [fetch, hc, hd]

/-- A bundle of one slot whose guard is true, before the image's end, reaches issue (R36, R40). -/
theorem fetchFrom_one {s : State} {c n : Nat} {is : List Instr} {o : SlotOp} (hf : fetch s c = some is) (ho : bundleOps is = [o])
    (hg : readGuard s c o.guard = true) (hl : (s.ctx c).pc + 32 < s.imageLen (s.ctx c).handle) : fetchFrom c (n + 1) s = (.slots [o], s) := by
  have inside : (decide (s.imageLen (s.ctx c).handle ≤ (s.ctx c).pc + 32) && !transfers s c is) = false := by
    rw [decide_eq_false (Nat.not_le.2 hl), Bool.false_and]
  have stays : skips s c [o] = false := by simp [skips, hg]
  simp only [fetchFrom, hf, ho, inside, stays, Bool.false_eq_true, if_false]

/-- What a bundle of one slot finds, with the core's tags kept, when nothing stands before its issue. -/
structure AtIssue (u : State) (g c : Nat) (is : List Instr) (o : SlotOp) : Prop where
  ready : (u.core g).Ready c
  bundle : (u.ctx c).AtBundle
  fetched : fetch u c = some is
  one : bundleOps is = [o]
  guard : readGuard u c o.guard = true
  inside : (u.ctx c).pc + 32 < u.imageLen (u.ctx c).handle

/-- The cycle of a core whose ACTIVE context stands at a bundle of one slot: the bundle, and the end of the cycle. -/
theorem coreCycle_one {s u : State} {g c : Nat} {is : List Instr} {o : SlotOp} (hlt : g < 320) (hu : keepTags s g = u) (h : AtIssue u g c is o) :
    coreCycle s g = .next (settleAll (endCycle (settleIssue (issueSlots c [o] u)) g)) := by
  obtain ⟨⟨hActive, hYield, hLat, hWait⟩, hx, hf, ho, hg, hl⟩ := h
  have keeps : takeIssue (giveUpIssue u g) g = u := by simp [giveUpIssue, takeIssue, hActive, hYield]
  have issues : issueBundle u g c [o] = issueSlots c [o] u := by simp [issueBundle, hWait, hLat]
  have phase : issuePhase u g c = .ok (issueSlots c [o] u) := by
    simp [issuePhase, boundary_at hx, fetchFrom_one hf ho hg hl, hx.noSquash, boundaryEvents_at hx, issues]
  unfold coreCycle
  rw [if_neg (Nat.not_le.2 hlt), hu, keeps]
  simp only [hActive, phase]

/-- Settles O1: with the core's tags kept, the cycle is that of a bundle of one slot, of which `exec` is the issue. -/
theorem stepRunsDecodedBundle : Obligations.StepRunsDecodedBundle := by
  intro s t c sl b i h hm hp hlt hr hx hc hs hd hi hg hl he
  have mem : i ∈ (aloneIn sl i).filter (fun i => !i.isNop) := by rw [filter_aloneIn hs hi]; exact List.mem_singleton_self i
  obtain ⟨w, word, hw⟩ := decodeFrom_mem hd i (List.mem_of_mem_filter mem)
  obtain ⟨o, ho⟩ := slotOp_of_encode (encodeOfDecode _ _ _ hw).1
  have one : bundleOps (aloneIn sl i) = [o] := by simp [bundleOps, filter_aloneIn hs hi, ho]
  have guard : readGuard s c o.guard = true := by rw [(exec_of_slotOp ho s).2]; exact hg
  have at_ : AtIssue (keepTags s s.focus) s.focus c (aloneIn sl i) o := by
    obtain ⟨tags, hk | hk⟩ := keepTags_eq s s.focus
    · rw [hk]
      exact ⟨by rw [State.core_modCore_same]; exact ⟨hr.1, hr.2, hr.3, hr.4⟩, hx, fetch_eq hc hd, one, guard, hl⟩
    · rw [hk]
      exact ⟨hr, hx, fetch_eq hc hd, one, guard, hl⟩
  have acting : (keepTags s s.focus).acting = some c := by
    obtain ⟨tags, hk | hk⟩ := keepTags_eq s s.focus
    · rw [State.acting, hk]
      exact (congrArg Core.active (State.core_modCore_same ..)).trans hr.active
    · rw [hk]
      exact h.acting
  have exec_eq : exec i (keepTags s s.focus) = .next (settleIssue (issueSlots c [o] (keepTags s s.focus))) := by
    rw [(exec_of_slotOp ho _).1, issueOne, acting]
  have same : settleIssue (issueSlots c [o] (keepTags s s.focus)) = t := Host.Outcome.next.inj (exec_eq.symm.trans he)
  simp only [step, hm, hp, ne_eq, not_true, if_false, coreCycle_one hlt rfl at_, same]

/-! ### Reset -/

/-- Settles O58: the values of the state after reset. -/
theorem resetValues : Obligations.ResetValues := by
  unfold Obligations.ResetValues
  refine ⟨?mem, ?still, fun a => rfl, fun c => ⟨rfl, rfl, rfl, by rw [Context.kLevel]; exact BitVec.getLsbD_zero⟩, fun h => rfl, fun g q t => ⟨rfl, rfl, rfl, rfl, rfl⟩,
    fun d e p => ⟨rfl, rfl, rfl, rfl, rfl, rfl, rfl⟩, fun n => rfl, rfl⟩
  case mem => rfl
  case still => exact ⟨⟨rfl, nofun⟩, rfl⟩

end Sys2Proof.Machine

/-! ## The frame of the local-access, vector and matrix engines (R9, R43)

Such a row exposes results, changes its core, and does nothing else. -/

namespace Sys2Proof.Machine

/-! ### Local effects -/

theorem SameRegisters.refl (x : Context) : SameRegisters x x := ⟨rfl, rfl, rfl, rfl, rfl, rfl, rfl, rfl, rfl⟩

theorem SameRegisters.trans {x y z : Context} (h : SameRegisters x y) (k : SameRegisters y z) : SameRegisters x z :=
  ⟨k.sr.trans h.sr, k.pr.trans h.pr, k.lc.trans h.lc, k.vr.trans h.vr, k.vm.trans h.vm, k.sys.trans h.sys, k.tok.trans h.tok, k.att.trans h.att,
    k.cand.trans h.cand⟩

/-- From `s` to `t`, context c's core has changed, and of c only what its bundle has begun: its registers and its place are as before, and nothing is
left to settle that was not before. -/
structure State.Local (s t : State) (c : Nat) : Prop extends OnlyContext s t c, SameRegisters (s.ctx c) (t.ctx c) where
  pc : (t.ctx c).pc = (s.ctx c).pc
  nxt : (t.ctx c).nxt = (s.ctx c).nxt
  unwinds : t.unwinds = s.unwinds

theorem State.Local.refl (s : State) (c : Nat) : s.Local s c :=
  ⟨⟨fun _ _ => rfl, fun _ _ => rfl, rfl, rfl, rfl, rfl, fun _ => rfl⟩, .refl _, rfl, rfl, rfl⟩

theorem OnlyContext.trans {s t u : State} {c : Nat} (h : OnlyContext s t c) (k : OnlyContext t u c) : OnlyContext s u c :=
  ⟨fun e he => (k.ctxs e he).trans (h.ctxs e he), fun g hg => (k.cores g hg).trans (h.cores g hg), k.dies.trans h.dies, k.tasks.trans h.tasks,
    k.seals.trans h.seals, k.frames.trans h.frames, fun a => (k.mem a).trans (h.mem a)⟩

theorem State.Local.trans {s t u : State} {c : Nat} (h : s.Local t c) (k : t.Local u c) : s.Local u c :=
  ⟨h.toOnlyContext.trans k.toOnlyContext, h.toSameRegisters.trans k.toSameRegisters, k.pc.trans h.pc, k.nxt.trans h.nxt, k.unwinds.trans h.unwinds⟩

theorem State.local_setCore (s : State) (c : Nat) (x : Core) : s.Local (s.setCore (coreOf c) x) c :=
  ⟨⟨fun _ _ => rfl, fun _ hg => State.core_setCore_ne _ _ hg, rfl, rfl, rfl, rfl, fun _ => rfl⟩, .refl _, rfl, rfl, rfl⟩

theorem State.local_modCtx (s : State) {c : Nat} {f : Context → Context} (hr : ∀ x, SameRegisters x (f x)) (hp : ∀ x, (f x).pc = x.pc)
    (hn : ∀ x, (f x).nxt = x.nxt) : s.Local (s.modCtx c f) c := by
  refine ⟨⟨fun _ he => State.ctx_modCtx_ne _ _ he, fun _ _ => rfl, rfl, rfl, rfl, rfl, fun _ => rfl⟩, ?_, ?_, ?_, rfl⟩
  · rw [State.ctx_modCtx_same]
    exact hr _
  · rw [State.ctx_modCtx_same]
    exact hp _
  · rw [State.ctx_modCtx_same]
    exact hn _

theorem expose_local (s : State) (c slot : Nat) (d : Dst) (v bound : Nat) (ev : Cats) : s.Local (expose s c slot d v bound ev) c :=
  s.local_modCtx (fun _ => ⟨rfl, rfl, rfl, rfl, rfl, rfl, rfl, rfl, rfl⟩) (fun _ => rfl) fun _ => rfl

theorem useDraws_local (s : State) (c slot n : Nat) (rm : RM) : s.Local (useDraws s c slot n rm) c := by
  unfold useDraws
  split
  · exact (expose_local ..).trans (State.local_modCtx _ (fun _ => ⟨rfl, rfl, rfl, rfl, rfl, rfl, rfl, rfl, rfl⟩) (fun _ => rfl) fun _ => rfl)
  · exact .refl s c

theorem readHeld_local (s : State) (c : Nat) (f : BitVec 6) : s.Local (readHeld s c f).2 c := by
  unfold readHeld
  dsimp only
  split
  · exact .refl s c
  · split
    · exact s.local_setCore c _
    · split <;> exact .refl s c

theorem readHeld2_local (s : State) (c : Nat) (fa fb : BitVec 6) : s.Local (readHeld2 s c fa fb).2.2 c := by
  rw [readHeld2_state]
  exact (readHeld_local ..).trans (readHeld_local ..)

/-! ### Rows with a local effect -/

/-- What a row answers, if it lets its bundle issue, is a local effect. -/
def Verdict.Local (s : State) (c : Nat) : Verdict → Prop
  | .issued t => s.Local t c
  | _ => True

theorem Verdict.local_ite {s : State} {c : Nat} {p : Prop} [Decidable p] {v w : Verdict} (hv : v.Local s c) (hw : w.Local s c) :
    (if p then v else w).Local s c := by
  split
  · exact hv
  · exact hw

section
variable (s : State) (c : Nat)

theorem laLoad_local (addrs : List Nat) (m : BitVec 2) {put : State → List W64 → State} (hp : ∀ (s : State) vs, s.Local (put s vs) c) :
    (laLoad addrs m c s put).Local s c := by
  unfold laLoad
  refine Verdict.local_ite (hp s _) ?_
  dsimp only
  split
  · trivial
  · split
    · trivial
    · exact (s.local_setCore c _).trans (hp _ _)

theorem laStore_local (addrs : List Nat) (vals : List W64) (m : BitVec 2) : (laStore addrs vals m c s).Local s c := by
  unfold laStore
  refine Verdict.local_ite (.refl s c) ?_
  dsimp only
  split
  · trivial
  · exact s.local_setCore c _

theorem portCheck_local {g : Core} {kind : Nat} {cs : List Nat} {v : Verdict} (h : portCheck g kind cs = some v) : v.Local s c := by
  unfold portCheck at h
  split at h
  · cases h
    trivial
  · split at h
    · cases h
      trivial
    · exact nomatch h

theorem tileCmd_local (load acc : Bool) (base : Nat) (places : List Nat) (res : List Res) (m : BitVec 2) :
    (tileCmd load acc base places res m c s).Local s c := by
  unfold tileCmd
  refine Verdict.local_ite trivial (Verdict.local_ite trivial ?_)
  dsimp only
  split
  · next v hv =>
    split at hv
    · exact portCheck_local s c hv
    · exact nomatch hv
  · exact s.local_setCore c _

theorem tagset_local (full : Bool) (b n : BitVec 6) : (tagset full b n c s).Local s c := by
  unfold tagset
  dsimp only
  split
  · trivial
  · exact s.local_setCore c _

/-- A vector row that exposes one result from the state in which its operands are read. -/
theorem exposed1_local (a : BitVec 6) (slot bound : Nat) (d : Dst) (v : Nat) (ev : Cats) :
    (Verdict.issued (expose (readHeld s c a).2 c slot d v bound ev)).Local s c := (readHeld_local ..).trans (expose_local ..)

theorem exposed2_local (a b : BitVec 6) (slot bound : Nat) (d : Dst) (v : Nat) (ev : Cats) :
    (Verdict.issued (expose (readHeld2 s c a b).2.2 c slot d v bound ev)).Local s c := (readHeld2_local ..).trans (expose_local ..)

theorem vArith_local (fop : Fmt → RM → W64 → Nat → Nat → Nat × Cats) (iop : Int → Int → Int) (bound : Nat) (d a b : BitVec 6) (t : BitVec 3) :
    (vArith fop iop bound d a b t c s).Local s c := by
  rw [vArith_eq]
  refine (readHeld2_local s c a b).trans (State.Local.trans ?_ (expose_local ..))
  split
  · exact .refl _ c
  · exact useDraws_local ..

theorem vFma_local (f : Fmt) (d : BitVec 5) (a b : BitVec 6) (e : BitVec 4) : (vFma f d a b e c s).Local s c := by
  rw [vFma_eq]
  exact (readHeld2_local s c a b).trans ((useDraws_local ..).trans (expose_local ..))

theorem vCvt_local (sat : Bool) (d a : BitVec 6) (f t : BitVec 4) : (vCvt sat d a f t c s).Local s c := by
  rw [vCvt_eq]
  exact (readHeld_local s c a).trans ((useDraws_local ..).trans (expose_local ..))

theorem opVxRedsum_local (d a b : BitVec 6) (t : BitVec 3) : (opVxRedsum d a b t c s).Local s c := by
  rw [opVxRedsum_eq]
  refine (readHeld_local s c a).trans (State.Local.trans ?_ (expose_local ..))
  split
  · exact .refl _ c
  · exact useDraws_local ..

theorem opVxPush_local (v : BitVec 6) (q : BitVec 3) : (opVxPush v q c s).Local s c := by
  unfold opVxPush
  exact Verdict.local_ite trivial ((readHeld_local s c v).trans (State.local_setCore ..))

theorem opVxPop_local (v : BitVec 6) (q : BitVec 3) : (opVxPop v q c s).Local s c := by
  unfold opVxPop
  dsimp only
  split
  · trivial
  · exact Verdict.local_ite trivial ((s.local_setCore c _).trans (expose_local ..))

theorem opVxTval_local (d a : BitVec 6) (t : BitVec 3) : (opVxTval d a t c s).Local s c := by
  unfold opVxTval
  dsimp only
  split
  · exact exposed1_local ..
  · exact exposed1_local ..
  · split
    · trivial
    · exact exposed1_local ..

theorem opMxMma_local (l : BitVec 2) (a : BitVec 4) (r : BitVec 6) (t : BitVec 3) (o : BitVec 2) : (opMxMma l a r t o c s).Local s c := by
  unfold opMxMma
  refine Verdict.local_ite trivial (Verdict.local_ite trivial (Verdict.local_ite trivial (Verdict.local_ite trivial ?_)))
  dsimp only
  split
  · next v hv => exact portCheck_local s c hv
  · exact s.local_setCore c _

theorem opMxAccz_local (r n : BitVec 6) : (opMxAccz r n c s).Local s c := by
  unfold opMxAccz
  refine Verdict.local_ite trivial (Verdict.local_ite trivial ?_)
  dsimp only
  split
  · next v hv => exact portCheck_local s c hv
  · exact s.local_setCore c _

theorem opMxLatq_local (l : BitVec 2) (q : BitVec 3) : (opMxLatq l q c s).Local s c := by
  unfold opMxLatq
  exact Verdict.local_ite trivial (Verdict.local_ite trivial (Verdict.local_ite trivial (s.local_setCore c _)))

theorem opMxLatt_local (l : BitVec 2) (a : BitVec 4) : (opMxLatt l a c s).Local s c := by
  unfold opMxLatt
  exact Verdict.local_ite trivial (Verdict.local_ite trivial (Verdict.local_ite trivial (s.local_setCore c _)))

theorem opMxTtr_local (d a : BitVec 4) : (opMxTtr d a c s).Local s c := by
  unfold opMxTtr
  exact Verdict.local_ite trivial (Verdict.local_ite trivial (s.local_setCore c _))

theorem opMxAccq_local (r n : BitVec 6) (q : BitVec 3) : (opMxAccq r n q c s).Local s c := by
  unfold opMxAccq
  exact Verdict.local_ite trivial (Verdict.local_ite trivial (Verdict.local_ite (.refl s c) (s.local_setCore c _)))

/-- Is this one of the slots LD, VX and MX? -/
def localSlot (n : Nat) : Bool := Nat.ble 3 n && Nat.ble n 5

/-- Each of the slots LD, VX and MX has a local effect. -/
theorem slotOp_local {i : Instr} {o : SlotOp} (h : slotOp i = some o) (hs : localSlot o.slot = true) : (o.run c s).Local s c := by
  cases i
  case ldNop | vxNop | mxNop => cases h; exact .refl s c
  case ldW => cases h; exact laLoad_local s c _ _ (put := fun s vs => exposeS s c 3 _ (wordAt vs 0) 3 0) fun _ _ => expose_local ..
  case ldRow | ldCol => cases h; exact laLoad_local s c _ _ (put := fun s vs => exposeV s c 3 _ (wordsVec vs) 4 0) fun _ _ => expose_local ..
  case stW | stRow | stCol => cases h; exact laStore_local ..
  case ldTile => cases h; exact tileCmd_local s c true false ..
  case stTile => cases h; exact tileCmd_local s c false false ..
  case ldAcc => cases h; exact tileCmd_local s c true true ..
  case stAcc => cases h; exact tileCmd_local s c false true ..
  case ldTagsetFull | ldTagsetEmpty => cases h; exact tagset_local ..
  case vxAdd | vxSub | vxMul => cases h; exact vArith_local ..
  case vxFmaF32 | vxFmaF64 | vxFmaF16 | vxFmaBf16 => cases h; exact vFma_local ..
  case vxMin | vxMax | vxAnd | vxOr | vxXor | vxShl | vxShr | vxCmp | vxSel | vxPerm | vxAmax | vxScale | vxAcs => cases h; exact exposed2_local ..
  case vxAbs | vxRedmax | vxExp | vxRcp | vxRsqrt | vxMov | vxExt => cases h; exact exposed1_local ..
  case vxBcast | vxMovi | vxRand => cases h; exact expose_local ..
  case vxRedsum => cases h; exact opVxRedsum_local ..
  case vxCvt | vxCvts => cases h; exact vCvt_local ..
  case vxPush => cases h; exact opVxPush_local ..
  case vxPop => cases h; exact opVxPop_local ..
  case vxTval => cases h; exact opVxTval_local ..
  case mxMma => cases h; exact opMxMma_local ..
  case mxLatq => cases h; exact opMxLatq_local ..
  case mxLatt => cases h; exact opMxLatt_local ..
  case mxTtr => cases h; exact opMxTtr_local ..
  case mxAccz => cases h; exact opMxAccz_local ..
  case mxAccq => cases h; exact opMxAccq_local ..
  all_goals (try cases ‹SUnit›) <;> cases h <;> exact Bool.noConfusion hs

end

theorem State.performTagged_only (s : State) (c : Nat) : OnlyContext s (s.performTagged (coreOf c)) c := by
  unfold State.performTagged
  split
  · exact (State.Local.refl s c).toOnlyContext
  · exact (s.local_setCore c _).toOnlyContext

/-- None of them accesses the virtual space. -/
theorem slotOp_noAccess {s : State} {c : Nat} {i : Instr} {o : SlotOp} (h : slotOp i = some o) (hs : localSlot o.slot = true) : o.mem c s = none := by
  cases i
  case brWaita | brPload | dxCpost => cases h; exact Bool.noConfusion hs
  case saLdB64 u _ _ _ _ | saLdB32 u _ _ _ _ _ | saLdB16 u _ _ _ _ _ | saLdB8 u _ _ _ _ _ | saStB64 u _ _ _ _ | saStB32 u _ _ _ _ | saStB16 u _ _ _ _ |
      saStB8 u _ _ _ _ =>
    cases h
    cases u <;> exact Bool.noConfusion hs
  all_goals cases h <;> rfl

/-- The end of such a bundle (R107, R109). -/
theorem issuedNext_local (t : State) (c : Nat) : OnlyContext t (issuedNext t c) c ∧ SameRegisters (t.ctx c) ((issuedNext t c).ctx c) ∧
    ((issuedNext t c).ctx c).pc = (t.ctx c).pc + 32 := by
  have counted : OnlyContext t { t with free := t.free + 1 } c := ⟨fun _ _ => rfl, fun _ _ => rfl, rfl, rfl, rfl, rfl, fun _ => rfl⟩
  have own : (issuedNext t c).ctx c = (t.ctx c).afterBundle := by
    rw [issuedNext, State.ctx_modCtx_same, State.ctx_performTagged]
    rfl
  refine ⟨(counted.trans (State.performTagged_only _ c)).trans ⟨fun _ he => State.ctx_modCtx_ne _ _ he, fun _ _ => rfl, rfl, rfl, rfl, rfl, fun _ => rfl⟩,
    ?_, by rw [own]; rfl⟩
  rw [own]
  exact ⟨rfl, rfl, rfl, rfl, rfl, rfl, rfl, rfl, rfl⟩

/-- Settles O59: the row's effect is local, and so is the end of its bundle. -/
theorem localVectorAndMatrixFrame : Obligations.LocalVectorAndMatrixFrame := by
  intro s t c i o h ho hs hg hr
  obtain ⟨hexec, hguard⟩ := exec_of_slotOp ho s
  have slot : localSlot o.slot = true := by simp [localSlot, hs]
  have local_ : s.Local t c := by
    have := slotOp_local s c ho slot
    rwa [hr] at this
  have noAccess_ : o.mem c s = none := slotOp_noAccess ho slot
  obtain ⟨only, regs, pc⟩ := issuedNext_local t c
  refine ⟨?_, local_.toOnlyContext.trans only, local_.toSameRegisters.trans regs, by rw [pc, local_.pc]⟩
  rw [hexec]
  exact issueOne_issued h noAccess_ (hguard ▸ hg) hr (local_.nxt.trans h.between) (h.toCalm.congr local_.unwinds local_.tasks)

end Sys2Proof.Machine

/-! ## The exchange family (10_copy.md R230, R241; 14_dispatch.md R313; 09_matrix.md R215, R216): `dx.cpost` -/

namespace Sys2Proof.Machine

/-! ### Bundles of one slot whose access translates -/

theorem takenOf_trap (code : Nat) (info : W64) : takenOf [.trap code info] = some (.trap code info) := by
  by_cases hc : code = 6
  · rw [hc]
    rfl
  · simp [takenOf, Verdict.sched, lowestOf, hc]

/-- A bundle of one slot that traps after its access has translated. -/
theorem issueOne_translated_trap {s t : State} {c va pa code : Nat} {info : W64} {acc : Acc} {pte : W64} {o : SlotOp} (h : Acts s c)
    (hm : o.mem c s = some (va, acc)) (hg : readGuard s c o.guard = true)
    (ht : translate s (dieOf (coreOf c)) (.core (coreOf c)) (s.asidOf c) va acc (s.ctx c).kLevel = .ok pa pte t)
    (hr : o.run c t = .trap code info) : issueOne o s = .next (trapped t c code info) := by
  rw [issueOne_translated_settle h hm hg ht hr nofun]
  simp only [settle, freezeSpent, takenOf_trap, trapped]

/-- A bundle of one slot that blocks after its access has translated. -/
theorem issueOne_translated_blocks {s t : State} {c va pa : Nat} {why : Block} {acc : Acc} {pte : W64} {o : SlotOp} (h : Acts s c)
    (ha : (s.core (coreOf c)).active = some c) (hm : o.mem c s = some (va, acc)) (hg : readGuard s c o.guard = true)
    (ht : translate s (dieOf (coreOf c)) (.core (coreOf c)) (s.asidOf c) va acc (s.ctx c).kLevel = .ok pa pte t)
    (hr : o.run c t = .block why .none) : ∃ u, issueOne o s = .next u ∧ BlocksOn s u c why := by
  have acc := translate_accessed ht
  have calm : (blockContext t c why .none).Calm := (acc.calm h.toCalm).congr rfl rfl
  have active : (t.core (coreOf c)).active = some c := by rw [acc.core]; exact ha
  refine ⟨blockContext t c why .none, ?_, .of_accessed acc (blockContext_blocksOn why active)⟩
  exact (issueOne_translated_settle h hm hg ht hr nofun).trans (congrArg _ (settleIssue_calm calm))

/-- A bundle of one slot that issues after its access has translated. -/
theorem issueOne_translated_finish {s t u : State} {c va pa : Nat} {acc : Acc} {pte : W64} {o : SlotOp} (h : Acts s c)
    (hm : o.mem c s = some (va, acc)) (hg : readGuard s c o.guard = true)
    (ht : translate s (dieOf (coreOf c)) (.core (coreOf c)) (s.asidOf c) va acc (s.ctx c).kLevel = .ok pa pte t)
    (hr : o.run c t = .issued u) : issueOne o s = .next (settleIssue (finishIssue u c)) := by
  have hw : walkSlots c [o] s = t := walkSlots_translated hm hg (translate_ok ht).1 ht
  exact issueOne_walked h (by rw [hw, translate_readGuard ht]; exact hg) (by rw [hw]; exact hr)

/-- A context that blocks with a watch on a line has read that line (R99, R241). -/
theorem blockContext_watch {s : State} {c l : Nat} (why : Block) (ha : (s.core (coreOf c)).active = some c) :
    BlocksOn s (blockContext s c why (.watch l)) c why ∧ ((blockContext s c why (.watch l)).ctx c).watch = some l ∧
      (s.Calm → (blockContext s c why (.watch l)).Calm) := by
  let b := blockContext s c why .none
  let w := b.modCtx c (fun x => { x with watch := some l })
  have home : w.Accessed (blockContext s c why (.watch l)) := State.Accessed.loadHome w (.core (coreOf c)) (64 * l) 1
  have ctx : (blockContext s c why (.watch l)).ctx c = w.ctx c := rfl
  have own : w.ctx c = { b.ctx c with watch := some l } := State.ctx_modCtx_same ..
  obtain ⟨st, why', pc, handle, idle, regs⟩ := blockContext_blocksOn why ha
  refine ⟨⟨?_, ?_, ?_, ?_, ?_, ?_⟩, ?_, fun hc => home.calm (hc.congr rfl rfl)⟩
  · rw [ctx, own]; exact st
  · rw [ctx, own]; exact why'
  · rw [ctx, own]; exact pc
  · rw [ctx, own]; exact handle
  · rw [home.core]; exact idle
  · rw [ctx, own]; exact ⟨regs.sr, regs.pr, regs.lc, regs.vr, regs.vm, regs.sys, regs.tok, regs.att, regs.cand⟩
  · rw [ctx, own]

/-! ### Words of memory -/

theorem State.readN_of_bytes {s t : State} {n : Nat} : ∀ {pa : Nat}, (∀ e, pa ≤ e → e < pa + n → t.byte e = s.byte e) → t.readN pa n = s.readN pa n := by
  induction n with
  | zero => exact fun _ => rfl
  | succ n ih =>
    intro pa h
    rw [State.readN, State.readN, h pa (by omega) (by omega), ih fun e h1 h2 => h e (by omega) (by omega)]

theorem State.readN_of_mem {s t : State} (h : t.mem = s.mem) (n pa : Nat) : t.readN pa n = s.readN pa n :=
  State.readN_of_bytes fun e _ _ => congrArg (SMap.get 0 · e) h

theorem State.word_of_mem {s t : State} (h : t.mem = s.mem) (pa : Nat) : t.word pa = s.word pa := by
  rw [State.word, State.word, State.readN_of_mem h]

theorem State.word_storePhys (s : State) (a : Agent) (pa v : Nat) : (s.storePhys a pa 8 v).word pa = BitVec.ofNat 64 v := by
  rw [State.word_of_mem (s.storePhys_mem a pa 8 v), State.word, State.readN_writeN]
  exact BitVec.eq_of_toNat_eq (by simp)

/-! ### The claim (R241) -/

section
variable {s : State} {c va pa : Nat} {pte : W64} {b : BitVec 6} {k : BitVec 5} {h : QHead}

/-- Where no store of the context waits, the descriptor is within reach and no bank of the image is locked, the claim goes on to its token. -/
theorem claimSlot_ready (hs : (s.ctx c).stores = []) (hr : s.reach (dieOf (coreOf c)) pa = true)
    (hl : (s.core (coreOf c)).locked ((imageWords s c b h.words).map (s.core (coreOf c)).bank) = false)
    (hk : (s.ctx c).tokPending k.toNat = true) : claimSlot b k c va pa pte h s = .block (.token k.toNat) .none := by
  simp only [claimSlot, flushStores_none hs, hs, hr, hl, hk]
  rfl

/-- With its token free and its image read, it goes on to the room in the queue. -/
theorem claimSlot_read {ws : List W64} (hs : (s.ctx c).stores = []) (hr : s.reach (dieOf (coreOf c)) pa = true)
    (hl : (s.core (coreOf c)).locked ((imageWords s c b h.words).map (s.core (coreOf c)).bank) = false)
    (hk : (s.ctx c).tokPending k.toNat = false) (hw : readImage s c b h.words = .ok ws) (hb : s.badAt pa 16 = false) :
    claimSlot b k c va pa pte h s =
      if 2 ^ h.lsize ≤ (s.word pa - s.word (pa + 8)).toNat then .block .queueFull (.watch (pa / 64))
      else if !h.launch && fieldOf (wordAt ws 0) 19 16 == 8 && decide (16 ≤ (s.ctx c).aq.length) then .block .returnsFull .none
      else match (if h.launch then none else imageWindow ws) with
        | some (off, _, rows, _) => match windowClash (s.core (coreOf c)) off rows with
          | some info => .trap 6 info
          | none => .issued (postImage s c (pa / 64) pa h ws k.toNat)
        | none => .issued (postImage s c (pa / 64) pa h ws k.toNat) := by
  simp only [claimSlot, flushStores_none hs, hs, hr, hl, hk, hw, hb]
  rfl

end

/-- The image in a window of no lines is of zeros (R156). -/
theorem readImage_zeros {s : State} {c n : Nat} {b : BitVec 6} {ws : List W64} (h : (s.ctx c).spLines = 0) (hw : readImage s c b n = .ok ws) :
    ws = List.replicate n 0 := by
  rw [readImage, if_pos h] at hw
  exact (Except.ok.inj hw).symm

/-- Word 0 of an image is stored last, and every word once. -/
theorem slotStores_shape (i : W64) (j : List W64) (v w : Nat) :
    ((slotStores (i :: j) none v w).map (fun t => (t.va, t.val))).getLast? = some (v, i.toNat) ∧ (slotStores (i :: j) none v w).length = j.length + 1 := by
  simp [slotStores, List.zipIdx_cons]

theorem State.readN_lt (s : State) (n : Nat) : ∀ pa, s.readN pa n < 256 ^ n := by
  induction n with
  | zero => exact fun _ => Nat.one_pos
  | succ n ih =>
    intro pa
    have byte := (s.byte pa).isLt
    have rest := ih (pa + 1)
    rw [State.readN, pow_succ]
    omega

theorem State.readN_word (s : State) (pa : Nat) : s.readN pa 8 = (s.word pa).toNat := by
  rw [State.word, BitVec.toNat_ofNat, Nat.mod_eq_of_lt ((s.readN_lt 8 pa).trans_eq (by norm_num))]

/-- The claim is noted: WIDX has risen, a windowed packet has its window, the token is pending and the attach set empty (R215, R241, R242). -/
def claimed (s : State) (c line pa seq : Nat) (h : QHead) (ws : List W64) (k : Nat) : State :=
  let x := s.ctx c
  let amo := !h.launch && fieldOf (wordAt ws 0) 19 16 == 8
  let risen := s.storePhys (.core (coreOf c)) pa 8 ((seq + 1) % 2 ^ 64)
  let windowed := match (if h.launch then none else imageWindow ws) with
    | none => risen
    | some (off, row, rows, fmt) => risen.modCore (coreOf c) (fun y =>
        { y with wins := y.wins ++ [(⟨off, row, rows, 0, fmt, x.tid, x.rank, seq, line, [], false, false⟩ : Window)] })
  ({ windowed with claims := windowed.claims ++
      [(⟨line, seq, x.tid, x.rank, x.order, k, x.deps, false, false⟩ : Claim)] } : State).modCtx c (fun y => { (y.tokPend k) with
    att := [], posted := if h.launch then y.posted else y.posted + 1, aq := if amo then y.aq ++ [(⟨line, seq, false, 0⟩ : AqEntry)] else y.aq })

/-- The slot of the claim in its ring. -/
def slotOf (h : QHead) (seq : Nat) : Nat := h.ring + (if h.launch then 128 else 64) * (seq % 2 ^ h.lsize)

/-- A post notes its claim, and then stores its image as the ring's page allows (R369). -/
theorem postImage_eq (s : State) (c line pa seq : Nat) (h : QHead) (ws : List W64) (k : Nat) (hseq : s.readN pa 8 = seq) :
    let img := stampImage ws h.launch (seq % 2 ^ 24) k c (s.ctx c).att
    let store (t : State) (pa : Option Nat) : State :=
      t.modCtx c (fun y => { y with stores := y.stores ++ slotStores img pa (slotOf h seq) h.asid })
    postImage s c line pa h ws k =
      match translate (claimed s c line pa seq h ws k) (dieOf (coreOf c)) (.core (coreOf c)) h.asid (slotOf h seq) .write false with
      | .ok p _ t => store t (some p)
      | .absent _ t => store t none
      | .wait => store (claimed s c line pa seq h ws k) none
      | .refused t => t.modCtx c (fun y => { y with refused := some (slotOf h seq) }) := by
  subst hseq
  rfl

section
variable (s : State) (c line pa seq : Nat) (h : QHead) (ws : List W64) (k : Nat)

theorem claimed_mem : (claimed s c line pa seq h ws k).mem = (s.storePhys (.core (coreOf c)) pa 8 ((seq + 1) % 2 ^ 64)).mem := by
  unfold claimed
  generalize s.storePhys (.core (coreOf c)) pa 8 ((seq + 1) % 2 ^ 64) = risen
  dsimp only
  split <;> rfl

theorem claimed_word (hseq : (s.word pa).toNat = seq) : (claimed s c line pa seq h ws k).word pa = s.word pa + 1 := by
  rw [State.word_of_mem (claimed_mem s c line pa seq h ws k), State.word_storePhys, ← hseq]
  exact BitVec.eq_of_toNat_eq (by simp)

/-- The claiming context: its token is pending; its stores are as before. -/
theorem claimed_ctx : ((claimed s c line pa seq h ws k).ctx c).stores = (s.ctx c).stores ∧
    ∃ y : Context, ((claimed s c line pa seq h ws k).ctx c).tok = (y.tokPend k).tok := by
  have stores : ((s.storePhys (.core (coreOf c)) pa 8 ((seq + 1) % 2 ^ 64)).ctx c).stores = (s.ctx c).stores :=
    (State.Accessed.storePhys s (.core (coreOf c)) pa 8 ((seq + 1) % 2 ^ 64)).stores c
  have tokPend (y : Context) : (y.tokPend k).stores = y.stores := by
    unfold Context.tokPend
    split <;> rfl
  unfold claimed
  generalize s.storePhys (.core (coreOf c)) pa 8 ((seq + 1) % 2 ^ 64) = risen at stores
  refine ⟨?_, risen.ctx c, ?_⟩
  · dsimp only
    rw [State.ctx_modCtx_same, tokPend]
    refine Eq.trans ?_ stores
    split <;> rfl
  · dsimp only
    rw [State.ctx_modCtx_same]
    split <;> rfl

end

/-- The queue that a descriptor's line names, where it has been translated. -/
theorem namedQueue_translated {s t : State} {c va pa : Nat} {pte : W64} (hal : va % 64 = 0)
    (ht : translate s (dieOf (coreOf c)) (.core (coreOf c)) (s.asidOf c) va .rmw (s.ctx c).kLevel = .ok pa pte t) :
    namedQueue t c va = match t.qheads.find? (fun p => p.1 == pa / 64) with
      | some (_, h) => some (pa, pte, h, t)
      | none => none := by
  have acc := translate_accessed ht
  have again : translate t (dieOf (coreOf c)) (.core (coreOf c)) (t.asidOf c) va .rmw (t.ctx c).kLevel = .ok pa pte t := by
    rw [acc.kLevel, acc.asidOf]
    exact translate_again ht
  simp [namedQueue, (translate_ok ht).1, hal, again] <;> rfl

/-- Settles O40: the branches of `opDxCpost` and of `claimSlot`, of which the last notes the claim (`claimed`) and stores the image (`postImage_eq`). -/
theorem copyPost : Obligations.CopyPost := by
  unfold Obligations.CopyPost
  intro s s' c pa pte g a b k h hg ha va free blocks
  have vab : va < 2 ^ 64 := BitVec.isLt _
  refine ⟨fun bad => ?misaligned, fun hc hal ht => ⟨fun none => ?noQueue, fun q hq hr hs hl => ?token, fun q ws hq hr hb hs hk => ?claim⟩, slotStores_shape⟩
  case misaligned =>
    have noAccess_ : wordAccess a 64 .rmw c s = none := ordAccess_of_misaligned vab bad
    have off : (!canonical va || va % 64 != 0) = true := by
      rcases bad with hb | hb <;> simp [hb]
    have run : opDxCpost a b k c s = if (s.ctx c).tokPending k.toNat then .block (.token k.toNat) .none else .trap 10 (BitVec.ofNat 64 va) := by
      have noName : namedQueue s c va = none := if_pos off
      simp only [opDxCpost, noName, va] at off ⊢
      exact if_pos off
    exact ⟨fun hk => issueOne_trap (o := rowDxCpost g a b k) h noAccess_ hg (run.trans (if_neg (by rw [hk]; decide))) (by decide),
      fun hk => ⟨_, issueOne_block (o := rowDxCpost g a b k) h noAccess_ hg (run.trans (if_pos hk)), blockContext_blocksOn _ ha⟩⟩
  all_goals
    have access : wordAccess a 64 .rmw c s = some (va, .rmw) := ordAccess_of_aligned vab hc hal
    have acc := translate_accessed ht
    have addr : (readS s' c a.toNat).toNat = va := by rw [translate_readS ht]
    have named := namedQueue_translated hal ht
    have pending : (s'.ctx c).tokPending k.toNat = (s.ctx c).tokPending k.toNat := acc.kept (·.tokPending k.toNat) (fun _ _ _ => rfl) c
  case noQueue =>
    have again : translate s' (dieOf (coreOf c)) (.core (coreOf c)) (s'.asidOf c) va .rmw (s'.ctx c).kLevel = .ok pa pte s' := by
      rw [acc.kLevel, acc.asidOf]
      exact translate_again ht
    have on : (!canonical va || va % 64 != 0) = false := by simp [hc, hal]
    have run : opDxCpost a b k c s' = if (s'.ctx c).tokPending k.toNat then .block (.token k.toNat) .none else .trap 11 (BitVec.ofNat 64 va) := by
      rw [none] at named
      simp only [opDxCpost, addr, named, on, again, Bool.false_eq_true, if_false]
    exact ⟨fun hk => issueOne_translated_trap (o := rowDxCpost g a b k) h access hg ht (run.trans (if_neg (by rw [pending, hk]; decide))),
      fun hk => issueOne_translated_blocks (o := rowDxCpost g a b k) h ha access hg ht (run.trans (if_pos (by rw [pending]; exact hk)))⟩
  all_goals
    rw [hq] at named
    have run : opDxCpost a b k c s' = claimSlot b k c va pa pte q s' := by simp only [opDxCpost, addr, named]
  case token =>
    exact fun hk => issueOne_translated_blocks (o := rowDxCpost g a b k) h ha access hg ht (run.trans (claimSlot_ready hs hr hl (by rw [pending]; exact hk)))
  case claim =>
    intro n hl hw
    have read := run.trans (claimSlot_read hs hr hl (by rw [pending]; exact hk) hw hb)
    refine ⟨fun hfull => ?full, fun w info hroom hpacket hamo hwin hclash => ?clash, fun hroom hreturns hwin => ?posted⟩
    case full =>
      have active : (s'.core (coreOf c)).active = some c := by rw [acc.core]; exact ha
      obtain ⟨on, watch, calm⟩ := blockContext_watch (l := pa / 64) .queueFull active
      refine ⟨blockContext s' c .queueFull (.watch (pa / 64)), ?_, .of_accessed acc on, watch⟩
      refine (issueOne_translated_settle (o := rowDxCpost g a b k) h access hg ht (read.trans (if_pos hfull)) nofun).trans ?_
      exact congrArg _ (settleIssue_calm (calm (acc.calm h.toCalm)))
    case clash =>
      refine issueOne_translated_trap (o := rowDxCpost g a b k) h access hg ht (read.trans ((if_neg (Nat.not_le.2 hroom)).trans ?_))
      obtain ⟨off, row, rows, fmt⟩ := w
      simp [hpacket, hamo, hwin, hclash]
    case posted =>
      intro x seq img slot amo risen windowed claimed done
      have noReturn : (!q.launch && fieldOf (wordAt ws 0) 19 16 == 8 && decide (16 ≤ (s'.ctx c).aq.length)) = false := by
        by_cases hp : q.launch = false
        · by_cases h8 : fieldOf (wordAt ws 0) 19 16 = 8
          · simp [hp, h8, hreturns hp h8]
          · simp [h8]
        · simp [(Bool.not_eq_false _).mp hp]
      have issued : opDxCpost a b k c s' = .issued (postImage s' c (pa / 64) pa q ws k.toNat) := by
        refine read.trans ((if_neg (Nat.not_le.2 hroom)).trans ((if_neg (by rw [noReturn]; decide)).trans ?_))
        by_cases hp : q.launch = false
        · cases himg : imageWindow ws with
          | none => simp [hp]
          | some w =>
            have noClash := hwin hp w himg
            obtain ⟨off, row, rows, fmt⟩ := w
            simp [hp, noClash]
        · simp [(Bool.not_eq_false _).mp hp]
      have same : claimed = Machine.claimed s' c (pa / 64) pa seq q ws k.toNat := rfl
      have place : slot = slotOf q seq := rfl
      have post := postImage_eq s' c (pa / 64) pa seq q ws k.toNat (s'.readN_word pa)
      obtain ⟨stores, y, tok⟩ := claimed_ctx s' c (pa / 64) pa seq q ws k.toNat
      clear_value claimed
      subst same
      have finish {t : State} (hp : postImage s' c (pa / 64) pa q ws k.toNat = t) : exec (.dxCpost g a b k) s = .next (settleIssue (finishIssue t c)) :=
        issueOne_translated_finish (o := rowDxCpost g a b k) h access hg ht (issued.trans (congrArg _ hp))
      refine ⟨claimed_word s' c (pa / 64) pa seq q ws k.toNat rfl, stores.trans hs, fun hk0 => ?_, fun hz => ?_, fun p pe t htr => ?_, fun l t htr => ?_,
        fun t htr => ?_⟩
      · have pend := Context.tokPending_tokPend y (k := k.toNat) (fun e => hk0 (BitVec.eq_of_toNat_eq e)) k.isLt
        rw [Context.tokPending] at pend ⊢
        rw [tok]
        exact pend
      · refine readImage_zeros ?_ hw
        exact (acc.kept (·.spLines) (fun _ _ _ => rfl) c).trans hz
      · exact finish (post.trans (by rw [← place, htr]))
      · exact finish (post.trans (by rw [← place, htr]))
      · exact finish (post.trans (by rw [← place, htr]))

end Sys2Proof.Machine

/-! ## The sequence family (11_kvblocks.md, 12_grammar.md, 13_sampling.md, 15_schedule.md): commands with a token, commands with a reply, sampler cells -/

namespace Sys2Proof.Machine

/-! ### Commands with a token (R112, R115, R250) -/

theorem Context.tokPend_nxt (x : Context) (k : Nat) : (x.tokPend k).nxt = x.nxt := by
  unfold Context.tokPend
  split <;> rfl

/-- The state in which a command with a token has been made: the context's stores are performed, its token is pending and its attach set empty. -/
def sentState (s : State) (c k : Nat) : State :=
  { (flushStores s c).modCtx c (fun x => { (x.tokPend k) with att := [] }) with serial := (flushStores s c).serial + 1 }

theorem sentState_between {s : State} {c : Nat} (h : s.Between c) (k : Nat) : (sentState s c k).Between c := by
  have made : ((flushStores s c).modCtx c (fun x => { (x.tokPend k) with att := [] })).Between c :=
    ((flushStores_flushed s c).between h).modCtx c fun x => x.tokPend_nxt k
  exact ⟨made.toCalm.congr rfl rfl, made.between⟩

/-- The command that context c sends. -/
def sentCmd (s : State) (c op y : Nat) (a b : BitVec 6) (k : Nat) : SqCmd :=
  { mkCmd s c op y (readS s c a.toNat) (readS s c b.toNat) k (s.ctx c).deps with
    serial := (flushStores s c).serial + 1, ts := (flushStores s c).ptsOf (.core (coreOf c)) }

theorem SqCmd.onWay_of_lt {q : SqCmd} (h : q.op < 22) : q.onWay = { q with wait := 1 + Config.freeValue q.serial 261 } := by
  unfold SqCmd.onWay
  rw [if_neg (Nat.not_le.2 h)]

theorem SqCmd.onWay_of_le {q : SqCmd} (h : 22 ≤ q.op) : q.onWay = { q with wait := 3 + Config.freeValue q.serial 261 } := by
  unfold SqCmd.onWay
  rw [if_pos h]

section
variable {s : State} {c unit lim op y : Nat} {g : Guard} {a b : BitVec 6} {k : BitVec 5} {held : State → Nat → Nat → Nat}
  {put : State → SqCmd → State} {i : Instr} (h : Acts s c) (hg : readGuard s c g = true)
  (hi : exec i s = issueOne ⟨7, g, noAccess, sendCmd unit lim op y a b k held put⟩ s)
include h hg hi

theorem exec_sendCmd_pending (ha : (s.core (coreOf c)).active = some c) (hk : (s.ctx c).tokPending k.toNat = true) :
    ∃ t, exec i s = .next t ∧ BlocksOn s t c (.token k.toNat) :=
  exec_blocksOn h hg ha hi (if_pos hk)

variable (hk : (s.ctx c).tokPending k.toNat = false)
include hk

theorem exec_sendCmd_held (ha : (s.core (coreOf c)).active = some c) (hl : lim ≤ held s (s.ctx c).tid (s.ctx c).rank) :
    ∃ t, exec i s = .next t ∧ BlocksOn s t c (.sequence unit) :=
  exec_blocksOn h hg ha hi ((if_neg (by rw [hk]; decide)).trans (if_pos hl))

theorem exec_sendCmd_sent (hn : s.stuck c = false) (hl : held s (s.ctx c).tid (s.ctx c).rank < lim)
    (hp : (put (sentState s c k.toNat) (sentCmd s c op y a b k.toNat)).Between c) :
    exec i s = .next (issuedNext (put (sentState s c k.toNat) (sentCmd s c op y a b k.toNat)) c) :=
  exec_effect h hg hp hi ((if_neg (by rw [hk]; decide)).trans ((if_neg (Nat.not_le.2 hl)).trans (if_neg (by rw [hn]; decide))))

end

section
variable {s : State} {c op y : Nat} {g : Guard} {a b : BitVec 6} {k : BitVec 5} {i : Instr} (h : Acts s c) (hg : readGuard s c g = true)
  (hk : (s.ctx c).tokPending k.toNat = false) (hn : s.stuck c = false)
include h hg hk hn

theorem exec_sendAnise (hi : exec i s = issueOne ⟨7, g, noAccess, sendAnise op y a b k⟩ s) (hl : heldAnise s (s.ctx c).tid (s.ctx c).rank < 8) :
    exec i s = .next (issuedNext { sentState s c k.toNat with anise := (sentState s c k.toNat).anise ++ [(sentCmd s c op y a b k.toNat).onWay] } c) := by
  have base := sentState_between h.toBetween k.toNat
  exact exec_sendCmd_sent (put := fun s q => { s with anise := s.anise ++ [q.onWay] }) h hg hi hk hn hl ⟨base.toCalm.congr rfl rfl, base.between⟩

theorem exec_sendClove (hi : exec i s = issueOne ⟨7, g, noAccess, sendClove op y a b k⟩ s) (hl : heldClove s (s.ctx c).tid (s.ctx c).rank < 4) :
    exec i s = .next (issuedNext ((sentState s c k.toNat).modCore (coreOf c) (fun g => { g with clove := g.clove ++ [sentCmd s c op y a b k.toNat] })) c) := by
  have base := sentState_between h.toBetween k.toNat
  exact exec_sendCmd_sent (put := fun s q => s.modCore q.core (fun g => { g with clove := g.clove ++ [q] })) h hg hi hk hn hl (base.modCore _ _)

theorem exec_sendWalk (hi : exec i s = issueOne ⟨7, g, noAccess, sendWalk op a b k⟩ s) (hl : heldWalk s (s.ctx c).tid (s.ctx c).rank < 4) :
    exec i s = .next (issuedNext { sentState s c k.toNat with walks := (sentState s c k.toNat).walks ++ [(sentCmd s c op 0 a b k.toNat).onWay] } c) := by
  have base := sentState_between h.toBetween k.toNat
  exact exec_sendCmd_sent (put := fun s q => { s with walks := s.walks ++ [q.onWay] }) h hg hi hk hn hl ⟨base.toCalm.congr rfl rfl, base.between⟩

end

/-- Settles O41: every command is `sendCmd` of its unit, with its opcode, its variant and its operands. -/
theorem tokenCommandsAreSent : Obligations.TokenCommandsAreSent := by
  unfold Obligations.TokenCommandsAreSent
  intro s c g a b k h hg ha hstuck x f u va vb way cmd anise clove walker
  have kv : ∀ p ∈ anise, ∃ op y b', op < 22 ∧ exec p.1 s = issueOne ⟨7, g, noAccess, sendAnise op y a b' k⟩ s ∧
      p.2 = cmd op y (way 1) (readS s c b'.toNat) := by
    simp only [anise, List.forall_mem_cons, List.not_mem_nil, false_imp_iff, implies_true, and_true]
    exact ⟨⟨9, 0, 0, by decide, rfl, rfl⟩, ⟨9, 1, 0, by decide, rfl, rfl⟩, ⟨10, 0, b, by decide, rfl, rfl⟩, ⟨10, 1, b, by decide, rfl, rfl⟩,
      ⟨11, 0, b, by decide, rfl, rfl⟩, ⟨12, 0, 0, by decide, rfl, rfl⟩, ⟨13, 0, b, by decide, rfl, rfl⟩, ⟨15, 0, b, by decide, rfl, rfl⟩⟩
  have grammar : ∀ p ∈ clove, ∃ op y b', exec p.1 s = issueOne ⟨7, g, noAccess, sendClove op y a b' k⟩ s ∧
      p.2 = cmd op y 3 (readS s c b'.toNat) := by
    simp only [clove, List.forall_mem_cons, List.not_mem_nil, false_imp_iff, implies_true, and_true]
    exact ⟨⟨16, 0, b, rfl, rfl⟩, ⟨16, 1, b, rfl, rfl⟩, ⟨16, 2, 0, rfl, rfl⟩, ⟨17, 0, b, rfl, rfl⟩, ⟨18, 0, b, rfl, rfl⟩, ⟨19, 0, b, rfl, rfl⟩,
      ⟨20, 0, b, rfl, rfl⟩, ⟨20, 1, b, rfl, rfl⟩, ⟨21, 0, b, rfl, rfl⟩⟩
  have schedule : ∀ p ∈ walker, ∃ op, 22 ≤ op ∧ exec p.1 s = issueOne ⟨7, g, noAccess, sendWalk op a b k⟩ s ∧ p.2 = cmd op 0 (way 3) vb := by
    simp only [walker, List.forall_mem_cons, List.not_mem_nil, false_imp_iff, implies_true, and_true]
    exact ⟨⟨23, by decide, rfl, rfl⟩, ⟨24, by decide, rfl, rfl⟩, ⟨25, by decide, rfl, rfl⟩⟩
  refine ⟨fun hk => ?_, fun hk => ⟨fun hl p hp => ?_, fun hl p hp => ?_, fun hl p hp => ?_, fun hl p hp => ?_, fun hl p hp => ?_, fun hl p hp => ?_⟩⟩
  · intro p hp
    rcases List.mem_append.1 hp with hp | hp
    · rcases List.mem_append.1 hp with hp | hp
      · obtain ⟨op, y, b', -, hi, -⟩ := kv p hp
        exact exec_sendCmd_pending h hg hi ha hk
      · obtain ⟨op, y, b', hi, -⟩ := grammar p hp
        exact exec_sendCmd_pending h hg hi ha hk
    · obtain ⟨op, -, hi, -⟩ := schedule p hp
      exact exec_sendCmd_pending h hg hi ha hk
  · obtain ⟨op, y, b', -, hi, -⟩ := kv p hp
    exact exec_sendCmd_held h hg hi hk ha hl
  · obtain ⟨op, y, b', hi, -⟩ := grammar p hp
    exact exec_sendCmd_held h hg hi hk ha hl
  · obtain ⟨op, -, hi, -⟩ := schedule p hp
    exact exec_sendCmd_held h hg hi hk ha hl
  · obtain ⟨op, y, b', hop, hi, hq⟩ := kv p hp
    have way1 : (sentCmd s c op y a b' k.toNat).onWay = cmd op y (way 1) (readS s c b'.toNat) := by
      rw [SqCmd.onWay_of_lt hop]
      rfl
    rw [hq, ← way1]
    exact exec_sendAnise h hg hk hstuck hi hl
  · obtain ⟨op, y, b', hi, hq⟩ := grammar p hp
    rw [hq]
    exact exec_sendClove h hg hk hstuck hi hl
  · obtain ⟨op, hop, hi, hq⟩ := schedule p hp
    have way3 : (sentCmd s c op 0 a b k.toNat).onWay = cmd op 0 (way 3) vb := by
      rw [SqCmd.onWay_of_le hop]
      rfl
    rw [hq, ← way3]
    exact exec_sendWalk h hg hk hstuck hi hl

/-! ### Commands with a reply (R263, R270, R348) -/

/-- The request of context c for a command, if it has sent one for the present bundle. -/
def askOf (s : State) (c op : Nat) : Option Ask :=
  (s.ctx c).asks.find? (fun y => y.handle == (s.ctx c).handle && y.pc == (s.ctx c).pc && y.op == op)

section
variable {s : State} {c unit lim op y : Nat} {d a b : BitVec 6} {held : State → Nat → Nat → Nat} {r : Ask}

theorem askCmd_replied {v : W64} (hf : askOf s c op = some r) (hr : r.reply = some v) :
    askCmd unit lim op y d a b held c s = .issued (exposeS ((s.modCtx c (fun z => { z with asks := z.asks.filter (fun t => t.serial != r.serial) })).raise
      (.core (coreOf c)) r.ts) c 7 d.toNat v 2 0) := by
  unfold askOf at hf
  simp only [askCmd, hf, hr]

theorem askCmd_waits (hf : askOf s c op = some r) (hr : r.reply = none) : askCmd unit lim op y d a b held c s = .stall := by
  unfold askOf at hf
  simp only [askCmd, hf, hr]

theorem askCmd_asks (hf : askOf s c op = none) (hl : held s (s.ctx c).tid (s.ctx c).rank < lim) (hs : s.stuck c = false) :
    askCmd unit lim op y d a b held c s = .asking (mkCmd s c op y (readS s c a.toNat) (readS s c b.toNat) 0 []) := by
  unfold askOf at hf
  simp only [askCmd, hf, if_neg (Nat.not_le.2 hl), hs, Bool.false_eq_true, if_false]

end

theorem State.stuck_of_stores_nil {s : State} {c : Nat} (h : (s.ctx c).stores = []) : s.stuck c = false := by
  unfold State.stuck
  rw [h]
  rfl

/-- A command as it is sent with a request, where the context has no store. -/
def askedCmd (s : State) (c op y : Nat) (a b : BitVec 6) : SqCmd :=
  SqCmd.onWay { mkCmd s c op y (readS s c a.toNat) (readS s c b.toNat) 0 [] with serial := s.serial + 1, ts := s.ptsOf (.core (coreOf c)) }

/-- The state in which the request is noted. -/
def askedState (s : State) (c op : Nat) : State :=
  ({ s with serial := s.serial + 1 } : State).modCtx c (fun x => { x with asks := ⟨x.handle, x.pc, s.serial + 1, op, none, 0⟩ :: x.asks })

theorem sendAsk_eq {s : State} {c op y : Nat} {a b : BitVec 6} (h : (s.ctx c).stores = []) :
    sendAsk s c (mkCmd s c op y (readS s c a.toNat) (readS s c b.toNat) 0 []) =
      if op = 22 then { askedState s c op with walks := s.walks ++ [askedCmd s c op y a b] }
      else { askedState s c op with anise := s.anise ++ [askedCmd s c op y a b] } := by
  unfold sendAsk
  rw [flushStores_none h]
  rfl

theorem State.walks_modCtx (s : State) (c : Nat) (f : Context → Context) : (s.modCtx c f).walks = s.walks := rfl
theorem State.anise_modCtx (s : State) (c : Nat) (f : Context → Context) : (s.modCtx c f).anise = s.anise := rfl

/-- A bundle of one slot without an access that sends a request freezes for the cycle, where no limit on it is set. -/
theorem issueOne_asking {s : State} {c : Nat} {q : SqCmd} {o : SlotOp} (h : Acts s c) (hm : o.mem = noAccess) (hg : readGuard s c o.guard = true)
    (hr : o.run c s = .asking q) (hw : (((sendAsk s c q).ctx c).sysReg 0x003).toNat % 2 ^ 32 = 0) (hc : (sendAsk s c q).Calm) :
    issueOne o s = .next ((sendAsk s c q).modCtx c (fun y => { y with frz := y.frz + 1, spent := (s.ctx c).spent })) := by
  have frozen : settle s c [.asking q] = freezeCycle (sendAsk s c q) c (s.ctx c).spent := rfl
  have step : issueOne o s = .next (settleIssue (settle s c [.asking q])) := by
    unfold issueOne
    simp only [h.acting, issueSlots, walkSlots, hm, noAccess, runSlots, hg, hr, Bool.not_true, Bool.false_eq_true, if_false]
  rw [step, frozen, freezeCycle_unlimited hw]
  exact congrArg _ (settleIssue_calm (hc.congr rfl rfl))

/-- A command with a reply that has not been asked for: it is sent, and its bundle freezes. -/
theorem exec_asks {s : State} {c unit lim op y : Nat} {g : Guard} {d a b : BitVec 6} {held : State → Nat → Nat → Nat} {i : Instr} (h : Acts s c)
    (hg : readGuard s c g = true) (hi : exec i s = issueOne ⟨7, g, noAccess, askCmd unit lim op y d a b held⟩ s) (hs : (s.ctx c).stores = [])
    (hw : ((s.ctx c).sysReg 0x003).toNat % 2 ^ 32 = 0) (hr : askOf s c op = none) (hl : held s (s.ctx c).tid (s.ctx c).rank < lim) :
    ∃ t, exec i s = .next t ∧ t.ctx c = { s.ctx c with
        asks := ⟨(s.ctx c).handle, (s.ctx c).pc, s.serial + 1, op, none, 0⟩ :: (s.ctx c).asks
        frz := (s.ctx c).frz + 1 } ∧
      t.walks = (if op = 22 then s.walks ++ [askedCmd s c op y a b] else s.walks) ∧
      t.anise = (if op = 22 then s.anise else s.anise ++ [askedCmd s c op y a b]) := by
  have run : askCmd unit lim op y d a b held c s = .asking (mkCmd s c op y (readS s c a.toNat) (readS s c b.toNat) 0 []) :=
    askCmd_asks hr hl (State.stuck_of_stores_nil hs)
  have made := sendAsk_eq (op := op) (y := y) (a := a) (b := b) hs
  have ctx : (askedState s c op).ctx c = { s.ctx c with asks := ⟨(s.ctx c).handle, (s.ctx c).pc, s.serial + 1, op, none, 0⟩ :: (s.ctx c).asks } :=
    State.ctx_modCtx_same ..
  have calm : (askedState s c op).Calm := h.toCalm.congr rfl rfl
  have sentCtx : (sendAsk s c (mkCmd s c op y (readS s c a.toNat) (readS s c b.toNat) 0 [])).ctx c = (askedState s c op).ctx c := by
    rw [made]
    split <;> rfl
  refine ⟨_, hi.trans (issueOne_asking h rfl hg run ?_ ?_), ?_, ?_, ?_⟩
  · rw [sentCtx, ctx]
    exact hw
  · rw [made]
    split <;> exact calm.congr rfl rfl
  · rw [State.ctx_modCtx_same, sentCtx, ctx]
  · rw [State.walks_modCtx, made]
    split <;> rfl
  · rw [State.anise_modCtx, made]
    split <;> rfl

/-- Settles O42: the three answers of `askCmd`. -/
theorem repliesAreAskedForOnceAndLand : Obligations.RepliesAreAskedForOnceAndLand := by
  unfold Obligations.RepliesAreAskedForOnceAndLand
  intro s c g d a b h hg x asked va vb anise walker
  have kv : ∀ p ∈ anise, ∃ b', p.2.1 ≠ 22 ∧ exec p.1 s = issueOne ⟨7, g, noAccess, askCmd 0 8 p.2.1 p.2.2.1 d a b' heldAnise⟩ s ∧
      p.2.2.2 = readS s c b'.toNat := by
    simp only [anise, List.forall_mem_cons, List.not_mem_nil, false_imp_iff, implies_true, and_true]
    exact ⟨⟨0, by decide, rfl, rfl⟩, ⟨0, by decide, rfl, rfl⟩, ⟨b, by decide, rfl, rfl⟩⟩
  have schedule : exec walker.1 s = issueOne ⟨7, g, noAccess, askCmd 2 4 22 0 d a b heldWalk⟩ s := rfl
  refine ⟨fun p hp r hr => ?_, fun hs hw => ?_⟩
  · obtain ⟨unit, lim, held, b', hi⟩ : ∃ unit lim held b', exec p.1 s = issueOne ⟨7, g, noAccess, askCmd unit lim p.2.1 p.2.2.1 d a b' held⟩ s := by
      rcases List.mem_cons.1 hp with rfl | hp
      · exact ⟨2, 4, heldWalk, b, schedule⟩
      · obtain ⟨b', -, hi, -⟩ := kv p hp
        exact ⟨0, 8, heldAnise, b', hi⟩
    refine ⟨fun v hv => ?_, fun hv lim0 => ?_⟩
    · refine exec_effect h hg ?_ hi (askCmd_replied hr hv)
      have dropped : (s.modCtx c (fun z => { z with asks := z.asks.filter (fun t => t.serial != r.serial) })).Between c := h.toBetween.modCtx c fun _ => rfl
      exact ((State.Accessed.raise _ _ _).between dropped).expose ..
    · exact hi.trans (issueOne_stall h rfl hg (askCmd_waits hr hv) lim0)
  · intro sent
    refine ⟨fun hl p hp hr => ?_, fun hl hr => ?_⟩
    · obtain ⟨b', hop, hi, hb⟩ := kv p hp
      obtain ⟨t, step, ctx, walks, anise⟩ := exec_asks h hg hi hs hw hr hl
      refine ⟨t, askedCmd s c p.2.1 p.2.2.1 a b', ⟨step, rfl, rfl, rfl, hb.symm, rfl, rfl, ?_, ?_, ?_⟩, anise.trans (if_neg hop), walks.trans (if_neg hop)⟩
      all_goals rw [ctx]
    · obtain ⟨t, step, ctx, walks, anise⟩ := exec_asks h hg schedule hs hw hr hl
      refine ⟨t, askedCmd s c 22 0 a b, ⟨step, rfl, rfl, rfl, rfl, rfl, rfl, ?_, ?_, ?_⟩, walks.trans (if_pos rfl), anise.trans (if_pos rfl)⟩
      all_goals rw [ctx]

end Sys2Proof.Machine

/-! ## The sampler's cells (13_sampling.md R290 to R299) -/

namespace Sys2Proof.Machine

/-! ### The candidate file -/

theorem insertCand_eq (n : Cand) (l : List Cand) :
    insertCand n l = l.takeWhile (fun h => !before n h) ++ n :: l.dropWhile (fun h => !before n h) := by
  induction l with
  | nil => rfl
  | cons h r ih =>
    by_cases hb : before n h = true
    · simp [insertCand, hb]
    · simp [insertCand, hb, ih]

theorem filterMap_ite_none {α β : Type} (l : List α) (p : α → Bool) (f : α → β) :
    l.filterMap (fun i => if p i then none else some (f i)) = (l.filter (fun i => !p i)).map f := by
  induction l with
  | nil => rfl
  | cons x r ih => cases h : p x <;> simp [h, ih]

/-- The first place that meets a test. -/
theorem findIdx?_first {α : Type} {p : α → Bool} : ∀ {l : List α} {m : Nat} {x : α}, l[m]? = some x → p x = true →
    (∀ j y, j < m → l[j]? = some y → p y = false) → l.findIdx? p = some m
  | [], _, _, hm, _, _ => by simp at hm
  | a :: r, 0, x, hm, hx, _ => by
    obtain rfl : a = x := by simpa using hm
    simp [List.findIdx?_cons, hx]
  | a :: r, m + 1, x, hm, hx, hj => by
    have ha : p a = false := hj 0 a (Nat.succ_pos m) rfl
    have ih := findIdx?_first (l := r) (by simpa using hm) hx fun j y hj' hy => hj (j + 1) y (Nat.succ_lt_succ hj') (by simpa using hy)
    simp [List.findIdx?_cons, ha, ih]

theorem finPos_iff (x : Nat) : finPos x = true ↔
    x ≠ 0x7F800000 ∧ isNan32 x = false ∧ Num.lt (.fin false 0 0) (Fmt.decode .f32 x) = true := by
  simp [finPos, plusInf, and_assoc]

theorem finPos_eq_false {x : Nat} (h : ¬(x ≠ 0x7F800000 ∧ isNan32 x = false ∧ Num.lt (.fin false 0 0) (Fmt.decode .f32 x) = true)) : finPos x = false :=
  Bool.eq_false_iff.2 fun hx => h ((finPos_iff x).1 hx)

theorem CandFile.merge_eq (f : CandFile) (v : Vec) (base : Nat) (keep : W64) :
    f.merge v base keep = { f with
      entries := (((List.range 64).filter (fun i => !isNan32 (elem .f32 v i) && keep.getLsbD i)).foldl
        (fun l i => insertCand ⟨BitVec.ofNat 32 (elem .f32 v i), BitVec.ofNat 32 (base + i)⟩ l) f.entries).take 64
      k := 64 } := by
  unfold CandFile.merge
  rw [filterMap_ite_none (p := fun i => isNan32 (elem .f32 v i) || !keep.getLsbD i)]
  simp [List.foldl_map]

section
variable (f : CandFile) (q : Nat)

/-- The conditions under which `stopp` changes nothing (R296). -/
theorem CandFile.topp'_same (h : isNan32 q = true ∨ Num.lt (Fmt.decode .f32 q) (.fin false 1 0) = false ∨ f.elig = 0 ∨
    finPos (total (sums 0 f.logits)) = false) : f.topp' q = f := by
  unfold CandFile.topp'
  refine if_pos ?_
  rcases h with h | h | h | h <;> simp [h]

theorem CandFile.topp'_first {m c : Nat} (hn : isNan32 q = false) (hl : Num.lt (Fmt.decode .f32 q) (.fin false 1 0) = true) (he : f.elig ≠ 0)
    (hs : finPos (total (sums 0 f.logits)) = true) (hm : (sums 0 f.logits)[m]? = some c)
    (hc : Num.lt (Fmt.decode .f32 c) (Fmt.decode .f32 (rneMul q (total (sums 0 f.logits)))) = false)
    (hj : ∀ j d, j < m → (sums 0 f.logits)[j]? = some d → Num.lt (Fmt.decode .f32 d) (Fmt.decode .f32 (rneMul q (total (sums 0 f.logits)))) = true) :
    f.topp' q = { f with k := m + 1 } := by
  unfold CandFile.topp'
  have first := findIdx?_first (p := fun c => !Num.lt (Fmt.decode .f32 c) (Fmt.decode .f32 (rneMul q (total (sums 0 f.logits))))) hm (by simp [hc])
    fun j d hlt hd => by simp [hj j d hlt hd]
  simp [first, hn, hl, he, hs]

end

section
variable (f : CandFile) (lin : Bool) (seed ctr : W64)

/-- The number below which a draw's running sums are passed over (R298). -/
def drawAt (cs : List Nat) (seed ctr : W64) : Num :=
  Fmt.decode .f32 ((Num.mul (.fin false (fieldOf (draw seed ctr) 63 40) (-24)) (Fmt.decode .f32 (total cs))).1.pack .f32 .rdn false 0).1

/-- The running sums of a draw. -/
def CandFile.drawn (f : CandFile) (lin : Bool) : List Nat := sums 0 (if lin then f.linear else f.logits)

theorem CandFile.draw_none (h : f.elig = 0 ∨ finPos (total (f.drawn lin)) = false) : f.draw lin seed ctr = BitVec.allOnes 64 := if_pos h

theorem CandFile.draw_first {i c : Nat} {x : Cand} (he : f.elig ≠ 0) (hs : finPos (total (f.drawn lin)) = true) (hi : (f.drawn lin)[i]? = some c)
    (hc : Num.lt (drawAt (f.drawn lin) seed ctr) (Fmt.decode .f32 c) = true)
    (hj : ∀ j d, j < i → (f.drawn lin)[j]? = some d → Num.lt (drawAt (f.drawn lin) seed ctr) (Fmt.decode .f32 d) = false)
    (hx : f.entries[i]? = some x) : f.draw lin seed ctr = BitVec.ofNat 64 (i * 2 ^ 32 + x.idx.toNat) := by
  have first : (f.drawn lin).findIdx? (fun c => Num.lt (drawAt (f.drawn lin) seed ctr) (Fmt.decode .f32 c)) = some i := findIdx?_first hi hc hj
  have open_ : ¬(f.elig = 0 ∨ finPos (total (f.drawn lin)) = false) := by simp [he, hs]
  refine (if_neg open_).trans ?_
  unfold drawAt at first
  simp only [CandFile.drawn] at first ⊢
  rw [first]
  simp [List.getD, hx]

end

theorem CandFile.get'_tprob_first {f : CandFile} {a : W64} {i : Nat} {x : Cand} (hi : i < f.elig) (hx : f.entries[i]? = some x)
    (ha : x.idx.toNat = a.toNat % 2 ^ 32) (hj : ∀ j y, j < i → f.entries[j]? = some y → y.idx.toNat ≠ a.toNat % 2 ^ 32) :
    f.get' 3 a = BitVec.ofNat 64 (f.prob i) := by
  have first : (f.entries.take f.elig).findIdx? (fun c => c.idx.toNat == a.toNat % 2 ^ 32) = some i :=
    findIdx?_first (by rw [List.getElem?_take_of_lt hi, hx]) (by simp [ha]) fun j y hlt hy => by
      rw [List.getElem?_take_of_lt (hlt.trans hi)] at hy
      simpa using hj j y hlt hy
  simp only [CandFile.get', first]

theorem CandFile.get'_tprob_none {f : CandFile} {a : W64} (hj : ∀ j y, j < f.elig → f.entries[j]? = some y → y.idx.toNat ≠ a.toNat % 2 ^ 32) :
    f.get' 3 a = 0 := by
  have none_ : (f.entries.take f.elig).findIdx? (fun c => c.idx.toNat == a.toNat % 2 ^ 32) = none := by
    rw [List.findIdx?_eq_none_iff]
    intro y hy
    obtain ⟨j, hlt, hy⟩ := List.mem_take_iff_getElem.1 hy
    have hj' := hj j y (by omega) (by rw [← hy]; exact List.getElem?_eq_getElem _)
    simpa using hj'
  simp only [CandFile.get', none_]

/-- R295 to R299, case by case of the command. -/
theorem sampledValues : Sys2Proof.SampledValues := by
  unfold Sys2Proof.SampledValues
  intro q f w first insert code finite
  have ordered (n : Cand) (l : List Cand) : insert n l = insertCand n l := (insertCand_eq n l).symm
  refine ⟨fun h => ?merge, fun h => ?clear, fun h => ⟨fun hf => ?temp, fun hf => ?badTemp⟩, fun h => ?topk,
    fun h => ⟨fun hs => ?toppSame, fun m c hn hl he hs hm hc hj => ?topp⟩, fun h => ?noEffect, fun h => ?noValue,
    fun h => ⟨fun hs => ?noDraw, fun i c x he hs hi hc hj hx => ?draw⟩, fun h => ?get⟩
  case merge =>
    intro kept all
    have effect : q.effect f = f.merge q.v q.a.toNat q.keep := by simp only [SampCmd.effect, h]
    have sameInsert : insert = insertCand := funext fun n => funext fun l => ordered n l
    rw [effect, CandFile.merge_eq]
    simp only [all, kept, sameInsert]
  case clear => simp only [SampCmd.effect, h, CandFile.init, and_self]
  case temp =>
    have good : finPos (q.a.toNat % 2 ^ 32) = true := (finPos_iff _).2 hf
    simp only [SampCmd.effect, h, good, if_true]
  case badTemp =>
    have bad : finPos (q.a.toNat % 2 ^ 32) = false := finPos_eq_false hf
    simp only [SampCmd.effect, h, bad, Bool.false_eq_true, if_false]
    rfl
  case topk => simp only [SampCmd.effect, h]
  case toppSame =>
    have effect : q.effect f = f.topp' (code q.a) := by simp only [SampCmd.effect, h, code]
    exact effect.trans (f.topp'_same _ (hs.imp_right fun hs => hs.imp_right fun hs => hs.imp_right fun hs => finPos_eq_false hs))
  case topp =>
    have effect : q.effect f = f.topp' (code q.a) := by simp only [SampCmd.effect, h, code]
    exact effect.trans (f.topp'_first _ hn hl he ((finPos_iff _).2 hs) hm hc hj)
  case noEffect =>
    obtain ⟨op, hop⟩ : ∃ op, q.op = op + 6 := ⟨q.op - 6, by omega⟩
    rw [SampCmd.effect, hop]
    rfl
  case noValue =>
    rw [SampCmd.value]
    split
    · omega
    · omega
    · rfl
  case noDraw =>
    have value : q.value f = some (f.draw (q.x == 1) q.a q.b) := by simp only [SampCmd.value, h]
    have none_ : f.elig = 0 ∨ finPos (total (f.drawn (q.x == 1))) = false :=
      hs.imp_right fun hs => by
        simp only [CandFile.drawn, beq_iff_eq]
        exact finPos_eq_false hs
    rw [value, f.draw_none _ _ _ none_]
  case draw =>
    have value : q.value f = some (f.draw (q.x == 1) q.a q.b) := by simp only [SampCmd.value, h]
    have drawn : f.drawn (q.x == 1) = sums 0 (if q.x = 1 then f.linear else f.logits) := by simp only [CandFile.drawn, beq_iff_eq]
    rw [value, f.draw_first _ _ _ he (by rw [drawn]; exact (finPos_iff _).2 hs) (by rw [drawn]; exact hi) (by rw [drawn]; exact hc)
      (by rw [drawn]; exact hj) hx]
  case get =>
    intro e elig s prob
    have value : q.value f = some (f.get' q.x q.a) := by simp only [SampCmd.value, h]
    refine ⟨fun hx => ?_, fun hx => ?_, fun hx => ?_, fun hx => ⟨fun i x hi hx' ha hj => ?_, fun hj => ?_⟩, fun hx => ?_⟩
    · rw [value, hx, List.getElem?_map]
      simp only [CandFile.get', e]
      cases f.entries[q.a.toNat % 64]? <;> rfl
    · rw [value, hx, List.getElem?_map]
      simp only [CandFile.get', e]
      cases f.entries[q.a.toNat % 64]? <;> rfl
    · rw [value, hx]
      rfl
    · rw [value, hx, CandFile.get'_tprob_first hi hx' ha hj]
      rfl
    · rw [value, hx, CandFile.get'_tprob_none hj]
    · rw [value, hx]
      rfl

/-! ### The cells -/

/-- A command joins the queue of its core's sampler. -/
def samplerJoins (s : State) (c : Nat) (q : SampCmd) : State :=
  ({ s with serial := s.serial + 1 } : State).modCore (coreOf c) (fun h => { h with samp := h.samp ++ [q] })

theorem samplerJoins_between {s : State} {c : Nat} (h : s.Between c) (q : SampCmd) : (samplerJoins s c q).Between c := by
  have counted : ({ s with serial := s.serial + 1 } : State).Between c := ⟨h.toCalm.congr rfl rfl, h.between⟩
  exact counted.modCore _ _

/-- The command of a sampler cell that does not take the attach set. -/
def samplerCmd (s : State) (c op x : Nat) (a b : W64) : SampCmd :=
  ⟨s.serial + 1, op, x, (s.ctx c).tid, (s.ctx c).rank, (s.ctx c).order, 0, a, b, false, [], true, none, 0⟩

section
variable {s : State} {c op x : Nat} {g : Guard} {v : Vec} {a b : W64} {masked : Bool} {run : Nat → State → Verdict} {i : Instr} (h : Acts s c)
  (hg : readGuard s c g = true) (hi : exec i s = issueOne ⟨7, g, noAccess, run⟩ s) (hr : run c s = sampSend op x v a b masked c s)
include h hg hi hr

theorem exec_sampSend_full (ha : (s.core (coreOf c)).active = some c) (hq : 16 ≤ (s.core (coreOf c)).samp.length)
    (hn : op ≠ 6 ∧ op ≠ 7 ∨ (s.ctx c).rq.length < 8) : ∃ t, exec i s = .next t ∧ BlocksOn s t c .samplerFull := by
  have why : ((op == 6 || op == 7) && decide (8 ≤ (s.ctx c).rq.length)) = false := by
    rcases hn with hn | hn
    · simp [hn]
    · simp [hn]
  exact exec_blocksOn h hg ha hi (hr.trans ((if_pos hq).trans (by rw [why]; rfl)))

theorem exec_sampSend_reserved (ha : (s.core (coreOf c)).active = some c) (ho : op = 6 ∨ op = 7) (hn : 8 ≤ (s.ctx c).rq.length) :
    ∃ t, exec i s = .next t ∧ BlocksOn s t c .returnsReserved := by
  have why : ((op == 6 || op == 7) && decide (8 ≤ (s.ctx c).rq.length)) = true := by simp [ho, hn]
  refine exec_blocksOn h hg ha hi (hr.trans ?_)
  simp only [sampSend, why, if_true, ite_self]

variable (hq : (s.core (coreOf c)).samp.length < 16)
include hq

theorem exec_sampSend_plain (h1 : op ≠ 1) (h67 : op ≠ 6 ∧ op ≠ 7) (hv : v = 0 ∧ masked = false) :
    exec i s = .next (issuedNext (samplerJoins s c (samplerCmd s c op x a b)) c) := by
  obtain ⟨rfl, rfl⟩ := hv
  have ret : (op == 6 || op == 7) = false := by simp [h67]
  have run_ : run c s = .issued ((samplerJoins s c (samplerCmd s c op x a b)).modCtx c fun z => z) := by
    rw [hr]
    simp only [sampSend, if_neg (Nat.not_le.2 hq), ret, h1, if_false, Bool.false_and, Bool.false_eq_true]
    rfl
  rw [exec_effect h hg ((samplerJoins_between h.toBetween _).modCtx c fun _ => rfl) hi run_, issuedNext_modCtx]
  rfl

theorem exec_sampSend_valued (ho : op = 6 ∨ op = 7) (hn : (s.ctx c).rq.length < 8) (hv : v = 0 ∧ masked = false) :
    exec i s = .next (issuedNext ((samplerJoins s c (samplerCmd s c op x a b)).modCtx c
      (fun z => { z with rq := z.rq ++ [⟨0, s.serial + 1, false, 0⟩] })) c) := by
  obtain ⟨rfl, rfl⟩ := hv
  have ret : (op == 6 || op == 7) = true := by simp [ho]
  have h1 : op ≠ 1 := by omega
  refine exec_effect h hg ((samplerJoins_between h.toBetween _).modCtx c fun _ => rfl) hi ?_
  rw [hr]
  simp only [sampSend, if_neg (Nat.not_le.2 hq), ret, h1, if_false, Bool.true_and, decide_eq_true_eq, if_neg (Nat.not_le.2 hn), if_true]
  rfl

end

/-- Settles O43: the candidate file by `sampledValues`, and every cell is `sampSend` with its opcode. -/
theorem samplerCells : Obligations.SamplerCells := by
  unfold Obligations.SamplerCells
  refine ⟨sampledValues, ?_⟩
  intro s c g v a b h hg ha x va vb cmd joins plain valued
  have plains : ∀ p ∈ plain, ∃ op w, op ≠ 1 ∧ (op ≠ 6 ∧ op ≠ 7) ∧ ∃ run, exec p.1 s = issueOne ⟨7, g, noAccess, run⟩ s ∧
      run c s = sampSend op 0 0 w 0 false c s ∧ p.2 = cmd op 0 w 0 := by
    simp only [plain, List.forall_mem_cons, List.not_mem_nil, false_imp_iff, implies_true, and_true]
    exact ⟨⟨2, 0, by decide, by decide, _, rfl, rfl, rfl⟩, ⟨3, va, by decide, by decide, _, rfl, rfl, rfl⟩,
      ⟨4, va, by decide, by decide, _, rfl, rfl, rfl⟩, ⟨5, va, by decide, by decide, _, rfl, rfl, rfl⟩⟩
  have valueds : ∀ p ∈ valued, ∃ op y w z, (op = 6 ∨ op = 7) ∧ ∃ run, exec p.1 s = issueOne ⟨7, g, noAccess, run⟩ s ∧
      run c s = sampSend op y 0 w z false c s ∧ p.2 = cmd op y w z := by
    simp only [valued, List.forall_mem_cons, List.not_mem_nil, false_imp_iff, implies_true, and_true]
    exact ⟨⟨6, 0, va, vb, .inl rfl, _, rfl, rfl, rfl⟩, ⟨6, 1, va, vb, .inl rfl, _, rfl, rfl, rfl⟩, ⟨7, 0, va, 0, .inr rfl, _, rfl, rfl, rfl⟩,
      ⟨7, 1, va, 0, .inr rfl, _, rfl, rfl, rfl⟩, ⟨7, 2, va, 0, .inr rfl, _, rfl, rfl, rfl⟩, ⟨7, 3, va, 0, .inr rfl, _, rfl, rfl, rfl⟩,
      ⟨7, 4, 0, 0, .inr rfl, _, rfl, rfl, rfl⟩⟩
  have smerge : exec (.sqSmerge g v a b) s = issueOne ⟨7, g, noAccess, opSqSmerge v a b⟩ s := rfl
  refine ⟨fun hq => ⟨fun p hp => ?_, ?_, fun hn p hp => ?_⟩, fun hn p hp => ?_, fun hq => ⟨fun i him => ?_, fun hn p hp => ?_⟩⟩
  · obtain ⟨op, w, h1, h67, run, hi, hr, hp2⟩ := plains p hp
    rw [hp2]
    exact exec_sampSend_plain h hg hi hr hq h1 h67 ⟨rfl, rfl⟩
  · refine exec_effect h hg ((samplerJoins_between h.toBetween _).modCtx c fun _ => rfl) smerge ?_
    simp only [opSqSmerge, sampSend, if_neg (Nat.not_le.2 hq)]
    rfl
  · obtain ⟨op, y, w, z, ho, run, hi, hr, hp2⟩ := valueds p hp
    rw [hp2]
    exact exec_sampSend_valued h hg hi hr hq ho hn ⟨rfl, rfl⟩
  · obtain ⟨op, y, w, z, ho, run, hi, hr, -⟩ := valueds p hp
    exact exec_sampSend_reserved h hg hi hr ha ho hn
  · rcases List.mem_append.1 him with him | him
    · obtain ⟨p, hp, rfl⟩ := List.mem_map.1 him
      obtain ⟨op, w, -, h67, run, hi, hr, -⟩ := plains p hp
      exact exec_sampSend_full h hg hi hr ha hq (.inl h67)
    · obtain rfl := List.mem_singleton.1 him
      exact exec_sampSend_full (op := 1) h hg smerge rfl ha hq (.inl (by decide))
  · obtain ⟨op, y, w, z, -, run, hi, hr, -⟩ := valueds p hp
    exact exec_sampSend_full h hg hi hr ha hq (.inr hn)

end Sys2Proof.Machine

/-! ## Issue among contexts (01_organisation.md R21, 02_bundle.md R40): a core table that lists a core twice -/

namespace Sys2Proof.Machine

/-- Two cores are listed, both as core 0: what a read finds is the first, and a write leaves one. -/
def twiceListed : State := { wSkip with cores := wSkip.cores ++ wSkip.cores }

/-- Refutes O44: a bundle that is skipped while the core waits for no memory leaves the core table as it is; the statement writes core 0 anew, which in a
table that lists core 0 twice leaves it once. -/
theorem not_issuePassesAmongContexts : ¬ Obligations.IssuePassesAmongContexts := by
  unfold Obligations.IssuePassesAmongContexts
  intro h
  obtain ⟨-, -, -, -, skip, -⟩ := h twiceListed 0 (by decide)
  have step := (skip wSkips (by decide +kernel) (by decide +kernel) (by decide +kernel) (by decide +kernel) (by decide +kernel) (by decide +kernel)
    (by decide +kernel) (by decide +kernel) (by decide +kernel)).1 (by decide +kernel)
  have cores := congrArg (fun o => match o with | Host.Outcome.next t => t.cores.length | _ => 0) step
  exact absurd cores (by decide +kernel)

end Sys2Proof.Machine

/-! ## Work that lands (02_bundle.md R43, R44; 06_scratchpad.md R163; 05_control.md R131) -/

namespace Sys2Proof.Machine

/-! ### A device step of a state in which nothing is left to settle -/

theorem State.Still.of_parts {s t : State} (h : s.Still) (hu : t.unwinds = s.unwinds) (ht : t.tasks = s.tasks) (hw : t.dwrites = s.dwrites) : t.Still :=
  ⟨h.toCalm.congr hu ht, hw.trans h.noWrite⟩

theorem State.Accessed.still {s t : State} (h : s.Accessed t) (k : s.Still) : t.Still :=
  k.of_parts h.unwinds h.tasks (by rw [h.rest])

/-- The settled state of such a step: its seal records apart, all is as the step left it. -/
structure State.Settled (s t : State) : Prop where
  eq : t = { s with seals := t.seals }

theorem stepDone_still {s : State} (h : s.Still) : ∃ t, stepDone s = .next t ∧ s.Settled t := ⟨settleAll s, rfl, ⟨settleAll_still_rest h⟩⟩

section
variable {s t : State} (h : s.Settled t)
include h

theorem State.Settled.ctx (c : Nat) : t.ctx c = s.ctx c := by
  rw [h.eq]
  rfl
theorem State.Settled.core (g : Nat) : t.core g = s.core g := by
  rw [h.eq]
  rfl
theorem State.Settled.task (n : Nat) : t.task n = s.task n := by
  rw [h.eq]
  rfl
theorem State.Settled.mem : t.mem = s.mem := by
  rw [h.eq]

end

/-! ### A result lands (R43, R44) -/

theorem predicateBit {m : Nat} (n : Nat) (hm : m < 16) : (1#16 <<< n).getLsbD m = decide (m = n) := by
  rw [BitVec.getLsbD_shiftLeft, BitVec.getLsbD_one, Bool.eq_iff_iff]
  simp only [hm, decide_true, Bool.true_and, Bool.and_eq_true, Bool.not_eq_true', decide_eq_false_iff_not, decide_eq_true_eq]
  omega

section
variable (x : Context) (d : Dst) (v m : Nat)

theorem Context.put_sr : SMap.get 0 (x.put d v).sr m = if d = .s m ∧ m ≠ 0 then BitVec.ofNat 64 v else SMap.get 0 x.sr m := by
  cases d with
  | s n =>
    by_cases hn : n = 0
    · subst hn
      by_cases hm : m = 0 <;> simp [Context.put, eq_comm, hm]
    · by_cases hm : m = n
      · subst hm
        simp [Context.put, hn]
      · simp [Context.put, hn, SMap.get_set_ne _ _ _ hm, Ne.symm hm]
  | p n => by_cases hn : n = 0 <;> simp [Context.put, hn]
  | vm n => by_cases hn : n = 0 <;> simp [Context.put, hn]
  | _ => simp [Context.put, Context.setSys]

theorem Context.put_pr (hm : m < 16) : (x.put d v).pr.getLsbD m = if d = .p m ∧ m ≠ 0 then decide (v ≠ 0) else x.pr.getLsbD m := by
  cases d with
  | p n =>
    by_cases hn : n = 0
    · subst hn
      by_cases hm : m = 0 <;> simp [Context.put, eq_comm, hm]
    · have apart : (Dst.p n = Dst.p m ∧ m ≠ 0) ↔ m = n := by
        constructor
        · rintro ⟨h, -⟩
          cases h
          rfl
        · rintro rfl
          exact ⟨rfl, hn⟩
      simp only [apart]
      by_cases hv : v = 0
      · by_cases he : m = n
        · simp [Context.put, hn, hv, he, predicateBit n (he ▸ hm)]
        · simp [Context.put, hn, hv, he, predicateBit n hm, hm]
          omega
      · by_cases he : m = n
        · simp [Context.put, hn, hv, he, predicateBit n (he ▸ hm)]
        · simp [Context.put, hn, hv, he, predicateBit n hm]
  | s n => by_cases hn : n = 0 <;> simp [Context.put, hn]
  | vm n => by_cases hn : n = 0 <;> simp [Context.put, hn]
  | _ => simp [Context.put, Context.setSys]

theorem Context.put_vr : SMap.get 0 (x.put d v).vr m = if d = .v m then BitVec.ofNat 2048 v else SMap.get 0 x.vr m := by
  cases d with
  | v n =>
    by_cases hm : m = n
    · subst hm
      simp [Context.put]
    · simp [Context.put, SMap.get_set_ne _ _ _ hm, Ne.symm hm]
  | s n => by_cases hn : n = 0 <;> simp [Context.put, hn]
  | p n => by_cases hn : n = 0 <;> simp [Context.put, hn]
  | vm n => by_cases hn : n = 0 <;> simp [Context.put, hn]
  | _ => simp [Context.put, Context.setSys]

theorem Context.put_vm : SMap.get 0 (x.put d v).vm m = if d = .vm m ∧ m ≠ 0 then BitVec.ofNat 64 v else SMap.get 0 x.vm m := by
  cases d with
  | vm n =>
    by_cases hn : n = 0
    · subst hn
      by_cases hm : m = 0 <;> simp [Context.put, eq_comm, hm]
    · by_cases hm : m = n
      · subst hm
        simp [Context.put, hn]
      · simp [Context.put, hn, SMap.get_set_ne _ _ _ hm, Ne.symm hm]
  | s n => by_cases hn : n = 0 <;> simp [Context.put, hn]
  | p n => by_cases hn : n = 0 <;> simp [Context.put, hn]
  | _ => simp [Context.put, Context.setSys]

theorem Context.put_lc : SMap.get 0 (x.put d v).lc m = if d = .lc m then BitVec.ofNat 64 (v % 2 ^ 32) else SMap.get 0 x.lc m := by
  cases d with
  | lc n =>
    by_cases hm : m = n
    · subst hm
      simp [Context.put]
    · simp [Context.put, SMap.get_set_ne _ _ _ hm, Ne.symm hm]
  | s n => by_cases hn : n = 0 <;> simp [Context.put, hn]
  | p n => by_cases hn : n = 0 <;> simp [Context.put, hn]
  | vm n => by_cases hn : n = 0 <;> simp [Context.put, hn]
  | _ => simp [Context.put, Context.setSys]

theorem Context.put_sysReg : (x.put d v).sysReg m = if d = .sys m then BitVec.ofNat 64 v else x.sysReg m := by
  cases d with
  | sys n =>
    rw [Context.put, Context.sysReg_setSys]
    simp [eq_comm]
  | s n => by_cases hn : n = 0 <;> simp [Context.put, hn, Context.sysReg]
  | p n => by_cases hn : n = 0 <;> simp [Context.put, hn, Context.sysReg]
  | vm n => by_cases hn : n = 0 <;> simp [Context.put, hn, Context.sysReg]
  | _ => simp [Context.put, Context.sysReg]

theorem Context.put_pend : (x.put d v).pend = x.pend := by
  cases d with
  | s n => by_cases hn : n = 0 <;> simp [Context.put, hn]
  | p n => by_cases hn : n = 0 <;> simp [Context.put, hn]
  | vm n => by_cases hn : n = 0 <;> simp [Context.put, hn]
  | _ => simp [Context.put, Context.setSys]

end

section
variable (x : Context) (ev : Cats) (order slot handle pc : Nat)

/-- What recording an event writes: nothing, the flags, or FEVA and FEVS as well. -/
theorem Context.record_cases : let y := x.setSys 0x006 (x.sysReg 0x006 ||| ev.setWidth 64)
    ev = 0 ∧ x.record ev order slot handle pc = x ∨ ev ≠ 0 ∧ (x.record ev order slot handle pc = y ∨
      ∃ a b, x.record ev order slot handle pc = { (y.setSys 0x004 a).setSys 0x005 b with evOrder := order, evSlot := slot }) := by
  intro y
  by_cases hev : ev = 0
  · exact .inl ⟨hev, if_pos hev⟩
  · refine .inr ⟨hev, ?_⟩
    unfold Context.record
    rw [if_neg hev]
    dsimp only
    split
    · exact .inr ⟨_, _, rfl⟩
    · exact .inl rfl

/-- An event is recorded in no other register. -/
theorem Context.record_rest : let y := x.record ev order slot handle pc
    y.sr = x.sr ∧ y.pr = x.pr ∧ y.vr = x.vr ∧ y.vm = x.vm ∧ y.lc = x.lc ∧ y.pend = x.pend := by
  rcases x.record_cases ev order slot handle pc with ⟨-, h⟩ | ⟨-, h | ⟨a, b, h⟩⟩ <;> rw [h] <;> exact ⟨rfl, rfl, rfl, rfl, rfl, rfl⟩

theorem Context.record_sysReg {m : Nat} (hm : ev = 0 ∨ ¬(m = 0x004 ∨ m = 0x005 ∨ m = 0x006)) :
    (x.record ev order slot handle pc).sysReg m = x.sysReg m := by
  rcases x.record_cases ev order slot handle pc with ⟨-, h⟩ | ⟨hev, h⟩
  · rw [h]
  · obtain ⟨h4, h5, h6⟩ : m ≠ 0x004 ∧ m ≠ 0x005 ∧ m ≠ 0x006 := by
      rcases hm with hm | hm
      · exact absurd hm hev
      · simpa using hm
    rcases h with h | ⟨a, b, h⟩ <;> rw [h]
    · exact Context.sysReg_setSys_ne _ _ h6
    · exact (Context.sysReg_setSys_ne _ b h5).trans ((Context.sysReg_setSys_ne _ a h4).trans (Context.sysReg_setSys_ne _ _ h6))

theorem Context.record_flags (hev : ev ≠ 0) : (x.record ev order slot handle pc).sysReg 0x006 = x.sysReg 0x006 ||| ev.setWidth 64 := by
  rcases x.record_cases ev order slot handle pc with ⟨h0, -⟩ | ⟨-, h | ⟨a, b, h⟩⟩
  · exact absurd h0 hev
  · rw [h, Context.sysReg_setSys_same]
  · rw [h]
    exact (Context.sysReg_setSys_ne _ b (by decide)).trans ((Context.sysReg_setSys_ne _ a (by decide)).trans (Context.sysReg_setSys_same ..))

end

/-- The context in which a result has landed; what its list of results becomes is `overtake`'s. -/
def Context.landed (x : Context) (p : Pend) : Context := (if p.dead then x else x.put p.dst p.val).record p.ev p.order p.slot p.handle p.pc

/-- The tile shapes in which a result has landed. -/
def Core.landed (g : Core) (p : Pend) : Core :=
  match p.dead, p.dst with
  | false, .ts n => { g with ts := SMap.set tsReset g.ts n (BitVec.ofNat 64 p.val) }
  | _, _ => g

section
variable {s : State} {c k : Nat} {p : Pend}

theorem landAt_ctx (hp : (s.ctx c).pend[k]? = some p) (hl : p.landed = false) : (landAt s c k).ctx c = { (s.ctx c).landed p with
    pend := overtake (s.ctx c).pend k p.dst ++ { p with landed := true } :: (s.ctx c).pend.drop (k + 1) } := by
  have entry : (landEntry s c p).ctx c = (s.ctx c).landed p := by
    unfold landEntry Context.landed
    dsimp only
    rw [State.ctx_modCtx_same]
    by_cases hd : p.dead = true
    · simp only [hd, if_true]
    · simp only [hd, Bool.false_eq_true, if_false]
      cases p.dst <;> simp [Context.put]
  have pend : ((s.ctx c).landed p).pend = (s.ctx c).pend := by
    obtain ⟨-, -, -, -, -, hr⟩ := Context.record_rest (if p.dead then s.ctx c else (s.ctx c).put p.dst p.val) p.ev p.order p.slot p.handle p.pc
    refine hr.trans ?_
    split
    · rfl
    · exact Context.put_pend ..
  unfold landAt
  simp only [hp, hl, Bool.false_eq_true, if_false]
  rw [State.ctx_modCtx_same, entry, pend]

theorem landAt_core (hp : (s.ctx c).pend[k]? = some p) (hl : p.landed = false) : (landAt s c k).core (coreOf c) = (s.core (coreOf c)).landed p := by
  unfold landAt
  simp only [hp, hl, Bool.false_eq_true, if_false, (State.parts_modCtx ..).1, landEntry, Core.landed]
  cases p.dead <;> cases p.dst <;> simp

theorem landEntry_rest (s : State) (c : Nat) (p : Pend) : (landEntry s c p).mem = s.mem ∧ (landEntry s c p).unwinds = s.unwinds ∧
    (landEntry s c p).tasks = s.tasks ∧ (landEntry s c p).dwrites = s.dwrites := by
  unfold landEntry
  cases p.dead <;> cases p.dst <;> simp

theorem landAt_rest (s : State) (c k : Nat) : (landAt s c k).mem = s.mem ∧ (landAt s c k).unwinds = s.unwinds ∧ (landAt s c k).tasks = s.tasks ∧
    (landAt s c k).dwrites = s.dwrites := by
  unfold landAt
  split
  · simp
  · split
    · simp
    · simp [landEntry_rest]

end

theorem Core.landed_ts (g : Core) (p : Pend) (m : Nat) : SMap.get tsReset (g.landed p).ts m =
    if p.dead then SMap.get tsReset g.ts m else if p.dst = .ts m then BitVec.ofNat 64 p.val else SMap.get tsReset g.ts m := by
  unfold Core.landed
  cases p.dead
  · cases p.dst with
    | ts n =>
      by_cases hm : m = n
      · simp [hm]
      · simp [SMap.get_set_ne _ _ _ hm, Ne.symm hm]
    | _ => simp
  · simp

/-- What a place holds where a result lands unless it has been overtaken. -/
theorem lands {α : Type} {P : Prop} [Decidable P] {dead : Bool} {r a b : α} (h : r = if dead then b else if P then a else b) :
    (dead = false ∧ P → r = a) ∧ (¬(dead = false ∧ P) → r = b) := by
  subst h
  cases dead <;> by_cases hP : P <;> simp [hP]

section
variable {l : List Pend} {k : Nat} {p : Pend} (hp : l[k]? = some p)
include hp

theorem overtake_length : (overtake l k p.dst).length = k := by
  have := (List.getElem?_eq_some_iff.1 hp).1
  simp only [overtake, List.length_map, List.length_take]
  omega

theorem overtake_at (r : List Pend) : (overtake l k p.dst ++ { p with landed := true } :: r)[k]? = some { p with landed := true } := by
  rw [List.getElem?_append_right (by rw [overtake_length hp]), overtake_length hp]
  simp

theorem overtake_before {r : List Pend} {j : Nat} {q : Pend} (hj : j < k) (hq : (overtake l k p.dst ++ r)[j]? = some q) (hd : q.dst = p.dst) :
    q.landed = true ∨ q.dead = true := by
  rw [List.getElem?_append_left (by rw [overtake_length hp]; exact hj)] at hq
  obtain ⟨o, -, rfl⟩ := List.mem_map.1 (List.mem_of_getElem? hq)
  by_cases ho : o.dst = p.dst
  · by_cases hl : o.landed = true
    · exact .inl (by simp [hl])
    · exact .inr (by simp [ho, hl])
  · simp [ho] at hd

end

/-! ### Words that are written one after another -/

/-- A list of writes at different keys: what stands at a key is what its write gave. `P` is what the writes' values depend on. -/
theorem foldl_writes {σ κ β ι : Type} {f : σ → ι → σ} {key : ι → κ} {look : σ → κ → β} {val : ι → β} {P : σ → Prop} {ok : ι → Prop}
    (hP : ∀ s i, P s → P (f s i)) (hw : ∀ s i, P s → ok i → look (f s i) (key i) = val i) (hk : ∀ s i k, k ≠ key i → look (f s i) k = look s k)
    (l : List ι) : ∀ s, P s → (l.map key).Nodup → ∀ i ∈ l, ok i → look (l.foldl f s) (key i) = val i := by
  have later (r : List ι) : ∀ s k, k ∉ r.map key → look (r.foldl f s) k = look s k := by
    induction r with
    | nil => exact fun _ _ _ => rfl
    | cons i r ih =>
      intro s k hr
      rw [List.map_cons, List.mem_cons, not_or] at hr
      exact (ih _ _ hr.2).trans (hk s i k hr.1)
  induction l with
  | nil => exact fun _ _ _ i hi => absurd hi List.not_mem_nil
  | cons j r ih =>
    intro s hs hn i hi hok
    rw [List.map_cons, List.nodup_cons] at hn
    rcases List.mem_cons.1 hi with rfl | hi
    · exact (later r _ _ hn.1).trans (hw s i hs hok)
    · exact ih _ (hP s j hs) hn.2 i hi hok

/-- A 64-bit place of the accumulator: two elements. -/
def Core.accPair (g : Core) (n : Nat) : Nat := SMap.get 0 g.acc (2 * n) + 2 ^ 32 * SMap.get 0 g.acc (2 * n + 1)

section
variable (g : Core) (t : TileCmd) (p : Nat × Nat)

theorem Core.moveWord_tile (hl : t.load = true) (ha : t.acc = false) :
    g.moveWord t p = { g.setBad 2 p.1 (g.bad 1 p.2 && decide (p.2 < spWords)) with
      tile := SMap.set 0 g.tile p.1 (if spWords ≤ p.2 then 0 else SMap.get 0 g.sp p.2) } := by
  unfold Core.moveWord
  simp only [hl, ha, if_true, Bool.false_eq_true, if_false]

theorem Core.moveWord_acc (hl : t.load = true) (ha : t.acc = true) : ∃ g' : Core, g'.sp = g.sp ∧
    g.moveWord t p = { g' with
      acc := SMap.set 0 (SMap.set 0 g.acc (2 * p.1) ((if spWords ≤ p.2 then 0 else SMap.get 0 g.sp p.2).toNat % 2 ^ 32)) (2 * p.1 + 1)
        ((if spWords ≤ p.2 then 0 else SMap.get 0 g.sp p.2).toNat / 2 ^ 32) } := by
  unfold Core.moveWord
  simp only [hl, ha, if_true]
  exact ⟨(g.setBad 4 (2 * p.1) _).setBad 4 (2 * p.1 + 1) _, rfl, rfl⟩

theorem Core.moveWord_store (hl : t.load = false) : ∃ g' : Core, g'.tile = g.tile ∧ g'.acc = g.acc ∧ g'.sp = g.sp ∧
    g.moveWord t p = if spWords ≤ p.2 then g else { g' with sp := SMap.set 0 g.sp p.2 (if t.acc then BitVec.ofNat 64 (g.accPair p.1) else SMap.get 0 g.tile p.1) } := by
  unfold Core.moveWord Core.accPair
  simp only [hl, Bool.false_eq_true, if_false]
  exact ⟨g.setBad 1 p.2 _, rfl, rfl, rfl, rfl⟩

end

section
variable (g : Core) (t : TileCmd) (l : List (Nat × Nat))

theorem Core.moveWords_tile (hl : t.load = true) (ha : t.acc = false) (hn : (l.map Prod.fst).Nodup) (p : Nat × Nat) (hp : p ∈ l) :
    SMap.get 0 (l.foldl (fun g p => g.moveWord t p) g).tile p.1 = if p.2 < spWords then SMap.get 0 g.sp p.2 else 0 := by
  have step (x : Core) (q : Nat × Nat) := x.moveWord_tile t q hl ha
  refine foldl_writes (key := Prod.fst) (look := fun x k => SMap.get 0 (Core.tile x) k) (val := fun q => if q.2 < spWords then SMap.get 0 g.sp q.2 else 0)
    (P := fun x => x.sp = g.sp) (ok := fun _ => True) (fun x q hx => ?_) (fun x q hx _ => ?_) (fun x q k hk => ?_) l g rfl hn p hp trivial
  · rw [step]
    exact hx
  · rw [step, hx]
    by_cases hq : q.2 < spWords
    · simp [hq, Nat.not_le.2 hq]
    · simp [hq, Nat.not_lt.1 hq]
  · rw [step]
    exact SMap.get_set_ne _ _ _ hk

theorem Core.moveWords_acc (hl : t.load = true) (ha : t.acc = true) (hn : (l.map Prod.fst).Nodup) (p : Nat × Nat) (hp : p ∈ l) :
    (l.foldl (fun g p => g.moveWord t p) g).accPair p.1 = if p.2 < spWords then (SMap.get 0 g.sp p.2).toNat else 0 := by
  refine foldl_writes (key := Prod.fst) (look := Core.accPair) (val := fun q => if q.2 < spWords then (SMap.get 0 g.sp q.2).toNat else 0)
    (P := fun x => x.sp = g.sp) (ok := fun _ => True) (fun x q hx => ?_) (fun x q hx _ => ?_) (fun x q k hk => ?_) l g rfl hn p hp trivial
  all_goals obtain ⟨g', sp, step⟩ := x.moveWord_acc t q hl ha
  · rw [step]
    exact sp.trans hx
  · rw [step, hx, Core.accPair, SMap.get_set_ne (k := 2 * q.1 + 1) (j := 2 * q.1) _ _ _ (by omega), SMap.get_set_same, SMap.get_set_same, Nat.mod_add_div]
    by_cases hq : q.2 < spWords
    · simp [hq, Nat.not_le.2 hq]
    · simp [hq, Nat.not_lt.1 hq]
  · have apart (j : Nat) (h1 : j ≠ 2 * q.1) (h2 : j ≠ 2 * q.1 + 1) : SMap.get 0 (x.moveWord t q).acc j = SMap.get 0 x.acc j := by
      rw [step]
      exact (SMap.get_set_ne _ _ _ h2).trans (SMap.get_set_ne _ _ _ h1)
    rw [Core.accPair, Core.accPair, apart _ (by omega) (by omega), apart _ (by omega) (by omega)]

theorem Core.moveWords_store (hl : t.load = false) (hn : (l.map Prod.snd).Nodup) (p : Nat × Nat) (hp : p ∈ l) :
    SMap.get 0 (l.foldl (fun g p => g.moveWord t p) g).sp p.2 =
      if p.2 < spWords then (if t.acc then BitVec.ofNat 64 (g.accPair p.1) else SMap.get 0 g.tile p.1) else SMap.get 0 g.sp p.2 := by
  by_cases hw : p.2 < spWords
  · rw [if_pos hw]
    refine foldl_writes (key := Prod.snd) (look := fun x k => SMap.get 0 (Core.sp x) k)
      (val := fun q => if t.acc then BitVec.ofNat 64 (g.accPair q.1) else SMap.get 0 g.tile q.1) (P := fun x => x.tile = g.tile ∧ x.acc = g.acc)
      (ok := fun q => q.2 < spWords) (fun x q hx => ?_) (fun x q hx hq => ?_) (fun x q k hk => ?_) l g ⟨rfl, rfl⟩ hn p hp hw
    all_goals obtain ⟨g', tile, acc, sp, step⟩ := x.moveWord_store t q hl
    · rw [step]
      split
      · exact hx
      · exact ⟨tile.trans hx.1, acc.trans hx.2⟩
    · rw [step, if_neg (Nat.not_le.2 hq), SMap.get_set_same, Core.accPair, Core.accPair, hx.1, hx.2]
    · rw [step]
      split
      · rfl
      · exact SMap.get_set_ne _ _ _ hk
  · rw [if_neg hw]
    have keeps (r : List (Nat × Nat)) : ∀ x : Core, SMap.get 0 (r.foldl (fun g p => g.moveWord t p) x).sp p.2 = SMap.get 0 x.sp p.2 := by
      induction r with
      | nil => exact fun _ => rfl
      | cons q r ih =>
        intro x
        obtain ⟨g', -, -, -, step⟩ := x.moveWord_store t q hl
        rw [List.foldl_cons, ih, step]
        split
        · rfl
        · next hq => exact SMap.get_set_ne _ _ _ (by omega)
    exact keeps l g

end

theorem Core.finishTile_done {g : Core} {k : Nat} {t : TileCmd} (ht : g.tcmds[k]? = some t) (hc : t.chunk ≤ 1) (hl : t.words.length ≤ 32) :
    g.finishTile k = { t.words.foldl (fun g p => g.moveWord t p) g with tcmds := g.tcmds.eraseIdx k } := by
  unfold Core.finishTile
  simp only [ht]
  exact if_neg (by omega)

theorem performStore_eq {s : State} {c pa : Nat} {st : Store} {r : List Store} (hs : (s.ctx c).stores = st :: r) (hp : st.pa = some pa)
    (hr : s.reach (dieOf (coreOf c)) pa = true) :
    performStore s c = (s.modCtx c (fun x => { x with stores := r })).storePhys (.core (coreOf c)) pa st.size st.val := by
  simp [performStore, hs, hp, hr]

/-- Settles O45: each of the four steps, by its own operation. -/
theorem pendingWorkLands : Obligations.PendingWorkLands := by
  unfold Obligations.PendingWorkLands
  intro s c k still g h x
  refine ⟨fun p hp hcap hl => ?result, fun w hw => ?word, fun w hw hchunk hlen => ?tile, fun st r pa hst hpa hreach => ?store⟩
  case result =>
    intro into
    have now : landNow s c k = landAt s c k := if_neg (by rw [hcap]; decide)
    obtain ⟨mem, unwinds, tasks, dwrites⟩ := landAt_rest s c k
    obtain ⟨t, done, ht⟩ := stepDone_still (still.of_parts unwinds tasks dwrites)
    have ctx := (ht.ctx c).trans (landAt_ctx hp hl)
    have core := (ht.core g).trans (landAt_core hp hl)
    let y : Context := if p.dead then x else x.put p.dst p.val
    obtain ⟨sr, pr, vr, vm, lc, -⟩ := y.record_rest p.ev p.order p.slot p.handle p.pc
    have kept (β : Type) (f : Context → β) : f y = if p.dead then f x else f (x.put p.dst p.val) := apply_ite ..
    have wired {β : Type} {r a b : β} {d : Dst} {m : Nat} (e : r = if p.dead then b else if p.dst = d ∧ m ≠ 0 then a else b) :
        (into d → m ≠ 0 → r = a) ∧ (¬into d ∨ m = 0 → r = b) :=
      have l := lands e
      ⟨fun hi hm => l.1 ⟨hi.1, hi.2, hm⟩, fun hn => l.2 fun ⟨hdead, hd, hm⟩ => hn.elim (· ⟨hdead, hd⟩) hm⟩
    refine ⟨t, (congrArg stepDone now).trans done, (congrArg stepDone now).trans done, fun m => wired ?_, fun m hm => wired ?_, fun m => lands ?_,
      fun m => wired ?_, fun m => lands ?_, fun m hev => lands ?_, fun hev hm => ?_, fun m => lands ?_, ?_, ?_, fun j q hj hq hd => ?_⟩
    · rw [ctx]
      refine (congrArg (SMap.get 0 · m) sr).trans ((kept _ (SMap.get 0 ·.sr m)).trans ?_)
      rw [Context.put_sr]
    · rw [ctx]
      refine (congrArg (·.getLsbD m) pr).trans ((kept _ (·.pr.getLsbD m)).trans ?_)
      rw [Context.put_pr _ _ _ _ hm]
    · rw [ctx]
      refine (congrArg (SMap.get 0 · m) vr).trans ((kept _ (SMap.get 0 ·.vr m)).trans ?_)
      rw [Context.put_vr]
    · rw [ctx]
      refine (congrArg (SMap.get 0 · m) vm).trans ((kept _ (SMap.get 0 ·.vm m)).trans ?_)
      rw [Context.put_vm]
    · rw [ctx]
      refine (congrArg (SMap.get 0 · m) lc).trans ((kept _ (SMap.get 0 ·.lc m)).trans ?_)
      rw [Context.put_lc]
    · rw [ctx]
      refine (Context.record_sysReg y p.ev p.order p.slot p.handle p.pc hev).trans ((kept _ (·.sysReg m)).trans ?_)
      rw [Context.put_sysReg]
    · rw [ctx]
      refine (Context.record_flags y p.ev p.order p.slot p.handle p.pc hev).trans (congrArg (· ||| p.ev.setWidth 64) ((kept _ (·.sysReg 0x006)).trans ?_))
      rw [Context.put_sysReg]
      by_cases hdead : p.dead = true
      · exact if_pos hdead
      · exact (if_neg hdead).trans (if_neg fun he => hm ⟨Bool.eq_false_iff.2 hdead, he⟩)
    · rw [core, Core.landed_ts]
    · exact fun a => congrArg (SMap.get 0 · a) (ht.mem.trans mem)
    · rw [ctx]
      exact overtake_at hp _
    · rw [ctx] at hq
      exact overtake_before hp hj hq hd
  case word =>
    obtain ⟨t, done, ht⟩ := stepDone_still (s := s.modCore g (fun x => x.performSp k)) (still.of_parts rfl rfl rfl)
    have core : t.core g = (s.core g).performSp k := (ht.core g).trans (State.core_modCore_same ..)
    have perform : (s.core g).performSp k = { (s.core g).performWrite w with spw := (h.spw.take k).filter (fun y => y.word != w.word) ++ h.spw.drop (k + 1) } := by
      unfold Core.performSp
      simp only [h, hw]
    have sp : ((s.core g).performWrite w).sp = SMap.set 0 h.sp w.word w.val := by
      unfold Core.performWrite
      split <;> rfl
    refine ⟨t, done, ?_, fun a => ?_, ?_⟩
    · exact fun a => congrArg (SMap.get 0 · a) ht.mem
    · rw [core, perform]
      refine (congrArg (SMap.get 0 · a) sp).trans ?_
      by_cases ha : a = w.word
      · rw [if_pos ha, ha, SMap.get_set_same]
      · rw [if_neg ha, SMap.get_set_ne _ _ _ ha]
    · rw [core, perform]
  case tile =>
    obtain ⟨t, done, ht⟩ := stepDone_still (s := s.modCore g (fun x => x.finishTile k)) (still.of_parts rfl rfl rfl)
    have core : t.core g = { w.words.foldl (fun g p => g.moveWord w p) h with tcmds := h.tcmds.eraseIdx k } := by
      rw [← Core.finishTile_done hw hchunk hlen]
      exact (ht.core g).trans (State.core_modCore_same ..)
    refine ⟨t, done, ?_, by rw [core], fun hl ha hn p hp => ?_, fun hl ha hn p hp => ?_, fun hl ha hn p hp => ?_, fun hl ha hn p hp hsp => ?_⟩
    · exact fun a => congrArg (SMap.get 0 · a) ht.mem
    · rw [core]
      exact Core.moveWords_tile h w w.words hl ha hn p hp
    · rw [core]
      exact Core.moveWords_acc h w w.words hl ha hn p hp
    · rw [core]
      refine (Core.moveWords_store h w w.words hl hn p hp).trans ?_
      rw [ha]
      rfl
    · rw [core]
      refine (Core.moveWords_store h w w.words hl hn p hp).trans ?_
      rw [ha, if_pos hsp]
      rfl
  case store =>
    have perform := performStore_eq hst hpa hreach
    have quiet : (performStore s c).Still := by
      rw [perform]
      exact (State.Accessed.storePhys ..).still (s := s.modCtx c (fun x => { x with stores := r })) (still.of_parts rfl rfl rfl)
    obtain ⟨t, done, ht⟩ := stepDone_still quiet
    have mem : t.mem = ((s.modCtx c (fun x => { x with stores := r })).writeN pa st.size st.val).mem :=
      ht.mem.trans ((congrArg State.mem perform).trans (State.storePhys_mem ..))
    refine ⟨t, done, ?_, ?_, fun a ha => ?_⟩
    · refine (congrArg Context.stores ((ht.ctx c).trans (congrArg (State.ctx · c) perform))).trans ?_
      refine ((State.Accessed.storePhys _ (.core (coreOf c)) pa st.size st.val).stores c).trans ?_
      rw [State.ctx_modCtx_same]
    · rw [State.readN_of_mem mem, State.readN_writeN]
    · rw [State.byte, mem]
      exact State.byte_writeN_out _ (s.modCtx c (fun x => { x with stores := r })) _ _ _ ha

end Sys2Proof.Machine

/-! ## The events of a context (01_organisation.md R23, 05_control.md R147, R151, 13_sampling.md R305, 14_dispatch.md R323) -/

namespace Sys2Proof.Machine

/-! ### A handler is entered in a device step -/

/-- Two contexts with the registers that a trap entry reads. -/
structure Context.SameEntry (x y : Context) : Prop where
  sysReg : ∀ r, y.sysReg r = x.sysReg r
  sr : y.sr = x.sr
  pr : y.pr = x.pr
  pend : y.pend = x.pend

theorem HandlerReady.of_same {s t : State} {c code : Nat} (h : HandlerReady s c code) (same : (s.ctx c).SameEntry (t.ctx c)) (hs : t.seals = s.seals) :
    HandlerReady t c code := by
  have image (n : Nat) : t.imageLen n = s.imageLen n := by rw [State.imageLen, State.imageLen, State.seal, State.seal, hs]
  exact ⟨same.pend ▸ h.drained, (same.sysReg 0x044).symm ▸ h.noHandler, by rw [same.sysReg, image]; exact h.vector⟩

theorem Entered.of_same {s t u : State} {c code handle pc : Nat} {info : W64} (h : Entered t u c code info handle pc)
    (same : (s.ctx c).SameEntry (t.ctx c)) : Entered s u c code info handle pc where
  tpc := h.tpc
  tcause := h.tcause
  tinfo := h.tinfo
  tpriv := by
    have level : (t.ctx c).kLevel = (s.ctx c).kLevel := congrArg (·.getLsbD 0) (same.sysReg 0x03A)
    rw [h.tpriv, level]
  level := h.level
  image := by rw [h.image, same.sysReg]
  vector := by rw [h.vector, same.sysReg]
  scalar := h.scalar.trans same.sr
  predicates := h.predicates.trans same.pr
  tvb := h.tvb.trans (same.sysReg _)
  scratch := ⟨h.scratch.1.trans (same.sysReg _), h.scratch.2.trans (same.sysReg _)⟩
  noHold := h.noHold

theorem Entered.settled {s t u : State} {c code handle pc : Nat} {info : W64} (h : Entered s t c code info handle pc) (k : t.Settled u) :
    Entered s u c code info handle pc := by
  obtain ⟨tpc, tcause, tinfo, tpriv, level, image, vector, scalar, predicates, tvb, scratch, noHold⟩ := h
  rw [← k.ctx] at tpc tcause tinfo tpriv level image vector scalar predicates tvb scratch
  rw [← k.core] at noHold
  exact ⟨tpc, tcause, tinfo, tpriv, level, image, vector, scalar, predicates, tvb, scratch, noHold⟩

/-- A trap that is taken in a device step, from a context with the registers of one before the step. -/
theorem stepDone_takeTrap {s t : State} {c code : Nat} (info : W64) (handle pc : Nat) (still : s.Still) (h : HandlerReady s c code)
    (same : (s.ctx c).SameEntry (t.ctx c)) (hs : t.seals = s.seals) (hu : t.unwinds = s.unwinds) (ht : t.tasks = s.tasks) (hw : t.dwrites = s.dwrites) :
    ∃ u, stepDone (takeTrap t c code info handle pc) = .next u ∧ (takeTrap t c code info handle pc).Settled u ∧ Entered s u c code info handle pc := by
  have ready := h.of_same same hs
  have entered := (takeTrap_ready_entered info handle pc ready).of_same same
  have quiet : (takeTrap t c code info handle pc).Still := by
    rw [takeTrap_ready info handle pc ready]
    exact still.of_parts hu ht hw
  obtain ⟨u, done, settled⟩ := stepDone_still quiet
  exact ⟨u, done, settled, entered.settled settled⟩

theorem enterTrap_entered {s : State} {c : Nat} {t : PendTrap} (h : HandlerReady s c t.code) :
    Entered s (enterTrap s c t) c t.code t.info t.handle t.pc ∧ ((enterTrap s c t).ctx c).trap = none := by
  have enter := enterTrap_ready (t := t) h.noHandler h.vector
  have ctx : (enterTrap s c t).ctx c = (s.ctx c).entered t := by simp only [enter, State.parts_modCore, State.ctx_modCtx_same]
  refine ⟨.of_ctx ctx (fun _ => rfl) rfl rfl (by rw [enter, State.core_modCore_same]), by rw [ctx]; rfl⟩

/-! ### An unwind (R151) -/

/-- The registers that an unwind writes. -/
def Context.unwoundRegs (x : Context) (t : PendTrap) : Context :=
  let j := (x.sysReg 0x048).toNat - 1
  (((x.setSys 0x049 (place t.handle t.pc)).setSys 0x04A t.info).setSys 0x048 (BitVec.ofNat 64 j)).setSys 0x03A
    (if (x.sysReg (0x04C + j)).getLsbD 51 then 1 else 0)

theorem Context.unwoundRegs_sysReg (x : Context) (t : PendTrap) (r : Nat) : (x.unwoundRegs t).sysReg r =
    if r = 0x03A then (if (x.sysReg (0x04C + ((x.sysReg 0x048).toNat - 1))).getLsbD 51 then 1 else 0)
    else if r = 0x048 then BitVec.ofNat 64 ((x.sysReg 0x048).toNat - 1)
    else if r = 0x04A then t.info else if r = 0x049 then place t.handle t.pc else x.sysReg r := by
  unfold Context.unwoundRegs
  simp only [sysReg_setSys]

theorem enterUnwind_ctx (s : State) (c : Nat) (t : PendTrap) :
    let x := s.ctx c
    let h := x.sysReg (0x04C + ((x.sysReg 0x048).toNat - 1))
    let y := (enterUnwind s c t).ctx c
    y.sys = (x.unwoundRegs t).sys ∧ y.handle = (h >>> 52).toNat ∧ y.pc = h.toNat % 2 ^ 24 ∧ y.att = [] ∧ y.sr = x.sr := by
  unfold enterUnwind
  simp only [State.parts_modCore, State.ctx_setCtx_same]
  exact ⟨rfl, trivial, trivial, trivial, rfl⟩

/-- The context whose unwind has begun, before its registers are written. -/
def Context.unwinding (x : Context) (addr : W64) (due : Bool) : Context :=
  { x with trap := some ⟨unwindCode, addr, x.handle, x.pc⟩, frz := 0, spent := 0, watch := none, test := none, dwDue := x.dwDue || due }

/-- An unwind of a context whose results have landed. -/
theorem beginUnwind_drained {s : State} {c : Nat} {addr : W64} (h : ∀ p ∈ (s.ctx c).pend, p.landed = true) :
    ∃ u due, u.ctx c = (s.ctx c).unwinding addr due ∧
      u.unwinds = s.unwinds ++ [((s.ctx c).tid, (s.ctx c).rank, (s.ctx c).crOrder.getD (((s.ctx c).sysReg 0x048).toNat - 1) 0)] ∧
      beginUnwind s c addr = enterUnwind u c ⟨unwindCode, addr, (s.ctx c).handle, (s.ctx c).pc⟩ := by
  have drained : (s.ctx c).pend.all (fun p => p.landed) = true := List.all_eq_true.2 h
  let v : State := { stopQueueOps s c with
    unwinds := s.unwinds ++ [((s.ctx c).tid, (s.ctx c).rank, (s.ctx c).crOrder.getD (((s.ctx c).sysReg 0x048).toNat - 1) 0)] }
  have ctx : (v.modCtx c (fun y => { y with trap := some ⟨unwindCode, addr, (s.ctx c).handle, (s.ctx c).pc⟩, frz := 0, spent := 0, watch := none, test := none, dwDue := y.dwDue || waitOver v c })).ctx c = (s.ctx c).unwinding addr (waitOver v c) :=
    State.ctx_modCtx_same ..
  refine ⟨_, _, ctx, rfl, ?_⟩
  have begun : beginUnwind s c addr = enterPending (v.modCtx c (fun y => { y with trap := some ⟨unwindCode, addr, (s.ctx c).handle, (s.ctx c).pc⟩, frz := 0, spent := 0, watch := none, test := none, dwDue := y.dwDue || waitOver v c })) c :=
    if_pos drained
  rw [begun, enterPending, ctx]
  exact if_pos rfl

theorem Context.keepResume_squash (x : Context) (h p : Nat) : (x.keepResume h p).squash = x.squash := by
  unfold Context.keepResume
  split <;> rfl

theorem Context.setSys_notes (x : Context) (n : Nat) (v : W64) : (x.setSys n v).squash = x.squash ∧ (x.setSys n v).trap = x.trap := ⟨rfl, rfl⟩

theorem Context.entered_squash (x : Context) (t : PendTrap) : (x.entered t).squash = x.squash := by
  unfold Context.entered
  simp only [Context.setSys_notes]

/-! ### The data wait (R23, R370) -/

/-- The state of a further frozen cycle. -/
def frozenOnce (s : State) (c : Nat) : State := s.modCtx c (fun y => { y with frz := y.frz + 1, spent := (s.ctx c).spent })

theorem dataWaitDue_eq {s : State} {c : Nat} (ha : (s.ctx c).st = .active) (h0 : ((s.ctx c).sysReg 0x003).toNat % 2 ^ 32 ≠ 0)
    (hf : (s.ctx c).frz = ((s.ctx c).sysReg 0x003).toNat % 2 ^ 32) (hs : stillFrozen s c = true) : dataWaitDue s c = dataWait (frozenOnce s c) c := by
  have waited : waitOver s c = true := by
    simp only [waitOver, hf, Nat.le_refl, decide_true, Bool.and_true, bne_iff_ne]
    exact h0
  have due : dataWaitDue s c = freezeCycle s c (s.ctx c).spent := if_pos ⟨ha, h0, hf, hs⟩
  rw [due, freezeCycle]
  exact if_pos waited

theorem frozenOnce_same (s : State) (c : Nat) : (s.ctx c).SameEntry ((frozenOnce s c).ctx c) := by
  rw [frozenOnce, State.ctx_modCtx_same]
  exact ⟨fun _ => rfl, rfl, rfl, rfl⟩

/-! ### A save begins (14_dispatch.md R325) -/

/-- What stopping contexts leaves as it is. -/
structure State.Stopped (s t : State) : Prop where
  tasks : (∀ p ∈ s.tasks, p.2.state ≠ 5) → ∀ p ∈ t.tasks, p.2.state ≠ 5
  unwinds : t.unwinds = s.unwinds
  dwrites : t.dwrites = s.dwrites
  pc : ∀ c, (t.ctx c).pc = (s.ctx c).pc

theorem State.Stopped.refl (s : State) : s.Stopped s := ⟨id, rfl, rfl, fun _ => rfl⟩

theorem State.Stopped.trans {s t u : State} (h : s.Stopped t) (k : t.Stopped u) : s.Stopped u :=
  ⟨k.tasks ∘ h.tasks, k.unwinds.trans h.unwinds, k.dwrites.trans h.dwrites, fun c => (k.pc c).trans (h.pc c)⟩

theorem State.Stopped.modCtx (s : State) (c : Nat) {f : Context → Context} (hf : ∀ x, (f x).pc = x.pc) : s.Stopped (s.modCtx c f) := by
  refine ⟨id, rfl, rfl, fun e => ?_⟩
  by_cases he : e = c
  · subst he
    rw [State.ctx_modCtx_same, hf]
  · rw [State.ctx_modCtx_ne _ _ he]

theorem State.Stopped.modCore (s : State) (g : Nat) (f : Core → Core) : s.Stopped (s.modCore g f) := ⟨id, rfl, rfl, fun _ => rfl⟩

theorem State.Stopped.modTask (s : State) (tid : Nat) {f : Task → Task} (hf : (f (s.task tid)).state = 5 → (s.task tid).state = 5) :
    s.Stopped (s.modTask tid f) := by
  refine ⟨fun h p hp => ?_, rfl, rfl, fun _ => rfl⟩
  rcases SMap.mem_set hp with rfl | hp
  · refine fun h5 => ?_
    rcases SMap.get_mem Task.init s.tasks tid with e | e
    · exact absurd (hf h5) (by rw [State.task, e]; decide)
    · exact h _ e (hf h5)
  · exact h p hp

theorem State.stopContext_stopped (s : State) (c : Nat) : s.Stopped (s.stopContext c) := by
  unfold State.stopContext
  dsimp only
  refine State.Stopped.trans (State.Stopped.trans ?_ (.modCtx _ c ?_)) (.modCore _ _ _)
  · exact .modTask s _ id
  · exact fun _ => rfl

theorem State.stopTask_stopped (s : State) (tid : Nat) (me : Option Nat) : s.Stopped (s.stopTask tid me) := by
  unfold State.stopTask
  generalize s.bound.filter _ = l
  induction l generalizing s with
  | nil => exact .refl s
  | cons p r ih =>
    rw [List.foldl_cons]
    refine State.Stopped.trans ?_ (ih _)
    split
    · exact .modCtx s _ fun _ => rfl
    · exact s.stopContext_stopped _

theorem State.beginSave_bound {s : State} {tid cause : Nat} {me : Option Nat} (h : (s.task tid).state = 2) :
    s.Stopped (s.beginSave tid cause me) ∧ ((s.beginSave tid cause me).task tid).state = 3 ∧ ((s.beginSave tid cause me).task tid).saving = some cause := by
  unfold State.beginSave
  simp only [h, if_true]
  refine ⟨(s.stopTask_stopped tid me).trans (.modTask _ _ fun h5 => absurd h5 (by simp)), ?_⟩
  simp

/-! ### The end of a quantum (14_dispatch.md R318, R323) -/

theorem evRoom_iff (s : State) (die : Nat) : evRoom s die = true ↔ s.reach die (s.die die).evAt = true ∧ 4 ≤ (s.die die).evLog ∧
    (s.die die).evLog ≤ 16 ∧ (s.die die).evAt + 16 ≤ memBytes ∧ s.word (s.die die).evAt = 0 := by
  simp [evRoom, and_assoc]

theorem evRoom_congr {s t : State} {die : Nat} (hm : t.mem = s.mem) (hl : t.links = s.links) (hat : (t.die die).evAt = (s.die die).evAt)
    (hlog : (t.die die).evLog = (s.die die).evLog) : evRoom t die = evRoom s die := by
  simp only [evRoom, State.reach, hl, hat, hlog, State.word_of_mem hm]

theorem flushEvents_full {s : State} {die : Nat} (h : evRoom s die = false) (n : Nat) : flushEvents s die n = s := by
  cases n with
  | zero => rfl
  | succ n =>
    unfold flushEvents
    split
    · rfl
    · simp [h]

/-- An event that is alone in its queue is written. -/
theorem flushEvents_one {s : State} {die : Nat} {e : DEvent} (he : (s.die die).events = [e]) (h : evRoom s die = true) :
    flushEvents s die 1 = ((s.storePhys (.dispatch die) ((s.die die).evAt + 8) 8 e.w1.toNat).storePhys (.dispatch die) (s.die die).evAt 8 e.w0.toNat).modDie die
      (fun d => { d with events := [], evIndex := d.evIndex + 1 }) := by
  simp only [flushEvents, he, h, if_true]

/-- Two words are written one after another, the second before the first. -/
theorem State.storePhys_twice (s : State) (a : Agent) (at_ : Nat) (v w : W64) :
    let t := (s.storePhys a (at_ + 8) 8 w.toNat).storePhys a at_ 8 v.toNat
    t.word at_ = v ∧ t.word (at_ + 8) = w ∧ ∀ e, e < at_ ∨ at_ + 16 ≤ e → t.byte e = s.byte e := by
  intro t
  refine ⟨?_, ?_, fun e he => ?_⟩
  · exact (State.word_storePhys ..).trans ((BitVec.ofNat_toNat ..).trans (BitVec.setWidth_eq _))
  · have second : t.readN (at_ + 8) 8 = (s.storePhys a (at_ + 8) 8 w.toNat).readN (at_ + 8) 8 :=
      State.readN_of_bytes fun e h1 h2 => State.byte_storePhys_out _ _ _ _ _ _ (.inr h1)
    rw [State.word, second]
    exact (State.word_storePhys s a (at_ + 8) w.toNat).trans ((BitVec.ofNat_toNat ..).trans (BitVec.setWidth_eq _))
  · rw [State.byte_storePhys_out _ _ _ _ _ _ (by omega), State.byte_storePhys_out _ _ _ _ _ _ (by omega)]

theorem countQuantum_ends {s : State} {c e : Nat} (hw : (s.core (coreOf c)).wasActive = some c) (h0 : (s.ctx c).quant ≠ 0)
    (hq : (s.ctx c).quant ≤ (s.ctx c).quota + 1) (he : e ≠ c) (hg : coreOf e = coreOf c) (hr : (s.ctx e).st = .ready) :
    expiryDue s c = postEvent (s.modCtx c (fun y => { y with quota := 0 })) (dieOf (coreOf c)) 3 (s.ctx c).tid c 0 := by
  have other : (List.range 4).any (fun i => 4 * coreOf c + i != c && (s.ctx (4 * coreOf c + i)).st == .ready) = true := by
    rw [List.any_eq_true]
    have place : 4 * coreOf c + e % 4 = e := by
      rw [← hg, coreOf]
      omega
    exact ⟨e % 4, List.mem_range.2 (Nat.mod_lt _ (by decide)), by rw [place, hr]; simp [he]⟩
  have due : expiryDue s c = countQuantum s (coreOf c) := if_pos ⟨hw, h0, hq⟩
  rw [due, countQuantum]
  simp only [hw, other, Bool.not_true, Bool.or_false, decide_eq_true_eq, h0, if_false, hq, if_true]

/-- Settles O46: each event by its own operation. -/
theorem eventsOfAContext : Obligations.EventsOfAContext := by
  unfold Obligations.EventsOfAContext
  intro s c still g x k lim
  refine ⟨fun ha h0 hf hs hd hh => ?wait, fun ha h0 hf hs hd h2 => ?save, fun p ha hp hcode hh => ?trap, fun addr ha hn hdrained => ?unwind,
    fun v is ha hn hsq href hdw hex hdel hbub hh hfetch hskip hunw => ?squash, fun hwas hq hle ⟨e, he, hge, hready⟩ => ?expiry⟩
  case wait =>
    have saves : waitSaves (frozenOnce s c) c = false := by
      have task : (frozenOnce s c).task ((frozenOnce s c).ctx c).tid = k := by
        rw [frozenOnce, State.ctx_modCtx_same]
        rfl
      rw [waitSaves, task, (frozenOnce_same s c).sysReg, hh.noHandler, hd]
      rfl
    have step : dataWaitDue s c = takeTrap (frozenOnce s c) c 7 (x.sysReg 0x003) x.handle x.pc := by
      rw [dataWaitDue_eq ha h0 hf hs, dataWait, saves]
      simp only [Bool.false_eq_true, if_false, frozenOnce, State.ctx_modCtx_same]
      rfl
    obtain ⟨u, done, -, entered⟩ := stepDone_takeTrap (x.sysReg 0x003) x.handle x.pc still hh (frozenOnce_same s c) rfl rfl rfl rfl
    exact ⟨u, (congrArg stepDone step).trans done, entered⟩
  case save =>
    have saves : waitSaves (frozenOnce s c) c = true := by
      have task : (frozenOnce s c).task ((frozenOnce s c).ctx c).tid = k := by
        rw [frozenOnce, State.ctx_modCtx_same]
        rfl
      rw [waitSaves, task, hd]
      rfl
    let t := (frozenOnce s c).modCtx c (fun y => { y with frz := 0, spent := 0 })
    have tid : ((frozenOnce s c).ctx c).tid = x.tid := by
      rw [frozenOnce, State.ctx_modCtx_same]
    have step : dataWaitDue s c = t.beginSave x.tid 2 (some c) := by
      rw [dataWaitDue_eq ha h0 hf hs, dataWait, saves]
      simp only [if_true, tid]
      rfl
    obtain ⟨stopped, state, saving⟩ := State.beginSave_bound (s := t) (tid := x.tid) (cause := 2) (me := some c) h2
    have pc : (t.ctx c).pc = x.pc := by
      simp only [t, frozenOnce, State.ctx_modCtx_same]
      rfl
    have quiet : (t.beginSave x.tid 2 (some c)).Still := ⟨⟨stopped.unwinds.trans still.noUnwind, stopped.tasks still.noKill⟩, stopped.dwrites.trans still.noWrite⟩
    obtain ⟨u, done, settled⟩ := stepDone_still quiet
    refine ⟨u, (congrArg stepDone step).trans done, ?_, ?_, ?_⟩
    · rw [settled.task, state]
    · rw [settled.task, saving]
    · rw [settled.ctx, stopped.pc, pc]
  case trap =>
    have drained : x.pend.all (fun p => p.landed) = true := List.all_eq_true.2 hh.drained
    have step : trapDue s c = enterTrap s c p := by
      have due : trapDue s c = enterPending s c := if_pos ⟨ha, drained⟩
      rw [due, enterPending]
      simp only [x] at hp
      simp only [hp]
      exact if_neg hcode
    obtain ⟨entered, none_⟩ := enterTrap_entered (t := p) hh
    have quiet : (enterTrap s c p).Still := by
      rw [enterTrap_ready hh.noHandler hh.vector]
      exact still.of_parts rfl rfl rfl
    obtain ⟨u, done, settled⟩ := stepDone_still quiet
    exact ⟨u, (congrArg stepDone step).trans done, entered.settled settled, by rw [settled.ctx, none_]⟩
  case unwind =>
    intro d h hd hlevel horder
    have opened : regionOpen x = true := by
      unfold regionOpen
      simp only [d] at hd
      simp only [bne_iff_ne, ne_eq, hd, not_false_eq_true, beq_iff_eq, Bool.and_eq_true, Bool.or_eq_true, Bool.not_eq_true', decide_eq_true_eq, true_and]
      refine ⟨hlevel, ?_⟩
      cases hact : (x.sysReg 0x044).getLsbD 1 with
      | false => exact .inl rfl
      | true => exact .inr (horder hact)
    have due : unwindNow s c addr = beginUnwind s c addr := if_pos ⟨ha, hn, opened⟩
    refine ⟨beginUnwind s c addr, congrArg stepDone due, ?_⟩
    obtain ⟨u, later, ctx, unwinds, begun⟩ := beginUnwind_drained (addr := addr) hdrained
    obtain ⟨sys, image, place, att, sr⟩ := enterUnwind_ctx u c ⟨unwindCode, addr, x.handle, x.pc⟩
    rw [ctx] at sys image place sr
    have reg (r : Nat) : ((beginUnwind s c addr).ctx c).sysReg r = (x.unwoundRegs ⟨unwindCode, addr, x.handle, x.pc⟩).sysReg r := by
      rw [begun, Context.sysReg, sys]
      rfl
    have level : ((beginUnwind s c addr).ctx c).kLevel = x.kLevel := by
      rw [Context.kLevel, reg, Context.unwoundRegs_sysReg, if_pos rfl, ← hlevel]
      cases hb : (x.sysReg (0x04C + ((x.sysReg 0x048).toNat - 1))).getLsbD 51 with
      | false => rfl
      | true => rfl
    refine ⟨?_, ?_, ?_, ?_, ?_, level, ?_, ?_, ?_⟩
    · rw [reg, Context.unwoundRegs_sysReg]
      simp
    · rw [reg, Context.unwoundRegs_sysReg]
      simp
    · rw [reg, Context.unwoundRegs_sysReg]
      simp [d]
    · rw [begun, image]
      rfl
    · rw [begun, place]
      rfl
    · rw [begun, att]
    · rw [begun, sr]
      rfl
    · rw [begun]
      refine unwinds.trans ?_
      rw [still.noUnwind]
      rfl
  case squash =>
    let noted : State := noteSquash s x.tid x.rank x.order
    let t : State := noted.modCtx c (fun y => { y with squash := none })
    have mine : t.ctx c = { x with squash := none } := State.ctx_modCtx_same ..
    have same : x.SameEntry (t.ctx c) := by
      rw [mine]
      exact ⟨fun _ => rfl, rfl, rfl, rfl⟩
    have seals : t.seals = s.seals := rfl
    have unwinds : t.unwinds = s.unwinds := rfl
    have tasks : t.tasks = s.tasks := rfl
    have writes : t.dwrites = s.dwrites := rfl
    have may : mayTakeSquash s c = true := by
      unfold mayTakeSquash
      dsimp only
      rw [hh.noHandler, show (s.ctx c).squash = some v from hsq, show (s.ctx c).st = .active from ha, show (s.ctx c).trap = none from hn]
      rfl
    have bound_ : atBoundary s c = true := by
      simp only [atBoundary, show (s.ctx c).exits = false from hex, show (s.ctx c).refused = none from href, show (s.ctx c).dwDue = false from hdw,
        show (s.ctx c).delay = 0 from hdel, show (s.ctx c).bubble = 0 from hbub, hfetch, hskip, show unwindsNow s (coreOf c) c (bundleOps is) = false from hunw]
      rfl
    have step : squashDue s c = takeTrap t c 8 v x.handle x.pc := by
      have due : squashDue s c = takeSquash s c v := by
        simp only [squashDue, may, bound_, show (s.ctx c).squash = some v from hsq]
        rfl
      have taken : takeSquash s c v = boundaryTrap t c 8 v := rfl
      rw [due, taken, boundaryTrap]
      simp only [mine, hdel, Nat.lt_irrefl, if_false]
    clear_value t
    obtain ⟨u, done, settled, entered⟩ := stepDone_takeTrap v x.handle x.pc still hh same seals unwinds tasks writes
    refine ⟨u, (congrArg stepDone step).trans done, entered, ?_⟩
    rw [settled.ctx, takeTrap_ready v x.handle x.pc (hh.of_same same seals), (State.parts_modCore ..).1, State.ctx_modCtx_same, mine]
    rw [Context.entered_squash, Context.keepResume_squash]
  case expiry =>
    intro w0 at_
    let die := dieOf g
    let held := (s.modCtx c (fun y => { y with quota := 0 })).modDie die (fun d => { d with events := d.events ++ [⟨w0, 0⟩] })
    have hdie : held.die die = { s.die die with events := (s.die die).events ++ [⟨w0, 0⟩] } := State.die_modDie_same ..
    have room : evRoom held die = evRoom s die := evRoom_congr rfl rfl (by rw [hdie]; rfl) (by rw [hdie]; rfl)
    have step : expiryDue s c = flushEvents held die (held.die die).events.length := by
      rw [countQuantum_ends hwas hq hle he hge hready, postEvent]
    refine ⟨evRoom_iff s die, fun hr hev => ⟨expiryDue s c, rfl, ?_⟩, fun hr => ?_⟩
    · have one : (held.die die).events = [⟨w0, 0⟩] := by rw [hdie, hev]; rfl
      have ends := (step.trans (by rw [one]; rfl)).trans (flushEvents_one one (room.trans hr))
      have evAt : (held.die die).evAt = at_ := by rw [hdie]; rfl
      rw [evAt] at ends
      obtain ⟨first, second, others⟩ := held.storePhys_twice (.dispatch die) at_ w0 0
      have acc : held.Accessed ((held.storePhys (.dispatch die) (at_ + 8) 8 (0 : W64).toNat).storePhys (.dispatch die) at_ 8 w0.toNat) :=
        (State.Accessed.storePhys ..).trans (.storePhys ..)
      rw [ends]
      generalize (held.storePhys (.dispatch die) (at_ + 8) 8 (0 : W64).toNat).storePhys (.dispatch die) at_ 8 w0.toNat = t at first second others acc
      have done : (t.modDie die (fun d => { d with events := [], evIndex := d.evIndex + 1 })).die die = { t.die die with events := [], evIndex := (t.die die).evIndex + 1 } :=
        State.die_modDie_same ..
      refine ⟨?_, first, second, others, ?_, ?_⟩
      · refine (acc.kept (·.quota) (fun _ _ _ => rfl) c).trans ?_
        have ctx : held.ctx c = { x with quota := 0 } := State.ctx_modCtx_same s c (fun y => { y with quota := 0 })
        rw [ctx]
      · exact congrArg Die.events done
      · refine (congrArg Die.evIndex done).trans ?_
        rw [acc.die, hdie]
    · exact congrArg stepDone (step.trans (flushEvents_full (room.trans hr) _))

end Sys2Proof.Machine

/-! ## Matrix work that lands (09_matrix.md R215 to R222) -/

namespace Sys2Proof.Machine

/-! ### Values in accumulator memory (R208, R217) -/

/-- What an accumulator cell of the narrow view becomes. -/
def landNarrow (fmt : Nat) (add : Bool) (old v : Nat) : Nat :=
  if add = false then v % 2 ^ 32 else if fmt = 4 then ((signedOf 32 old + signedOf 32 v).emod (2 ^ 32)).toNat else (fadd .f32 .rne 0 old v).1 % 2 ^ 32

/-- What a pair of cells, the FP64 view, becomes. -/
def landWide (add : Bool) (old v : Nat) : Nat := if add = false then v % 2 ^ 64 else (fadd .f64 .rne 0 old v).1 % 2 ^ 64

/-- A column of the FP64 view. -/
def Core.cell2 (g : Core) (i : Nat) : Nat := g.cell i + 2 ^ 32 * g.cell (i + 1)

theorem Core.cell_setCell_same (g : Core) (i v : Nat) : (g.setCell i v).cell i = v % 2 ^ 32 := SMap.get_set_same ..

theorem Core.cell_setCell_ne (g : Core) {i j : Nat} (v : Nat) (h : j % 131072 ≠ i % 131072) : (g.setCell i v).cell j = g.cell j :=
  SMap.get_set_ne _ _ _ h

theorem Core.cell_setBad (g : Core) (space p : Nat) (b : Bool) (i : Nat) : (g.setBad space p b).cell i = g.cell i := rfl

section
variable (g : Core) (row : Nat) (add : Bool)

theorem Core.landValue_narrow {fmt : Nat} (hf : fmt ≠ 1) (n v : Nat) (bad : Bool) (j : Nat) (hj : j < 64) (hn : n < 64) :
    (g.landValue fmt row n v add bad).1.cell (row * 32 + j) =
      if j = n then landNarrow fmt add (g.cell (row * 32 + n)) v else g.cell (row * 32 + j) := by
  have value : ∃ r e b, g.landValue fmt row n v add bad = ((g.setCell (row * 32 + n) r).setBad 4 ((row * 32 + n) % 131072) b, e) ∧
      r % 2 ^ 32 = landNarrow fmt add (g.cell (row * 32 + n)) v := by
    unfold Core.landValue landNarrow
    rw [if_neg hf]
    cases add with
    | false => exact ⟨v, 0, _, rfl, rfl⟩
    | true =>
      by_cases h4 : fmt = 4
      · simp only [h4, Bool.not_true, Bool.false_eq_true, Bool.true_eq_false, if_false, if_true]
        refine ⟨_, _, _, rfl, ?_⟩
        have below : (signedOf 32 (g.cell (row * 32 + n)) + signedOf 32 v).emod (2 ^ 32) < 2 ^ 32 := Int.emod_lt_of_pos _ (by norm_num)
        rw [intWrap]
        exact Nat.mod_eq_of_lt (by omega)
      · simp only [h4, Bool.not_true, Bool.false_eq_true, Bool.true_eq_false, if_false]
        exact ⟨_, _, _, rfl, rfl⟩
  obtain ⟨r, e, b, hv, hr⟩ := value
  rw [hv]
  by_cases he : j = n
  · rw [if_pos he, he, Core.cell_setBad, Core.cell_setCell_same, hr]
  · rw [if_neg he, Core.cell_setBad, Core.cell_setCell_ne _ _ (by omega)]

theorem Core.landValue_wide (n v : Nat) (bad : Bool) (j : Nat) (hj : j < 32) (hn : n < 32) :
    (g.landValue 1 row n v add bad).1.cell2 (row * 32 + 2 * j) =
      if j = n then landWide add (g.cell2 (row * 32 + 2 * n)) v else g.cell2 (row * 32 + 2 * j) := by
  have value : ∃ r e b, g.landValue 1 row n v add bad = ((((g.setCell (row * 32 + 2 * n) r).setCell (row * 32 + 2 * n + 1) (r / 2 ^ 32)).setBad 4
      ((row * 32 + 2 * n) % 131072) b).setBad 4 ((row * 32 + 2 * n + 1) % 131072) b, e) ∧ r % 2 ^ 64 = landWide add (g.cell2 (row * 32 + 2 * n)) v := by
    unfold Core.landValue landWide
    rw [if_pos rfl]
    refine ⟨_, _, _, rfl, ?_⟩
    cases add <;> rfl
  obtain ⟨r, e, b, hv, hr⟩ := value
  rw [hv, Core.cell2, Core.cell_setBad, Core.cell_setBad, Core.cell_setBad, Core.cell_setBad]
  by_cases he : j = n
  · rw [if_pos he, he, Core.cell_setCell_same, Core.cell_setCell_ne _ _ (by omega), Core.cell_setCell_same, ← hr]
    omega
  · rw [if_neg he, Core.cell_setCell_ne _ _ (by omega), Core.cell_setCell_ne _ _ (by omega), Core.cell_setCell_ne _ _ (by omega),
      Core.cell_setCell_ne _ _ (by omega), Core.cell2]

end

/-- Values from column n on: each lands in its column, and no other column changes. -/
theorem Core.landValues_columns {fmt row : Nat} {add : Bool} {look : Core → Nat → Nat} {new : Nat → Nat → Nat} {cols : Nat}
    (one : ∀ (g : Core) n v bad j, j < cols → n < cols → look (g.landValue fmt row n v add bad).1 j = if j = n then new (look g n) v else look g j)
    (vals : List Nat) : ∀ (g : Core) (n : Nat) (bads : List Bool), n + vals.length ≤ cols →
      (∀ j v, vals[j]? = some v → look (g.landValues fmt row add n vals bads).1 (n + j) = new (look g (n + j)) v) ∧
      (∀ j, j < n → look (g.landValues fmt row add n vals bads).1 j = look g j) := by
  induction vals with
  | nil => exact fun g n bads _ => ⟨fun j v h => absurd h (by simp), fun j _ => rfl⟩
  | cons x r ih =>
    intro g n bads hlen
    rw [List.length_cons] at hlen
    obtain ⟨later, before⟩ := ih (g.landValue fmt row n x add (bads.headD false)).1 (n + 1) bads.tail (by omega)
    refine ⟨fun j v h => ?_, fun j hj => ?_⟩
    · cases j with
      | zero =>
        obtain rfl : x = v := by simpa using h
        refine (before n (Nat.lt_succ_self n)).trans ?_
        rw [one _ _ _ _ _ (by omega) (by omega), if_pos rfl, Nat.add_zero]
      | succ j =>
        have hr : r[j]? = some v := by simpa using h
        have hj := (List.getElem?_eq_some_iff.1 hr).1
        have e := later j v hr
        rw [show n + 1 + j = n + (j + 1) by omega] at e
        refine e.trans ?_
        rw [one _ _ _ _ _ (by omega) (by omega), if_neg (by omega)]
    · refine (before j (by omega)).trans ?_
      rw [one _ _ _ _ _ (by omega) (by omega), if_neg (by omega)]

section
variable (g : Core) (row : Nat) (add : Bool) (vals : List Nat) (bads : List Bool)

theorem Core.landValues_narrow {fmt : Nat} (hf : fmt ≠ 1) (hl : vals.length ≤ 64) {n v : Nat} (hv : vals[n]? = some v) :
    (g.landValues fmt row add 0 vals bads).1.cell (row * 32 + n) = landNarrow fmt add (g.cell (row * 32 + n)) v := by
  have all := (Core.landValues_columns (look := fun g j => g.cell (row * 32 + j)) (new := landNarrow fmt add)
    (fun g n v bad j hj hn => g.landValue_narrow row add hf n v bad j hj hn) vals g 0 bads (by omega)).1 n v hv
  simpa using all

theorem Core.landValues_wide (hl : vals.length ≤ 32) {n v : Nat} (hv : vals[n]? = some v) :
    (g.landValues 1 row add 0 vals bads).1.cell2 (row * 32 + 2 * n) = landWide add (g.cell2 (row * 32 + 2 * n)) v := by
  have all := (Core.landValues_columns (look := fun g j => g.cell2 (row * 32 + 2 * j)) (new := landWide add)
    (fun g n v bad j hj hn => g.landValue_wide row add n v bad j hj hn) vals g 0 bads (by omega)).1 n v hv
  simpa using all

end

/-! ### Steps of the engine -/

theorem State.setCore_setCore (s : State) (g : Nat) (x y : Core) : (s.setCore g x).setCore g y = s.setCore g y := by
  simp [State.setCore]

theorem State.modCore_setCore (s : State) (g : Nat) (x : Core) (f : Core → Core) : (s.setCore g x).modCore g f = s.setCore g (f x) := by
  rw [State.modCore, State.core_setCore_same, State.setCore_setCore]

theorem Core.queue_setQueue (g : Core) (q : Nat) (x : Queue) : (g.setQueue q x).queue q = x := SMap.get_set_same ..

theorem State.recordAt_core (s : State) (p : EvPlace) (ev : Cats) (g : Nat) : (s.recordAt p ev).core g = s.core g := by
  unfold State.recordAt State.modWho
  split
  · rfl
  · split
    · rfl
    · split <;> rfl

/-- A row write lands when its cycle has come. -/
theorem rowLand_core {s : State} {g k : Nat} {w : RowWrite} (hw : (s.core g).rows[k]? = some w) (hl : w.left ≤ 1) :
    (rowLand s g k).core g = (Core.landValues { s.core g with rows := (s.core g).rows.eraseIdx k } w.fmt w.row w.add 0 w.vals w.bad).1 := by
  have due : rowLand s g k = landRow (s.modCore g (fun g => { g with rows := g.rows.eraseIdx k })) g w := by
    unfold rowLand
    simp only [hw]
    exact if_pos hl
  rw [due, landRow]
  simp only [State.recordAt_core, State.core_setCore_same, State.core_modCore_same]

/-- A list of values at places that follow one another. -/
theorem foldl_zipIdx_set {α : Type} [DecidableEq α] (d : α) (base : Nat) (l : List α) : ∀ (m : SMap α) (n i : Nat),
    SMap.get d ((l.zipIdx n).foldl (fun m q => SMap.set d m (base + q.2) q.1) m) (base + i) =
      if n ≤ i then l.getD (i - n) (SMap.get d m (base + i)) else SMap.get d m (base + i) := by
  induction l with
  | nil => simp
  | cons a r ih =>
    intro m n i
    rw [List.zipIdx_cons, List.foldl_cons, ih]
    rcases Nat.lt_trichotomy n i with h | h | h
    · rw [if_pos (by omega), if_pos (by omega), SMap.get_set_ne _ _ _ (by dsimp only; omega), show i - n = i - (n + 1) + 1 by omega, List.getD_cons_succ]
    · subst h
      rw [if_neg (by omega), if_pos (Nat.le_refl n), Nat.sub_self, List.getD_cons_zero]
      exact SMap.get_set_same ..
    · rw [if_neg (by omega), if_neg (by omega)]
      exact SMap.get_set_ne _ _ _ (by dsimp only; omega)

/-- The queue's part of a `latq`'s cycle: it begins, or takes up to two entries. -/
def latqTakes (x : Core) (o : LatqOp) : Core × LatqOp :=
  if o.begun then ((x.latqPop o).1.latqPop (x.latqPop o).2) else (x, { o with begun := true })

theorem latqStep_quiet {s : State} {g : Nat} {o : LatqOp} (h : o.flight = []) : latqStep s g o = (s.setCore g (latqTakes (s.core g) o).1,
    if (latqTakes (s.core g) o).2.need ≤ (latqTakes (s.core g) o).2.next ∧ (latqTakes (s.core g) o).2.flight = [] then none
    else some (latqTakes (s.core g) o).2) := by
  obtain ⟨lat, q, k, need, next, flight, begun, place, did⟩ := o
  simp only at h
  subst h
  rfl

/-- A `latq` without elements on their way, in its turn. -/
theorem latqDue_turn {s : State} {g k : Nat} {o : LatqOp} (ho : (s.core g).latqs[k]? = some o) (hdid : o.did = false) (heng : (s.core g).engDone = false)
    (hvx : s.vxIdle g = true) (hbefore : ∀ p ∈ (s.core g).latqs.take k, p.did = true) (hflight : o.flight = [])
    (hopen : ¬((latqTakes (s.core g) o).2.need ≤ (latqTakes (s.core g) o).2.next ∧ (latqTakes (s.core g) o).2.flight = [])) :
    latqDue s g k = s.setCore g { (latqTakes (s.core g) o).1 with
      latqs := (latqTakes (s.core g) o).1.latqs.set k { (latqTakes (s.core g) o).2 with did := true } } := by
  have turn : (o.did || (s.core g).engDone || !s.vxIdle g || ((s.core g).latqs.take k).any (fun p => !p.did)) = false := by
    rw [hdid, heng, hvx, List.any_eq_false.2 fun p hp => by simp [hbefore p hp]]
    rfl
  unfold latqDue
  simp only [ho]
  refine (if_neg (by rw [turn]; decide)).trans ?_
  rw [latqStep_quiet hflight, if_neg hopen]
  exact State.modCore_setCore ..

/-- Settles O47: each step by its own operation. -/
theorem matrixWorkLands : Obligations.MatrixWorkLands := by
  unfold Obligations.MatrixWorkLands
  intro s g k h cell narrow wide landed
  have lands (x : Core) (hx : ∀ i, x.cell i = h.cell i) (fmt row : Nat) (add : Bool) (vals : List Nat) (bads : List Bool) :
      landed (x.landValues fmt row add 0 vals bads).1 fmt row add vals := by
    refine ⟨fun hf hl n v hv => ?_, fun hf hl n v hv => ?_⟩
    · have e := x.landValues_narrow row add vals bads hf hl hv
      rw [hx] at e
      exact e
    · subst hf
      have e := x.landValues_wide row add vals bads hl hv
      rw [Core.cell2, Core.cell2, hx, hx] at e
      exact e
  refine ⟨fun w hw hl => ?row, fun o ho hdid heng hvx hbefore hflight hneed => ⟨fun hbegun => ?latqBegins, fun ps bad q hbegun hpop hlen => ?latqPops⟩,
    fun p hp hl => ?path, fun o ho hdid heng hvx hlat hbefore hwait hfull hside => ?accq, fun w hw hdid hstart hnext => ⟨fun hready => ?missed, fun c0 b0 c1 b1 hready hrows => ?added⟩⟩
  case row =>
    refine ⟨rowLand s g k, rfl, rfl, rowLand_core hw hl, ?_⟩
    rw [rowLand_core hw hl]
    exact lands { h with rows := h.rows.eraseIdx k } (fun _ => rfl) ..
  case latqBegins =>
    have begins : latqTakes (s.core g) o = (s.core g, { o with begun := true }) := if_neg (by rw [hbegun]; decide)
    have open_ : ¬(o.need ≤ o.next ∧ o.flight = []) := fun e => absurd hneed (Nat.not_lt.2 e.1)
    refine congrArg stepDone ((latqDue_turn ho hdid heng hvx hbefore hflight (by rw [begins]; exact open_)).trans ?_)
    rw [begins]
    rfl
  case latqPops =>
    have codes : ((ps.map (fun p => p.code)).take (o.need - o.next)).length = o.need - o.next := by simp [hlen]
    let popped : LatqOp := { o with
      next := o.need
      flight := [⟨2, o.next, (ps.map (fun p => p.code)).take (o.need - o.next), bad, poppedCats ps⟩] }
    have first : h.latqPop o = (h.setQueue o.q q, popped) := by
      unfold Core.latqPop
      rw [if_neg (Nat.not_le.2 hneed)]
      simp only [hpop, codes, hflight, List.nil_append, popped, show o.next + (o.need - o.next) = o.need by omega]
    have second (x : Core) : x.latqPop popped = (x, popped) := if_pos (Nat.le_refl _)
    have takes : latqTakes (s.core g) o = (h.setQueue o.q q, popped) := by
      refine (if_pos hbegun).trans ?_
      rw [show (s.core g).latqPop o = (h.setQueue o.q q, popped) from first]
      exact second _
    have step : latqDue s g k = s.setCore g { h.setQueue o.q q with latqs := h.latqs.set k { popped with did := true } } := by
      refine (latqDue_turn ho hdid heng hvx hbefore hflight (by rw [takes]; exact fun e => absurd e.2 (List.cons_ne_nil _ _))).trans ?_
      rw [takes]
      rfl
    refine ⟨latqDue s g k, rfl, ?_⟩
    rw [step, State.core_setCore_same]
    exact ⟨Core.queue_setQueue .., rfl⟩
  case path =>
    have due : (s.modCore g (fun x => x.pathDone k)).core g = { h.landPath p with paths := h.paths.eraseIdx k } := by
      rw [State.core_modCore_same, Core.pathDone]
      simp only [h] at hp
      simp only [hp]
      exact if_pos hl
    refine ⟨_, rfl, ?_, fun hlatch n w hw => ?_, fun hlatch n col hc => ?_⟩
    · rw [due]
    · rw [due]
      simp only [Core.landPath, hlatch, Bool.false_eq_true, if_false]
      refine (foldl_zipIdx_set 0 _ _ _ 0 n).trans ?_
      simp [hw]
    · rw [due]
      simp only [Core.landPath, hlatch, if_true]
      refine (foldl_zipIdx_set [] _ _ _ 0 n).trans ?_
      simp [hc]
  case accq =>
    have turn : (o.did || h.engDone || !s.vxIdle g || h.latqs.any (fun p => !p.did) || (h.accqs.take k).any (fun p => !p.did)) = false := by
      rw [hdid, heng, hvx, List.any_eq_false.2 fun p hp => by simp [hlat p hp], List.any_eq_false.2 fun p hp => by simp [hbefore p hp]]
      rfl
    have pushes : h.accqStep o = (h.setQueue o.q ((h.queue o.q).push (accqEntry h o).1 (accqEntry h o).2),
        if o.left ≤ 1 then none else some { o with row := (o.row + 1) % (if o.two then 2048 else 4096), left := o.left - 1 }) := by
      unfold Core.accqStep
      rw [if_neg (by omega)]
      dsimp only
      rw [hfull, hside]
      rfl
    have step : accqDue s g k = s.setCore g { h.setQueue o.q ((h.queue o.q).push (accqEntry h o).1 (accqEntry h o).2) with
        accqs := if o.left ≤ 1 then h.accqs.eraseIdx k
          else h.accqs.set k { o with row := (o.row + 1) % (if o.two then 2048 else 4096), left := o.left - 1, did := true } } := by
      unfold accqDue
      simp only [h] at ho pushes turn
      simp only [ho]
      refine (if_neg (by rw [turn]; decide)).trans ?_
      rw [pushes]
      by_cases hleft : o.left ≤ 1
      · simp only [hleft, if_true]
        rfl
      · simp only [hleft, if_false]
        rfl
    refine ⟨accqDue s g k, rfl, ?_⟩
    rw [step, State.core_setCore_same]
    exact ⟨Core.queue_setQueue .., rfl⟩
  all_goals
    have turn : (w.did || decide (1 < w.start) || decide ((w.rows + 1) / 2 ≤ w.next)) = false := by
      rw [hdid, decide_eq_false (Nat.not_lt.2 hstart), decide_eq_false (Nat.not_le.2 hnext)]
      rfl
    have step : windowDue s g k = s.setCore g { (h.windowAdd w).1 with wins := (h.windowAdd w).1.wins.set k { (h.windowAdd w).2 with start := 0, did := true } } := by
      unfold windowDue
      simp only [h] at hw
      simp only [hw]
      exact if_neg (by rw [turn]; decide)
  case missed =>
    have misses : h.windowAdd w = (h, { w with next := w.next + 1, missed := true }) := by
      have first : decide (2 * w.next < w.rows) = true := decide_eq_true (by omega)
      unfold Core.windowAdd
      simp only [hready, List.find?_nil, Option.map_none, List.filterMap_none, List.filter_cons, first, if_true]
      exact if_neg (by simp)
    refine congrArg stepDone (step.trans ?_)
    rw [misses]
    rfl
  case added =>
    have data : ([2 * w.next, 2 * w.next + 1].filter (fun r => decide (r < w.rows))).filterMap
        (fun r => (w.ready.find? (fun p => p.1 == r)).map (fun p => p.2)) = [(c0, b0), (c1, b1)] := by
      have first : decide (2 * w.next < w.rows) = true := decide_eq_true (by omega)
      have second : decide (2 * w.next + 1 < w.rows) = true := decide_eq_true (by omega)
      simp [hready, first, second]
    have both : ([2 * w.next, 2 * w.next + 1].filter (fun r => decide (r < w.rows))).length = 2 := by
      simp [show 2 * w.next < w.rows by omega, show 2 * w.next + 1 < w.rows by omega]
    let pairs := (List.range 32).map (fun n => (c0 ++ c1).getD (2 * n) 0 + 2 ^ 32 * (c0 ++ c1).getD (2 * n + 1) 0)
    let marks := (List.range 32).map (fun n => (b0 ++ b1).getD (2 * n) false || (b0 ++ b1).getD (2 * n + 1) false)
    have adds : h.windowAdd w = (if w.fmt = 1 then (h.landValues 1 (w.row + 2 * w.next) true 0 pairs marks).1
        else (h.landValues w.fmt (w.row + 2 * w.next) true 0 (c0 ++ c1) (b0 ++ b1)).1, { w with next := w.next + 1 }) := by
      unfold Core.windowAdd
      simp only [data, both, List.length_cons, List.length_nil, Nat.zero_add, Nat.reduceAdd, if_true, List.map_cons, List.map_nil, List.flatten_cons,
        List.flatten_nil, List.append_nil]
      split <;> rfl
    refine ⟨(h.windowAdd w).1, congrArg stepDone (step.trans ?_), fun hf => ?_, fun hf => ?_⟩
    · rw [adds]
    · rw [adds]
      simp only [hf, if_false, true_and]
      exact lands h (fun _ => rfl) ..
    · rw [adds]
      simp only [hf, if_true]
      exact lands h (fun _ => rfl) ..

end Sys2Proof.Machine

/-! ## Mace commands (08_trellis.md R195, R198, R200, R202) -/

namespace Sys2Proof.Machine

theorem State.modWho_core (s : State) (tid rank g : Nat) (f : Context → Context) : (s.modWho tid rank f).core g = s.core g := by
  unfold State.modWho
  split
  · rfl
  · split <;> rfl

theorem State.noteTs_core (s : State) (tid t g : Nat) : (s.noteTs tid t).core g = s.core g := by
  unfold State.noteTs
  split <;> rfl

theorem State.noteTs_ctx (s : State) (tid t c : Nat) : (s.noteTs tid t).ctx c = s.ctx c := by
  unfold State.noteTs
  split <;> rfl

theorem State.retireTok_core (s : State) (tid rank k t g : Nat) : (s.retireTok tid rank k t).core g = s.core g := by
  rw [State.retireTok, State.noteTs_core, State.modWho_core]

/-- A token that is done is not pending. -/
theorem Context.tokPending_done (x : Context) (k t : Nat) : (x.tokDone k t).tokPending k = false := by
  by_cases h : k < 32 <;> simp [Context.tokPending, Context.tokDone, h]

theorem State.whereIs_modCore (s : State) (g tid rank : Nat) (f : Core → Core) : (s.modCore g f).whereIs tid rank = s.whereIs tid rank := rfl

/-- The token of a command that retires is done in the context that posted it, where that is bound. -/
theorem State.retireTok_tok {s : State} {tid rank c : Nat} (h : s.whereIs tid rank = some c) (k t : Nat) :
    ((s.retireTok tid rank k t).ctx c).tokPending k = false := by
  unfold State.retireTok State.modWho
  rw [State.noteTs_ctx]
  simp only [h]
  rw [State.ctx_modCtx_same]
  exact Context.tokPending_done ..

/-- A push makes its queue longer. -/
theorem Queue.pushMace_ne (q : Queue) (v : Vec) (f4 : Bool) (out : Nat) (bad : Bool) : q.pushMace v f4 out bad ≠ q := by
  intro h
  have len := congrArg (fun q => q.entries.length) h
  simp [Queue.pushMace] at len

/-- The last entry of a command whose units are all decoded is pushed, and nothing follows it. -/
theorem maceWork_last {g : Core} {m : MaceCmd} (spent : m.spent = true) (lanes : m.lanes ≠ []) (full : (g.queue m.q).full = false)
    (nside : (g.queue m.q).nside = false) (f : Nat) :
    maceWork g m 1 (f + 1) =
      (g.setQueue m.q ((g.queue m.q).pushMace (ofLanes (m.lanes ++ List.replicate (64 - m.lanes.length) 0)) (tdMode m.tda == 2) (tdOut m.tda) m.bad),
       { m with lanes := [], bad := false }) := by
  have pushed : g.macePush m = some (g.setQueue m.q ((g.queue m.q).pushMace (ofLanes (m.lanes ++ List.replicate (64 - m.lanes.length) 0))
      (tdMode m.tda == 2) (tdOut m.tda) m.bad), { m with lanes := [], bad := false }) := by
    unfold Core.macePush
    simp only [full, nside]
    rfl
  have after (g' : Core) (p f : Nat) : maceWork g' { m with lanes := [], bad := false } p f = (g', { m with lanes := [], bad := false }) := by
    cases f with
    | zero => rfl
    | succ f =>
      have done : MaceCmd.spent { m with lanes := [], bad := false } = true := spent
      unfold maceWork
      rw [if_neg (by simp), if_pos done]
  rw [maceWork, if_pos (Or.inr ⟨spent, lanes⟩), if_neg Nat.one_ne_zero, pushed]
  exact after ..

section
variable {s : State} {g : Nat} {m : MaceCmd} {r : List MaceCmd}

theorem maceStart_starts (hm : (s.core g).mace = m :: r) (waits : m.started = false) (now : m.wait = 0)
    (done : s.depsDone m.tid m.rank m.deps = true) :
    maceStart s g = s.modCore g (fun y => { y with mace := { m with started := true } :: r }) := by
  unfold maceStart
  simp only [hm]
  exact if_pos (by simp [waits, now, done])

theorem maceStart_waits (hm : (s.core g).mace = m :: r) (waiting : s.depsDone m.tid m.rank m.deps = false) : maceStart s g = s := by
  unfold maceStart
  simp only [hm]
  exact if_neg (by simp [waiting])

theorem macePushOne_last (hm : (s.core g).mace = m :: r) (started : m.started = true) (decode : m.load = false) (lag : m.lag = 0)
    (may : 0 < (s.core g).macePushes) (idle : s.vxIdle g = true) (queues : (s.core g).queuesDone = true) (spent : m.spent = true)
    (lanes : m.lanes ≠ []) (full : ((s.core g).queue m.q).full = false) (nside : ((s.core g).queue m.q).nside = false) :
    ∃ t, macePushOne s g = t ∧ (t.core g).mace = { m with lanes := [], bad := false } :: r ∧ (t.core g).pushes = (s.core g).pushes + 1 ∧
      (t.core g).queue m.q = ((s.core g).queue m.q).pushMace (ofLanes (m.lanes ++ List.replicate (64 - m.lanes.length) 0)) (tdMode m.tda == 2)
        (tdOut m.tda) m.bad := by
  have step : macePushStep s g 1 = s.setCore g
      { (s.core g).setQueue m.q (((s.core g).queue m.q).pushMace (ofLanes (m.lanes ++ List.replicate (64 - m.lanes.length) 0))
          (tdMode m.tda == 2) (tdOut m.tda) m.bad) with
        mace := { m with lanes := [], bad := false } :: r } := by
    unfold macePushStep
    simp only [hm]
    rw [if_neg (by simp [started]), if_neg (by simp [lag]), if_neg (by simp [decode]), maceWork_last spent lanes full nside]
  have queue : ((macePushStep s g 1).core g).queue m.q = ((s.core g).queue m.q).pushMace
      (ofLanes (m.lanes ++ List.replicate (64 - m.lanes.length) 0)) (tdMode m.tda == 2) (tdOut m.tda) m.bad := by
    rw [step, State.core_setCore_same]
    exact Core.queue_setQueue ..
  have mace : ((macePushStep s g 1).core g).mace = { m with lanes := [], bad := false } :: r := by rw [step, State.core_setCore_same]
  have pushes : ((macePushStep s g 1).core g).pushes = (s.core g).pushes := by
    rw [step, State.core_setCore_same]
    rfl
  refine ⟨(macePushStep s g 1).modCore g (fun x => { x with pushes := x.pushes + 1 }), ?_, ?_⟩
  · unfold macePushOne
    simp only [hm]
    rw [if_pos (by simp [started, decode, lag, may, idle, queues])]
    exact if_neg (by rw [queue]; exact fun h => Queue.pushMace_ne _ _ _ _ _ h)
  · rw [State.core_modCore_same]
    exact ⟨mace, congrArg (· + 1) pushes, queue⟩

theorem maceRetire_retires (hm : (s.core g).mace = m :: r) (started : m.started = true) (finished : m.finished = true)
    (pushes : (s.core g).pushes = 0) :
    ((maceRetire s g).core g).mace = (match r with | n :: l => { n with wait := max n.wait 1 } :: l | [] => []) ∧
    ∀ c, s.whereIs m.tid m.rank = some c → ((maceRetire s g).ctx c).tokPending m.tok = false := by
  unfold maceRetire
  simp only [hm]
  rw [if_pos (by simp [started, finished, pushes]), State.retireTok_core, State.core_modCore_same]
  exact ⟨by cases r <;> rfl, fun c hc => State.retireTok_tok ((State.whereIs_modCore ..).trans hc) _ _⟩

end

/-- What stays of the queue of a core when a task's commands are cancelled. -/
theorem maceCancel_mace (s : State) (g tid : Nat) :
    ((maceCancel s g tid).core g).mace = maceWithout (fun m => m.tid == tid) (s.core g).mace := by
  have kept (l : List MaceCmd) : ∀ t : State,
      (l.foldl (fun s m => s.retireTok m.tid m.rank m.tok (s.depTs m.tid m.rank m.deps)) t).core g = t.core g := by
    induction l with
    | nil => exact fun t => rfl
    | cons m r ih => exact fun t => (ih _).trans (State.retireTok_core ..)
  unfold maceCancel
  dsimp only
  rw [kept, State.core_modCore_same]

theorem maceWithout_other {out : MaceCmd → Bool} {l : List MaceCmd} {m : MaceCmd} (hm : l.head? = some m) (h : out m = false) :
    maceWithout out l = l.filter (fun m => !out m) := by
  simp [maceWithout, hm, h]

theorem maceWithout_head {out : MaceCmd → Bool} {l : List MaceCmd} {m : MaceCmd} (hm : l.head? = some m) (h : out m = true) :
    maceWithout out l =
      ((l.filter (fun m => !out m)).take 1).map (fun n => { n with wait := max n.wait 1 }) ++ (l.filter (fun m => !out m)).drop 1 := by
  unfold maceWithout
  dsimp only
  rw [if_pos (by simp [hm, h])]
  cases l.filter (fun m => !out m) <;> rfl

/-- Settles O48: a rule per step of Mace. What it pushes makes its queue longer, so that the push counts. -/
theorem maceCommandsRun : Obligations.MaceCommandsRun := by
  unfold Obligations.MaceCommandsRun
  intro s g tid
  refine ⟨fun m r hm => ⟨fun h0 hw hd => ?_, fun _ hd => ?_, fun started decode lag may idle lq aq spent lanes _ full nside => ?_,
    fun started finished pushes => ?_⟩, fun due => ?_, fun alive busy => ?_⟩
  · exact congrArg stepDone (maceStart_starts hm h0 hw hd)
  · exact congrArg stepDone (maceStart_waits hm hd)
  · have queues : (s.core g).queuesDone = true := by simp only [Core.queuesDone, Bool.and_eq_true, List.all_eq_true]; exact ⟨lq, aq⟩
    obtain ⟨t, ht, pushed⟩ := macePushOne_last hm started decode lag may idle queues spent lanes full nside
    exact ⟨t, congrArg stepDone ht, pushed⟩
  · obtain ⟨left, tok⟩ := maceRetire_retires hm started finished pushes
    refine ⟨maceRetire s g, rfl, ?_, ?_, tok⟩
    · rw [left]
      cases r <;> rfl
    · rintro n l rfl
      exact left
  · refine ⟨maceCancel s g tid, congrArg stepDone (if_pos due), fun m hm other => ?_, fun m hm own => ?_⟩
    · exact (maceCancel_mace ..).trans (maceWithout_other hm (by simpa using other))
    · exact (maceCancel_mace ..).trans (maceWithout_head hm (by simpa using own))
  · exact congrArg stepDone (if_neg (by simp [alive, busy]))

end Sys2Proof.Machine

/-! ## The sealing engine (02_bundle.md R53 to R57) -/

namespace Sys2Proof.Machine

/-! ### What an engine's accesses leave alone -/

/-- A translation of an engine goes through. -/
theorem eTrans_ok {w : Via} {va pa : Nat} {acc : Acc} {pte : W64} {s t : State} (h : (eTrans w va acc).on s = .ok ((pa, pte), t)) :
    translate s w.die w.agent w.asid va acc w.k = .ok pa pte t ∧ t.reach w.die pa = true := by
  unfold Eng.on eTrans at h
  split at h
  case h_4 pa' pte' s' ht =>
    split at h
    · obtain ⟨⟨rfl, rfl⟩, rfl⟩ : (pa' = pa ∧ pte' = pte) ∧ s' = t := by simpa using h
      exact ⟨ht, ‹_›⟩
    · cases h
  all_goals cases h

theorem eTrans_accessed {w : Via} {va pa : Nat} {acc : Acc} {pte : W64} {s t : State} (h : (eTrans w va acc).on s = .ok ((pa, pte), t)) :
    s.Accessed t := translate_accessed (eTrans_ok h).1

theorem eWrite_eq (w : Via) (va : Nat) (v : W64) (s : State) : (eWrite w va v).on s =
    match (eTrans w va .write).on s with
    | .error e => .error e
    | .ok (p, t) => .ok ((), t.storePhys w.agent p.1 8 v.toNat) := by
  unfold Eng.on eWrite
  cases eTrans w va .write s <;> rfl

theorem eWrite_accessed {w : Via} {va : Nat} {v : W64} {s t : State} (h : (eWrite w va v).on s = .ok ((), t)) : s.Accessed t := by
  rw [eWrite_eq] at h
  split at h
  · cases h
  next p u ht =>
    obtain rfl : u.storePhys w.agent p.1 8 v.toNat = t := by simpa using h
    exact (eTrans_accessed ht).trans (.storePhys ..)

theorem State.Accessed.tlbs (s : State) (l : List Tlb) : s.Accessed { s with tlbs := l } := .of_eq rfl rfl rfl rfl

theorem State.after_accessed (s : State) (a : Agent) (e : Stop) : s.Accessed (s.after a e) := by
  have start : s.Accessed ((s.keepLeases e.seen).raise a (e.seen.ptsOf a)) := by
    have leases : s.Accessed (s.keepLeases e.seen) := .of_eq rfl rfl rfl rfl
    exact leases.trans (.raise ..)
  unfold State.after
  generalize (s.keepLeases e.seen).raise a (e.seen.ptsOf a) = t at start
  induction e.seen.tlbs with
  | nil => exact start
  | cons x r ih =>
    rw [List.foldr_cons]
    generalize r.foldr _ t = u at ih ⊢
    split
    · exact ih
    · have stored : s.Accessed (if u.word x.at_ = x.pte then u else u.storePhys x.agent x.at_ 8 x.pte.toNat) := by
        split
        · exact ih
        · exact ih.trans (.storePhys ..)
      exact stored.trans (.tlbs ..)

/-! ### Reports and code -/

/-- A report at a place that is not aligned is left out. -/
theorem sealReport_misaligned (u : State) (w : Via) (st sl kd bd h : Nat) {rpt : Nat} (hr : rpt % 16 ≠ 0) :
    sealReport u w rpt st sl kd bd h = some u := if_pos hr

/-- A report is HANDLE, then word 0. -/
theorem sealReport_writes {u u1 u2 : State} {w : Via} {rpt st sl kd bd h : Nat} (hr : rpt % 16 = 0)
    (h1 : (eWrite w (rpt + 8) (BitVec.ofNat 64 h)).on u = .ok ((), u1))
    (h2 : (eWrite w rpt (BitVec.ofNat 64 (st * 2 ^ 62 + sl * 2 ^ 59 + kd * 2 ^ 56 + bd))).on u1 = .ok ((), u2)) :
    sealReport u w rpt st sl kd bd h = some u2 := by
  unfold sealReport
  rw [if_neg (fun n => n hr), Eng.on_bind, h1]
  simp only [h2]

/-- A report seals and unseals nothing. -/
theorem sealReport_seals {u v : State} {w : Via} {rpt st sl kd bd h : Nat} (hu : sealReport u w rpt st sl kd bd h = some v) : v.seals = u.seals := by
  unfold sealReport at hu
  rw [Eng.on_bind] at hu
  split at hu
  · rw [Option.some.inj hu]
  · split at hu
    next x t ht =>
      obtain rfl := Option.some.inj hu
      split at ht
      next y z hz => exact ((eWrite_accessed hz).trans (eWrite_accessed ht)).seals
      · cases ht
    next e he =>
      split at hu
      · cases hu
      · rw [← Option.some.inj hu, (State.after_accessed ..).seals]

/-- The words of a bundle are read, and the bundle is checked. -/
theorem readCode_succ (w : Via) (len a n i : Nat) (s : State) : (readCode w len a (n + 1) i).on s =
    match (eReads w (a + 32 * i) 4).on s with
    | .error e => .error e
    | .ok (ws, t) => match bundleOffence i len (bundleOf ws) with
      | some (k, o) => .ok (.error (i, k, o), t)
      | none => match (readCode w len a n (i + 1)).on t with
        | .error e => .error e
        | .ok (r, u) => .ok (r.map (fun l => bundleOf ws :: l), u) := by
  rw [readCode, Eng.on_bind]
  cases (eReads w (a + 32 * i) 4).on s with
  | error e => rfl
  | ok x =>
    dsimp only
    cases bundleOffence i len (bundleOf x.1) with
    | some o => rfl
    | none =>
      dsimp only
      rw [Eng.on_bind]
      cases (readCode w len a n (i + 1)).on x.2 <;> rfl

/-- Code that is read is as long as it is asked for, and where it ends in an offence, a bundle of that index has it. -/
theorem readCode_result {w : Via} {len a : Nat} (n : Nat) : ∀ {i : Nat} {s t : State} {r : Except (Nat × Nat × Nat) (List Bundle)},
    (readCode w len a n i).on s = .ok (r, t) →
      (∀ l, r = .ok l → l.length = n) ∧ ∀ j k o, r = .error (j, k, o) → ∃ b, bundleOffence j len b = some (k, o) := by
  induction n with
  | zero =>
    rintro i s t r h
    obtain ⟨rfl, rfl⟩ : .ok [] = r ∧ s = t := by simpa [readCode, Eng.on_pure] using h
    exact ⟨fun l hl => (Except.ok.inj hl ▸ rfl), fun j k o he => nomatch he⟩
  | succ n ih =>
    intro i s t r h
    rw [readCode_succ] at h
    split at h
    · cases h
    next ws u hw =>
      split at h
      next k o offence =>
        obtain ⟨rfl, rfl⟩ : .error (i, k, o) = r ∧ u = t := by simpa using h
        exact ⟨fun l hl => (nomatch hl), fun j k' o' he => by cases he; exact ⟨_, offence⟩⟩
      next clean =>
        split at h
        · cases h
        next r' v hr =>
          obtain ⟨rfl, rfl⟩ : r'.map (fun l => bundleOf ws :: l) = r ∧ v = t := by simpa using h
          obtain ⟨whole, first⟩ := ih hr
          cases r' with
          | error x => exact ⟨fun l hl => (nomatch hl), fun j k o he => first j k o (congrArg _ (Except.error.inj he))⟩
          | ok l' => exact ⟨fun l hl => by rw [← Except.ok.inj hl, List.length_cons, whole l' rfl], fun j k o he => nomatch he⟩

/-- The free handle that a new image takes is the lowest. -/
theorem freeHandle_lowest {s : State} {h : Nat} (hf : freeHandle s = some h) :
    1 ≤ h ∧ h ≤ 4095 ∧ (∀ y ∈ s.seals, y.1 ≠ h) ∧ ∀ m, 1 ≤ m → m < h → ∃ y ∈ s.seals, y.1 = m := by
  unfold freeHandle at hf
  obtain ⟨before, n, after, hl, hn, hb⟩ := List.findSome?_eq_some_iff.1 hf
  have hn' : n + 1 = h ∧ s.seals.any (fun p => p.1 == n + 1) = false := by
    split at hn
    · cases hn
    next used => exact ⟨Option.some.inj hn, Bool.eq_false_iff.2 used⟩
  obtain ⟨rfl, free⟩ := hn'
  have place : before.length = n := by
    have len : before.length < 4095 := by
      have := congrArg List.length hl
      simp at this
      omega
    have at_ : (List.range 4095)[before.length]? = some n := by rw [hl]; simp
    simpa [len] using at_
  have small : n < 4095 := by
    have : n ∈ List.range 4095 := by rw [hl]; simp
    simpa using this
  refine ⟨by omega, by omega, fun y hy he => ?_, fun m h1 hm => ?_⟩
  · have := List.any_eq_false.1 free y hy
    simp [he] at this
  · have mem : m - 1 ∈ before := by
      have at_ : (List.range 4095)[m - 1]? = some (m - 1) := List.getElem?_range (by omega)
      rw [hl, List.getElem?_append_left (by omega)] at at_
      exact List.mem_of_getElem? at_
    have used := hb _ mem
    rw [show m - 1 + 1 = m by omega] at used
    split at used
    next ha =>
      obtain ⟨y, hy, he⟩ := List.any_eq_true.1 ha
      exact ⟨y, hy, by simpa using he⟩
    · cases used

/-! ### The oldest request -/

section
variable {s s0 s1 s2 : State} {die va n x a p : Nat} {r : List (Nat × Nat)} {xb xc ab ac pc : Bool}

/-- The words of a request that are read (R54). -/
structure SealRead (s s0 s1 s2 : State) (die va n x a p : Nat) (xb xc ab ac pc : Bool) (w : Via) : Prop where
  via : w = ⟨.seal die, die, if xb then n else fieldOf (BitVec.ofNat 64 x) 47 32, false⟩
  first : (cReadIn ⟨.seal die, die, n, false⟩ (va + 8) 8).on s = .ok ((x, xb, xc), s0)
  src : (cReadIn w va 8).on s0 = .ok ((a, ab, ac), s1)
  rpt : (cReadIn w (va + 16) 8).on s1 = .ok ((p, false, pc), s2)

variable {w : Via}

theorem SealRead.tried (h : SealRead s s0 s1 s2 die va n x a p xb xc ab ac pc w) : sealTry s die va n =
    if xb || ab then sealReport s2 w p 3 0 1 0 0 else sealWords s2 w ([a, x, p].map (BitVec.ofNat 64)) := by
  obtain ⟨rfl, first, src, rpt⟩ := h
  unfold sealTry
  simp only [first, Eng.on_bind, src, rpt, Eng.on_pure, Bool.false_eq_true, if_false]

theorem sealPerform_done {u : State} (hq : (s.die die).sealQueue = (va, n) :: r)
    (ht : sealTry (s.modDie die (fun d => { d with sealQueue := r })) die va n = some u) : sealPerform s die = u := by
  unfold sealPerform
  simp only [hq, ht, Option.getD_some]

/-- The words of a request that no check refuses before its code is read. -/
theorem sealWords_code {h : Nat} (hf : freeHandle s = some h) (hsrc : a % 2 ^ 64 % 32 = 0) (h0 : 0 < x % 2 ^ 32) (hl : x % 2 ^ 32 ≤ 524288) :
    sealWords s w ([a, x, p].map (BitVec.ofNat 64)) = match (readCode w (x % 2 ^ 32) (a % 2 ^ 64) (x % 2 ^ 32) 0).on s with
      | .error e => if e.halt = .wait then none else sealReport (s.after w.agent e) w (p % 2 ^ 64) 3 0 1 0 0
      | .ok (.error (i, n, k), s) => sealReport s w (p % 2 ^ 64) 2 n k i 0
      | .ok (.ok code, s) => sealReport { s with seals := SMap.put (SMap.del s.seals h) h ⟨code, false⟩ } w (p % 2 ^ 64) 1 0 0 0 h := by
  have src : (wordAt ([a, x, p].map (BitVec.ofNat 64)) 0).toNat = a % 2 ^ 64 := rfl
  have rpt : (wordAt ([a, x, p].map (BitVec.ofNat 64)) 2).toNat = p % 2 ^ 64 := rfl
  have len : fieldOf (wordAt ([a, x, p].map (BitVec.ofNat 64)) 1) 31 0 = x % 2 ^ 32 := by
    have word : (wordAt ([a, x, p].map (BitVec.ofNat 64)) 1) = BitVec.ofNat 64 x := rfl
    rw [word]
    simp [fieldOf]
  unfold sealWords
  simp only [hf, src, rpt, len]
  exact if_neg (by omega)

end

/-- Settles O49: a rule per step of the sealing engine (`sealTry`, then `sealWords`), and what its reading of the code gives (`readCode_result`). -/
theorem sealingEngine : Obligations.SealingEngine := by
  unfold Obligations.SealingEngine
  intro s die asid v hdie
  have submit : exec (.sealsub die asid v) s = stepDone (sealSubmit s die asid v) := congrArg stepDone (if_pos hdie)
  refine ⟨fun aligned room => ?_, fun aligned full => ?_, fun misaligned => ?_, ?_, rfl⟩
  · rw [submit, sealSubmit, if_neg (by omega), if_neg (by omega)]
    rfl
  · rw [submit, sealSubmit, if_neg (by omega), if_pos full]
    rfl
  · rw [submit, sealSubmit, if_pos misaligned]
    rfl
  · intro va n r x xb xc s0 a ab ac s1 p pc s2 hq h0 w h1 h2
    have read : SealRead _ s0 s1 s2 die va n x a p xb xc ab ac pc w := ⟨rfl, h0, h1, h2⟩
    clear_value w
    have done {u : State} (ht : sealTry (s.modDie die (fun d => { d with sealQueue := r })) die va n = some u) :
        exec (.sealRequest die) s = .next (settleAll u) := congrArg stepDone (sealPerform_done hq ht)
    refine ⟨fun h hx ha hf hsrc hl0 hl => ⟨freeHandle_lowest hf, fun code s3 u hc hu => ?_, fun i k o s3 u hc hu => ?_⟩, fun bad hp u hu => ?_,
      fun u st sl kd bd h hr => sealReport_misaligned u w st sl kd bd h hr, fun u st sl kd bd h u1 u2 hr => sealReport_writes hr⟩
    · have words := sealWords_code (w := w) (p := p) hf hsrc hl0 hl
      rw [hc] at words
      refine ⟨done (read.tried.trans ?_), (readCode_result _ hc).1 code rfl, sealReport_seals hu⟩
      rw [hx, ha]
      exact (if_neg Bool.false_ne_true).trans (words.trans hu)
    · have words := sealWords_code (w := w) (p := p) hf hsrc hl0 hl
      rw [hc] at words
      refine ⟨done (read.tried.trans ?_), (readCode_result _ hc).2 i k o rfl, sealReport_seals hu⟩
      rw [hx, ha]
      exact (if_neg Bool.false_ne_true).trans (words.trans hu)
    · rw [Nat.mod_eq_of_lt hp] at hu
      refine done (read.tried.trans ((if_pos ?_).trans hu))
      simpa using bad

end Sys2Proof.Machine

/-! ## Copy engines (10_copy.md R231, R239): a context table that lists a context twice -/

namespace Sys2Proof.Machine

/-- A complete fill of context 0, whose payload has moved. -/
def wDone : Packet := wPacket .complete 1 8 [77, 0x2000000, 8]

/-- Context 0 is listed twice: first as a context of task 5 that has posted 3 packets, which is what a read of it finds, then as the poster of
the packet, which is where a search for the poster ends. -/
def posterTwice : State :=
  let s := wPack wDone
  { s with ctxs := (0, { s.ctx 0 with tid := 5, posted := 3 }) :: s.ctxs }

/-- Refutes O50: a packet that retires has its token done, and then its poster's count falls. In a table that lists the poster's context twice the first
write leaves the context once, as another task's, so that the poster is not found again and the count stays 3 where the statement wants 2. -/
theorem not_copyEngineSteps : ¬ Obligations.CopyEngineSteps := by
  unfold Obligations.CopyEngineSteps
  rintro ⟨-, steps⟩
  obtain ⟨-, -, -, -, -, packets⟩ := steps posterTwice 0 51 0 0 0 (by decide) (by decide)
  obtain ⟨-, -, -, -, complete, -⟩ := packets wDone (by decide +kernel)
  obtain ⟨-, -, retired⟩ := complete (by decide +kernel) (by decide +kernel) (by decide +kernel) (by decide +kernel) (by decide +kernel) (by decide +kernel)
  obtain ⟨-, posted⟩ := retired 0 (by decide +kernel) (by decide +kernel) (by decide +kernel)
  exact absurd posted (by decide +kernel)

end Sys2Proof.Machine

/-! ## Launch queues (14_dispatch.md R309 to R318) -/

namespace Sys2Proof.Machine

/-! ### Launch records under the accesses of memory -/

theorem State.setPts_dies (s : State) (a : Agent) (t : Nat) : (s.setPts a t).dies = s.dies := by cases a <;> rfl

theorem State.raise_dies (s : State) (a : Agent) (t : Nat) : (s.raise a t).dies = s.dies := by
  unfold State.raise
  split
  · rfl
  · exact State.setPts_dies ..

theorem State.writeN_dies (n : Nat) : ∀ (s : State) (pa v : Nat), (s.writeN pa n v).dies = s.dies := by
  induction n with
  | zero => exact fun _ _ _ => rfl
  | succ n ih => exact fun s pa v => (ih _ _ _).trans rfl

theorem State.clearBad_dies (s : State) (pa n : Nat) : (s.clearBad pa n).dies = s.dies := by
  unfold State.clearBad
  induction List.range ((pa + n - 1) / 8 + 1 - pa / 8) generalizing s with
  | nil => rfl
  | cons i r ih =>
    rw [List.foldl_cons, ih]
    dsimp only
    split <;> rfl

theorem State.stampStore_dies (s : State) (a : Agent) (line : Nat) : (s.stampStore a line).dies = s.dies := by
  rw [State.stampStore, State.setPts_dies]

theorem State.refreshL1_dies (s : State) (a : Agent) (line : Nat) : (s.refreshL1 a line).dies = s.dies := by
  unfold State.refreshL1
  split
  · dsimp only
    split <;> rfl
  · rfl

/-- A store lifts the watches on its line, and leaves the launch records as they are otherwise. -/
theorem State.storePhys_recs (s : State) (a : Agent) (pa n v d : Nat) :
    ((s.storePhys a pa n v).die d).recs.map (fun r => (r.serial, r.state)) = (s.die d).recs.map (fun r => (r.serial, r.state)) := by
  let lift (x : Die) : Die := { x with recs := x.recs.map (fun r => if r.watch = some (pa / 64) then { r with watch := none } else r) }
  have dies : (s.storePhys a pa n v).die d = lift (s.die d) := by
    refine (SMap.get_map Die.init lift rfl _ d).trans (congrArg (fun m => lift (SMap.get Die.init m d)) ?_)
    rw [State.refreshL1_dies, State.stampStore_dies, State.clearBad_dies, State.writeN_dies]
  rw [dies, List.map_map]
  refine List.map_congr_left fun r _ => ?_
  dsimp only [Function.comp_apply]
  split <;> rfl

/-! ### Registration -/

/-- Of fewer than `n` numbers that are used one below `n` is free, and a search finds the least. -/
theorem find?_range_free {n : Nat} {used : List Nat} (h : used.length < n) :
    ∃ k, (List.range n).find? (fun k => !used.contains k) = some k ∧ k < n ∧ k ∉ used ∧ ∀ j, j < k → j ∈ used := by
  cases hf : (List.range n).find? (fun k => !used.contains k) with
  | none =>
    have all : List.range n ⊆ used := fun k hk => by simpa using List.find?_eq_none.1 hf k hk
    have := (List.nodup_range.subperm all).length_le
    rw [List.length_range] at this
    omega
  | some k =>
    obtain ⟨free, before, after, hl, first⟩ := List.find?_eq_some_iff_append.1 hf
    have place : before.length = k ∧ k < n := by
      have at_ : (List.range n)[before.length]? = some k := by rw [hl]; simp
      have len : before.length < n := by
        rw [← List.length_range (n := n), hl]
        simp
      rw [List.getElem?_range len] at at_
      obtain rfl := Option.some.inj at_
      exact ⟨rfl, len⟩
    refine ⟨k, rfl, place.2, by simpa using free, fun j hj => ?_⟩
    have mem : j ∈ before := by
      have at_ : (List.range n)[j]? = some j := List.getElem?_range (by omega)
      rw [hl, List.getElem?_append_left (by omega)] at at_
      exact List.mem_of_getElem? at_
    simpa using first j mem

theorem lqRead_ok {die asid va pa : Nat} {pte : W64} {s s1 s2 : State} {ws : List W64}
    (h1 : (eTrans ⟨.dispatch die, die, asid, false⟩ va .read).on s = .ok ((pa, pte), s1))
    (h2 : (eReads ⟨.dispatch die, die, asid, false⟩ va 8).on s1 = .ok (ws, s2)) : (lqRead die asid va).on s = .ok ((pa, ws), s2) := by
  simp only [lqRead, Eng.on_bind, h1, h2, Eng.on_pure]

/-- The first of 256 queue numbers that no queue has. -/
theorem leastNumber {l : List LaunchQueue} (h : l.length < 256) :
    ∃ n, (List.range 256).find? (fun n => !l.any (fun q => q.num == n)) = some n ∧ n < 256 ∧ (∀ y ∈ l, y.num ≠ n) ∧ ∀ j, j < n → ∃ y ∈ l, y.num = j := by
  obtain ⟨n, hf, hn, free, least⟩ := find?_range_free (used := l.map LaunchQueue.num) (n := 256) (by simpa using h)
  have same : (fun n => !l.any (fun q => q.num == n)) = fun n => !(l.map LaunchQueue.num).contains n := by
    funext n
    rw [Bool.eq_iff_iff]
    simp
  exact ⟨n, same ▸ hf, hn, fun y hy he => free (he ▸ List.mem_map_of_mem hy), fun j hj => by simpa using least j hj⟩

/-! ### Acceptance -/

theorem recReject_congr {s t : State} (h : t.seals = s.seals) (ws : List W64) (peers : Nat) : recReject t ws peers = recReject s ws peers := by
  have found : t.seal = s.seal := funext fun n => congrArg (SMap.get Seal.none · n) h
  have handle : t.handleOk = s.handleOk := by
    funext n
    rw [State.handleOk, found, State.handleOk]
  have len : t.imageLen = s.imageLen := by
    funext n
    rw [State.imageLen, found, State.imageLen]
  rw [recReject, handle, len, recReject]

theorem State.modDie_seals (s : State) (d : Nat) (f : Die → Die) : (s.modDie d f).seals = s.seals := rfl

section
variable {s s0 s1 s2 : State} {die k pa : Nat} {q : LaunchQueue} {v c va : Nat} {b kl : Bool} {pte : W64} {ws : List W64}

/-- The state in which a claim has been taken: RIDX has risen and the record stands in the list (R310). -/
def tookClaim (s : State) (die : Nat) (q : LaunchQueue) (c : Nat) (ws : List W64) : State :=
  let s3 : State := { s with serial := s.serial + 1 }
  ((({ s3 with claims := s3.claims.filter (fun x => !(x.line == q.line && x.seq == c)) } : State).storePhys (.dispatch die) (64 * q.line + 8) 8
    ((c + 1) % 2 ^ 64)).modLq die q.num (fun x => { x with failed := false })).modDie die (fun d => { d with recs := d.recs ++ [newRec s3 die q c ws] })

theorem tookClaim_seals (s : State) (die : Nat) (q : LaunchQueue) (c : Nat) (ws : List W64) : (tookClaim s die q c ws).seals = s.seals := by
  unfold tookClaim State.modLq
  rw [State.modDie_seals, State.modDie_seals, (State.Accessed.storePhys ..).seals]

theorem launchAccept_takes (peers : Nat) (hq : (s.die die).lqs[k]? = some q) (hs : q.stall = false) (hf : q.failed = false)
    (hc : c = (s.word (64 * q.line + 8)).toNat) (hva : va = q.ring + 128 * (c % 2 ^ q.lsize)) (claimed : (s.word (64 * q.line)).toNat ≠ c)
    (room : (s.die die).openRecs q.serial < 64) (reach : s.reach die (64 * q.line) = true)
    (h0 : (eTrans ⟨.dispatch die, die, q.asid, false⟩ va .read).on (s.loadHome (.dispatch die) (64 * q.line) 1) = .ok ((pa, pte), s0))
    (h1 : (cReadIn ⟨.dispatch die, die, q.asid, false⟩ va 8).on s0 = .ok ((v, b, kl), s1)) (valid : fieldOf (BitVec.ofNat 64 v) 63 40 = c % 2 ^ 24)
    (ready : s1.slotPending pa va q.asid = false) (h2 : (eReads ⟨.dispatch die, die, q.asid, false⟩ va 16).on s1 = .ok (ws, s2)) :
    launchAccept s die k peers = match recReject s2 ws peers with
      | some code => refuseRec (tookClaim s2 die q c ws) (newRec { s2 with serial := s2.serial + 1 } die q c ws) code 0xFFF
      | none => tookClaim s2 die q c ws := by
  have goes : (q.stall || decide ((s.word (64 * q.line)).toNat = c) || decide (64 ≤ (s.die die).openRecs q.serial) ||
      !s.reach die (64 * q.line)) = false := by
    rw [hs, reach, decide_eq_false claimed, decide_eq_false (by omega)]
    rfl
  rw [← recReject_congr (tookClaim_seals s2 die q c ws) ws peers]
  unfold launchAccept
  simp only [hq, ← hc, ← hva, goes, hf, Bool.false_eq_true, if_false]
  simp only [Eng.on_bind, h0, h1, Eng.on_pure]
  simp only [valid, ready, h2, Bool.or_false, ne_eq, not_true_eq_false, decide_false, Bool.false_eq_true, if_false]
  rfl

end

/-! ### Eligibility -/

theorem Launch.before_iff (a b : Launch) : a.before b = true ↔
    b.prio < a.prio ∨ a.prio = b.prio ∧ (a.lq.num < b.lq.num ∨ a.lq.num = b.lq.num ∧ a.seq < b.seq) := by
  unfold Launch.before
  split
  · next prio =>
    split
    · next num => simp [prio, num]
    · next num =>
      rw [decide_eq_true_eq]
      omega
  · next prio =>
    rw [decide_eq_true_eq]
    omega

theorem Launch.before_trans {a b c : Launch} (h : a.before b = true) (k : b.before c = true) : a.before c = true := by
  rw [Launch.before_iff] at *
  omega

theorem Launch.before_asymm {a b : Launch} (h : a.before b = true) : b.before a = false := by
  rw [Bool.eq_false_iff]
  intro k
  rw [Launch.before_iff] at *
  omega

/-- The eligible records of a list stand in their order (R317). -/
def Ordered (l : List Launch) : Prop := (l.filter (fun x => x.state == .eligible)).Pairwise (fun a b => b.before a = false)

theorem ordered_cons_eligible {x : Launch} (hx : x.state = .eligible) (l : List Launch) :
    Ordered (x :: l) ↔ (∀ y ∈ l, y.state = .eligible → y.before x = false) ∧ Ordered l := by
  unfold Ordered
  rw [List.filter_cons_of_pos (by simp [hx]), List.pairwise_cons]
  simp [List.mem_filter]

theorem ordered_cons_other {x : Launch} (hx : x.state ≠ .eligible) (l : List Launch) : Ordered (x :: l) ↔ Ordered l := by
  unfold Ordered
  rw [List.filter_cons_of_neg (by simp [hx])]

theorem mem_placeAmong {r y : Launch} (l : List Launch) : y ∈ placeAmong r l ↔ y = r ∨ y ∈ l := by
  induction l with
  | nil => simp [placeAmong]
  | cons x l ih =>
    rw [placeAmong]
    split
    · exact List.mem_cons
    · rw [List.mem_cons, ih, List.mem_cons]
      tauto

/-- A record takes its place among the eligible ones, and they stay in their order. -/
theorem placeAmong_ordered {r : Launch} (hr : r.state = .eligible) (l : List Launch) (h : Ordered l) : Ordered (placeAmong r l) := by
  induction l with
  | nil => simp [placeAmong, Ordered, hr]
  | cons x l ih =>
    rw [placeAmong]
    by_cases hx : x.state = .eligible
    · obtain ⟨after, rest⟩ := (ordered_cons_eligible hx l).1 h
      split
      next first =>
        have ahead : r.before x = true := by simpa [hx] using first
        refine (ordered_cons_eligible hr _).2 ⟨fun y hy he => ?_, h⟩
        rw [List.mem_cons] at hy
        obtain rfl | hy := hy
        · exact Launch.before_asymm ahead
        · exact Bool.eq_false_iff.2 fun k => Bool.eq_false_iff.1 (after y hy he) (Launch.before_trans k ahead)
      next later =>
        refine (ordered_cons_eligible hx _).2 ⟨fun y hy he => ?_, ih rest⟩
        rw [mem_placeAmong] at hy
        obtain rfl | hy := hy
        · simpa [hx] using later
        · exact after y hy he
    · rw [if_neg (by simp [hx])]
      exact (ordered_cons_other hx _).2 (ih ((ordered_cons_other hx _).1 h))

section
variable {s : State} {die k : Nat} {r : Launch}

/-- ELIGIBLE of a record (R318; the layout of its detail is DEDUCED, log entry 48). -/
def eligibleEvent (r : Launch) : DEvent := ⟨BitVec.ofNat 64 (2 ^ 56 + (r.lq.num * 2 ^ 24 + r.seq % 2 ^ 24) % 2 ^ 44), 0⟩

/-- The state in which a record has taken its place, its event held. -/
def placed (s : State) (die : Nat) (r : Launch) : State :=
  (s.modDie die (fun d => { d with recs := placeAmong { r with state := .eligible } (d.recs.filter (fun x => x.serial != r.serial)) })).modDie die
    (fun d => { d with events := d.events ++ [eligibleEvent r] })

theorem placed_die (s : State) (die : Nat) (r : Launch) : (placed s die r).die die = { s.die die with
    recs := placeAmong { r with state := .eligible } ((s.die die).recs.filter (fun x => x.serial != r.serial))
    events := (s.die die).events ++ [eligibleEvent r] } := by
  rw [placed, State.die_modDie_same, State.die_modDie_same]

theorem makeEligible_eq (s : State) (r : Launch) :
    makeEligible s r = flushEvents (placed s r.die r) r.die ((s.die r.die).events.length + 1) := by
  have event : (⟨BitVec.ofNat 64 (1 * 2 ^ 56 + 0 % 4096 * 2 ^ 44 + r.detail % 2 ^ 44), 0⟩ : DEvent) = eligibleEvent r := by
    simp [eligibleEvent, Launch.detail]
  have len : ((s.die r.die).events ++ [eligibleEvent r]).length = (s.die r.die).events.length + 1 := by simp
  unfold makeEligible postEvent
  dsimp only
  rw [event, ← len]
  exact congrArg (fun d : Die => flushEvents (placed s r.die r) r.die d.events.length) (placed_die s r.die r)

theorem evRoom_placed (s : State) (die : Nat) (r : Launch) : evRoom (placed s die r) die = evRoom s die :=
  evRoom_congr rfl rfl (by rw [placed_die]; rfl) (by rw [placed_die]; rfl)

/-- A record and its state, without what a store may change of it. -/
def Launch.key (r : Launch) : Nat × RecState := (r.serial, r.state)

/-- ELIGIBLE is written where its slot is free. -/
theorem makeEligible_posts (room : evRoom s r.die = true) (none : (s.die r.die).events = []) :
    (makeEligible s r).word (s.die r.die).evAt = (eligibleEvent r).w0 ∧ (makeEligible s r).word ((s.die r.die).evAt + 8) = 0 ∧
    (∀ a, a < (s.die r.die).evAt ∨ (s.die r.die).evAt + 16 ≤ a → (makeEligible s r).byte a = s.byte a) ∧
    ((makeEligible s r).die r.die).events = [] ∧ ((makeEligible s r).die r.die).evIndex = (s.die r.die).evIndex + 1 ∧
    ((makeEligible s r).die r.die).recs.map Launch.key =
      (placeAmong { r with state := .eligible } ((s.die r.die).recs.filter (fun x => x.serial != r.serial))).map Launch.key := by
  have die := placed_die s r.die r
  have one : ((placed s r.die r).die r.die).events = [eligibleEvent r] := by rw [die, none]; rfl
  have evAt : ((placed s r.die r).die r.die).evAt = (s.die r.die).evAt := by rw [die]; rfl
  have ends := (makeEligible_eq s r).trans ((by rw [none]; rfl : _ = flushEvents (placed s r.die r) r.die 1).trans
    (flushEvents_one one ((evRoom_placed ..).trans room)))
  rw [evAt] at ends
  obtain ⟨first, second, others⟩ := (placed s r.die r).storePhys_twice (.dispatch r.die) (s.die r.die).evAt (eligibleEvent r).w0 (eligibleEvent r).w1
  have recs : ∀ n, ((((placed s r.die r).storePhys (.dispatch r.die) ((s.die r.die).evAt + 8) 8 (eligibleEvent r).w1.toNat).storePhys (.dispatch r.die)
      (s.die r.die).evAt 8 (eligibleEvent r).w0.toNat).die n).recs.map Launch.key = ((placed s r.die r).die n).recs.map Launch.key := fun n =>
    (State.storePhys_recs ..).trans (State.storePhys_recs ..)
  have acc : (placed s r.die r).Accessed (((placed s r.die r).storePhys (.dispatch r.die) ((s.die r.die).evAt + 8) 8 (eligibleEvent r).w1.toNat).storePhys
      (.dispatch r.die) (s.die r.die).evAt 8 (eligibleEvent r).w0.toNat) := (State.Accessed.storePhys ..).trans (.storePhys ..)
  rw [ends]
  generalize ((placed s r.die r).storePhys (.dispatch r.die) ((s.die r.die).evAt + 8) 8 (eligibleEvent r).w1.toNat).storePhys
    (.dispatch r.die) (s.die r.die).evAt 8 (eligibleEvent r).w0.toNat = t at first second others recs acc
  have done : (t.modDie r.die (fun d => { d with events := [], evIndex := d.evIndex + 1 })).die r.die =
      { t.die r.die with events := [], evIndex := (t.die r.die).evIndex + 1 } := State.die_modDie_same ..
  refine ⟨first, second, others, congrArg Die.events done, (congrArg Die.evIndex done).trans ?_,
    (congrArg (fun d : Die => d.recs.map Launch.key) done).trans ((recs _).trans (congrArg (fun d : Die => d.recs.map Launch.key) die))⟩
  rw [acc.die, die]

theorem eligibleStep_goes (hr : (s.die die).recs[k]? = some r) (waiting : r.state = .waiting) (watch : r.watch = none) (wait : r.wait = false)
    (word : fieldOf (wordAt r.words 3) 47 0 = 0) (done : s.depsDone r.tid r.rank r.deps = true) (after : recAfter r.words = false ∨ prevDone s r = true) :
    eligibleStep s die k = makeEligible (s.raise (.dispatch die) (s.depTs r.tid r.rank r.deps)) r := by
  unfold eligibleStep
  simp only [hr, word]
  rw [if_neg]
  · rfl
  · obtain h | h := after <;> simp [waiting, watch, wait, done, h]

theorem eligibleStep_stays (hr : (s.die die).recs[k]? = some r)
    (h : s.depsDone r.tid r.rank r.deps = false ∨ recAfter r.words = true ∧ prevDone s r = false) : eligibleStep s die k = s := by
  unfold eligibleStep
  simp only [hr]
  refine if_pos ?_
  obtain h | ⟨h1, h2⟩ := h
  · simp [h]
  · simp [h1, h2]

end

/-- Settles O52: registration by its reads, acceptance by `launchAccept_takes`, eligibility by the event that it posts (`makeEligible_eq`) and the order
of the records (`placeAmong_ordered`). -/
theorem launchSteps : Obligations.LaunchSteps := by
  unfold Obligations.LaunchSteps
  intro s die asid k v hdie d ag
  have add : exec (.lqadd die asid v) s = stepDone (lqAdd s die asid v) := congrArg stepDone (if_pos hdie)
  have del : exec (.lqdel die asid v) s = stepDone (lqDel s die asid v) := congrArg stepDone (if_pos hdie)
  refine ⟨fun bad => ?bad, fun pa pte s1 ws s2 room aligned h1 h2 => ?add, fun q hq => ?del, ?accept, fun r hr hd waiting watch wait word => ?eligible,
    fun r l hr => placeAmong_ordered hr l⟩
  case bad =>
    rw [add, lqAdd]
    exact congrArg stepDone (if_pos (by simpa using bad))
  case add =>
    intro ls al h4 h16 hal
    obtain ⟨num, found, small, free, least⟩ := leastNumber room
    refine ⟨num, small, free, least, ?_⟩
    have number : ((List.range 256).find? (fun n => !(s.die die).lqs.any (fun q => q.num == n))).getD 0 = num := by rw [found]; rfl
    rw [add]
    refine congrArg stepDone ?_
    unfold lqAdd
    dsimp only
    rw [if_neg (by simp [d] at *; omega), lqRead_ok h1 h2]
    dsimp only
    rw [number, if_neg (by omega)]
    rfl
  case del =>
    rw [del, lqDel]
    simp only [d] at hq
    rw [hq]
    rfl
  case accept =>
    intro q pa pte s0 v b kl s1 ws s2 hq hs hf c va claimed room reach h0 h1 valid ready h2 s3 r s4 u
    have took := launchAccept_takes (peers s die) hq hs hf rfl rfl claimed room reach h0 h1 valid ready h2
    refine ⟨fun fine => ?_, fun code bad => ?_⟩
    · rw [fine] at took
      exact congrArg stepDone took
    · rw [bad] at took
      exact congrArg stepDone took
  case eligible =>
    subst hd
    intro u
    have mem : u.mem = s.mem := State.raise_mem ..
    have die : u.die r.die = s.die r.die := congrArg (SMap.get Die.init · r.die) (State.raise_dies ..)
    have room : evRoom u r.die = evRoom s r.die := evRoom_congr mem (State.Accessed.raise ..).links (by rw [die]) (by rw [die])
    refine ⟨fun done after => ⟨congrArg stepDone (eligibleStep_goes hr waiting watch wait word done after), ?_, fun full => ?_⟩,
      fun h => congrArg stepDone (eligibleStep_stays hr h)⟩
    · intro free none t
      have posts := makeEligible_posts (room.trans free) ((congrArg Die.events die).trans none)
      rw [die] at posts
      obtain ⟨first, second, others, events, index, recs⟩ := posts
      exact ⟨first, second, fun a ha => (others a ha).trans (congrArg (SMap.get (0 : Byte) · a) mem), events, index, recs⟩
    · exact (makeEligible_eq u r).trans (flushEvents_full ((evRoom_placed u r.die r).trans (room.trans full)) _)

end Sys2Proof.Machine

/-! ## Dispatch commands (14_dispatch.md R318 to R332) -/

namespace Sys2Proof.Machine

/-! ### The head command of a die -/

section
variable {s : State} {die : Nat} {q : DCmd} {l : List DCmd}

theorem perform_head (hq : (s.die die).dcmd = q :: l) (he : (s.die die).events = []) : perform s die q.op = match q.op with
    | 1 => doBind s die q
    | 2 => doArm s die q
    | 3 => doPreempt s die q
    | 4 => doRestore s die q
    | 5 => doKill s die q
    | 6 => doYield s die q
    | _ => doCancel s die q := by
  unfold perform
  simp only [hq, he, ne_eq, not_true_eq_false, List.isEmpty_nil, Bool.true_eq_false, or_self, if_false] <;> rfl

theorem endCmd_die (hq : (s.die die).dcmd = q :: l) (code : Nat) : (endCmd s die q code).die die =
    { s.die die with dcmd := l, dstat := BitVec.ofNat 64 (q.op * 2 ^ 60 + q.tid % 4096 * 2 ^ 48 + code * 2 ^ 40) } := by
  rw [endCmd, State.die_modDie_same, hq]
  rfl

theorem doBind_unnamed (h : namedRec s die q.arg = none) : doBind s die q = endCmd s die q 1 := by
  simp only [doBind, h]

theorem doBind_refused {r : Launch} (h : namedRec s die q.arg = some r) (hc : bindCode s q.tid r false ≠ 0) :
    doBind s die q = endCmd s die q (bindCode s q.tid r false) := by
  simp only [doBind, h]
  exact if_pos hc

theorem doBind_goes {r : Launch} {u : State} (h : namedRec s die q.arg = some r) (hc : bindCode s q.tid r false = 0) (hu : bindGo s q.tid r = some u)
    (done : ∀ x ∈ (u.die die).recs, x.serial = r.serial → x.wait = false) : doBind s die q = endCmd u die q 0 := by
  have ends : (u.die die).recs.any (fun x => x.serial == r.serial && x.wait) = false := by
    rw [List.any_eq_false]
    intro x hx
    by_cases hs : x.serial = r.serial
    · simp [done x hx hs]
    · simp [hs]
  simp only [doBind, h, hc, hu, ends, ne_eq, not_true_eq_false, if_false, Bool.false_eq_true]

theorem doArm_goes {y : LaunchQueue} (hy : (s.die die).lq (q.arg / 2 ^ 40 % 256) = some y) (ha : y.armed = none) (h0 : (s.task q.tid).state = 0) :
    doArm s die q = endCmd ((s.modLq die (q.arg / 2 ^ 40 % 256) (fun x => { x with armed := some q.tid })).modTask q.tid (fun t => { t with state := 1 }))
      die q 0 := by
  unfold doArm
  simp only [hy]
  exact if_neg (by simp [ha, h0])

theorem doArm_refused {y : LaunchQueue} (hy : (s.die die).lq (q.arg / 2 ^ 40 % 256) = some y) (h : y.armed ≠ none ∨ (s.task q.tid).state ≠ 0) :
    doArm s die q = endCmd s die q 1 := by
  unfold doArm
  simp only [hy]
  refine if_pos ?_
  rw [Option.ne_none_iff_isSome] at h
  simpa using h

theorem beginSave_again {tid : Nat} (h : (s.task tid).state = 3) :
    s.beginSave tid 1 none = s.modTask tid (fun t => { t with saving := some (min 1 (t.saving.getD 1)) }) := by
  unfold State.beginSave
  dsimp only
  rw [if_neg (by rw [h]; decide), if_pos h]

/-- A kill begins for a task that is bound, being saved or saved. -/
theorem State.beginKill_task {tid code : Nat} (h : (s.task tid).state = 2 ∨ (s.task tid).state = 3 ∨ (s.task tid).state = 4) :
    ((s.beginKill tid code).task tid).state = 5 ∧ ((s.task tid).kill = none → ((s.beginKill tid code).task tid).kill = some code) := by
  unfold State.beginKill
  simp only [h, if_true, State.task_modTask_same, true_and]
  intro hk
  rw [State.task, foldl_modCtx_tasks, ← State.task, State.stopTask_kill, hk]
  rfl

theorem doRestore_goes (h0 : restoreCode s q.tid = 0) (reach : ∀ f ∈ s.frames, f.2.tid = q.tid → s.reach die (frameAt s q.tid (f.1 % 2048)) = true) :
    doRestore s die q = endCmd (restoreGo s q.tid) die q 0 := by
  unfold doRestore
  dsimp only
  rw [if_neg (by simp [h0]), if_neg]
  simp only [List.any_filter, List.any_eq_true, Bool.and_eq_true, beq_iff_eq, Bool.not_eq_eq_eq_not, Bool.not_true, not_exists, not_and]
  exact fun f hf ht => by rw [reach f hf ht]; simp

theorem restoreGo_broken {tid : Nat} (clean : framesClean s tid = true) (broken : framesWhole s tid = false) : restoreGo s tid = s.beginKill tid 13 := by
  unfold restoreGo
  simp [clean, broken]

theorem restoreGo_task {tid : Nat} (clean : framesClean s tid = true) (whole : framesWhole s tid = true) :
    ((restoreGo s tid).task tid).state = 2 ∧ ((restoreGo s tid).task tid).errors = 0 := by
  unfold restoreGo
  rw [if_neg (by simp [clean]), if_neg (by simp [whole]), State.task_modTask_same]
  exact ⟨rfl, rfl⟩

end

/-! ### What a task keeps -/

/-- Of a task, nothing but the time that its work has reached is changed. -/
structure State.KeepsTasks (s t : State) : Prop where
  task : ∀ n, t.task n = { s.task n with ts := (t.task n).ts }

theorem State.KeepsTasks.refl (s : State) : s.KeepsTasks s := ⟨fun _ => rfl⟩

theorem State.KeepsTasks.trans {s t u : State} (h : s.KeepsTasks t) (k : t.KeepsTasks u) : s.KeepsTasks u := ⟨fun n => by
  rw [k.task n, h.task n]⟩

theorem State.KeepsTasks.of_tasks {s t : State} (h : t.tasks = s.tasks) : s.KeepsTasks t := ⟨fun n => by
  rw [State.task, h, ← State.task]⟩

theorem State.KeepsTasks.foldl {α : Type} {f : State → α → State} (hf : ∀ (s : State) x, s.KeepsTasks (f s x)) (l : List α) :
    ∀ s : State, s.KeepsTasks (l.foldl f s) := by
  induction l with
  | nil => exact State.KeepsTasks.refl
  | cons x r ih => exact fun s => (hf s x).trans (ih _)

theorem State.KeepsTasks.noteTs (s : State) (tid t : Nat) : s.KeepsTasks (s.noteTs tid t) := by
  unfold State.noteTs
  split
  · refine ⟨fun n => ?_⟩
    by_cases h : n = tid
    · rw [h, State.task_modTask_same]
    · rw [State.task_modTask_ne _ _ h]
  · exact .refl s

theorem State.KeepsTasks.retireTok (s : State) (tid rank k t : Nat) : s.KeepsTasks (s.retireTok tid rank k t) :=
  (State.KeepsTasks.of_tasks (State.modWho_tasks ..)).trans (.noteTs ..)

theorem State.KeepsTasks.maceCancel (s : State) (g tid : Nat) : s.KeepsTasks (maceCancel s g tid) := by
  unfold Machine.maceCancel
  exact (State.KeepsTasks.of_tasks rfl : s.KeepsTasks (s.modCore g _)).trans (.foldl (fun s m => .retireTok ..) _ _)

theorem leaveCore_tasks (s : State) (g tid : Nat) : (leaveCore s g tid).tasks = s.tasks := by
  unfold leaveCore
  split
  · rfl
  · split <;> rfl

theorem keepPosters_tasks (s : State) (tid : Nat) : (keepPosters s tid).tasks = s.tasks := by
  unfold keepPosters
  dsimp only
  split <;> rfl

theorem releaseTask_keeps (s : State) (tid : Nat) : s.KeepsTasks (releaseTask s tid) := by
  have posters := State.KeepsTasks.of_tasks (keepPosters_tasks s tid)
  have cancel (l : List Nat) (u : State) : u.KeepsTasks (l.foldl (fun s g => Machine.maceCancel s g tid) u) := .foldl (fun s g => .maceCancel ..) l u
  have perform (l : List Nat) (u : State) : (l.foldl (fun s g => s.modCore g performSpAll) u).tasks = u.tasks := foldl_tasks (f := fun s g => s.modCore g performSpAll) (fun _ _ => rfl) l u
  have leave (l : List Nat) (u : State) : (l.foldl (fun s g => (leaveCore s g tid).modCore g
      (fun x => { x with doneWins := x.doneWins.filter (fun w => w.tid != tid) })) u).tasks = u.tasks :=
    foldl_tasks (f := fun s g => (leaveCore s g tid).modCore g (fun x => { x with doneWins := x.doneWins.filter (fun w => w.tid != tid) }))
      (fun s g => leaveCore_tasks s g tid) l u
  unfold releaseTask
  exact ((posters.trans (cancel _ _)).trans (.of_tasks (perform _ _))).trans (.of_tasks (leave _ _))

/-! ### Completion (R29, R324) -/

theorem dropBindRecs_tasks (s : State) (tid : Nat) : (dropBindRecs s tid).tasks = s.tasks := rfl

theorem leaveSlot_tasks (s : State) (c : Nat) : (leaveSlot s c).tasks = s.tasks := rfl

theorem flushEvents_tasks (n : Nat) : ∀ (s : State) (die : Nat), (flushEvents s die n).tasks = s.tasks := by
  induction n with
  | zero => exact fun _ _ => rfl
  | succ n ih =>
    intro s die
    unfold flushEvents
    split
    · rfl
    · split
      · rw [ih]
        exact ((State.Accessed.storePhys ..).trans (.storePhys ..)).tasks
      · rfl

theorem postEvent_tasks (s : State) (die kind tid detail : Nat) (w1 : W64) : (postEvent s die kind tid detail w1).tasks = s.tasks :=
  flushEvents_tasks ..

theorem recTokenDone_keeps (s : State) (r : Launch) : s.KeepsTasks (recTokenDone s r) := by
  unfold recTokenDone
  split
  · exact .retireTok ..
  · exact .refl s

/-- A task that was not killed gives its entry back. -/
theorem finishTask_task {s : State} {tid : Nat} (hk : (s.task tid).kill = none) :
    (finishTask s tid).task tid = { Task.init with frb := (s.task tid).frb, fstr := (s.task tid).fstr, segb := (s.task tid).segb } := by
  unfold finishTask
  simp only [hk, Option.isSome_none, Bool.false_eq_true, if_false]
  rw [State.task, postEvent_tasks, ← State.task, State.task_setTask_same]

/-- The parts of a task that its completion depends on. -/
structure State.Completes (s t : State) (tid : Nat) : Prop where
  words : (t.task tid).words = (s.task tid).words
  kill : (t.task tid).kill = (s.task tid).kill
  replay : (t.task tid).replay = (s.task tid).replay
  place : (t.task tid).frb = (s.task tid).frb ∧ (t.task tid).fstr = (s.task tid).fstr ∧ (t.task tid).segb = (s.task tid).segb

theorem State.Completes.refl (s : State) (tid : Nat) : s.Completes s tid := ⟨rfl, rfl, rfl, rfl, rfl, rfl⟩

theorem State.Completes.trans {s t u : State} {tid : Nat} (h : s.Completes t tid) (k : t.Completes u tid) : s.Completes u tid :=
  ⟨k.words.trans h.words, k.kill.trans h.kill, k.replay.trans h.replay, k.place.1.trans h.place.1, k.place.2.1.trans h.place.2.1,
    k.place.2.2.trans h.place.2.2⟩

theorem State.KeepsTasks.completes {s t : State} (h : s.KeepsTasks t) (tid : Nat) : s.Completes t tid := by
  constructor <;> rw [h.task tid]
  exact ⟨rfl, rfl, rfl⟩

theorem State.Completes.modTask (s : State) (tid : Nat) {f : Task → Task}
    (hf : ∀ t, f t = { t with released := (f t).released, counted := (f t).counted }) : s.Completes (s.modTask tid f) tid := by
  constructor <;> rw [State.task_modTask_same, hf]
  exact ⟨rfl, rfl, rfl⟩

theorem retireTask_completes {s : State} {tid : Nat} (hk : (s.task tid).kill = none) (ha : (s.task tid).aud = false) :
    ∃ t, retireTask s tid = some t ∧ s.Completes t tid := by
  unfold retireTask
  dsimp only
  split
  · exact ⟨s, rfl, .refl s tid⟩
  · simp only [hk, ha, Option.isSome_none, Bool.false_eq_true, if_false, Bool.and_false, Option.map_some]
    refine ⟨_, rfl, ?_⟩
    have flushed (l : List (Nat × Context)) : (l.foldl (fun s p => flushStores s p.1) s).tasks = s.tasks :=
      foldl_tasks (fun s p => (flushStores_flushed s p.1).tasks) l s
    have released := (State.KeepsTasks.of_tasks (flushed (taskCtxs s tid))).trans (releaseTask_keeps _ tid)
    exact ((released.completes tid).trans (.modTask _ tid fun _ => rfl)).trans ((State.KeepsTasks.of_tasks (State.Accessed.raise ..).tasks).completes tid)

theorem completeTask_task {s : State} {tid : Nat} (may : mayComplete s tid = true) (hk : (s.task tid).kill = none) (hr : (s.task tid).replay = none)
    (ha : (s.task tid).aud = false) (hc : recCaddr (s.task tid).words = 0) :
    (completeTask s tid).task tid = { Task.init with frb := (s.task tid).frb, fstr := (s.task tid).fstr, segb := (s.task tid).segb } := by
  obtain ⟨t, ht, done⟩ := retireTask_completes hk ha
  have counted : s.Completes (t.modTask tid (fun t => { t with counted := true })) tid := done.trans (.modTask t tid fun _ => rfl)
  have step : completeTask s tid = finishTask (t.modTask tid (fun t => { t with counted := true })) tid := by
    unfold completeTask
    simp only [may, ht, done.words, hc, Bool.not_true, Bool.false_eq_true, if_false, decide_true, Bool.true_or, if_true]
    unfold settleTask
    dsimp only
    rw [counted.replay, hr]
  rw [step, finishTask_task (counted.kill.trans hk), counted.place.1, counted.place.2.1, counted.place.2.2]

/-! ### Saving (R325 to R328) -/

/-- A frame holds the registers of a context, and its place. -/
structure Frame.Holds (f : Frame) (x : Context) : Prop where
  regs : SameRegisters x f.ctx
  handle : f.ctx.handle = x.handle
  pc : f.ctx.pc = x.pc

theorem makeFrame_holds {s : State} {c : Nat} {x : Context} (h : x.Woken (s.ctx c)) : (makeFrame s c).Holds x := by
  have same := h.same
  constructor
  · constructor <;> simp only [makeFrame] <;> rw [same]
  · simp only [makeFrame]
    rw [same]
  · simp only [makeFrame]
    rw [same]

theorem State.setBad_parts (s : State) (pa : Nat) (b : Bool) : (s.setBad pa b).ctxs = s.ctxs ∧ (s.setBad pa b).frames = s.frames := ⟨rfl, rfl⟩

/-- What a save leaves of the contexts and of the frames while it writes: watches that its stores meet are lifted. -/
structure State.Writes (s t : State) : Prop where
  ctx : ∀ c, (s.ctx c).Woken (t.ctx c)
  frames : t.frames = s.frames

theorem State.Writes.refl (s : State) : s.Writes s := ⟨fun _ => .refl _, rfl⟩

theorem State.Writes.trans {s t u : State} (h : s.Writes t) (k : t.Writes u) : s.Writes u :=
  ⟨fun c => (h.ctx c).trans (k.ctx c), k.frames.trans h.frames⟩

theorem State.Writes.of_eq {s t : State} (hc : t.ctxs = s.ctxs) (hf : t.frames = s.frames) : s.Writes t :=
  ⟨fun c => .inl (by rw [State.ctx, hc, State.ctx]), hf⟩

theorem State.Accessed.writes {s t : State} (h : s.Accessed t) : s.Writes t := ⟨h.ctx, by rw [h.rest]⟩

theorem State.Writes.foldl {α : Type} {f : State → α → State} (hf : ∀ (s : State) x, s.Writes (f s x)) (l : List α) :
    ∀ s : State, s.Writes (l.foldl f s) := by
  induction l with
  | nil => exact State.Writes.refl
  | cons x r ih => exact fun s => (hf s x).trans (ih _)

theorem State.Writes.flushEvents (n : Nat) : ∀ (s : State) (die : Nat), s.Writes (flushEvents s die n) := by
  induction n with
  | zero => exact fun s _ => .refl s
  | succ n ih =>
    intro s die
    unfold Machine.flushEvents
    split
    · exact .refl s
    · dsimp only
      split
      · refine .trans ?_ (ih _ _)
        exact ((State.Accessed.storePhys ..).trans (.storePhys ..)).writes.trans (.of_eq rfl rfl)
      · exact .refl s

theorem State.Writes.postEvent (s : State) (die kind tid detail : Nat) (w1 : W64) : s.Writes (postEvent s die kind tid detail w1) :=
  (State.Writes.of_eq rfl rfl : s.Writes (s.modDie die _)).trans (.flushEvents ..)

/-- The state in which the frame of a context has been made. -/
def framed (s : State) (c : Nat) : State :=
  { s with frames := SMap.put (SMap.del s.frames (frameKey (s.ctx c).tid (s.ctx c).rank)) (frameKey (s.ctx c).tid (s.ctx c).rank) (makeFrame s c) }

theorem writeFrame_writes (s : State) (c : Nat) : (framed s c).Writes (writeFrame s c) := by
  have free (n : Nat) : (framed s c).Writes { framed s c with free := s.free + n } := .of_eq rfl rfl
  unfold writeFrame
  dsimp only
  split
  · exact free _
  · refine ((free _).trans (.foldl (fun s j => (State.Accessed.storePhys ..).writes) _ _)).trans (.foldl (fun s o => ?_) _ _)
    split
    · exact .of_eq rfl rfl
    · exact .refl s

theorem frameKey_inj {tid r1 r2 : Nat} (h : frameKey tid r1 = frameKey tid r2) : r1 = r2 := Nat.add_left_cancel h

theorem framed_ctx (s : State) (c e : Nat) : (framed s c).ctx e = s.ctx e := rfl

theorem framed_frame_same {s : State} {c tid rank : Nat} (ht : (s.ctx c).tid = tid) (hr : (s.ctx c).rank = rank) :
    (framed s c).frame tid rank = makeFrame s c := by
  rw [State.frame, framed, ht, hr]
  exact SMap.get_put_same ..

theorem framed_frame_ne {s : State} {c tid rank : Nat} (ht : (s.ctx c).tid = tid) (hr : (s.ctx c).rank ≠ rank) :
    (framed s c).frame tid rank = s.frame tid rank := by
  have ne : frameKey tid rank ≠ frameKey tid (s.ctx c).rank := fun h => hr (frameKey_inj h).symm
  rw [State.frame, framed, ht]
  exact (SMap.get_put_ne _ _ _ ne).trans (SMap.get_del_ne _ _ ne)

theorem State.Writes.frame {s t : State} (h : s.Writes t) (tid rank : Nat) : t.frame tid rank = s.frame tid rank := by
  rw [State.frame, h.frames, State.frame]

/-- The frames of a task's contexts are written, one after another. -/
theorem writeFrames {tid : Nat} (l : List (Nat × Context)) : ∀ s : State, (∀ p ∈ l, p.2.Woken (s.ctx p.1) ∧ p.2.tid = tid) →
    (∀ e, (s.ctx e).Woken (((l.map Prod.fst).foldl writeFrame s).ctx e)) ∧
    (∀ rank, rank ∉ l.map (fun p => p.2.rank) → ((l.map Prod.fst).foldl writeFrame s).frame tid rank = s.frame tid rank) ∧
    ((l.map (fun p => p.2.rank)).Nodup → ∀ p ∈ l, (((l.map Prod.fst).foldl writeFrame s).frame tid p.2.rank).Holds p.2) := by
  induction l with
  | nil => exact fun s _ => ⟨fun e => .refl _, fun rank _ => rfl, fun _ p hp => absurd hp List.not_mem_nil⟩
  | cons q r ih =>
    intro s h
    have hq := h q List.mem_cons_self
    have tid_q : (s.ctx q.1).tid = tid := by rw [hq.1.same, hq.2]
    have rank_q : (s.ctx q.1).rank = q.2.rank := by rw [hq.1.same]
    have wrote := writeFrame_writes s q.1
    have ctx (e : Nat) : (s.ctx e).Woken ((writeFrame s q.1).ctx e) := wrote.ctx e
    obtain ⟨later, others, holds⟩ := ih (writeFrame s q.1) fun p hp =>
      ⟨(h p (List.mem_cons_of_mem _ hp)).1.trans (ctx p.1), (h p (List.mem_cons_of_mem _ hp)).2⟩
    simp only [List.map_cons, List.foldl_cons, List.mem_cons, not_or, List.nodup_cons]
    refine ⟨fun e => (ctx e).trans (later e), fun rank hr => ?_, fun distinct p hp => ?_⟩
    · rw [others rank hr.2, wrote.frame, framed_frame_ne tid_q (by rw [rank_q]; exact fun e => hr.1 e.symm)]
    · obtain rfl | hp := hp
      · rw [others _ distinct.1, wrote.frame, framed_frame_same tid_q rank_q]
        exact makeFrame_holds hq.1
      · exact holds distinct.2 p hp

theorem leaveSlot_ctx (s : State) (c e : Nat) : (leaveSlot s c).ctx e = if e = c then Context.init else s.ctx e := by
  have left : (leaveSlot s c).ctx e = (s.setCtx c Context.init).ctx e := rfl
  rw [left]
  split
  · next h => rw [h, State.ctx_setCtx_same]
  · next h => rw [State.ctx_setCtx_ne _ _ h]

/-- The contexts that leave their slots are UNBOUND, with everything at its initial value. -/
theorem leaveSlots_ctx (l : List Nat) : ∀ (s : State) (e : Nat), (l.foldl leaveSlot s).ctx e = if e ∈ l then Context.init else s.ctx e := by
  induction l with
  | nil => exact fun s e => by simp
  | cons c r ih =>
    intro s e
    rw [List.foldl_cons, ih, leaveSlot_ctx]
    by_cases h : e = c <;> simp [h]

theorem leaveSlots_frames (l : List Nat) : ∀ s : State, (l.foldl leaveSlot s).frames = s.frames := by
  induction l with
  | nil => exact fun _ => rfl
  | cons c r ih => exact fun s => (ih _).trans rfl

theorem leaveCore_writes (s : State) (g tid : Nat) : s.Writes (leaveCore s g tid) := by
  unfold leaveCore
  split
  · exact .of_eq rfl rfl
  · split
    · exact .of_eq rfl rfl
    · exact .refl s

/-- What follows the writing of the frames (R325). -/
def savedTask (s : State) (tid : Nat) (cs : List Nat) (t : Task) : State :=
  let s := cs.foldl leaveSlot s
  let s := ((cs.map coreOf).eraseDups).foldl (fun s g => leaveCore s g tid) s
  let s := (dropBindRecs s tid).modTask tid (fun t => { t with state := 4, saving := none })
  postEvent s t.die 4 tid (t.saving.getD 1) 0

theorem savedTask_task (s : State) (tid : Nat) (cs : List Nat) (t : Task) :
    ((savedTask s tid cs t).task tid).state = 4 ∧ ((savedTask s tid cs t).task tid).saving = none := by
  unfold savedTask
  dsimp only
  rw [State.task, postEvent_tasks, ← State.task, State.task_modTask_same]
  exact ⟨rfl, rfl⟩

theorem savedTask_writes (s : State) (tid : Nat) (cs : List Nat) (t : Task) : (cs.foldl leaveSlot s).Writes (savedTask s tid cs t) := by
  have cores (l : List Nat) (u : State) : u.Writes (l.foldl (fun s g => leaveCore s g tid) u) := .foldl (fun s g => leaveCore_writes s g tid) l u
  have entry (u : State) : u.Writes ((dropBindRecs u tid).modTask tid (fun t => { t with state := 4, saving := none })) := .of_eq rfl rfl
  exact ((cores _ _).trans (entry _)).trans (.postEvent ..)

/-- The state in which the frames are written: with the stores and the scratchpad writes of the task's contexts performed, and its packets bound. -/
def quieted (s : State) (tid : Nat) (cs : List Nat) : State :=
  let s := cs.foldl flushStores s
  let s := cs.foldl (fun s c => s.modCore (coreOf c) performSpAll) s
  s.mapPackets (fun p => { p with bounds := p.bounds ++ frameBounds s tid p })

theorem quieted_writes {s : State} {cs : List Nat} (tid : Nat) (none : ∀ c ∈ cs, (s.ctx c).stores = []) : s.Writes (quieted s tid cs) := by
  have flushed : cs.foldl flushStores s = s := by
    induction cs with
    | nil => rfl
    | cons c r ih =>
      rw [List.foldl_cons, flushStores_none (none c List.mem_cons_self)]
      exact ih fun c hc => none c (List.mem_cons_of_mem _ hc)
  have performed (u : State) : u.Writes (cs.foldl (fun s c => s.modCore (coreOf c) performSpAll) u) :=
    .foldl (f := fun s c => s.modCore (coreOf c) performSpAll) (fun s c => .of_eq rfl rfl) cs u
  unfold quieted
  dsimp only
  rw [flushed]
  exact (performed s).trans (.of_eq rfl rfl)

theorem saveStep_saves {s : State} {tid : Nat} (h3 : (s.task tid).state = 3) (ready : saveReady s tid = true) :
    saveStep s tid = savedTask (((taskCtxs s tid).map Prod.fst).foldl writeFrame (quieted s tid ((taskCtxs s tid).map Prod.fst))) tid
      ((taskCtxs s tid).map Prod.fst) (s.task tid) := by
  unfold saveStep
  dsimp only
  rw [if_neg (by simp [h3, ready])]
  rfl

theorem taskCtxs_tid {s : State} {tid : Nat} {p : Nat × Context} (h : p ∈ taskCtxs s tid) : p.2.tid = tid := by
  simpa using (List.mem_filter.1 h).2

/-- Every context of a task that has been saved is UNBOUND, and its frame holds its registers. -/
theorem saveStep_frames {s : State} {tid : Nat} (h3 : (s.task tid).state = 3) (ready : saveReady s tid = true)
    (table : ∀ p ∈ taskCtxs s tid, s.ctx p.1 = p.2 ∧ p.2.stores = []) (ranks : ((taskCtxs s tid).map (fun p => p.2.rank)).Nodup) :
    ∀ p ∈ taskCtxs s tid, (saveStep s tid).ctx p.1 = Context.init ∧ ((saveStep s tid).frame tid p.2.rank).Holds p.2 := by
  intro p hp
  have quiet : s.Writes (quieted s tid ((taskCtxs s tid).map Prod.fst)) := by
    refine quieted_writes tid fun c hc => ?_
    obtain ⟨q, hq, rfl⟩ := List.mem_map.1 hc
    rw [(table q hq).1]
    exact (table q hq).2
  obtain ⟨-, -, holds⟩ := writeFrames (taskCtxs s tid) (quieted s tid ((taskCtxs s tid).map Prod.fst)) fun q hq =>
    ⟨by rw [← (table q hq).1]; exact quiet.ctx q.1, taskCtxs_tid hq⟩
  rw [saveStep_saves h3 ready]
  have last := savedTask_writes (((taskCtxs s tid).map Prod.fst).foldl writeFrame (quieted s tid ((taskCtxs s tid).map Prod.fst))) tid
    ((taskCtxs s tid).map Prod.fst) (s.task tid)
  constructor
  · have left := last.ctx p.1
    rw [leaveSlots_ctx, if_pos (List.mem_map_of_mem hp)] at left
    exact left.unwatched rfl
  · rw [last.frame, State.frame, leaveSlots_frames, ← State.frame]
    exact holds ranks p hp

/-- Settles O53: the commands by what `perform` does with each, a save by the frames that it writes (`writeFrames`), a completion by what the
task keeps until its entry is given back (`completeTask_task`). -/
theorem dispatchCommands : Obligations.DispatchCommands := by
  unfold Obligations.DispatchCommands
  intro s die tid
  refine ⟨fun q l hq he => ?commands, fun k q n r u hq ha hr hc hu h2 => ?armed, fun h3 => ⟨fun wait => ?waits, fun ready => ?saves⟩,
    fun may h2 hk hr ha hc => ⟨_, rfl, completeTask_task may hk hr ha hc⟩⟩
  case commands =>
    intro k ends
    have head := perform_head hq he
    refine ⟨fun h => ?_, fun h y hy => ?_, fun h => ?_, fun h => ?_, fun h => ?_, fun h core active => ?_, fun h => ?_, endCmd_die hq⟩ <;> rw [h] at head
    · exact ⟨fun none => congrArg stepDone (head.trans (doBind_unnamed none)), fun r hr hc => congrArg stepDone (head.trans (doBind_refused hr hc)),
        fun r u hr hc hu done => congrArg stepDone (head.trans (doBind_goes hr hc hu done))⟩
    · exact ⟨fun ha h0 => congrArg stepDone (head.trans (doArm_goes hy ha h0)), fun no => congrArg stepDone (head.trans (doArm_refused hy no))⟩
    · refine ⟨fun h2 => ⟨congrArg stepDone (head.trans (if_pos (.inl h2))), (State.beginSave_bound h2).2⟩, fun h3 now => ?_, fun h2 late => ?_⟩
      · refine congrArg stepDone (head.trans ((if_pos (.inr ⟨h3, now⟩)).trans ?_))
        rw [beginSave_again h3]
      · exact congrArg stepDone (head.trans (if_neg (by simp only [k] at h2 late; omega)))
    · refine ⟨fun hc => congrArg stepDone (head.trans (if_pos hc)), fun hc reach clean => ?_⟩
      have goes := head.trans (doRestore_goes hc reach)
      refine ⟨fun whole => ⟨congrArg stepDone goes, restoreGo_task clean whole⟩, fun broken => congrArg stepDone (goes.trans ?_)⟩
      rw [restoreGo_broken clean broken]
    · refine ⟨fun may => ⟨congrArg stepDone (head.trans (if_pos may)), State.beginKill_task may⟩, fun h2 h3 h4 => ?_⟩
      exact congrArg stepDone (head.trans (if_neg (by simp only [k] at h2 h3 h4; omega)))
    · refine congrArg stepDone (head.trans ?_)
      have yields : q.arg % 512 < 320 ∧ (s.core (q.arg % 512)).active.isSome = true := ⟨core, Option.isSome_iff_ne_none.2 active⟩
      simp only [doYield, yields, and_self, if_true]
    · refine ⟨fun none => congrArg stepDone (head.trans ?_), fun r hr => congrArg stepDone (head.trans ?_)⟩
      · simp only [doCancel, cancelRec, none]
      · simp only [doCancel, cancelRec, hr]
  case armed =>
    refine congrArg stepDone ?_
    unfold armedBind
    simp only [hq, ha, hr, hc, hu, h2, ne_eq, not_true_eq_false, if_false, if_true]
  case waits => exact congrArg stepDone (if_pos (.inr wait))
  case saves =>
    refine ⟨saveStep s tid, rfl, ?_, ?_, fun table ranks p hp => ?_⟩
    · rw [saveStep_saves h3 ready]
      exact (savedTask_task ..).1
    · rw [saveStep_saves h3 ready]
      exact (savedTask_task ..).2
    · obtain ⟨init, holds⟩ := saveStep_frames h3 ready table ranks p hp
      exact ⟨init, holds.regs, holds.handle, holds.pc⟩

end Sys2Proof.Machine

/-! ## Reliability, links and ports (17_reliability.md R374 to R379, R389 to R392, 18_host.md R397) -/

namespace Sys2Proof.Machine

/-! ### Poison -/

theorem State.badAt_word (s : State) (w : Nat) : s.badAt (8 * w) 8 = SMap.get false s.memPoison w := by
  have one : (8 * w + 8 - 1) / 8 + 1 - 8 * w / 8 = 1 := by omega
  have place : 8 * w / 8 = w := by omega
  rw [State.badAt, one, place]
  simp

theorem State.badAt_setBad (s : State) (w : Nat) (b : Bool) : (s.setBad (8 * w) b).badAt (8 * w) 8 = b := by
  have place : 8 * w / 8 = w := by omega
  rw [State.badAt_word, State.setBad, place]
  exact SMap.get_set_same ..

theorem State.badAt_modDie (s : State) (d : Nat) (f : Die → Die) (a n : Nat) : (s.modDie d f).badAt a n = s.badAt a n := rfl

/-- What a poisoning notes on its die (R376, R379). -/
theorem countPoison_die (s : State) (die : Nat) (addr : W64) :
    ((countPoison s die addr).die die).ecntu = ((s.die die).ecntu + 1) % 2 ^ 32 ∧ ((countPoison s die addr).die die).elast = addr := by
  rw [countPoison, State.die_modDie_same]
  exact ⟨rfl, rfl⟩

/-- A word of memory is poisoned. -/
theorem poisonMem_marks {s : State} {die w va : Nat} (h : s.badAt (8 * w) 8 = false) :
    (poisonMem s die (8 * w) va).badAt (8 * w) 8 = true ∧ ((poisonMem s die (8 * w) va).die die).ecntu = ((s.die die).ecntu + 1) % 2 ^ 32 ∧
    (∀ a, a < 8 * w ∨ 8 * w + 8 ≤ a → (poisonMem s die (8 * w) va).byte a = s.byte a) ∧ ((poisonMem s die (8 * w) va).die die).elast = vaWord va := by
  have marks : poisonMem s die (8 * w) va = countPoison (((s.drawFree 61).2.writeN (8 * w) 8 (s.drawFree 61).1).setBad (8 * w) true) die (vaWord va) :=
    if_neg (by simp [h])
  have dies : (((s.drawFree 61).2.writeN (8 * w) 8 (s.drawFree 61).1).setBad (8 * w) true).dies = s.dies := State.writeN_dies ..
  obtain ⟨count, last⟩ := countPoison_die (((s.drawFree 61).2.writeN (8 * w) 8 (s.drawFree 61).1).setBad (8 * w) true) die (vaWord va)
  rw [marks]
  refine ⟨(State.badAt_modDie ..).trans (State.badAt_setBad ..), ?_, fun a ha => State.byte_writeN_out 8 _ _ _ a ha, last⟩
  rw [count, State.die, dies, State.die]

section
variable {s : State} {die unit w : Nat}

theorem poisoning_memory (none : s.l1fOf (8 * w) = none) (hw : 8 * w < memBytes) (home : homeDie (8 * w) = die) :
    ∃ page, poisoning s die 0 unit w = poisonMem (s.drawFree 62).2 die (8 * w) (s.vaOf (8 * w) page) := by
  refine ⟨(s.drawFree 62).1, ?_⟩
  unfold poisoning
  simp only [none, if_true]
  exact if_neg (by omega)

theorem poisoning_fused {g : Segment} {off : Nat} (hg : s.l1fOf (8 * w) = some (g, off)) (home : g.cluster / 20 = die) :
    poisoning s die 0 unit w = poisonMem s die (8 * w) (g.base + off) := by
  unfold poisoning
  simp only [hg, home, if_true]

end

theorem Core.bad_setBad_same (g : Core) (space p : Nat) (b : Bool) : (g.setBad space p b).bad space p = b := SMap.get_set_same ..

/-- A mark leaves what is marked marked. -/
theorem Core.bad_setBad_true {g : Core} {sp q : Nat} (h : g.bad sp q = true) (space p : Nat) : (g.setBad space p true).bad sp q = true := by
  by_cases he : poisonKey sp q = poisonKey space p
  · rw [Core.bad, he]
    exact SMap.get_set_same false g.poison (poisonKey space p) true
  · exact (SMap.get_set_ne false g.poison true he).trans h

theorem Core.bad_foldl_setBad (space : Nat) (f : Nat → Nat) (l : List Nat) : ∀ g : Core,
    (∀ sp q, g.bad sp q = true → (l.foldl (fun g k => g.setBad space (f k) true) g).bad sp q = true) ∧
    ∀ k ∈ l, (l.foldl (fun g k => g.setBad space (f k) true) g).bad space (f k) = true := by
  induction l with
  | nil => exact fun g => ⟨fun _ _ h => h, fun k hk => absurd hk List.not_mem_nil⟩
  | cons k r ih =>
    intro g
    obtain ⟨keeps, marks⟩ := ih (g.setBad space (f k) true)
    refine ⟨fun sp q h => keeps sp q (Core.bad_setBad_true h _ _), fun j hj => ?_⟩
    rw [List.mem_cons] at hj
    obtain rfl | hj := hj
    · exact keeps _ _ (Core.bad_setBad_same ..)
    · exact marks j hj

/-! What a word of each store is marked by (R374, R376). -/

theorem Core.poisonWord_scratchpad (g : Core) (w v : Nat) : (g.poisonWord 1 w v).bad 1 w = true := Core.bad_setBad_same g 1 w true

theorem Core.poisonWord_tile (g : Core) (w v : Nat) : (g.poisonWord 2 w v).bad 2 w = true := Core.bad_setBad_same g 2 w true

theorem Core.poisonWord_latch (g : Core) (w v : Nat) : ∀ e ∈ (latchWord g (w / 2048) (w % 2048)).2,
    (g.poisonWord 3 w v).bad 3 (latPlace (w / 2048) (latchWord g (w / 2048) (w % 2048)).1 e) = true :=
  (Core.bad_foldl_setBad 3 (latPlace (w / 2048) (latchWord g (w / 2048) (w % 2048)).1) (latchWord g (w / 2048) (w % 2048)).2 g).2

theorem Core.poisonWord_accumulator (g : Core) {w : Nat} (v : Nat) (hw : w < 65536) :
    (g.poisonWord 4 w v).bad 4 (2 * w) = true ∧ (g.poisonWord 4 w v).bad 4 (2 * w + 1) = true := by
  unfold Core.poisonWord
  dsimp only
  rw [Nat.mod_eq_of_lt (show 2 * w < 131072 by omega), Nat.mod_eq_of_lt (show 2 * w + 1 < 131072 by omega)]
  exact ⟨Core.bad_setBad_true (Core.bad_setBad_same ..) _ _, Core.bad_setBad_same ..⟩

theorem Core.poisonWord_table (g : Core) (w v : Nat) : ∀ j < 4, (g.poisonWord 6 w v).bad 6 (4 * w + j) = true := by
  intro j hj
  have marks := (Core.bad_foldl_setBad 6 (fun j => 4 * w + j) (List.range 4) g).2 j (List.mem_range.2 hj)
  have same : (g.poisonWord 6 w v).poison = ((List.range 4).foldl (fun g j => g.setBad 6 (4 * w + j) true) g).poison := rfl
  rw [Core.bad, same]
  exact marks

section
variable {s : State} {die unit space w : Nat}

/-- What a poisoning of a core's store notes, with a value that is a free one. -/
theorem poisoning_core (h0 : space ≠ 0) (h5 : space ≠ 5) (hu : unit < 320) (hd : dieOf unit = die) (hw : w < spaceWords space)
    (clean : (s.core unit).wordPoisoned space w = false) : ∃ v, (poisoning s die space unit w).core unit = (s.core unit).poisonWord space w v ∧
    s.SameMemory (poisoning s die space unit w) ∧ ((poisoning s die space unit w).die die).ecntu = ((s.die die).ecntu + 1) % 2 ^ 32 ∧
    ((poisoning s die space unit w).die die).elast = localAddr space unit (8 * w) := by
  refine ⟨(s.drawFree 63).1, ?_⟩
  have marks : poisoning s die space unit w = countPoison ((s.drawFree 63).2.modCore unit (fun g => g.poisonWord space w (s.drawFree 63).1)) die
      (localAddr space unit (8 * w)) := by
    unfold poisoning
    rw [if_neg h0, if_neg (by omega), if_neg h5, if_neg (by simp [clean]; omega)]
  obtain ⟨count, last⟩ := countPoison_die ((s.drawFree 63).2.modCore unit (fun g => g.poisonWord space w (s.drawFree 63).1)) die (localAddr space unit (8 * w))
  rw [marks]
  exact ⟨State.core_modCore_same (s.drawFree 63).2 unit (fun g => g.poisonWord space w (s.drawFree 63).1), fun a => rfl, count, last⟩

theorem poisoning_entry {e : QEntry} (hu : unit < 320) (hd : dieOf unit = die) (he : ((s.core unit).queue (w / 16)).entries[w % 16]? = some e)
    (clean : e.poison = false) : ∃ v, ((poisoning s die 5 unit w).core unit).queue (w / 16) =
      { (s.core unit).queue (w / 16) with entries := ((s.core unit).queue (w / 16)).entries.set (w % 16) { e with poison := true, val := v } } ∧
    s.SameMemory (poisoning s die 5 unit w) ∧ ((poisoning s die 5 unit w).die die).ecntu = ((s.die die).ecntu + 1) % 2 ^ 32 ∧
    ((poisoning s die 5 unit w).die die).elast = localAddr 5 unit w := by
  refine ⟨BitVec.ofNat 2048 (s.drawFree 60).1, ?_⟩
  let put (g : Core) : Core := g.setQueue (w / 16)
    { (s.core unit).queue (w / 16) with
      entries := ((s.core unit).queue (w / 16)).entries.set (w % 16) { e with poison := true, val := BitVec.ofNat 2048 (s.drawFree 60).1 } }
  have marks : poisoning s die 5 unit w = countPoison ((s.drawFree 60).2.modCore unit put) die (localAddr 5 unit w) := by
    have entry : (SMap.get Queue.init (s.core unit).queues (w / 16)).entries[w % 16]? = some e := he
    unfold poisoning poisonEntry
    rw [if_neg (by decide), if_neg (by omega), if_pos rfl]
    simp only [entry, clean, Bool.false_eq_true, if_false]
    rfl
  obtain ⟨count, last⟩ := countPoison_die ((s.drawFree 60).2.modCore unit put) die (localAddr 5 unit w)
  rw [marks]
  refine ⟨?_, fun a => rfl, count, last⟩
  refine (congrArg (Core.queue · (w / 16)) (State.core_modCore_same (s.drawFree 60).2 unit put)).trans ?_
  exact Core.queue_setQueue ..

end

/-! ### Links and ports -/

theorem State.link_modLink_ne (s : State) {n m : Nat} (f : Link → Link) (h : m ≠ n) : (s.modLink n f).link m = s.link m := SMap.get_set_ne _ _ _ h

theorem State.link_modDie (s : State) (d : Nat) (f : Die → Die) (n : Nat) : (s.modDie d f).link n = s.link n := rfl

theorem State.die_modLink (s : State) (n : Nat) (f : Link → Link) (d : Nat) : (s.modLink n f).die d = s.die d := rfl

/-- A link is changed as its present state says. -/
theorem State.modLink_congr {s : State} {n : Nat} {f g : Link → Link} (h : f (s.link n) = g (s.link n)) : s.modLink n f = s.modLink n g := by
  rw [State.modLink, h, State.modLink]

theorem noteAllDown_elast {s : State} {die : Nat} (hd : die < 2) (h : ∀ m, m < 48 → (s.link m).state = 0) :
    ((noteAllDown s).die die).elast = BitVec.allOnes 64 := by
  have down : (List.range 48).all (fun n => (s.link n).state == 0) = true := by
    rw [List.all_eq_true]
    exact fun m hm => by simp [h m (List.mem_range.1 hm)]
  unfold noteAllDown
  rw [if_pos down]
  obtain rfl | rfl : die = 0 ∨ die = 1 := by omega
  · rw [State.die_modDie_ne _ _ (by decide), State.die_modDie_same]
  · rw [State.die_modDie_same]

section
variable {s : State} {n lane : Nat}

theorem laneFail_loses (hn : n < 60) (hl : lane < 8) (up : (s.link n).state ≠ 0) (has : lane / 4 ∉ (s.link n).lost) :
    let u := s.modLink n (fun _ => { s.link n with lost := lane / 4 :: (s.link n).lost, state := if (s.link n).lost = [] then 3 else 0 })
    laneFail s n lane = if n < 48 ∧ (s.link n).lost ≠ [] then noteAllDown u else u := by
  intro u
  have trained : Link.trained { s.link n with lost := lane / 4 :: (s.link n).lost } = 0 ↔ (s.link n).lost ≠ [] := by
    cases (s.link n).lost with
    | nil => simp [Link.trained]
    | cons x r => simp [Link.trained]
  have state : (if Link.trained { s.link n with lost := lane / 4 :: (s.link n).lost } = 0 then 0 else 3) = if (s.link n).lost = [] then 3 else 0 := by
    by_cases h : (s.link n).lost = []
    · rw [if_pos h, if_neg (by rw [trained]; exact fun k => k h)]
    · rw [if_neg h, if_pos (trained.2 h)]
  unfold laneFail
  dsimp only
  rw [if_neg (by simp [has, up]; omega), state]
  simp only [trained]
  rfl

theorem linkTrained_die (hn : n < 48) (ht : (s.link n).state = 3) (on : s.linkOn n = true) :
    linkTrained s n = noteAllDown (s.modLink n (fun l => { l with state := 2 - (s.link n).lost.length })) := by
  unfold linkTrained
  dsimp only
  rw [if_neg (by simp [ht, on]; omega), if_pos hn]
  exact congrArg noteAllDown (State.modLink_congr rfl)

theorem linkTrained_port (hn : n < 64) (h48 : 48 ≤ n) (ht : (s.link n).state = 3) (on : s.linkOn n = true) :
    ((s.drawFree 65).1 % 2 = 1 → linkTrained s n = { s.modLink n (fun l => { l with state := 0 }) with free := s.free + 1 }) ∧
    (n < 60 → (s.drawFree 65).1 % 2 = 0 →
      linkTrained s n = { s.modLink n (fun l => { l with state := 2 - (s.link n).lost.length }) with free := s.free + 1 }) ∧
    (60 ≤ n → (s.drawFree 65).1 % 2 = 0 → ((linkTrained s n).link n).state = 2 ∧
      (n < 62 → ((linkTrained s n).die (n - 60)).hspeed ∈ [4, 5, 6] ∧ ((linkTrained s n).die (n - 60)).hwidth ∈ [2, 3, 4]) ∧
      (62 ≤ n → ((linkTrained s n).die (n - 62)).sspeed ∈ [3, 4, 5])) := by
  have goes : ¬ (64 ≤ n ∨ (s.link n).state ≠ 3 ∨ s.linkOn n = false) := by simp [ht, on]; omega
  unfold linkTrained
  dsimp only
  rw [if_neg goes, if_neg (by omega : ¬ n < 48)]
  refine ⟨fun h => if_pos h, fun h60 h => ?_, fun h60 h => ?_⟩
  · rw [if_neg (by omega), if_pos h60]
    rfl
  · rw [if_neg (by omega), if_neg (by omega)]
    by_cases h62 : n < 62
    · rw [if_pos h62, State.link_modDie, State.link_modLink_same, State.die_modDie_same]
      refine ⟨rfl, fun _ => ⟨?_, ?_⟩, fun h => absurd h (by omega)⟩
      all_goals simp only [List.mem_cons, List.not_mem_nil, or_false]; omega
    · rw [if_neg h62, State.link_modDie, State.link_modLink_same, State.die_modDie_same]
      refine ⟨rfl, fun h => absurd h h62, fun _ => ?_⟩
      simp only [List.mem_cons, List.not_mem_nil, or_false]
      omega

end

theorem portEnable_same (s : State) (n : Nat) (on : Bool) : portEnable s n on on = s := if_pos (by simp)

theorem portEnable_flip (s : State) (n : Nat) (on : Bool) : ((portEnable s n (!on) on).link n).state = if on then 3 else 0 := by
  cases on with
  | false => exact congrArg Link.state (State.link_modLink_same s n (fun l => { l with state := 0, lost := [] }))
  | true => exact congrArg Link.state (State.link_modLink_same s n (fun l => { l with state := 3 }))

/-- An enable or a disable of a port changes its link alone. -/
theorem portEnable_rest (s : State) (n : Nat) (was on : Bool) : (∀ d, (portEnable s n was on).die d = s.die d) ∧
    (∀ p, (portEnable s n was on).linkOn p = s.linkOn p) ∧ ∀ m, m ≠ n → (portEnable s n was on).link m = s.link m := by
  unfold portEnable portDown
  split
  · exact ⟨fun _ => rfl, fun _ => rfl, fun _ _ => rfl⟩
  · split
    · exact ⟨fun _ => rfl, fun _ => rfl, fun m h => State.link_modLink_ne s _ h⟩
    · exact ⟨fun _ => rfl, fun _ => rfl, fun m h => State.link_modLink_ne s _ h⟩

/-- Of the GFT ports that a write of GFTEN looks at, one whose enable bit has changed begins training, or goes down. -/
theorem portEnables_link (was on : Nat → Bool) {k : Nat} (l : List Nat) : ∀ s : State, (∀ p, s.linkOn (48 + p) = on p) → l.Nodup →
    (∀ p ∈ l, p ≠ k → was p = on p) → was k = !on k →
      let t := l.foldl (fun s p => portEnable s (48 + p) (was p) (s.linkOn (48 + p))) s
      (∀ d, t.die d = s.die d) ∧ (k ∈ l → (t.link (48 + k)).state = if on k then 3 else 0) ∧ (k ∉ l → t.link (48 + k) = s.link (48 + k)) := by
  induction l with
  | nil => exact fun s _ _ _ _ => ⟨fun _ => rfl, fun h => absurd h List.not_mem_nil, fun _ => rfl⟩
  | cons p r ih =>
    intro s hs once same flips
    obtain ⟨hp, once⟩ := List.nodup_cons.1 once
    obtain ⟨dies, ons, others⟩ := portEnable_rest s (48 + p) (was p) (s.linkOn (48 + p))
    obtain ⟨restDies, restIn, restOut⟩ := ih (portEnable s (48 + p) (was p) (s.linkOn (48 + p))) (fun q => (ons _).trans (hs q)) once
      (fun q hq => same q (List.mem_cons_of_mem _ hq)) flips
    refine ⟨fun d => (restDies d).trans (dies d), fun hk => ?_, fun hk => ?_⟩
    · by_cases here : k = p
      · subst here
        rw [List.foldl_cons, restOut hp, hs, flips]
        exact portEnable_flip ..
      · exact restIn ((List.mem_cons.1 hk).resolve_left here)
    · obtain ⟨here, hk⟩ := not_or.1 (fun h => hk (List.mem_cons.2 h))
      exact (restOut hk).trans (others _ (by omega))

/-- A write of GFTEN that changes whether one port is enabled, and no other. -/
theorem gftWrite_flips {s : State} {die v n : Nat} (hn : n < 12) (t : State)
    (ht : t = s.modDie die (fun d => { d with gften := v % 2 ^ 12 }))
    (others : ∀ p, p < 12 → p ≠ n → t.linkOn (48 + p) = s.linkOn (48 + p)) (flips : s.linkOn (48 + n) = !t.linkOn (48 + n)) :
    ((gftWrite s die v).die die).gften = v % 2 ^ 12 ∧ ((gftWrite s die v).link (48 + n)).state = if t.linkOn (48 + n) then 3 else 0 := by
  let was (p : Nat) : Bool := ((List.range 12).map (fun p => s.linkOn (48 + p))).getD p false
  have old : ∀ p, p < 12 → was p = s.linkOn (48 + p) := fun p hp => by
    simp [was, List.getD_eq_getElem?_getD, List.getElem?_range hp]
  obtain ⟨dies, isIn, -⟩ := portEnables_link was (fun p => t.linkOn (48 + p)) (List.range 12) t (fun _ => rfl) List.nodup_range
    (fun p hp hne => (old p (List.mem_range.1 hp)).trans (others p (List.mem_range.1 hp) hne).symm) ((old n hn).trans flips)
  have writes : gftWrite s die v = (List.range 12).foldl (fun s p => portEnable s (48 + p) (was p) (s.linkOn (48 + p))) t := by
    rw [ht]
    rfl
  rw [writes]
  refine ⟨(congrArg Die.gften (dies die)).trans ?_, isIn (List.mem_range.2 hn)⟩
  rw [ht, State.die_modDie_same]

/-- The enable bits of GFT port p: allowed by the configuration, set by either die, and not in PA3 (R397, R400, R404). -/
theorem State.linkOn_gft (s : State) {p : Nat} (hp : p < 12) :
    s.linkOn (48 + p) = (s.pstate != 3 && s.gftAllowed.testBit p && ((s.die 0).gften.testBit p || (s.die 1).gften.testBit p)) := by
  have h48 : ¬ 48 + p < 48 := by omega
  have h60 : 48 + p < 60 := by omega
  have place : 48 + p - 48 = p := by omega
  rw [State.linkOn, if_neg h48, if_pos h60, place]

/-- The same by a die and its partner. -/
theorem State.linkOn_gft_die (s : State) {p die : Nat} (hp : p < 12) (hd : die < 2) :
    s.linkOn (48 + p) = (s.pstate != 3 && s.gftAllowed.testBit p && ((s.die die).gften.testBit p || (s.die (1 - die)).gften.testBit p)) := by
  rw [s.linkOn_gft hp]
  obtain rfl | rfl : die = 0 ∨ die = 1 := by omega
  · rfl
  · rw [Bool.or_comm (s.die 1 |>.gften.testBit p)]

theorem State.linkOn_gftWrite (s : State) {p die v : Nat} (hp : p < 12) (hd : die < 2) :
    (s.modDie die (fun d => { d with gften := v % 2 ^ 12 })).linkOn (48 + p) =
      (s.pstate != 3 && s.gftAllowed.testBit p && (v.testBit p || (s.die (1 - die)).gften.testBit p)) := by
  have other : 1 - die ≠ die := by omega
  rw [State.linkOn_gft_die _ hp hd, State.die_modDie_same, State.die_modDie_ne _ _ other, Nat.testBit_mod_two_pow]
  simp [hp]

/-- Adding a power of two that a number has not sets that bit and no other. -/
theorem testBit_add_two_pow {x n : Nat} (h : x.testBit n = false) (p : Nat) : (x + 2 ^ n).testBit p = (x.testBit p || decide (p = n)) := by
  have low : x % 2 ^ n < 2 ^ n := Nat.mod_lt _ (Nat.two_pow_pos n)
  have even : x / 2 ^ n % 2 = 0 := by simpa [Nat.testBit, Nat.shiftRight_eq_div_pow] using h
  have parts : x + 2 ^ n = 2 ^ n * (x / 2 ^ n + 1) + x % 2 ^ n := by
    have := Nat.div_add_mod x (2 ^ n)
    rw [Nat.mul_add]
    omega
  rw [parts]
  conv_rhs => rw [← Nat.div_add_mod x (2 ^ n)]
  rw [Nat.testBit_two_pow_mul_add _ low, Nat.testBit_two_pow_mul_add _ low]
  by_cases hp : p < n
  · rw [if_pos hp, if_pos hp, decide_eq_false (by omega), Bool.or_false]
  · rw [if_neg hp, if_neg hp]
    obtain he | ⟨k, hk⟩ : p = n ∨ ∃ k, p - n = k + 1 := by
      by_cases he : p = n
      · exact .inl he
      · exact .inr ⟨p - n - 1, by omega⟩
    · subst he
      rw [Nat.sub_self, Nat.testBit_zero]
      simp
      omega
    · rw [hk, Nat.testBit_succ, Nat.testBit_succ, decide_eq_false (by omega), Bool.or_false]
      exact congrArg (Nat.testBit · k) (by omega)

/-- Taking away a power of two that a number has clears that bit and no other. -/
theorem testBit_sub_two_pow {x n : Nat} (h : x.testBit n = true) (p : Nat) : (x - 2 ^ n).testBit p = (x.testBit p && !decide (p = n)) := by
  have has : 2 ^ n ≤ x := Nat.ge_two_pow_of_testBit h
  have back : x - 2 ^ n + 2 ^ n = x := Nat.sub_add_cancel has
  have gone : (x - 2 ^ n).testBit n = false := by
    have hb := Nat.testBit_two_pow_add_eq (x - 2 ^ n) n
    rw [Nat.add_comm, back, h] at hb
    simpa using hb
  have adds := testBit_add_two_pow gone p
  rw [back] at adds
  rw [adds]
  by_cases he : p = n
  · subst he
    simp [gone]
  · simp [he]

section
variable {s : State} {die n : Nat}

theorem gftPortEnable_on (hd : die < 2) (hn : n < 12) (hp : s.pstate ≠ 3) (off : s.linkOn (48 + n) = false) (may : s.gftAllowed.testBit n = true) :
    ((gftPortEnable s die n true).die die).gften.testBit n = true ∧ ((gftPortEnable s die n true).link (48 + n)).state = 3 := by
  have clear : (s.die die).gften.testBit n = false := by
    rw [s.linkOn_gft_die hn hd] at off
    simp [hp, may] at off
    exact off.1
  have goes : gftPortEnable s die n true = gftWrite s die ((s.die die).gften + 2 ^ n) := by
    unfold gftPortEnable
    rw [if_neg (by omega)]
    simp [clear]
  have bits := testBit_add_two_pow clear
  have isOn : (s.modDie die (fun d => { d with gften := ((s.die die).gften + 2 ^ n) % 2 ^ 12 })).linkOn (48 + n) = true := by
    rw [s.linkOn_gftWrite hn hd, bits]
    simp [hp, may]
  obtain ⟨gften, state⟩ := gftWrite_flips hn _ rfl (fun p h12 hne => by
    rw [s.linkOn_gftWrite h12 hd, bits, s.linkOn_gft_die h12 hd, decide_eq_false hne, Bool.or_false]) (by rw [isOn, off]; rfl)
  rw [goes, gften, state, isOn, Nat.testBit_mod_two_pow, bits]
  simp [hn]

theorem gftPortEnable_off (hd : die < 2) (hn : n < 12) (on : s.linkOn (48 + n) = true) (alone : (s.die (1 - die)).gften.testBit n = false) :
    ((gftPortEnable s die n false).die die).gften.testBit n = false ∧ ((gftPortEnable s die n false).link (48 + n)).state = 0 := by
  have has : (s.die die).gften.testBit n = true := by
    rw [s.linkOn_gft_die hn hd, alone] at on
    simp at on
    exact on.2
  have goes : gftPortEnable s die n false = gftWrite s die ((s.die die).gften - 2 ^ n) := by
    unfold gftPortEnable
    rw [if_neg (by omega)]
    simp [has]
  have bits := testBit_sub_two_pow has
  have isOff : (s.modDie die (fun d => { d with gften := ((s.die die).gften - 2 ^ n) % 2 ^ 12 })).linkOn (48 + n) = false := by
    rw [s.linkOn_gftWrite hn hd, bits, alone]
    simp
  obtain ⟨gften, state⟩ := gftWrite_flips hn _ rfl (fun p h12 hne => by
    rw [s.linkOn_gftWrite h12 hd, bits, s.linkOn_gft_die h12 hd, decide_eq_false hne, Bool.not_false, Bool.and_true]) (by rw [isOff, on]; rfl)
  rw [goes, gften, state, isOff, Nat.testBit_mod_two_pow, bits]
  simp

/-- A write of STORCFG that changes its enable bit. -/
theorem storWrite_flips (v : W64) (h : (s.die die).storcfg.getLsbD 0 = !v.getLsbD 0) :
    ((storWrite s die v).die die).storcfg.getLsbD 0 = v.getLsbD 0 ∧ ((storWrite s die v).link (62 + die)).state = if v.getLsbD 0 then 3 else 0 := by
  have kept : (v &&& 0xFFFF00000000001D).getLsbD 0 = v.getLsbD 0 := by
    rw [BitVec.getLsbD_and]
    simp
  unfold storWrite
  dsimp only
  rw [kept, h]
  refine ⟨?_, portEnable_flip ..⟩
  rw [(portEnable_rest ..).1 die, State.die_modDie_same]
  exact kept

theorem storagePortEnable_flips (hd : die < 2) (on : Bool) (h : (s.die die).storcfg.getLsbD 0 = !on) :
    ((storagePortEnable s die on).die die).storcfg.getLsbD 0 = on ∧ ((storagePortEnable s die on).link (62 + die)).state = if on then 3 else 0 := by
  have bit : (if on then (s.die die).storcfg ||| 1 else (s.die die).storcfg &&& ~~~1).getLsbD 0 = on := by
    cases on with
    | false => simp
    | true => simp
  have flips := storWrite_flips (s := s) (die := die) (if on then (s.die die).storcfg ||| 1 else (s.die die).storcfg &&& ~~~1) (by rw [bit, h])
  rw [bit] at flips
  have goes : storagePortEnable s die on = storWrite s die (if on then (s.die die).storcfg ||| 1 else (s.die die).storcfg &&& ~~~1) :=
    if_neg (by omega)
  rw [goes]
  exact flips

theorem trainingRetry_trains (hn : n < 64) (down : (s.link n).state = 0) (on : s.linkOn n = true) :
    trainingRetry s n = s.modLink n (fun l => { l with state := 3 }) := if_neg (by simp [down, on]; omega)

theorem flitReplay_counts (hn : n < 64) (up : (s.link n).state = 1 ∨ (s.link n).state = 2) :
    flitReplay s n = s.modLink n (fun l => { l with replay := min (l.replay + 1) (2 ^ 32 - 1) }) :=
  if_neg (fun h => h.elim (fun h => absurd h (by omega)) (fun h => h up))

theorem routeAdvert_carries (hn : n < 12) : routeAdvert s n =
    s.modLink (48 + n) (fun l => { l with advert := match l.state with | 2 => 1 | 1 => 2 | _ => 0xFFFF }) := by
  have gft : ¬ 48 + n < 48 := by omega
  have cost : ∀ l, linkCost (48 + n) l = match l.state with | 2 => 1 | 1 => 2 | _ => 0xFFFF := fun l => if_neg gft
  refine (if_neg (by omega)).trans ?_
  simp only [cost]

theorem perstDeassert_trains (hd : die < 2) (h : (s.die die).perst = false) : perstDeassert s die =
    (s.modDie die (fun d => { d with perst := true })).modLink (60 + die) (fun l => { l with state := 3 }) :=
  if_neg (by simp [h]; omega)

end

/-! ### The statement -/

theorem parityErrorKill_kills {s : State} {tid : Nat} (h : (s.task tid).state = 2 ∨ (s.task tid).state = 3 ∨ (s.task tid).state = 4) :
    exec (.parityErrorKill tid) s = .next (settleAll (s.beginKill tid 8)) ∧ ((s.beginKill tid 8).task tid).state = 5 ∧
      ((s.task tid).kill = none → ((s.beginKill tid 8).task tid).kill = some 8) :=
  ⟨rfl, State.beginKill_task h⟩

/-- A physical address that a translation holds has that translation's virtual one. -/
theorem State.vaOf_held {s : State} {pa page : Nat} {t : Tlb} (h : s.tlbs.find? (fun t => t.page == pa / 4096) = some t) :
    s.vaOf pa page = sx48 (t.vpn % 2 ^ 36 * 4096 + pa % 4096) := by
  unfold State.vaOf
  rw [h]

/-- Settles O55. -/
theorem reliabilityAndLinks : Obligations.ReliabilityAndLinks := by
  unfold Obligations.ReliabilityAndLinks
  intro s die n hd l port
  refine ⟨congrArg stepDone (if_neg (by omega)), ?_, fun unit w hu hdie hw clean => ?_, ?_,
    fun tid => parityErrorKill_kills, fun lane hn hl up has => congrArg stepDone (laneFail_loses hn hl up has),
    fun hn ht on => congrArg stepDone (linkTrained_die hn ht on), fun hn h48 ht on => ?_, noteAllDown_elast hd,
    fun hn up => congrArg stepDone (flitReplay_counts hn up), fun hn => congrArg stepDone (routeAdvert_carries hn),
    fun hn down on => congrArg stepDone (trainingRetry_trains hn down on), fun h => congrArg stepDone (perstDeassert_trains hd h),
    fun h => ⟨_, rfl, storagePortEnable_flips hd true h⟩, fun h => ⟨_, rfl, storagePortEnable_flips hd false h⟩,
    fun hn hp off may => ⟨_, rfl, gftPortEnable_on hd hn hp off may⟩, fun hn on alone => ⟨_, rfl, gftPortEnable_off hd hn on alone⟩⟩
  case refine_1 =>
    intro unit w clean marked
    refine ⟨fun free hw home => ?_, fun g off hg home => ?_⟩
    · obtain ⟨page, hpage⟩ := poisoning_memory (unit := unit) free hw home
      obtain ⟨bad, count, bytes, last⟩ := poisonMem_marks (s := (s.drawFree 62).2) (die := die) (va := s.vaOf (8 * w) page) clean
      exact ⟨_, page, ⟨congrArg stepDone hpage, bad, count, bytes, last⟩, fun t ht => State.vaOf_held ht⟩
    · obtain ⟨bad, count, bytes, last⟩ := poisonMem_marks (s := s) (die := die) (va := g.base + off) clean
      exact ⟨_, congrArg stepDone (poisoning_fused hg home), bad, count, bytes, last⟩
  case refine_2 =>
    obtain ⟨v, word, mem, count, last⟩ := poisoning_core (s := s) (space := 1) (by decide) (by decide) hu hdie hw clean
    exact ⟨_, rfl, (congrArg (Core.bad · 1 w) word).trans (Core.poisonWord_scratchpad ..), count, last, mem⟩
  case refine_3 =>
    intro unit w hu hdie h noted
    refine ⟨fun hw clean => ?_, fun hw clean => ?_, fun hw c0 c1 => ?_, fun e he clean => ?_, fun hw clean => ?_⟩
    · obtain ⟨v, word, mem, count, last⟩ := poisoning_core (s := s) (space := 2) (by decide) (by decide) hu hdie hw clean
      exact ⟨_, ⟨rfl, mem, count, last⟩, (congrArg (Core.bad · 2 w) word).trans (Core.poisonWord_tile ..)⟩
    · obtain ⟨v, word, mem, count, last⟩ := poisoning_core (s := s) (space := 3) (by decide) (by decide) hu hdie hw (List.any_eq_false.2 (fun e he => by
        exact Bool.eq_false_iff.1 (clean e he)))
      exact ⟨_, ⟨rfl, mem, count, last⟩, fun e he => (congrArg (Core.bad · 3 _) word).trans (Core.poisonWord_latch (s.core unit) w v e he)⟩
    · obtain ⟨v, word, mem, count, last⟩ := poisoning_core (s := s) (space := 4) (by decide) (by decide) hu hdie hw (by
        unfold Core.wordPoisoned
        dsimp only
        rw [Nat.mod_eq_of_lt (show 2 * w < 131072 by omega), Nat.mod_eq_of_lt (show 2 * w + 1 < 131072 by omega)]
        exact Bool.or_eq_false_iff.2 ⟨c0, c1⟩)
      obtain ⟨b0, b1⟩ := Core.poisonWord_accumulator (s.core unit) v hw
      exact ⟨_, ⟨rfl, mem, count, last⟩, (congrArg (Core.bad · 4 _) word).trans b0, (congrArg (Core.bad · 4 _) word).trans b1⟩
    · obtain ⟨v, entry, mem, count, last⟩ := poisoning_entry hu hdie he clean
      exact ⟨_, v, ⟨rfl, mem, count, last⟩, entry⟩
    · obtain ⟨v, word, mem, count, last⟩ := poisoning_core (s := s) (space := 6) (by decide) (by decide) hu hdie hw (List.any_eq_false.2 (fun j hj =>
        Bool.eq_false_iff.1 (clean j (List.mem_range.1 hj))))
      exact ⟨_, ⟨rfl, mem, count, last⟩, fun j hj => (congrArg (Core.bad · 6 _) word).trans (Core.poisonWord_table (s.core unit) w v j hj)⟩
  case refine_4 =>
    obtain ⟨fails, gft, host⟩ := linkTrained_port hn h48 ht on
    exact ⟨fun h => congrArg stepDone (fails h), fun h60 h => congrArg stepDone (gft h60 h), fun h60 h => ⟨_, rfl, host h60 h⟩⟩

end Sys2Proof.Machine

/-! ## The system cores (01_organisation.md R33, 18_host.md R404) -/

namespace Sys2Proof.Machine

section
variable {s : State} {die n : Nat}

/-- A system core that does not run, or whose clock has stopped, does nothing. -/
theorem hartStep_idle (h : (s.hart (9 * die + n)).runs = false ∨ (n < 8 ∧ s.pstate ≠ 0)) : hartStep s die n = s := if_pos (.inr (.inr h))

/-- One that runs. -/
theorem hartStep_running (hd : die < 2) (hn : n < 9) (runs : (s.hart (9 * die + n)).runs = true) (clock : n = 8 ∨ s.pstate = 0) :
    hartStep s die n = match rvInterrupt s die n with
      | some c => if c = 9 then endExternal (s.modHart die n (fun h => rvTrap h true c 0)) die n else s.modHart die n (fun h => rvTrap h true c 0)
      | none => match rvRun s die n with
        | .ok t => t.modHart die n (fun h => rvTick h true)
        | .error (.wait t) => t
        | .error (.trap c v t) => t.modHart die n (fun h => rvTick (rvTrap h false c v) false) := by
  have runs' : (s.hartOf die n).runs = true := runs
  refine if_neg ?_
  rw [runs']
  simp
  omega

theorem rvRun_fetched {r : RvStop} (h : rvFetch s die n = .error r) : rvRun s die n = .error r := by
  rw [rvRun, h]
  rfl

section
variable {len raw w : Nat} {u : State} (fetched : rvFetch s die n = .ok (len, raw, w, u))
include fetched

theorem rvRun_done {t : State} (h : rvExec u die n len w = .ok t) : rvRun s die n = .ok t := by
  simp only [rvRun, fetched, bind, Except.bind, h]

theorem rvRun_waits {t : State} (h : rvExec u die n len w = .error (.wait t)) : rvRun s die n = .error (.wait t) := by
  simp only [rvRun, fetched, bind, Except.bind, h]

/-- An exception of the instruction; an illegal one gives its bits. -/
theorem rvRun_traps {cause : Nat} {v : W64} {t : State} (h : rvExec u die n len w = .error (.trap cause v t)) :
    rvRun s die n = .error (.trap cause (if cause = 2 then BitVec.ofNat 64 raw else v) t) := by
  by_cases hc : cause = 2
  · subst hc
    simp only [rvRun, fetched, bind, Except.bind, h, if_true]
  · simp only [rvRun, fetched, bind, Except.bind, h, hc, if_false]
    split
    · next illegal =>
      cases illegal
      exact absurd rfl hc
    · rfl

end

end

/-- Settles O57. -/
theorem systemCoreStep : Obligations.SystemCoreStep := by
  unfold Obligations.SystemCoreStep
  intro s die n hd hn h
  refine ⟨fun stopped => congrArg stepDone (hartStep_idle (.inl stopped)), fun h8 hp => congrArg stepDone (hartStep_idle (.inr ⟨h8, hp⟩)),
    fun runs clock => ?_⟩
  intro done traps
  have step := hartStep_running hd hn runs clock
  have ran : ∀ {r : RvRes}, rvInterrupt s die n = none → rvRun s die n = r → hartStep s die n = match r with
      | .ok t => t.modHart die n (fun h => rvTick h true)
      | .error (.wait t) => t
      | .error (.trap c v t) => t.modHart die n (fun h => rvTick (rvTrap h false c v) false) := fun none run => by
    rw [step, none, run]
  refine ⟨fun cause some h9 => congrArg stepDone ?_, fun none => ⟨fun cause v t fetch => ?_, fun t fetch => ?_, fun len raw w u fetch =>
    ⟨fun t ok => ?_, fun cause v t trap => ?_, fun t wait => ?_⟩⟩⟩
  · rw [step, some]
    exact if_neg h9
  · exact congrArg stepDone (ran none (rvRun_fetched fetch))
  · exact congrArg stepDone (ran none (rvRun_fetched fetch))
  · exact congrArg stepDone (ran none (rvRun_done fetch ok))
  · exact congrArg stepDone (ran none (rvRun_traps fetch trap))
  · exact congrArg stepDone (ran none (rvRun_waits fetch wait))

end Sys2Proof.Machine

/-! ## Ports, power states, start-up and register windows (18_host.md R394 to R410) -/

namespace Sys2Proof.Machine

/-- Two changes of one die are one. -/
theorem State.modDie_modDie (s : State) (d : Nat) (f g : Die → Die) : (s.modDie d f).modDie d g = s.modDie d (fun x => g (f x)) := by
  have now : (s.modDie d f).die d = f (s.die d) := State.die_modDie_same s d f
  rw [State.modDie, now, State.modDie, State.setDie, State.setDie, SMap.set_set]
  rfl

/-- A die is changed as its present state says. -/
theorem State.modDie_congr {s : State} {d : Nat} {f g : Die → Die} (h : f (s.die d) = g (s.die d)) : s.modDie d f = s.modDie d g := by
  rw [State.modDie, h, State.modDie]

/-! ### Accesses from outside -/

/-- An awake package is not woken. -/
theorem powerWake_awake {s : State} (ev : Nat) (h : s.pstate = 0) : powerWake s ev = s := if_pos (.inl h)

theorem ltrMessage_notes {s : State} {die ns : Nat} (hd : die < 2) (up : (s.die die).hspeed ≠ 0) (h : s.pstate = 0) :
    ltrMessage s die ns = s.modDie die (fun d => { d with ltr := if 0xFFFFFFFF ≤ ns then none else some ns }) :=
  (if_neg (by omega)).trans (powerWake_awake 4 h)

theorem driveInterrupt_notes {s : State} {die : Nat} (hd : die < 2) (up : (s.link (62 + die)).state = 2) (h : s.pstate = 0) :
    driveInterrupt s die = s.modDie die (fun d => { d with storIrq := true }) := by
  rw [driveInterrupt, powerWake_awake 2 h, driveMsix, if_neg]
  simp [up, hd]

/-- What one 8-byte access does at its place (R98): a fetch-add, a compare-and-swap. -/
theorem opResult_fetchAdd (v cmp : W64) : (fun old => opResult .fetchAdd 8 old v.toNat cmp.toNat) = fun old => (old + v.toNat) % 2 ^ 64 := rfl

theorem opResult_cas (v cmp : W64) :
    (fun old => opResult .cas 8 old v.toNat cmp.toNat) = fun old => if old = cmp.toNat then v.toNat else old := by
  funext old
  rw [opResult, show 256 ^ 8 = 2 ^ 64 from rfl, Nat.mod_eq_of_lt cmp.isLt, Nat.mod_eq_of_lt v.isLt]

theorem opResult_swap (v cmp : W64) : (fun old => opResult .swap 8 old v.toNat cmp.toNat) = fun _ => v.toNat := by
  funext old
  exact Nat.mod_eq_of_lt v.isLt

section
variable (s : State) (a : Agent) (pa : Nat) (v cmp : W64)

theorem memAccess_rmw {op : MemOp} (hr : op ≠ .read) (hw : op ≠ .write) : memAccess s a pa 8 op v cmp =
    if s.badAt pa 8 && op != .swap then ((s.rmwPhys a pa 8 (fun old => opResult op 8 old v.toNat cmp.toNat)).2.2).setBad pa true
    else (s.rmwPhys a pa 8 (fun old => opResult op 8 old v.toNat cmp.toNat)).2.2 := by
  cases op with
  | read => exact absurd rfl hr
  | write => exact absurd rfl hw
  | fetchAdd => rfl
  | swap => rfl
  | cas => rfl

theorem memAccess_swap : memAccess s a pa 8 .swap v cmp = (s.rmwPhys a pa 8 (fun _ => v.toNat)).2.2 := by
  rw [memAccess_rmw s a pa v cmp (by decide) (by decide), opResult_swap, if_neg (by simp)]

theorem memAccess_cas (clean : s.badAt pa 8 = false) :
    memAccess s a pa 8 .cas v cmp = (s.rmwPhys a pa 8 (fun old => if old = cmp.toNat then v.toNat else old)).2.2 := by
  rw [memAccess_rmw s a pa v cmp (by decide) (by decide), opResult_cas, if_neg (by simp [clean])]

theorem memAccess_fetchAdd (clean : s.badAt pa 8 = false) :
    memAccess s a pa 8 .fetchAdd v cmp = (s.rmwPhys a pa 8 (fun old => (old + v.toNat) % 2 ^ 64)).2.2 := by
  rw [memAccess_rmw s a pa v cmp (by decide) (by decide), opResult_fetchAdd, if_neg (by simp [clean])]

end

/-- An aligned access of 8 bytes has a size that may take place. -/
theorem opSizeOk_eight {op : MemOp} {addr : Nat} (h : addr % 8 = 0) : opSizeOk op 8 addr = true := by
  cases op with
  | read => simp [opSizeOk, h]
  | write => simp [opSizeOk, h]
  | fetchAdd => simp [opSizeOk, h]
  | swap => simp [opSizeOk, h]
  | cas => simp [opSizeOk, h]

section
variable {s : State} {a : Agent} {die code asid va : Nat} {op : MemOp} {v cmp : W64}

/-- An access from outside whose page allows it is performed (R362). -/
theorem portAccess_ok {pa : Nat} {p : W64} {u : State} (aligned : va % 8 = 0) (page : translate s die a asid va (opAcc op) false = .ok pa p u)
    (near : s.reach die pa = true) : portAccess s a die code asid va 8 op v cmp = memAccess u a pa 8 op v cmp := by
  unfold portAccess
  simp only [opSizeOk_eight aligned, page, near, Bool.not_true, Bool.false_eq_true, if_false, if_true]

/-- One whose page is absent writes a notice (R363). -/
theorem portAccess_absent {l : Nat} {u : State} (aligned : va % 8 = 0) (page : translate s die a asid va (opAcc op) false = .absent l u) :
    portAccess s a die code asid va 8 op v cmp = notice u die code asid va (opAcc op) l := by
  unfold portAccess
  simp only [opSizeOk_eight aligned, page, Bool.not_true, Bool.false_eq_true, if_false]

end

theorem sx48_aligned {n : Nat} (h : n % 8 = 0) : sx48 n % 8 = 0 := by
  unfold sx48
  split
  all_goals omega

section
variable {s : State} {die : Nat} {i : HostAccess} {run : State → State}

/-- A host access at a die that serves its BARs (R405, R407). -/
theorem hostAccess_live (up : (s.die die).hspeed ≠ 0) (stage : 4 ≤ (s.die die).bootStage) (awake : (s.die die).asleep = false) (h : s.pstate = 0) :
    hostAccess s die i run = run s := by
  rw [hostAccess, if_neg up, powerWake_awake 0 h]
  simp only [awake, Bool.false_eq_true, if_false]
  exact if_neg (by omega)

/-- One that finds the die on its way from PA3 is held. -/
theorem hostAccess_held (up : (s.die die).hspeed ≠ 0) (asleep : (s.die die).asleep = true) (h : s.pstate = 0) :
    hostAccess s die i run = s.modDie die (fun d => { d with held := d.held ++ [i] }) := by
  rw [hostAccess, if_neg up, powerWake_awake 0 h]
  simp only [asleep, if_true]

/-- One that comes before stage 4 of a first boot is dropped. -/
theorem hostAccess_dropped (up : (s.die die).hspeed ≠ 0) (stage : (s.die die).bootStage < 4) (awake : (s.die die).asleep = false) (h : s.pstate = 0) :
    hostAccess s die i run = s := by
  rw [hostAccess, if_neg up, powerWake_awake 0 h]
  simp only [awake, Bool.false_eq_true, if_false]
  exact if_pos stage

variable {off : Nat} {op : MemOp} {v cmp : W64}

theorem bar2Access_eq (hd : die < 2) (ho : off + 8 ≤ 2 ^ 36) :
    bar2Access s die off op 8 v cmp = hostAccess s die (.bar2 off op 8 v cmp) (fun s => bar2Run s die off op 8 v cmp) := if_neg (by omega)

/-- An access through BAR2 without translation (R399). -/
theorem bar2Run_physical (plain : (s.die die).hcfg.getLsbD 0 = false) (aligned : off % 8 = 0) :
    bar2Run s die off op 8 v cmp = memAccess s (.host die) (die * (192 * 2 ^ 30) + off) 8 op v cmp := by
  unfold bar2Run
  simp only [plain, opSizeOk_eight aligned, Bool.false_eq_true, if_false, if_true]

/-- One under HASID (R408). -/
theorem bar2Run_translated (xlat : (s.die die).hcfg.getLsbD 0 = true) :
    bar2Run s die off op 8 v cmp = portAccess s (.host die) die 7 (fieldOf (s.die die).hcfg 63 48)
      (sx48 (fieldOf (s.die die).hcfg 47 36 * 2 ^ 36 + off)) 8 op v cmp := by
  unfold bar2Run
  simp only [xlat, if_true]

/-- A write of a register by the host at a die that serves its BARs. -/
theorem registerWrite_host (hd : die < 2) : registerWrite s die .host off v =
    hostAccess s die (.reg off v) (fun s => windowWrite s die .host 0 off v) := if_neg (by omega)

end

section
variable {s : State} {die : Nat} {va v cmp : W64} {op : MemOp} {pa : Nat} {p : W64} {u : State}

theorem peerRequest_ok (hd : die < 2) (up : gftUp s = true) (h : s.pstate = 0) (aligned : sx48 va.toNat % 8 = 0) (near : s.reach die pa = true)
    (page : translate s die (.net die) (fieldOf (s.die die).netcfg 63 48) (sx48 va.toNat) (opAcc op) false = .ok pa p u) :
    peerRequest s die va op 8 v cmp = memAccess u (.net die) pa 8 op v cmp := by
  have goes : ¬ (2 ≤ die ∨ s.pstate = 3 ∨ gftUp s = false ∨ (opAcc op = .rmw ∧ 8 ≠ 8)) := by simp [up, h, hd]
  rw [peerRequest, if_neg goes, powerWake_awake 1 h]
  exact portAccess_ok aligned page near

theorem storageDma_ok (hd : die < 2) (up : (s.link (62 + die)).state = 2) (h : s.pstate = 0) (aligned : va.toNat % 8 = 0) (near : s.reach die pa = true)
    (kind : opAcc op ≠ .rmw) (page : translate s die (.stor die) (fieldOf (s.die die).storcfg 63 48) va.toNat (opAcc op) false = .ok pa p u) :
    storageDma s die va op 8 v = memAccess u (.stor die) pa 8 op v 0 := by
  have goes : ¬ (2 ≤ die ∨ s.pstate ≠ 0 ∨ (s.link (62 + die)).state ≠ 2 ∨ opAcc op = .rmw) := by simp [up, h, hd, kind]
  rw [storageDma, if_neg goes]
  exact portAccess_ok aligned page near

end

/-! ### Power states -/

section
variable {s : State}

theorem powerEntry_shallow {k : Nat} (deeper : s.pstate < k) (hk : k < 3) (target : powerTarget s = k) : powerEntry s = { s with pstate := k } := by
  unfold powerEntry
  simp only [target]
  rw [if_neg (by omega), if_neg (by omega)]

theorem powerEntry_deep (shallow : s.pstate < 3) (target : powerTarget s = 3) : powerEntry s = deepSleep s := by
  unfold powerEntry
  simp only [target]
  rw [if_neg (by omega), if_pos trivial]

theorem SMap.get_filter_out {α : Type} (d : α) (f : Nat × α → Bool) {k : Nat} (out : ∀ v, f (k, v) = false) (m : SMap α) :
    SMap.get d (m.filter f) k = d := by
  induction m with
  | nil => rfl
  | cons q r ih =>
    obtain ⟨j, w⟩ := q
    by_cases hf : f (j, w) = true
    · have hj : j ≠ k := fun e => by simp [e, out] at hf
      rw [List.filter_cons_of_pos hf, SMap.get, if_neg hj, ih]
    · rw [List.filter_cons_of_neg hf, ih]

theorem SMap.get_filter_in {α : Type} (d : α) (f : Nat × α → Bool) {k : Nat} (keeps : ∀ v, f (k, v) = true) (m : SMap α) :
    SMap.get d (m.filter f) k = SMap.get d m k := by
  induction m with
  | nil => rfl
  | cons q r ih =>
    obtain ⟨j, w⟩ := q
    by_cases hf : f (j, w) = true
    · rw [List.filter_cons_of_pos hf, SMap.get, SMap.get, ih]
    · have hj : j ≠ k := fun e => hf (by rw [e]; exact keeps w)
      rw [List.filter_cons_of_neg hf, ih, SMap.get, if_neg hj]

/-- In PA3 each GFT port is down. -/
theorem deepSleep_link {n : Nat} (h48 : 48 ≤ n) (h60 : n < 60) : ((deepSleep s).link n).state = 0 := by
  have down : ∀ (l : List Nat) (r : SMap Link), n - 48 ∈ l →
      (SMap.get Link.init (l.map (fun p => (48 + p, { Link.init with state := 0 })) ++ r) n).state = 0 := by
    intro l r
    induction l with
    | nil => exact fun h => absurd h List.not_mem_nil
    | cons p q ih =>
      intro h
      rw [List.map_cons, List.cons_append, SMap.get]
      split
      · rfl
      · next hne => exact ih ((List.mem_cons.1 h).resolve_left (by omega))
  exact down (List.range 12) _ (List.mem_range.2 (by omega))

theorem deepSleep_die {die : Nat} (hd : die < 2) : (deepSleep s).die die = (s.die die).sleep := by
  obtain rfl | rfl : die = 0 ∨ die = 1 := by omega
  · rfl
  · rfl

theorem deepSleep_byte {a : Nat} (ha : a < memBytes) : (deepSleep s).byte a = 0 := by
  refine SMap.get_filter_out 0 _ (fun v => ?_) s.mem
  have low : ¬ ownBase 0 ≤ a := by
    unfold ownBase memBytes at *
    omega
  simp [low]

/-- What waking changes: the power state, links, and on failure the dies. -/
theorem startGft_rest (t : State) : (startGft t).pstate = t.pstate ∧ (∀ d, (startGft t).die d = t.die d) ∧ ∀ n, n < 48 → (startGft t).link n = t.link n := by
  have fold : ∀ (l : List Nat) (t : State), 
      let u := l.foldl (fun s p => if s.linkOn (48 + p) then s.modLink (48 + p) (fun l => if l.state = 0 then { l with state := 3 } else l) else s) t
      u.pstate = t.pstate ∧ (∀ d, u.die d = t.die d) ∧ ∀ n, n < 48 → u.link n = t.link n := by
    intro l
    induction l with
    | nil => exact fun t => ⟨rfl, fun _ => rfl, fun _ _ => rfl⟩
    | cons p r ih =>
      intro t
      rw [List.foldl_cons]
      obtain ⟨pstate, dies, links⟩ := ih (if t.linkOn (48 + p) then t.modLink (48 + p) (fun l => if l.state = 0 then { l with state := 3 } else l) else t)
      refine ⟨pstate.trans ?_, fun d => (dies d).trans ?_, fun n hn => (links n hn).trans ?_⟩
      all_goals split
      · rfl
      · rfl
      · rfl
      · rfl
      · exact State.link_modLink_ne _ _ (by omega)
      · rfl
  exact fold (List.range 12) t

/-- Links that a fold changes one after another. -/
theorem State.foldl_modLink (f : Link → Link) (l : List Nat) : ∀ (t : State), l.Nodup →
    let u := l.foldl (fun s n => s.modLink n f) t
    u.pstate = t.pstate ∧ (∀ d, u.die d = t.die d) ∧ (∀ n ∈ l, u.link n = f (t.link n)) ∧ ∀ n ∉ l, u.link n = t.link n := by
  induction l with
  | nil => exact fun t _ => ⟨rfl, fun _ => rfl, fun n h => absurd h List.not_mem_nil, fun _ _ => rfl⟩
  | cons k r ih =>
    intro t once
    obtain ⟨hk, once⟩ := List.nodup_cons.1 once
    obtain ⟨pstate, dies, changed, others⟩ := ih (t.modLink k f) once
    refine ⟨pstate, dies, fun n hn => ?_, fun n hn => ?_⟩
    · by_cases here : n = k
      · subst here
        exact (others n hk).trans (State.link_modLink_same ..)
      · exact (changed n ((List.mem_cons.1 hn).resolve_left here)).trans (congrArg f (State.link_modLink_ne _ _ here))
    · obtain ⟨here, hn⟩ := not_or.1 (fun h => hn (List.mem_cons.2 h))
      exact (others n hn).trans (State.link_modLink_ne _ _ here)

theorem powerWake_light {ev : Nat} (h : s.pstate = 1 ∨ s.pstate = 2) (h5 : ev ≤ 5) (h4 : ev ≠ 4) : powerWake s ev = { s with pstate := 0 } := by
  rw [powerWake, if_neg (by omega), wakeUp, if_pos (by omega)]

/-- From PA3 the die-to-die links train again; where none comes up, boot ends with code 4 (R405). -/
theorem powerWake_deep {ev die : Nat} (hd : die < 2) (h : s.pstate = 3) (h5 : ev ≤ 5) (h4 : ev ≠ 4) :
    (powerWake s ev).pstate = 0 ∧ (∀ n, n < 48 → ((powerWake s ev).link n).state = 2 - (s.link n).lost.length) ∧
    ((∃ n, n < 48 ∧ (s.link n).lost.length < 2) → (powerWake s ev).die die = s.die die) ∧
    ((∀ n, n < 48 → 2 ≤ (s.link n).lost.length) → (powerWake s ev).die die = { s.die die with bootCode := 4, bootStop := true }) := by
  obtain ⟨pstate, dies, trained, -⟩ := State.foldl_modLink (fun l => { l with state := l.trained }) (List.range 48) { s with pstate := 0 } List.nodup_range
  obtain ⟨gftPstate, gftDies, gftLinks⟩ := startGft_rest ((List.range 48).foldl (fun s n => s.modLink n (fun l => { l with state := l.trained })) { s with pstate := 0 })
  rw [powerWake, if_neg (by omega), wakeUp, if_neg (by omega)]
  dsimp only
  generalize startGft ((List.range 48).foldl (fun s n => s.modLink n (fun l => { l with state := l.trained })) { s with pstate := 0 }) = t at *
  have state : ∀ n, n < 48 → (t.link n).state = 2 - (s.link n).lost.length := fun n hn => by
    rw [gftLinks n hn, trained n (List.mem_range.2 hn)]
    rfl
  have same : ∀ d, t.die d = s.die d := fun d => (gftDies d).trans (dies d)
  have allDown : ((List.range 48).all (fun n => (t.link n).state == 0)) = true ↔ ∀ n, n < 48 → 2 ≤ (s.link n).lost.length := by
    simp only [List.all_eq_true, List.mem_range, beq_iff_eq]
    refine forall_congr' fun n => ⟨fun h hn => ?_, fun h hn => ?_⟩
    · have := (state n hn).symm.trans (h hn)
      omega
    · rw [state n hn]
      have := h hn
      omega
  split
  · next down =>
    rw [allDown] at down
    refine ⟨gftPstate.trans pstate, state, fun ⟨n, hn, short⟩ => absurd (down n hn) (by omega), fun _ => ?_⟩
    obtain rfl | rfl : die = 0 ∨ die = 1 := by omega
    · rw [State.die_modDie_ne _ _ (by decide), State.die_modDie_same, same]
    · rw [State.die_modDie_same, State.die_modDie_ne _ _ (by decide), same]
  · next up =>
    rw [allDown] at up
    exact ⟨gftPstate.trans pstate, state, fun _ => same die, fun down => absurd down up⟩

end

end Sys2Proof.Machine

/-! ## Start-up, attestation and register windows (18_host.md R406 to R410) -/

namespace Sys2Proof.Machine

/-! ### Signed blocks -/

/-- A block is accepted by its key, its kind and signature, and its version (R406). -/
theorem blockCode_none (b : Signed) (t floor : Nat) (keys : List Nat) : blockCode b t floor keys = none ↔
    (Signed.khash b ∈ keys ∧ sha256 (Signed.modulus b) = Signed.khash b) ∧
    (Signed.kind b = t ∧ Signed.len b % 8 = 0 ∧ 448 + Signed.len b + 384 ≤ b.length ∧
      rsaVerify (beNat (Signed.modulus b)) (beNat ((b.drop (448 + Signed.len b)).take 384)) (sha256 (b.take (448 + Signed.len b))) = true) ∧
    floor ≤ Signed.version b := by
  have key : (!keys.contains (Signed.khash b) || sha256 (Signed.modulus b) != Signed.khash b) = false ↔
      Signed.khash b ∈ keys ∧ sha256 (Signed.modulus b) = Signed.khash b := by
    simp
  have signed : (Signed.kind b != t || Signed.len b % 8 != 0 || decide (b.length < 448 + Signed.len b + 384)
      || !rsaVerify (beNat (Signed.modulus b)) (beNat ((b.drop (448 + Signed.len b)).take 384)) (sha256 (b.take (448 + Signed.len b)))) = false ↔
      (Signed.kind b = t ∧ Signed.len b % 8 = 0 ∧ 448 + Signed.len b + 384 ≤ b.length ∧
        rsaVerify (beNat (Signed.modulus b)) (beNat ((b.drop (448 + Signed.len b)).take 384)) (sha256 (b.take (448 + Signed.len b))) = true) := by
    simp [and_assoc]
  unfold blockCode
  rw [← key, ← signed]
  cases !keys.contains (Signed.khash b) || sha256 (Signed.modulus b) != Signed.khash b with
  | true => simp
  | false =>
    cases Signed.kind b != t || Signed.len b % 8 != 0 || decide (b.length < 448 + Signed.len b + 384)
        || !rsaVerify (beNat (Signed.modulus b)) (beNat ((b.drop (448 + Signed.len b)).take 384)) (sha256 (b.take (448 + Signed.len b))) with
    | true => simp
    | false => simp

/-! ### The stages of boot -/

/-- The die takes no access that it would have to hold, and holds none. -/
structure Serves (s : State) (die : Nat) : Prop where
  awake : (s.die die).asleep = false
  none : (s.die die).held = []

section
variable {s u : State} {die : Nat}

theorem Serves.of_die (h : Serves s die) (hd : (u.die die).asleep = (s.die die).asleep ∧ (u.die die).held = (s.die die).held) : Serves u die :=
  ⟨hd.1.trans h.awake, hd.2.trans h.none⟩

theorem acceptBlock_serves (h : Serves s die) (t : Nat) (b : Signed) : Serves (acceptBlock s die t b) die := by
  have accepted : (acceptBlock s die t b).die die = (s.modDie die (fun d => { d with
      blocks := SMap.put (SMap.del d.blocks t) t (sha256 (Signed.whole b), Signed.version b)
      signKey := if t = 4 then some (beNat ((Signed.payload b).take 32)) else d.signKey })).die die := rfl
  refine h.of_die ?_
  rw [accepted, State.die_modDie_same]
  exact ⟨rfl, rfl⟩

theorem takeBlock_serves {t : Nat} {b : Signed} (h : Serves s die) (taken : takeBlock s die t b = .ok u) : Serves u die := by
  unfold takeBlock at taken
  split at taken
  · exact nomatch taken
  · cases taken
    exact acceptBlock_serves h t b

theorem trainLinks_die (s : State) (d : Nat) : (trainLinks s).die d = s.die d := by
  have fold : ∀ (l : List Nat) (s : State),
      (l.foldl (fun s n => s.modLink n (fun l => if l.state = 3 then { l with state := l.trained } else l)) s).die d = s.die d := by
    intro l
    induction l with
    | nil => exact fun _ => rfl
    | cons n r ih => exact fun s => ih _
  exact fold (List.range 48) s

theorem State.putBytes_die (d : Nat) (l : List Nat) : ∀ (s : State) (pa : Nat), (s.putBytes pa l).die d = s.die d := by
  induction l with
  | nil => exact fun _ _ => rfl
  | cons b r ih => exact fun s pa => (ih (s.setByte pa (BitVec.ofNat 8 b)) (pa + 1)).trans rfl

/-- A boot step that stops, or completes its stage, at a die that holds no access. -/
theorem bootNow_fails {code : Nat} (h : Serves u die) (step : bootStep s die = bootFail u die code) :
    bootNow s die = u.modDie die (fun d => { d with bootCode := code, bootStop := true, held := [] }) := by
  have now : (bootFail u die code).die die = { u.die die with bootCode := code, bootStop := true } := State.die_modDie_same ..
  rw [bootNow, step, releaseHeld, now]
  simp only [h.awake, h.none, Bool.false_eq_true, if_false]
  exact State.modDie_modDie ..

theorem bootNow_goes {n : Nat} (h : Serves u die) (step : bootStep s die = bootDone u die n) :
    bootNow s die = u.modDie die (fun d => { d with bootStage := n, bootNext := n + 1, held := [] }) := by
  have now : (bootDone u die n).die die = { u.die die with bootStage := n, bootNext := n + 1 } := State.die_modDie_same ..
  rw [bootNow, step, releaseHeld, now]
  simp only [h.awake, h.none, Bool.false_eq_true, if_false]
  exact State.modDie_modDie ..

/-- A boot that waits. -/
theorem bootNow_waits (h : Serves s die) (step : bootStep s die = s) : bootNow s die = s.modDie die (fun d => { d with held := [] }) := by
  rw [bootNow, step, releaseHeld]
  simp only [h.awake, h.none, Bool.false_eq_true, if_false]
  rfl

/-- A die whose partner has stopped (R407). -/
theorem bootNow_partner (hd : die < 2) (runs : (s.die die).bootStop = false) (hp : s.pstate = 0) (partner : (s.die (1 - die)).bootStop = true)
    (next : (s.die die).bootNext < 6) (none : (s.die die).held = []) :
    bootNow s die = s.modDie die (fun d => { d with bootCode := 7, bootStop := true, held := [] }) := by
  have goes : ¬ (2 ≤ die ∨ s.pstate ≠ 0 ∨ (s.die die).bootStop = true ∨ 6 ≤ (s.die die).bootNext) := by simp [runs, hp]; omega
  have step : bootStep s die = bootFail s die 7 := by
    unfold bootStep
    dsimp only
    rw [if_neg goes, if_pos partner]
  have now : (bootFail s die 7).die die = { s.die die with bootCode := 7, bootStop := true } := State.die_modDie_same ..
  rw [bootNow, step, releaseHeld, now]
  cases (s.die die).asleep with
  | true =>
    refine (if_pos rfl).trans (State.modDie_congr ?_)
    rw [none]
  | false =>
    simp only [none, Bool.false_eq_true, if_false]
    exact State.modDie_modDie ..

section
variable (hd : die < 2) (runs : (s.die die).bootStop = false) (hp : s.pstate = 0) (partner : (s.die (1 - die)).bootStop = false)
include hd runs hp partner

theorem bootStep_stage (next : (s.die die).bootNext < 6) : bootStep s die = match (s.die die).bootNext with
    | 1 => bootStage1 s die
    | 2 => bootStage2 s die
    | 3 => bootStage3 s die
    | 4 => (bootDone s die 4).modDie die (fun d => { d with asleep := false })
    | _ => bootStage5 s die := by
  have goes : ¬ (2 ≤ die ∨ s.pstate ≠ 0 ∨ (s.die die).bootStop = true ∨ 6 ≤ (s.die die).bootNext) := by simp [runs, hp]; omega
  unfold bootStep
  dsimp only
  exact (if_neg goes).trans (if_neg (by simp [partner]))

theorem bootStep_one (next : (s.die die).bootNext = 1) : bootStep s die = bootStage1 s die := by
  simp only [bootStep_stage hd runs hp partner (by omega : (s.die die).bootNext < 6), next]

theorem bootStep_two (next : (s.die die).bootNext = 2) : bootStep s die = bootStage2 s die := by
  simp only [bootStep_stage hd runs hp partner (by omega : (s.die die).bootNext < 6), next]

theorem bootStep_three (next : (s.die die).bootNext = 3) : bootStep s die = bootStage3 s die := by
  simp only [bootStep_stage hd runs hp partner (by omega : (s.die die).bootNext < 6), next]

theorem bootStep_five (next : (s.die die).bootNext = 5) : bootStep s die = bootStage5 s die := by
  simp only [bootStep_stage hd runs hp partner (by omega : (s.die die).bootNext < 6), next]

/-- At stage 4 the accesses that were held are performed (R405, R407). -/
theorem bootNow_four (next : (s.die die).bootNext = 4) : bootNow s die = (s.die die).held.foldl (performHeld die)
    (s.modDie die (fun d => { d with bootStage := 4, bootNext := 5, asleep := false, held := [] })) := by
  have step : bootStep s die = s.modDie die (fun d => { d with bootStage := 4, bootNext := 5, asleep := false }) := by
    simp only [bootStep_stage hd runs hp partner (by omega : (s.die die).bootNext < 6), next]
    exact State.modDie_modDie ..
  have now : (s.modDie die (fun d => { d with bootStage := 4, bootNext := 5, asleep := false })).die die =
      { s.die die with bootStage := 4, bootNext := 5, asleep := false } := State.die_modDie_same ..
  rw [bootNow, step, releaseHeld, now, State.modDie_modDie]
  exact if_neg Bool.false_ne_true

end

theorem bootStage1_cases (s : State) (die : Nat) :
    (∀ c, takeBlock s die 4 (s.flashBlock 4) = .error c → bootStage1 s die = bootFail s die c) ∧
    (∀ c u, takeBlock s die 4 (s.flashBlock 4) = .ok u → takeBlock u die 1 (u.flashBlock 1) = .error c → bootStage1 s die = bootFail u die c) ∧
    (∀ u w, takeBlock s die 4 (s.flashBlock 4) = .ok u → takeBlock u die 1 (u.flashBlock 1) = .ok w →
      bootStage1 s die = if linksUp (trainLinks w) then bootDone (trainLinks w) die 1 else bootFail (trainLinks w) die 4) := by
  refine ⟨fun c h => ?_, fun c u h k => ?_, fun u w h k => ?_⟩
  · simp only [bootStage1, h]
  · simp only [bootStage1, h, k]
  · simp only [bootStage1, h, k]

theorem bootStage2_cases (s : State) (die : Nat) :
    (∀ c, takeBlock s die 2 (s.flashBlock 2) = .error c → bootStage2 s die = bootFail s die (max 2 c)) ∧
    (∀ u, takeBlock s die 2 (s.flashBlock 2) = .ok u → bootStage2 s die =
      bootDone ((u.putBytes (ownBase die) (Signed.payload (s.flashBlock 2))).setHart (9 * die + 8)
        { Hart.init with runs := true, pc := BitVec.ofNat 64 (ownBase die) }) die 2) := by
  refine ⟨fun c h => ?_, fun u h => ?_⟩
  · simp only [bootStage2, h]
  · simp only [bootStage2, h]

theorem bootKernel_cases (s : State) (die : Nat) :
    (∀ c, takeBlock s die 3 (kernelBlock s die) = .error c → bootKernel s die = bootFail s die (max 2 c)) ∧
    (∀ w, takeBlock s die 3 (kernelBlock s die) = .ok w → bootKernel s die = bootDone (startHarts w die) die 5) := by
  refine ⟨fun c h => ?_, fun u h => ?_⟩
  · unfold bootKernel
    rw [h]
  · unfold bootKernel
    rw [h]

/-- Stage 3: memory that is written reads 0, and the stage is complete (R407). -/
theorem bootNow_three (h : Serves s die) (step : bootStep s die = bootStage3 s die) :
    ((s.drawFree 66).1 % 2 = 1 → bootNow s die = ({ s with free := s.free + 1 } : State).modDie die (fun d => { d with bootCode := 5, bootStop := true, held := [] })) ∧
    ((s.drawFree 66).1 % 2 = 0 → ((bootNow s die).die die).bootStage = 3 ∧ ((bootNow s die).die die).bootNext = 4 ∧
      ∀ a, (bootNow s die).byte a = if die * (192 * 2 ^ 30) ≤ a ∧ a < (die + 1) * (192 * 2 ^ 30) then 0 else s.byte a) := by
  refine ⟨fun odd => bootNow_fails (u := { s with free := s.free + 1 }) ⟨h.awake, h.none⟩ (step.trans (if_pos odd)), fun even => ?_⟩
  let inDie (a : Nat) : Bool := decide (die * (192 * 2 ^ 30) ≤ a) && decide (a < die * (192 * 2 ^ 30) + 192 * 2 ^ 30)
  let written : State := { s with
    free := s.free + 1
    mem := s.mem.filter (fun c => !inDie c.1)
    memPoison := s.memPoison.filter (fun p => !inDie (8 * p.1)) }
  let named : State := written.modDie die (fun d => { d with idhash := sha256 (beBytes (Config.identityKey 0 % 2 ^ 3072) 384) })
  have done : bootStep s die = bootDone named die 3 := step.trans (if_neg (fun odd => absurd (even.symm.trans odd) (by decide)))
  have serves : Serves named die := by
    refine Serves.of_die (s := s) h ?_
    have now : named.die die = { s.die die with idhash := sha256 (beBytes (Config.identityKey 0 % 2 ^ 3072) 384) } := State.die_modDie_same ..
    rw [now]
    exact ⟨rfl, rfl⟩
  rw [bootNow_goes serves done, State.die_modDie_same]
  refine ⟨rfl, rfl, fun a => ?_⟩
  have place : (die + 1) * (192 * 2 ^ 30) = die * (192 * 2 ^ 30) + 192 * 2 ^ 30 := Nat.succ_mul ..
  by_cases ha : die * (192 * 2 ^ 30) ≤ a ∧ a < die * (192 * 2 ^ 30) + 192 * 2 ^ 30
  · rw [place, if_pos ha]
    exact SMap.get_filter_out 0 _ (fun v => by simp [inDie]; omega) s.mem
  · rw [place, if_neg ha]
    exact SMap.get_filter_in 0 _ (fun v => by simp [inDie]; omega) s.mem

/-- The system cores of a die start at the kernel's entry. -/
theorem startHarts_starts (s : State) (die : Nat) : (∀ d, (startHarts s die).die d = s.die d) ∧ ∀ n, n < 8 →
    (startHarts s die).hart (9 * die + n) = { Hart.init with runs := true, pc := BitVec.ofNat 64 (kernelBase die + 448) } := by
  have fold : ∀ (l : List Nat) (s : State) (x : Hart),
      let u := l.foldl (fun s h => s.setHart (9 * die + h) x) s
      (∀ d, u.die d = s.die d) ∧ (∀ n ∈ l, u.hart (9 * die + n) = x) ∧ ∀ n, s.hart (9 * die + n) = x → u.hart (9 * die + n) = x := by
    intro l
    induction l with
    | nil => exact fun s x => ⟨fun _ => rfl, fun n h => absurd h List.not_mem_nil, fun n h => h⟩
    | cons k r ih =>
      intro s x
      obtain ⟨dies, started, kept⟩ := ih (s.setHart (9 * die + k) x) x
      refine ⟨fun d => (dies d).trans rfl, fun n hn => ?_, fun n hn => kept n ?_⟩
      · obtain rfl | hn := List.mem_cons.1 hn
        · exact kept n (State.hart_setHart_same ..)
        · exact started n hn
      · by_cases here : n = k
        · subst here
          exact State.hart_setHart_same ..
        · exact (SMap.get_set_ne _ _ _ (by omega)).trans hn
  obtain ⟨dies, started, -⟩ := fold (List.range 8) s { Hart.init with runs := true, pc := BitVec.ofNat 64 (kernelBase die + 448) }
  exact ⟨dies, fun n hn => started n (List.mem_range.2 hn)⟩

end

/-! ### Attestation -/

theorem attRequest_copies {s : State} {die : Nat} (hd : die < 2) (idle : (s.die die).attCopy = none) : attRequest s die =
    s.modDie die (fun d => { d with attCopy := some (beNat (wordBytes ((List.range 4).map (fun i => SMap.get 0 d.attn i)))) }) := by
  rw [attRequest, if_neg (by simp [idle, hd])]
  rfl

theorem beBytes_length (n len : Nat) : (beBytes n len).length = len := by simp [beBytes]

/-- A report with its signature has 616 bytes, the nonce first (R410). -/
theorem report_signed (d : Die) (n sig : Nat) :
    (report d n ++ beBytes sig 384).length = 616 ∧ (report d n ++ beBytes sig 384).take 32 = beBytes n 32 := by
  constructor
  · simp [report, beBytes_length, wordBytes]
  · have nonce : (beBytes n 32).length = 32 := beBytes_length n 32
    simp only [report, List.append_assoc]
    rw [List.take_append_of_le_length (by omega), List.take_of_length_le (by omega)]

/-- A bank of words that is written from its first one on. -/
theorem SMap.get_foldl_set {α : Type} [DecidableEq α] (d : α) (f : Nat → α) (l : List Nat) (i : Nat) : ∀ m : SMap α,
    SMap.get d (l.foldl (fun m i => SMap.set d m i (f i)) m) i = if i ∈ l then f i else SMap.get d m i := by
  induction l with
  | nil => exact fun m => rfl
  | cons k r ih =>
    intro m
    rw [List.foldl_cons, ih]
    by_cases hr : i ∈ r
    · rw [if_pos hr, if_pos (List.mem_cons_of_mem _ hr)]
    · by_cases hk : i = k
      · subst hk
        rw [if_neg hr, if_pos List.mem_cons_self, SMap.get_set_same]
      · rw [if_neg hr, if_neg (by simp [hr, hk]), SMap.get_set_ne _ _ _ hk]

theorem attFinish_delivers {s : State} {die n : Nat} (building : (s.die die).attCopy = some n) :
    ∃ buf, attFinish s die = s.modDie die (fun d => { d with attbuf := buf, attDone := true, attCopy := none }) ∧
      ∀ i, SMap.get 0 buf i = if i < 77 then BitVec.ofNat 64
        (Signed.le (report (s.die die) n ++ beBytes (identitySign (sha256 (report (s.die die) n))) 384) (8 * i) 8) else SMap.get 0 (s.die die).attbuf i := by
  let bytes := report (s.die die) n ++ beBytes (identitySign (sha256 (report (s.die die) n))) 384
  refine ⟨(List.range 77).foldl (fun m i => SMap.set 0 m i (BitVec.ofNat 64 (Signed.le bytes (8 * i) 8))) (s.die die).attbuf,
    by unfold attFinish; simp only [building]; rfl, fun i => ?_⟩
  rw [SMap.get_foldl_set]
  simp only [List.mem_range, bytes]

end Sys2Proof.Machine

/-! ## Who may write which register (18_host.md R393, R394, R396, R400, R402, R409, 14_dispatch.md R309, R319) -/

namespace Sys2Proof.Machine

section
variable {s : State} {die off asid : Nat} {who : Writer} {v : W64}

/-- Only a write into a copy engine's window, into a pool's, or of LQADD may have to wait (17_reliability.md R392). -/
theorem windowWaits_false (copy : ¬ (0x20000 ≤ off ∧ off < 0x20000 + 0x100 * 52)) (pool : ¬ (0x30000 ≤ off ∧ off < 0x30400)) (lq : off ≠ 0x100000) :
    windowWaits s die asid off v = false := by
  rw [windowWaits, if_neg copy, if_neg pool, beq_eq_false_iff_ne.2 lq, Bool.false_and]

/-- An agent that is listed for no window. -/
theorem windowWrite_other : windowWrite s die .other asid off v = s := if_pos (.inr rfl)

/-- The device header is read only. -/
theorem windowWrite_header (h : off < 0x10000) : windowWrite s die who asid off v = s := by
  unfold windowWrite
  refine ite_eq_left_iff.2 (fun _ => ite_eq_left_iff.2 (fun _ => ?_))
  repeat rw [if_neg (by omega)]

/-- The windows that are not the host's. -/
theorem windowWrite_host_unlisted (h : off < 0x200000 ∨ (0x202000 ≤ off ∧ off < 0x220000)) : windowWrite s die .host asid off v = s := by
  have v1 : ¬ (0x200000 ≤ off ∧ off < 0x201000) := by omega
  have v2 : ¬ (0x201000 ≤ off ∧ off < 0x202000) := by omega
  have power : ¬ (0x220000 ≤ off ∧ off < 0x221000) := by omega
  have boot : ¬ (0x230000 ≤ off ∧ off < 0x231000) := by omega
  unfold windowWrite
  rw [if_neg v1, if_neg v2, if_neg power, if_neg boot]
  simp [inside]

section
variable (aligned : off % 8 = 0) (listed : who ≠ .other) (goes : (inside who && windowWaits s die asid off v) = false)
include aligned listed goes

theorem windowWrite_sealing (h : 0x10000 ≤ off ∧ off < 0x11000) (may : inside who = true) :
    windowWrite s die who asid off v = sealWrite s die asid ((off - 0x10000) / 8) v := by
  unfold windowWrite
  rw [if_neg (by simp [aligned, listed]), if_neg (by simp only [goes]; decide), if_pos h, if_pos may]

theorem windowWrite_copy (h : 0x20000 ≤ off ∧ off < 0x20000 + 0x100 * 52) (may : inside who = true) :
    windowWrite s die who asid off v = copyWrite s die ((off - 0x20000) / 0x100) asid (off % 0x100 / 8) v := by
  unfold windowWrite
  rw [if_neg (by simp [aligned, listed]), if_neg (by simp only [goes]; decide)]
  repeat rw [if_neg (by omega)]
  rw [if_pos h, if_pos may]

theorem windowWrite_pool (h : 0x30000 ≤ off ∧ off < 0x30400) (may : inside who = true) :
    windowWrite s die who asid off v = poolWrite s ⟨die, (off - 0x30000) / 0x40⟩ (off % 0x40 / 8) v := by
  unfold windowWrite
  rw [if_neg (by simp [aligned, listed]), if_neg (by simp only [goes]; decide)]
  repeat rw [if_neg (by omega)]
  rw [if_pos h, if_pos may]

theorem windowWrite_translation (h : 0x40000 ≤ off ∧ off < 0x41000) (may : inside who = true) :
    windowWrite s die who asid off v = translationWrite s die ((off - 0x40000) / 8) v := by
  unfold windowWrite
  rw [if_neg (by simp [aligned, listed]), if_neg (by simp only [goes]; decide)]
  repeat rw [if_neg (by omega)]
  rw [if_pos h, if_pos may]

theorem windowWrite_reliability (h : 0x50000 ≤ off ∧ off < 0x51000) (may : inside who = true) :
    windowWrite s die who asid off v = reliabilityWrite s die ((off - 0x50000) / 8) v := by
  unfold windowWrite
  rw [if_neg (by simp [aligned, listed]), if_neg (by simp only [goes]; decide)]
  repeat rw [if_neg (by omega)]
  rw [if_pos h, if_pos may]

theorem windowWrite_dispatch (h : 0x100000 ≤ off ∧ off < 0x180000) (may : inside who = true) :
    windowWrite s die who asid off v = dispatchWindow s die who asid (off - 0x100000) v := by
  unfold windowWrite
  rw [if_neg (by simp [aligned, listed]), if_neg (by simp only [goes]; decide)]
  repeat rw [if_neg (by omega)]
  rw [if_pos h, if_pos may]

theorem windowWrite_hostV1 (h : 0x200000 ≤ off ∧ off < 0x201000) :
    windowWrite s die who asid off v = hostWrite s die false ((off - 0x200000) / 8) v := by
  unfold windowWrite
  rw [if_neg (by simp [aligned, listed]), if_neg (by simp only [goes]; decide)]
  repeat rw [if_neg (by omega)]
  rw [if_pos h]

theorem windowWrite_ports (h : 0x210000 ≤ off ∧ off < 0x211000) (may : inside who = true) :
    windowWrite s die who asid off v = portsWrite s die ((off - 0x210000) / 8) v := by
  unfold windowWrite
  rw [if_neg (by simp [aligned, listed]), if_neg (by simp only [goes]; decide)]
  repeat rw [if_neg (by omega)]
  rw [if_pos h, if_pos may]

theorem windowWrite_power (h : 0x220000 ≤ off ∧ off < 0x221000) : windowWrite s die who asid off v = powerWrite s who ((off - 0x220000) / 8) v := by
  unfold windowWrite
  rw [if_neg (by simp [aligned, listed]), if_neg (by simp only [goes]; decide)]
  repeat rw [if_neg (by omega)]
  rw [if_pos h]

theorem windowWrite_boot (h : 0x230000 ≤ off ∧ off < 0x231000) : windowWrite s die who asid off v = bootWrite s die who ((off - 0x230000) / 8) v := by
  unfold windowWrite
  rw [if_neg (by simp [aligned, listed]), if_neg (by simp only [goes]; decide)]
  repeat rw [if_neg (by omega)]
  rw [if_pos h]

end

/-- DCMD, DEVQ and the two tables are not the kernel's (R319). -/
theorem windowWrite_kernel_dispatch (h : off = 0x100018 ∨ off = 0x100028 ∨ (0x110000 ≤ off ∧ off < 0x11A000) ∨ (0x120000 ≤ off ∧ off < 0x160000)) :
    windowWrite s die .kernel asid off v = s := by
  by_cases aligned : off % 8 = 0
  · have goes : (inside .kernel && windowWaits s die asid off v) = false := by
      rw [windowWaits_false (by omega) (by omega) (by omega), Bool.and_false]
    rw [windowWrite_dispatch aligned (by decide) goes (by omega) rfl, dispatchWindow]
    obtain h | h | h | h := h
    · subst h
      rfl
    · subst h
      rfl
    · rw [if_pos (by omega)]
      rfl
    · rw [if_neg (by omega), if_pos (by omega)]
      rfl
  · exact if_pos (.inl aligned)

/-- The kernel's writes, as system core 0's. -/
theorem registerWrite_kernel (hd : die < 2) (h : s.pstate = 0) :
    registerWrite s die .kernel off v = windowWrite s die .kernel (satpAsid (s.hart (9 * die))) off v := by
  rw [registerWrite, if_neg (by omega)]
  exact if_neg (by simp [h])

theorem registerWrite_kernel_nothing (nothing : ∀ a, windowWrite s die .kernel a off v = s) : registerWrite s die .kernel off v = s := by
  rw [registerWrite]
  split
  · rfl
  · exact ite_eq_left_iff.2 (fun _ => nothing _)

theorem registerWrite_management (hd : die < 2) : registerWrite s die .management off v = windowWrite s die .management 0 off v := if_neg (by omega)

end

section
variable {s : State} {die : Nat} {who : Writer} {v : W64}

/-- A field from bit 0. -/
theorem fieldOf_low (v : W64) (hi : Nat) : fieldOf v hi 0 = v.toNat % 2 ^ (hi + 1) := by
  rw [fieldOf, Nat.pow_zero, Nat.div_one, Nat.sub_zero]

/-- A register that waits for nothing is written in this step. -/
theorem goes_at {off asid : Nat} (copy : ¬ (0x20000 ≤ off ∧ off < 0x20000 + 0x100 * 52)) (pool : ¬ (0x30000 ≤ off ∧ off < 0x30400)) (lq : off ≠ 0x100000) :
    (inside who && windowWaits s die asid off v) = false := by
  rw [windowWaits_false copy pool lq, Bool.and_false]

theorem registerWrite_ecntc (hd : die < 2) :
    registerWrite s die .management 0x50000 v = s.modDie die (fun d => { d with ecntc := v.toNat % 2 ^ 32 }) := by
  rw [registerWrite_management hd, windowWrite_reliability rfl (by decide) (goes_at (by omega) (by omega) (by omega)) (by omega) rfl, ← fieldOf_low v 31]
  rfl

theorem registerWrite_devq (hd : die < 2) :
    registerWrite s die .management 0x100028 v = s.modDie die (fun d => { d with devq := v &&& 0xF800FFFFFFFFFFFF }) := by
  rw [registerWrite_management hd, windowWrite_dispatch rfl (by decide) (goes_at (by omega) (by omega) (by omega)) (by omega) rfl]
  rfl

theorem registerWrite_cqErr (hd : die < 2) (bit : v.getLsbD 7 = true) :
    registerWrite s die .management 0x20010 v = s.modEngine die 0 (fun e => { e with err := false }) := by
  rw [registerWrite_management hd, windowWrite_copy rfl (by decide) (by rw [windowWaits, if_pos (by omega)]; rfl) (by omega) rfl]
  exact if_pos bit

theorem bootWrite_attn {i : Nat} (hi : i < 4) (listed : (who == .host || who == .kernel) = true) :
    bootWrite s die who ((0x230040 + 8 * i - 0x230000) / 8) v = s.modDie die (fun d => { d with attn := SMap.set 0 d.attn i v }) := by
  have place : (0x230040 + 8 * i - 0x230000) / 8 = 8 + i := by omega
  have index : 8 + i - 8 = i := by omega
  unfold bootWrite
  dsimp only
  rw [place, if_neg (by omega), if_pos (by omega), if_pos listed, index]

section
variable (hd : die < 2) (h : s.pstate = 0)
include hd h

theorem registerWrite_fring :
    registerWrite s die .kernel 0x40018 v = s.modDie die (fun d => { d with fring := v &&& 0xF800FFFFFFFFFFFF }) := by
  rw [registerWrite_kernel hd h, windowWrite_translation rfl (by decide) (goes_at (by omega) (by omega) (by omega)) (by omega) rfl]
  rfl

theorem registerWrite_sealOvf (bit : v.getLsbD 5 = true) :
    registerWrite s die .kernel 0x10010 v = s.modDie die (fun d => { d with sealOvf := false }) := by
  rw [registerWrite_kernel hd h, windowWrite_sealing rfl (by decide) (goes_at (by omega) (by omega) (by omega)) (by omega) rfl]
  exact if_pos bit

theorem registerWrite_nblk (off : (s.poolAt ⟨die, 0⟩).en = false) :
    registerWrite s die .kernel 0x30010 v = s.modPool ⟨die, 0⟩ (fun p => { p with nblk := v.toNat % 2 ^ 32 }) := by
  rw [registerWrite_kernel hd h, windowWrite_pool rfl (by decide) (by rw [windowWaits, if_neg (by omega), if_pos (by omega)]; rfl) (by omega) rfl,
    ← fieldOf_low v 31]
  unfold poolWrite
  dsimp only
  rw [if_neg (by decide), off]
  rfl

theorem registerWrite_netcfg : registerWrite s die .kernel 0x210000 v = s.modDie die (fun d => { d with netcfg := netcfgKept v }) := by
  rw [registerWrite_kernel hd h, windowWrite_ports rfl (by decide) (goes_at (by omega) (by omega) (by omega)) (by omega) rfl]
  rfl

theorem registerWrite_kernel_hold : registerWrite s die .kernel 0x220008 v = { s with hold := v.getLsbD 0 } := by
  rw [registerWrite_kernel hd h, windowWrite_power rfl (by decide) (goes_at (by omega) (by omega) (by omega)) (by omega)]
  show ({ powerWake s 3 with hold := v.getLsbD 0, hostP3 := (powerWake s 3).hostP3 } : State) = _
  rw [powerWake_awake 3 h]

theorem registerWrite_kernP3 : registerWrite s die .kernel 0x220010 v = { s with kernP3 := v.getLsbD 0 } := by
  rw [registerWrite_kernel hd h, windowWrite_power rfl (by decide) (goes_at (by omega) (by omega) (by omega)) (by omega)]
  rfl

theorem registerWrite_kernel_attn {i : Nat} (hi : i < 4) :
    registerWrite s die .kernel (0x230040 + 8 * i) v = s.modDie die (fun d => { d with attn := SMap.set 0 d.attn i v }) := by
  rw [registerWrite_kernel hd h, windowWrite_boot (by omega) (by decide) (goes_at (by omega) (by omega) (by omega)) (by omega)]
  exact bootWrite_attn hi rfl

end

/-- The management core has no register of the boot window's that it writes, nor PKRN. -/
theorem registerWrite_management_nothing {off : Nat} (hd : die < 2) (aligned : off % 8 = 0)
    (h : off = 0x220010 ∨ off = 0x230008 ∨ ∃ i, i < 4 ∧ off = 0x230040 + 8 * i) : registerWrite s die .management off v = s := by
  rw [registerWrite_management hd]
  obtain h | h | ⟨i, hi, h⟩ := h
  · subst h
    rw [windowWrite_power aligned (by decide) (goes_at (by omega) (by omega) (by omega)) (by omega)]
    rfl
  · subst h
    rw [windowWrite_boot aligned (by decide) (goes_at (by omega) (by omega) (by omega)) (by omega)]
    rfl
  · rw [windowWrite_boot aligned (by decide) (goes_at (by omega) (by omega) (by omega)) (by omega)]
    unfold bootWrite
    dsimp only
    rw [if_neg (by omega), if_pos (by omega)]
    rfl

theorem registerWrite_kernel_kload : registerWrite s die .kernel 0x230008 v = s :=
  registerWrite_kernel_nothing (fun _ => by
    rw [windowWrite_boot rfl (by decide) (goes_at (by omega) (by omega) (by omega)) (by omega)]
    rfl)

section
variable (hd : die < 2) (up : (s.die die).hspeed ≠ 0) (stage : 4 ≤ (s.die die).bootStage) (awake : (s.die die).asleep = false) (h : s.pstate = 0)
include hd up stage awake h

theorem registerWrite_live (off : Nat) : registerWrite s die .host off v = windowWrite s die .host 0 off v :=
  (registerWrite_host hd).trans (hostAccess_live up stage awake h)

theorem registerWrite_host_pkrn : registerWrite s die .host 0x220010 v = s := by
  rw [registerWrite_live hd up stage awake h, windowWrite_power rfl (by decide) rfl (by omega)]
  rfl

theorem registerWrite_hcfg : registerWrite s die .host 0x200000 v = s.modDie die (fun d => { d with hcfg := v &&& 0xFFFFFFF000000001 }) := by
  rw [registerWrite_live hd up stage awake h, windowWrite_hostV1 rfl (by decide) rfl (by omega)]
  rfl

theorem registerWrite_host_hold : registerWrite s die .host 0x220008 v = { s with hold := v.getLsbD 0, hostP3 := v.getLsbD 1 } := by
  rw [registerWrite_live hd up stage awake h, windowWrite_power rfl (by decide) rfl (by omega)]
  show ({ powerWake s 3 with hold := v.getLsbD 0, hostP3 := v.getLsbD 1 } : State) = _
  rw [powerWake_awake 3 h]

theorem registerWrite_host_attn {i : Nat} (hi : i < 4) :
    registerWrite s die .host (0x230040 + 8 * i) v = s.modDie die (fun d => { d with attn := SMap.set 0 d.attn i v }) := by
  rw [registerWrite_live hd up stage awake h, windowWrite_boot (by omega) (by decide) rfl (by omega)]
  exact bootWrite_attn hi rfl

theorem kloadWrite_goes : kloadWrite s die = s.modDie die (fun d => { d with kload := true }) := by
  rw [kloadWrite, registerWrite_live hd up stage awake h, windowWrite_boot rfl (by decide) rfl (by omega)]
  have go : ((Writer.host == .host) && (1 : W64).getLsbD 0) = true := by decide
  unfold bootWrite kloadGo
  dsimp only
  rw [if_pos rfl, if_pos go, if_neg (by omega)]

end

end

/-! ### The statement -/

/-- Settles O56. -/
theorem portsPowerAndBoot : Obligations.PortsPowerAndBoot := by
  unfold Obligations.PortsPowerAndBoot
  intro s die hd d live faa cas point
  refine ⟨?bar2, ?peer, ?drive, fun up h => congrArg stepDone (driveInterrupt_notes hd up h), fun ns up h => congrArg stepDone (ltrMessage_notes hd up h),
    fun k deeper hk target => congrArg stepDone (powerEntry_shallow deeper hk target), ?deep,
    fun ev h h5 h4 => congrArg stepDone (powerWake_light h h5 h4), fun ev h h5 h4 => ⟨_, rfl, powerWake_deep hd h h5 h4⟩, blockCode_none,
    fun u t b => rfl, ?boot, fun runs hp partner next => congrArg stepDone (bootNow_four hd runs hp partner next),
    fun runs hp partner next none => congrArg stepDone (bootNow_partner hd runs hp partner next none),
    fun ⟨up, stage, awake, h⟩ => congrArg stepDone (kloadWrite_goes hd up stage awake h), fun idle => congrArg stepDone (attRequest_copies hd idle),
    ?report, ?registers⟩
  case bar2 =>
    intro off v cmp ho aligned held
    refine ⟨fun ⟨up, stage, awake, h⟩ plain => ?_, fun ⟨up, stage, awake, h⟩ xlat => ?_, fun up h asleep => ?_, fun up h awake stage => ?_⟩
    · have run : ∀ op, bar2Access s die off op 8 v cmp = memAccess s (.host die) (die * (192 * 2 ^ 30) + off) 8 op v cmp := fun op =>
        ((bar2Access_eq hd ho).trans (hostAccess_live up stage awake h)).trans (bar2Run_physical plain aligned)
      exact ⟨congrArg stepDone (run .write), congrArg stepDone (run .read),
        fun clean => ⟨congrArg stepDone ((run .cas).trans (memAccess_cas _ _ _ _ _ clean)),
          congrArg stepDone ((run .fetchAdd).trans (memAccess_fetchAdd _ _ _ _ _ clean))⟩,
        congrArg stepDone ((run .swap).trans (memAccess_swap ..))⟩
    · have run : ∀ op, bar2Access s die off op 8 v cmp = portAccess s (.host die) die 7 (fieldOf d.hcfg 63 48)
          (sx48 (fieldOf d.hcfg 47 36 * 2 ^ 36 + off)) 8 op v cmp := fun op =>
        ((bar2Access_eq hd ho).trans (hostAccess_live up stage awake h)).trans (bar2Run_translated xlat)
      have place : sx48 (fieldOf d.hcfg 47 36 * 2 ^ 36 + off) % 8 = 0 := sx48_aligned (by omega)
      exact ⟨fun pa p u page near => congrArg stepDone ((run .write).trans (portAccess_ok place page near)),
        fun pa p u page near => congrArg stepDone ((run .read).trans (portAccess_ok place page near)),
        fun l u page => congrArg stepDone ((run .write).trans (portAccess_absent place page))⟩
    · exact ⟨congrArg stepDone ((bar2Access_eq hd ho).trans (hostAccess_held up asleep h)),
        congrArg stepDone ((registerWrite_host hd).trans (hostAccess_held up asleep h))⟩
    · exact ⟨congrArg stepDone ((bar2Access_eq hd ho).trans (hostAccess_dropped up stage awake h)),
        congrArg stepDone ((registerWrite_host hd).trans (hostAccess_dropped up stage awake h))⟩
  case peer =>
    intro va v cmp pa p u up h aligned near tr
    exact ⟨fun page => congrArg stepDone (peerRequest_ok (op := .write) hd up h aligned near page),
      fun page => congrArg stepDone (peerRequest_ok (op := .read) hd up h aligned near page),
      fun page => congrArg stepDone ((peerRequest_ok (op := .swap) hd up h aligned near page).trans (memAccess_swap ..)),
      fun page clean => ⟨congrArg stepDone ((peerRequest_ok (op := .cas) hd up h aligned near page).trans (memAccess_cas _ _ _ _ _ clean)),
        congrArg stepDone ((peerRequest_ok (op := .fetchAdd) hd up h aligned near page).trans (memAccess_fetchAdd _ _ _ _ _ clean))⟩⟩
  case drive =>
    intro va v pa p u up h aligned near tr
    exact ⟨fun page => congrArg stepDone (storageDma_ok (op := .write) hd up h aligned near (by decide) page),
      fun page => congrArg stepDone (storageDma_ok (op := .read) hd up h aligned near (by decide) page)⟩
  case deep =>
    intro shallow target
    have now := deepSleep_die (s := s) hd
    refine ⟨deepSleep s, congrArg stepDone (powerEntry_deep shallow target), rfl, fun a ha => deepSleep_byte ha, fun c => rfl, rfl, rfl, rfl,
      fun n h48 h60 => deepSleep_link h48 h60, ?_⟩
    rw [now]
    refine ⟨rfl, rfl, rfl, rfl, rfl, rfl, rfl, ⟨rfl, rfl, rfl⟩, fun goes => ⟨if_neg ?_, rfl⟩⟩
    exact fun stopped => Bool.false_ne_true (goes.symm.trans stopped)
  case boot =>
    intro runs hp partner none awake fails goes
    have serves : Serves s die := ⟨awake, none⟩
    refine ⟨fun next => ?_, fun next => ?_, fun next => ?_, ?_⟩
    · have step := bootStep_one hd runs hp partner next
      obtain ⟨first, second, both⟩ := bootStage1_cases s die
      refine ⟨fun c h => congrArg stepDone (bootNow_fails serves (step.trans (first c h))),
        fun c u h k => congrArg stepDone (bootNow_fails (takeBlock_serves serves h) (step.trans (second c u h k))), fun u w h k => ?_⟩
      have trained : Serves (trainLinks w) die := by
        refine (takeBlock_serves (takeBlock_serves serves h) k).of_die ?_
        rw [trainLinks_die]
        exact ⟨rfl, rfl⟩
      have stage := step.trans (both u w h k)
      exact ⟨fun up => congrArg stepDone (bootNow_goes trained (stage.trans (if_pos up))),
        fun down => congrArg stepDone (bootNow_fails trained (stage.trans (if_neg (fun up => Bool.false_ne_true (down.symm.trans up)))))⟩
    · have step := bootStep_two hd runs hp partner next
      obtain ⟨stops, goesOn⟩ := bootStage2_cases s die
      refine ⟨fun c h => congrArg stepDone (bootNow_fails serves (step.trans (stops c h))), fun u h => ?_⟩
      refine congrArg stepDone (bootNow_goes ((takeBlock_serves serves h).of_die ?_) (step.trans (goesOn u h)))
      have same := State.putBytes_die die (Signed.payload (s.flashBlock 2)) u (ownBase die)
      exact ⟨congrArg Die.asleep same, congrArg Die.held same⟩
    · obtain ⟨stops, goesOn⟩ := bootNow_three serves (bootStep_three hd runs hp partner next)
      exact ⟨fun odd => congrArg stepDone (stops odd), fun even => ⟨_, rfl, goesOn even⟩⟩
    · intro next kernel
      have step := bootStep_five hd runs hp partner next
      have loads : ∀ u, Serves u die → bootStep s die = bootKernel u die → kernel u := fun u serves step => by
        obtain ⟨stops, starts⟩ := bootKernel_cases u die
        refine ⟨fun c h => congrArg stepDone (bootNow_fails serves (step.trans (stops c h))), fun w h => ?_⟩
        obtain ⟨dies, harts⟩ := startHarts_starts w die
        refine ⟨congrArg stepDone (bootNow_goes ((takeBlock_serves serves h).of_die ?_) (step.trans (starts w h))), fun n hn => ?_⟩
        · rw [dies]
          exact ⟨rfl, rfl⟩
        · rw [harts n hn]
          exact ⟨rfl, rfl⟩
      refine ⟨fun host waits => ?_, fun host given => ?_, fun flash empty => ?_, fun flash has => ?_⟩
      · refine congrArg stepDone (bootNow_waits serves (step.trans ?_))
        rw [bootStage5, if_pos host]
        exact if_neg (fun given => Bool.false_ne_true (waits.symm.trans given))
      · refine loads s serves (step.trans ?_)
        rw [bootStage5, if_pos host]
        exact if_pos given
      · refine congrArg stepDone (bootNow_fails serves (step.trans ?_))
        rw [bootStage5, if_neg (fun host => Bool.false_ne_true (flash.symm.trans host)), empty]
        rfl
      · refine loads _ (serves.of_die ?_) (step.trans ?_)
        · have same := State.putBytes_die die (Signed.whole (s.flashBlock 3)) s (kernelBase die)
          exact ⟨congrArg Die.asleep same, congrArg Die.held same⟩
        · rw [bootStage5, if_neg (fun host => Bool.false_ne_true (flash.symm.trans host))]
          exact if_neg (by simp [has])
  case report =>
    intro n building signed
    obtain ⟨size, nonce⟩ := report_signed d n (identitySign (sha256 (report d n)))
    obtain ⟨buf, done, words⟩ := attFinish_delivers building
    exact ⟨size, nonce, buf, congrArg stepDone done, words⟩
  case registers =>
    intro off v wrote
    refine ⟨congrArg stepDone ((if_neg (by omega)).trans windowWrite_other), fun h => ⟨?_, ?_⟩, fun ⟨up, stage, awake, h⟩ listed => ?_,
      fun h => congrArg stepDone (registerWrite_kernel_nothing (fun _ => windowWrite_kernel_dispatch h)),
      fun ⟨up, stage, awake, h⟩ => congrArg stepDone (registerWrite_host_pkrn hd up stage awake h),
      congrArg stepDone (registerWrite_management_nothing hd rfl (.inl rfl)), congrArg stepDone registerWrite_kernel_kload,
      congrArg stepDone (registerWrite_management_nothing hd rfl (.inr (.inl rfl))),
      fun i hi => congrArg stepDone (registerWrite_management_nothing hd (by omega) (.inr (.inr ⟨i, hi, rfl⟩))),
      congrArg stepDone (registerWrite_ecntc hd), congrArg stepDone (registerWrite_devq hd), fun bit => congrArg stepDone (registerWrite_cqErr hd bit),
      fun h => ⟨congrArg stepDone (registerWrite_fring hd h), fun bit => congrArg stepDone (registerWrite_sealOvf hd h bit),
        fun idle => congrArg stepDone (registerWrite_nblk hd h idle), congrArg stepDone (registerWrite_netcfg hd h),
        congrArg stepDone (registerWrite_kernel_hold hd h), congrArg stepDone (registerWrite_kernP3 hd h),
        fun i hi => congrArg stepDone (registerWrite_kernel_attn hd h hi)⟩,
      fun ⟨up, stage, awake, h⟩ => ⟨congrArg stepDone (registerWrite_hcfg hd up stage awake h),
        congrArg stepDone (registerWrite_host_hold hd up stage awake h), fun i hi => congrArg stepDone (registerWrite_host_attn hd up stage awake h hi)⟩⟩
    · exact congrArg stepDone (registerWrite_kernel_nothing (fun _ => windowWrite_header h))
    · exact congrArg stepDone ((registerWrite_management hd).trans (windowWrite_header h))
    · exact congrArg stepDone ((registerWrite_live hd up stage awake h off).trans (windowWrite_host_unlisted listed))

end Sys2Proof.Machine

/-! ## The canonical form of memory (04_memory.md): what reaches memory, and how it is kept

Memory is written through `State.setByte`, or has places left out. Everything else that a step does leaves it as it is, so that the canonical form is
carried through each definition along its own branches, loops and calls. -/

namespace Sys2Proof.Machine

set_option Elab.async false

/-! ### Branches and loops -/

theorem State.MemOk.ite {p : Prop} [Decidable p] {s t : State} (hs : s.MemOk) (ht : t.MemOk) : (if p then s else t).MemOk := by
  split
  · exact hs
  · exact ht

/-- A state with the memory of one whose memory is in canonical form. -/
theorem State.MemOk.same {s t : State} (h : s.MemOk) (e : t.mem = s.mem := by rfl) : t.MemOk := by
  rw [State.MemOk, e]
  exact h

theorem State.MemOk.foldl {α : Type} {f : State → α → State} {l : List α} {s : State} (hf : ∀ (t : State) (x : α), t.MemOk → (f t x).MemOk)
    (hs : s.MemOk) : (l.foldl f s).MemOk := by
  induction l generalizing s with
  | nil => exact hs
  | cons x r ih => exact ih (hf s x hs)

theorem State.MemOk.foldr {α : Type} {f : α → State → State} {l : List α} {s : State} (hf : ∀ (x : α) (t : State), t.MemOk → (f x t).MemOk)
    (hs : s.MemOk) : (l.foldr f s).MemOk := by
  induction l with
  | nil => exact hs
  | cons x r ih => exact hf x _ ih

/-- A state that there may be has its memory in canonical form. -/
def MaybeMemOk (o : Option State) : Prop := ∀ t, o = some t → t.MemOk

theorem MaybeMemOk.some {s : State} (h : s.MemOk) : MaybeMemOk (some s) := fun _ he => Option.some.inj he ▸ h

theorem MaybeMemOk.none : MaybeMemOk none := nofun

theorem MaybeMemOk.ite {p : Prop} [Decidable p] {o q : Option State} (ho : MaybeMemOk o) (hq : MaybeMemOk q) : MaybeMemOk (if p then o else q) := by
  split
  · exact ho
  · exact hq

theorem State.MemOk.getD {o : Option State} {s : State} (ho : MaybeMemOk o) (hs : s.MemOk) : (o.getD s).MemOk := by
  cases o with
  | none => exact hs
  | some t => exact ho t rfl

/-- How a translation ends, its memory is in canonical form. -/
def Tr.MemOk : Tr → Prop
  | .ok _ _ s => s.MemOk
  | .absent _ s => s.MemOk
  | .refused s => s.MemOk
  | .wait => True

theorem Tr.MemOk.of_ok {r : Tr} {pa : Nat} {pte : W64} {t : State} (h : r.MemOk) (e : r = .ok pa pte t) : t.MemOk := by
  rw [e] at h
  exact h

theorem Tr.MemOk.of_absent {r : Tr} {l : Nat} {t : State} (h : r.MemOk) (e : r = .absent l t) : t.MemOk := by
  rw [e] at h
  exact h

theorem Tr.MemOk.of_refused {r : Tr} {t : State} (h : r.MemOk) (e : r = .refused t) : t.MemOk := by
  rw [e] at h
  exact h

theorem Tr.MemOk.ite {p : Prop} [Decidable p] {r q : Tr} (hr : r.MemOk) (hq : q.MemOk) : (if p then r else q).MemOk := by
  split
  · exact hr
  · exact hq

/-- The effect of a slot, where it has one, keeps memory in canonical form. -/
def Verdict.MemOk : Verdict → Prop
  | .issued s => s.MemOk
  | .testing s => s.MemOk
  | _ => True

theorem Verdict.MemOk.ite {p : Prop} [Decidable p] {v w : Verdict} (hv : v.MemOk) (hw : w.MemOk) : (if p then v else w).MemOk := by
  split
  · exact hv
  · exact hw

theorem Verdict.MemOk.issued {s : State} (h : s.MemOk) : (Verdict.issued s).MemOk := h

theorem Verdict.MemOk.testing {s : State} (h : s.MemOk) : (Verdict.testing s).MemOk := h

theorem Verdict.MemOk.of_issued {v : Verdict} {s : State} (h : v.MemOk) (e : v = .issued s) : s.MemOk := by
  rw [e] at h
  exact h

theorem Verdict.MemOk.of_testing {v : Verdict} {s : State} (h : v.MemOk) (e : v = .testing s) : s.MemOk := by
  rw [e] at h
  exact h

theorem State.MemOk.of_fst {α : Type} {p : State × α} {t : State} {a : α} (h : p.1.MemOk) (e : p = (t, a)) : t.MemOk := by
  rw [e] at h
  exact h

theorem State.MemOk.of_snd {α : Type} {p : α × State} {t : State} {a : α} (h : p.2.MemOk) (e : p = (a, t)) : t.MemOk := by
  rw [e] at h
  exact h

/-! ### The operations on memory -/

section
variable {s : State} (h : s.MemOk)
include h

/-- Leaving places out keeps the canonical form. -/
theorem State.MemOk.filter (f : Nat × Byte → Bool) : Memory.wf (s.mem.filter f) = true := SMap.wfFrom_filter 0 s.mem f none h

theorem State.setByte_memOk {pa : Nat} {b : Byte} : (s.setByte pa b).MemOk := s.wf_setByte pa b h

theorem State.writeN_memOk {pa n v : Nat} : (s.writeN pa n v).MemOk := s.wf_writeN n pa v h

theorem State.putBytes_memOk {pa : Nat} {l : List Nat} : (s.putBytes pa l).MemOk := by
  induction l generalizing s pa with
  | nil => exact h
  | cons b r ih => exact ih (State.setByte_memOk h)

theorem State.clearBad_memOk {pa n : Nat} : (s.clearBad pa n).MemOk := .foldl (fun _ _ h => .ite h.same h) h

theorem State.setPts_memOk {a : Agent} {t : Nat} : (s.setPts a t).MemOk := by
  cases a
  all_goals exact h.same

theorem State.raise_memOk {a : Agent} {t : Nat} : (s.raise a t).MemOk := .ite h (State.setPts_memOk h)

theorem State.stampStore_memOk {a : Agent} {line : Nat} : (s.stampStore a line).MemOk := State.setPts_memOk h.same

theorem State.refreshL1_memOk {a : Agent} {line : Nat} : (s.refreshL1 a line).MemOk := by
  cases a with
  | core g => exact .ite h.same h
  | _ => exact h

theorem State.storePhys_memOk {a : Agent} {pa n v : Nat} : (s.storePhys a pa n v).MemOk :=
  .same (State.refreshL1_memOk (State.stampStore_memOk (State.clearBad_memOk (State.writeN_memOk h))))

theorem State.rmwPhys_memOk {a : Agent} {pa n : Nat} {f : Nat → Nat} : (s.rmwPhys a pa n f).2.2.MemOk := State.storePhys_memOk h

theorem State.loadHome_memOk {a : Agent} {pa lease : Nat} : (s.loadHome a pa lease).MemOk := State.setPts_memOk h.same

theorem State.loadPhys_memOk {a : Agent} {pa n : Nat} {bypass : Bool} : (s.loadPhys a pa n bypass).2.2.MemOk := by
  cases a with
  | core g =>
    unfold State.loadPhys
    dsimp only
    split
    · exact h.same
    · cases bypass with
      | true => exact State.loadHome_memOk h
      | false => exact (State.loadHome_memOk h).same
  | _ => exact State.loadHome_memOk h

theorem State.zeroBytes_memOk {pa n : Nat} : (s.zeroBytes pa n).MemOk := h.filter _

/-! ### Translation -/

theorem State.readAll_memOk {a : Agent} {l : List Nat} : (s.readAll a l).MemOk := .foldl (fun _ _ h => State.loadHome_memOk h) h

theorem walkTr_memOk {d : Nat} {a : Agent} {asid va : Nat} {acc : Acc} {k : Bool} : (walkTr s d a asid va acc k).MemOk := by
  unfold walkTr
  refine .ite h (.ite trivial (.ite (State.readAll_memOk h) ?_))
  split
  · exact State.readAll_memOk h
  · exact State.readAll_memOk h
  · refine .ite (State.readAll_memOk h) ?_
    exact State.MemOk.same (.ite (State.readAll_memOk h) (State.storePhys_memOk (State.readAll_memOk h)))

theorem translate_memOk {d : Nat} {a : Agent} {asid va : Nat} {acc : Acc} {k : Bool} : (translate s d a asid va acc k).MemOk := by
  unfold translate
  refine .ite h ?_
  split
  · exact .ite h (walkTr_memOk h)
  · exact walkTr_memOk h

end

/-! ### The steps of a command -/

/-- A step of a command that goes through keeps memory in canonical form. -/
def Eng.KeepsMem {α : Type} (m : Eng α) : Prop := ∀ s, s.MemOk → ∀ x, m.on s = .ok x → x.2.MemOk

namespace Eng.KeepsMem

variable {α β : Type} {m : Eng α}

theorem on {s : State} {x : α × State} (hm : m.KeepsMem) (h : s.MemOk) (e : m.on s = .ok x) : x.2.MemOk := hm s h x e

theorem pure {a : α} : (pure a : Eng α).KeepsMem := fun _ h _ e => Except.ok.inj e ▸ h

theorem bind {f : α → Eng β} (hm : m.KeepsMem) (hf : ∀ a, (f a).KeepsMem) : (m >>= f).KeepsMem := by
  intro s h x e
  rw [Eng.on_bind] at e
  cases hr : m.on s with
  | error _ => exact absurd (hr ▸ e) nofun
  | ok y => exact hf y.1 y.2 (hm s h y hr) x (by simpa only [hr] using e)

theorem ite {p : Prop} [Decidable p] {k : Eng α} (hm : m.KeepsMem) (hk : k.KeepsMem) : (if p then m else k).KeepsMem := by
  split
  · exact hm
  · exact hk

/-- A step that always goes through. -/
theorem step {f : State → α} {g : State → State} (hg : ∀ s, s.MemOk → (g s).MemOk) : Eng.KeepsMem (fun s => .ok (f s, g s)) :=
  fun s h _ e => Except.ok.inj e ▸ hg s h

/-- A step that never does. -/
theorem error {f : State → Stop} : Eng.KeepsMem (α := α) (fun s => .error (f s)) := fun _ _ _ e => nomatch e

theorem foldlM {f : β → α → Eng β} (hf : ∀ b a, (f b a).KeepsMem) {l : List α} {b : β} : (l.foldlM f b : Eng β).KeepsMem := by
  induction l generalizing b with
  | nil => exact pure
  | cons x r ih => exact bind (hf b x) (fun _ => ih)

theorem eFor {f : α → Eng Unit} (hf : ∀ a, (f a).KeepsMem) {l : List α} : (eFor l f).KeepsMem := by
  induction l with
  | nil => exact pure
  | cons x r ih => exact bind (hf x) (fun _ => ih)

end Eng.KeepsMem

theorem eTrans_keepsMem {w : Via} {va : Nat} {acc : Acc} : (eTrans w va acc).KeepsMem := by
  intro s h x e
  have now : eTrans w va acc s = .ok x := e
  unfold eTrans at now
  split at now
  · exact nomatch now
  · exact nomatch now
  · exact nomatch now
  · next ht =>
    split at now
    · cases now
      exact (translate_memOk h).of_ok ht
    · exact nomatch now

theorem efail_keepsMem {α : Type} {code : Nat} : (efail code : Eng α).KeepsMem := .error

theorem ewait_keepsMem {α : Type} : (ewait : Eng α).KeepsMem := .error

theorem epoison_keepsMem {α : Type} {kill : Bool} : (epoison kill : Eng α).KeepsMem := .error

theorem echeck_keepsMem {b : Bool} {code : Nat} : (echeck b code).KeepsMem := by
  intro s h x e
  have now : echeck b code s = .ok x := e
  unfold echeck at now
  split at now
  · cases now
    exact h
  · exact nomatch now

theorem ePool_keepsMem {r : PoolRef} : (ePool r).KeepsMem := .step (fun _ h => h)

theorem eReadN_keepsMem {w : Via} {va n : Nat} : (eReadN w va n).KeepsMem := by
  intro s h x e
  have now : eReadN w va n s = .ok x := e
  unfold eReadN at now
  split at now
  · exact nomatch now
  · next ht =>
    dsimp only at now
    split at now
    · exact nomatch now
    · cases now
      exact State.loadPhys_memOk (eTrans_keepsMem.on h ht)

theorem eRead_keepsMem {w : Via} {va : Nat} : (eRead w va).KeepsMem := by
  intro s h x e
  have now : eRead w va s = .ok x := e
  unfold eRead at now
  split at now
  · exact nomatch now
  · next ht =>
    cases now
    exact eReadN_keepsMem.on h ht

theorem eWrite_keepsMem {w : Via} {va : Nat} {v : W64} : (eWrite w va v).KeepsMem := by
  intro s h x e
  have now : eWrite w va v s = .ok x := e
  unfold eWrite at now
  split at now
  · exact nomatch now
  · next ht =>
    cases now
    exact State.storePhys_memOk (eTrans_keepsMem.on h ht)

theorem eRmw_keepsMem {w : Via} {va : Nat} {f : W64 → W64} : (eRmw w va f).KeepsMem := by
  intro s h x e
  have now : eRmw w va f s = .ok x := e
  unfold eRmw at now
  split at now
  · exact nomatch now
  · next ht =>
    dsimp only at now
    split at now
    · exact nomatch now
    · cases now
      exact State.storePhys_memOk (eTrans_keepsMem.on h ht)

theorem eReads_keepsMem {w : Via} {va n : Nat} : (eReads w va n).KeepsMem := by
  induction n generalizing va with
  | zero => exact .pure
  | succ n ih => exact .bind eRead_keepsMem (fun _ => .bind ih (fun _ => .pure))

theorem eWrites_keepsMem {w : Via} {va : Nat} {l : List W64} : (eWrites w va l).KeepsMem := by
  induction l generalizing va with
  | nil => exact .pure
  | cons x r ih => exact .bind eWrite_keepsMem (fun _ => ih)

/-- A command that has halted leaves what its walks have set in the tables. -/
theorem State.after_memOk {s : State} {a : Agent} {e : Stop} (h : s.MemOk) : (s.after a e).MemOk :=
by
  unfold State.after
  refine .foldr (fun t s h => ?_) (State.raise_memOk h.same)
  refine .ite h ?_
  refine .same (s := if s.word t.at_ = t.pte then s else s.storePhys t.agent t.at_ 8 t.pte.toNat) ?_
  exact .ite h (State.storePhys_memOk h)

end Sys2Proof.Machine

/-! ## The canonical form of memory: issue, traps, triggers and barriers -/

namespace Sys2Proof.Machine

set_option Elab.async false

/-! ### Parts of the state -/

theorem State.setCtx_memOk {s : State} {c : Nat} {x : Context} (h : s.MemOk) : (s.setCtx c x).MemOk := h.same

theorem State.modCtx_memOk {s : State} {c : Nat} {f : Context → Context} (h : s.MemOk) : (s.modCtx c f).MemOk := h.same

theorem State.setCore_memOk {s : State} {g : Nat} {x : Core} (h : s.MemOk) : (s.setCore g x).MemOk := h.same

theorem State.modCore_memOk {s : State} {g : Nat} {f : Core → Core} (h : s.MemOk) : (s.modCore g f).MemOk := h.same

theorem State.modDie_memOk {s : State} {d : Nat} {f : Die → Die} (h : s.MemOk) : (s.modDie d f).MemOk := h.same

theorem State.modTask_memOk {s : State} {t : Nat} {f : Task → Task} (h : s.MemOk) : (s.modTask t f).MemOk := h.same

theorem State.modWho_memOk {s : State} {tid rank : Nat} {f : Context → Context} (h : s.MemOk) : (s.modWho tid rank f).MemOk := by
  unfold State.modWho
  dsimp only
  split
  · exact h.same
  · exact .ite h.same h.same

/-! ### Memory -/

theorem State.setBad_memOk {s : State} {pa : Nat} {b : Bool} (h : s.MemOk) : (s.setBad pa b).MemOk := h.same

/-! ### Tokens (R112-R115) -/

theorem State.retireTok_memOk {s : State} {tid rank k t : Nat} (h : s.MemOk) : (s.retireTok tid rank k t).MemOk :=
  .ite (State.modWho_memOk h).same (State.modWho_memOk h)

/-! ### Stopping a task -/

theorem State.stopTask_memOk {s : State} {tid : Nat} {me : Option Nat} (h : s.MemOk) : (s.stopTask tid me).MemOk :=
  .foldl (fun _ _ h => .ite h.same h.same) h

theorem State.beginSave_memOk {s : State} {tid cause : Nat} {me : Option Nat} (h : s.MemOk) : (s.beginSave tid cause me).MemOk := by
  unfold State.beginSave
  dsimp only
  refine .ite (State.stopTask_memOk h).same ?_
  refine .ite ?_ h
  refine State.modTask_memOk ?_
  split
  · exact h.same
  · exact h

theorem State.beginKill_memOk {s : State} {tid code : Nat} (h : s.MemOk) : (s.beginKill tid code).MemOk :=
  .ite (State.modTask_memOk (.foldl (fun _ _ h => h.same) (State.stopTask_memOk h))) h

/-! ### Traps (05_control.md R147-R149) -/

theorem enterTrap_memOk {s : State} {c : Nat} {t : PendTrap} (h : s.MemOk) : (enterTrap s c t).MemOk := .ite (State.beginKill_memOk h.same) h.same

theorem takeTrap_memOk {s : State} {c code : Nat} {info : W64} {handle pc : Nat} (h : s.MemOk) : (takeTrap s c code info handle pc).MemOk :=
  .ite (enterTrap_memOk h.same) h.same

/-! ### The first-event log -/

theorem State.recordAt_memOk {s : State} {p : EvPlace} {ev : Cats} (h : s.MemOk) : (s.recordAt p ev).MemOk := .ite h (State.modWho_memOk h)

/-! ### The operand forms of slot words -/

theorem exposeS_memOk {s : State} {c slot n : Nat} {val : W64} {bound : Nat} {ev : Cats} (h : s.MemOk) : (exposeS s c slot n val bound ev).MemOk :=
  h.same

theorem exposeV_memOk {s : State} {c slot n : Nat} {val : Vec} {bound : Nat} {ev : Cats} (h : s.MemOk) : (exposeV s c slot n val bound ev).MemOk :=
  h.same

theorem landEntry_memOk {s : State} {c : Nat} {p : Pend} (h : s.MemOk) : (landEntry s c p).MemOk := by
  unfold landEntry
  dsimp only
  refine State.modCtx_memOk ?_
  refine .ite h ?_
  split
  all_goals exact h.same

theorem landAt_memOk {s : State} {c k : Nat} (h : s.MemOk) : (landAt s c k).MemOk := by
  unfold landAt
  dsimp only
  split
  · exact h
  · exact .ite h (landEntry_memOk h).same

theorem landDue_memOk {s : State} {c n : Nat} (h : s.MemOk) : (landDue s c n).MemOk := by
  induction n generalizing s with
  | zero => exact h
  | succ n ih =>
    unfold landDue
    dsimp only
    split
    · exact h
    · exact ih (landAt_memOk h).same

theorem agePend_memOk {s : State} {c : Nat} (h : s.MemOk) : (agePend s c).MemOk := .ite h (landDue_memOk h.same)

/-! ### Hold operands (R46, R47) -/

theorem readHeld_memOk {s : State} {c : Nat} {f : BitVec 6} (h : s.MemOk) : (readHeld s c f).2.MemOk := by
  unfold readHeld
  dsimp only
  split
  · exact h
  · split
    · exact h.same
    · split
      all_goals exact h

theorem readHeld2_memOk {s : State} {c : Nat} {fa fb : BitVec 6} (h : s.MemOk) : (readHeld2 s c fa fb).2.2.MemOk := by
  unfold readHeld2
  dsimp only
  split
  all_goals exact readHeld_memOk (readHeld_memOk h)

/-! ### Issued stores (R131, R132) -/

theorem performStore_memOk {s : State} {c : Nat} (h : s.MemOk) : (performStore s c).MemOk := by
  unfold performStore
  split
  · exact h
  · split
    · exact .ite h (State.storePhys_memOk h.same)
    · exact h

theorem flushN_memOk {s : State} {c n : Nat} (h : s.MemOk) : (flushN s c n).MemOk := by
  induction n generalizing s with
  | zero => exact h
  | succ n ih => exact ih (performStore_memOk h)

/-! ### Triggers (R30-R32) -/

theorem dispatchFault_memOk {s : State} {die asid va : Nat} {acc : Acc} {lvl queue tid serial : Nat} (h : s.MemOk) :
    (dispatchFault s die asid va acc lvl queue tid serial).MemOk :=
  h.same

theorem dispatchWrite_memOk {s : State} {w : DWrite} (h : s.MemOk) : (dispatchWrite s w).MemOk := by
  unfold dispatchWrite
  dsimp only
  refine .ite h ?_
  refine .ite (.ite (State.storePhys_memOk h) h.same) ?_
  split
  · next _ _ t1 ht =>
    refine .ite h.same ?_
    split
    · exact State.rmwPhys_memOk ((translate_memOk h).of_ok ht)
    · exact State.storePhys_memOk ((translate_memOk h).of_ok ht)
  · next _ t1 ht =>
    exact ((translate_memOk h).of_absent ht).same
  · next t1 ht =>
    exact .ite ((translate_memOk h).of_refused ht).same ((translate_memOk h).of_refused ht)
  · exact h.same

theorem triggerAll_memOk {s : State} {tid : Nat} (h : s.MemOk) : (triggerAll s tid).MemOk :=
  .ite h.same (dispatchWrite_memOk (State.raise_memOk h.same))

theorem resumeTrigger_memOk {s : State} {w : DWrite} (h : s.MemOk) : (resumeTrigger s w).MemOk :=
  .ite h (triggerAll_memOk (.foldl (fun _ _ h => flushN_memOk h) h))

theorem triggerGroup_memOk {s : State} {tid g : Nat} (h : s.MemOk) : (triggerGroup s tid g).MemOk := by
  unfold triggerGroup
  dsimp only
  split
  · exact h
  · exact .ite h (.ite (triggerAll_memOk h.same) h.same)

theorem earlyTrigger_memOk {s : State} {c : Nat} (h : s.MemOk) : (earlyTrigger s c).MemOk := by
  unfold earlyTrigger
  dsimp only
  split
  · exact flushN_memOk h
  · exact triggerGroup_memOk (flushN_memOk h)

theorem triggerGone_memOk {s : State} {tid : Nat} (h : s.MemOk) : (triggerGone s tid).MemOk := by
  unfold triggerGone
  dsimp only
  split
  · exact h
  · exact .foldl (fun _ _ h => .ite (triggerGroup_memOk h) h) h

/-! ### Barriers (R140) -/

theorem completeBar_memOk {s : State} {tid : Nat} {b : Barrier} (h : s.MemOk) : (completeBar s tid b).MemOk :=
  .ite (.foldl (fun _ _ h => State.raise_memOk h) (.foldl (fun _ _ h => State.modWho_memOk h) h.same)) h

theorem completeBars_memOk {s : State} {tid : Nat} (h : s.MemOk) : (completeBars s tid).MemOk := .foldl (fun _ _ h => completeBar_memOk h) h

theorem arriveBar_memOk {s : State} {c i : Nat} (h : s.MemOk) : (arriveBar s c i).MemOk :=
  .ite (flushN_memOk h).same (completeBar_memOk (flushN_memOk h).same)

theorem lateArrival_memOk {s : State} {c : Nat} (h : s.MemOk) : (lateArrival s c).MemOk := by
  unfold lateArrival
  dsimp only
  split
  · exact .ite (arriveBar_memOk h) h
  · exact h

/-! ### Exit (R28, R143) -/

theorem exitContext_memOk {s : State} {c : Nat} (h : s.MemOk) : (exitContext s c).MemOk :=
  .ite (flushN_memOk h).same (completeBars_memOk (triggerGone_memOk (flushN_memOk h).same))

/-! ### Issue of a bundle -/

/-- A slot keeps memory in canonical form, whatever it answers. -/
def SlotOp.KeepsMem (o : SlotOp) : Prop := ∀ c s, s.MemOk → (o.run c s).MemOk

/-- The slots of a bundle, and the answers that prevent its issue. -/
theorem runSlots_memOk {s : State} {c : Nat} {ops : List SlotOp} (ho : ∀ o ∈ ops, o.KeepsMem) (h : s.MemOk) :
    (runSlots c ops s).1.MemOk ∧ ∀ v ∈ (runSlots c ops s).2, v.MemOk := by
  induction ops generalizing s with
  | nil => exact ⟨h, nofun⟩
  | cons o r ih =>
    have rest {t : State} (ht : t.MemOk) := ih (fun o hm => ho o (List.mem_cons_of_mem _ hm)) ht
    have this := ho o List.mem_cons_self c s h
    unfold runSlots
    split
    · exact rest h
    · split
      · next hr => exact rest (this.of_issued hr)
      · exact ⟨(rest h).1, List.forall_mem_cons.mpr ⟨this, (rest h).2⟩⟩

theorem enterPending_memOk {s : State} {c : Nat} (h : s.MemOk) : (enterPending s c).MemOk := by
  unfold enterPending
  split
  · exact h
  · exact .ite h.same (enterTrap_memOk h)

theorem beginUnwind_memOk {s : State} {c : Nat} {info : W64} (h : s.MemOk) : (beginUnwind s c info).MemOk := .ite (enterPending_memOk h.same) h.same

theorem consume_memOk {s : State} {c : Nat} {info : W64} {contain : Bool} (h : s.MemOk) : (consume s c info contain).MemOk :=
  .ite (State.beginKill_memOk h) (.ite (beginUnwind_memOk h) (takeTrap_memOk h))

theorem boundaryTrap_memOk {s : State} {c code : Nat} {info : W64} (h : s.MemOk) : (boundaryTrap s c code info).MemOk :=
  .ite (takeTrap_memOk h.same) (takeTrap_memOk h)

theorem dataWait_memOk {s : State} {c : Nat} (h : s.MemOk) : (dataWait s c).MemOk := .ite (State.beginSave_memOk h.same) (takeTrap_memOk h)

theorem freezeCycle_memOk {s : State} {c spent : Nat} (h : s.MemOk) : (freezeCycle s c spent).MemOk := .ite (dataWait_memOk h.same) h.same

theorem blockContext_memOk {s : State} {c : Nat} {why : Block} {p : Patch} (h : s.MemOk) : (blockContext s c why p).MemOk := by
  unfold blockContext
  dsimp only
  split
  · exact h.same
  · exact State.setPts_memOk h.same
  · exact arriveBar_memOk h.same

/-! ### Scratchpad writes (04_memory.md R107, R109) -/

theorem finishIssue_memOk {s : State} {c : Nat} (h : s.MemOk) : (finishIssue s c).MemOk := by
  unfold finishIssue
  dsimp only
  split
  · exact State.setCtx_memOk (.ite h.same h.same)
  · exact State.setCtx_memOk (.ite h.same h.same)
  · exact State.setCtx_memOk (.ite h.same h.same)
  · exact exitContext_memOk (State.setCtx_memOk (.ite h.same h.same))
  · exact takeTrap_memOk (State.setCtx_memOk (.ite h.same h.same))
  · exact State.setCtx_memOk (.ite h.same h.same)
  · exact State.setCtx_memOk (.ite h.same h.same)
  · exact State.setCtx_memOk (.ite h.same h.same)
  · exact State.setCtx_memOk (.ite h.same h.same)

theorem sendAsk_memOk {s : State} {c : Nat} {q : SqCmd} (h : s.MemOk) : (sendAsk s c q).MemOk := .ite (flushN_memOk h).same (flushN_memOk h).same

theorem sendAsks_memOk {s : State} {c : Nat} {vs : List Verdict} (h : s.MemOk) : (sendAsks s c vs).MemOk := by
  induction vs with
  | nil => exact h
  | cons v r ih =>
    unfold sendAsks
    split
    · exact h
    · exact sendAsk_memOk h
    · next he => exact (List.cons.inj he).2 ▸ ih

theorem testedState_memOk {s : State} {c : Nat} {vs : List Verdict} (hv : ∀ v ∈ vs, v.MemOk) (h : s.MemOk) : (testedState s c vs).MemOk := by
  induction vs with
  | nil => exact h
  | cons v r ih =>
    obtain ⟨this, rest⟩ := List.forall_mem_cons.mp hv
    unfold testedState
    split
    · exact h
    · next he => exact (this.of_testing (List.cons.inj he).1).same
    · next he => exact (List.cons.inj he).2 ▸ ih rest

theorem absentSave_memOk {s : State} {c asid va : Nat} {acc : Acc} {lvl : Nat} (h : s.MemOk) : (absentSave s c asid va acc lvl).MemOk :=
  .ite (State.beginSave_memOk (State.beginSave_memOk h.same)) (State.beginSave_memOk h.same)

theorem lowestOf_mem {v : Verdict} {vs : List Verdict} (e : lowestOf vs = some v) : v ∈ vs := by
  induction vs with
  | nil => exact nomatch e
  | cons x r ih =>
    unfold lowestOf at e
    split at e
    · exact nomatch e
    · next he =>
      cases he
      split at e
      · next hr => exact List.mem_cons_of_mem _ (ih (hr.trans e))
      · exact Option.some.inj e ▸ List.mem_cons_self
    · next he =>
      cases he
      exact Option.some.inj e ▸ List.mem_cons_self

/-- The answer that is taken is one of those given. -/
theorem takenOf_mem {v : Verdict} {vs : List Verdict} (e : takenOf vs = some v) : v ∈ vs := by
  unfold takenOf at e
  split at e
  · next hl => exact List.mem_of_mem_filter (lowestOf_mem (hl.trans e))
  · exact List.mem_of_mem_head? e

theorem poisonRead_memOk {s : State} {c : Nat} {info : W64} {lease : Option Nat} (h : s.MemOk) : (poisonRead s c info lease).MemOk := by
  unfold poisonRead
  dsimp only
  split
  · exact h
  · split
    · next _ _ t1 ht =>
      exact .ite (State.setPts_memOk (flushN_memOk ((translate_memOk h).of_ok ht)).same) (State.loadPhys_memOk (flushN_memOk
        ((translate_memOk h).of_ok ht)))
    · exact h

theorem settle_memOk {s : State} {c : Nat} {vs : List Verdict} (hv : ∀ v ∈ vs, v.MemOk) (h : s.MemOk) : (settle s c vs).MemOk := by
  unfold settle
  split
  · split
    · exact absentSave_memOk h
    · exact freezeCycle_memOk (sendAsks_memOk (testedState_memOk hv h))
  · split
    · exact h
    · next v ht =>
      have taken := hv v (takenOf_mem ht)
      cases v with
      | issued => exact taken
      | freeze => exact freezeCycle_memOk h
      | block => exact blockContext_memOk h
      | trap => exact takeTrap_memOk h
      | absent => exact absentSave_memOk h
      | poison => exact consume_memOk (poisonRead_memOk h)
      | _ => exact h

theorem walkSlots_memOk {s : State} {c : Nat} {ops : List SlotOp} (h : s.MemOk) : (walkSlots c ops s).MemOk := by
  induction ops generalizing s with
  | nil => exact h
  | cons o r ih =>
    refine ih ?_
    split
    · exact h
    · refine .ite h ?_
      split
      · next ht => exact (translate_memOk h).of_ok ht
      · next ht => exact (translate_memOk h).of_absent ht
      · next ht => exact (translate_memOk h).of_refused ht
      · exact h

theorem issueSlots_memOk {s : State} {c : Nat} {ops : List SlotOp} (ho : ∀ o ∈ ops, o.KeepsMem) (h : s.MemOk) : (issueSlots c ops s).MemOk := by
  obtain ⟨ran, answers⟩ := runSlots_memOk (c := c) ho (walkSlots_memOk (c := c) (ops := ops) h)
  unfold issueSlots
  dsimp only
  split
  · next ht => exact finishIssue_memOk (ran.of_fst ht)
  · next ht => exact settle_memOk (by rwa [ht] at answers) (walkSlots_memOk h)

end Sys2Proof.Machine

/-! ## The canonical form of memory: the engines of a slot -/

namespace Sys2Proof.Machine

set_option Elab.async false

/-! ### Ordinary loads and stores (R130, R131) -/

/-- A load that has its value keeps memory in canonical form. -/
def Got.MemOk : Got → Prop
  | .val _ _ s => s.MemOk
  | .stop v => v.MemOk

theorem Got.MemOk.ite {p : Prop} [Decidable p] {r q : Got} (hr : r.MemOk) (hq : q.MemOk) : (if p then r else q).MemOk := by
  split
  · exact hr
  · exact hq

theorem Got.MemOk.of_val {r : Got} {v line : Nat} {s : State} (h : r.MemOk) (e : r = .val v line s) : s.MemOk := by
  rw [e] at h
  exact h

theorem Got.MemOk.of_stop {r : Got} {v : Verdict} (h : r.MemOk) (e : r = .stop v) : v.MemOk := by
  rw [e] at h
  exact h

theorem loadVirt_memOk {s : State} {c va n : Nat} {home : Bool} (h : s.MemOk) : (loadVirt s c va n home).MemOk := by
  unfold loadVirt
  dsimp only
  split
  · exact trivial
  · split
    · exact trivial
    · exact trivial
    · exact trivial
    · next ht =>
      have walked := (translate_memOk h).of_ok ht
      split
      · exact trivial
      · cases home
        · simp only [Bool.false_eq_true, reduceIte]
          exact .ite trivial (State.loadPhys_memOk (flushN_memOk walked))
        · simp only [reduceIte]
          exact .ite trivial (State.loadHome_memOk (flushN_memOk walked))

theorem storeVirt_memOk {s : State} {c va n v : Nat} (h : s.MemOk) : (storeVirt s c va n v).MemOk := by
  unfold storeVirt
  dsimp only
  refine .ite trivial ?_
  split
  · next _ t1 ht =>
    exact trivial
  · next t1 ht =>
    exact trivial
  · exact trivial
  · next _ _ t1 ht =>
    exact .ite trivial (.issued ((translate_memOk h).of_ok ht).same)

theorem scalarLoad_memOk {s : State} {u : SUnit} {d a b : BitVec 6} {sx : Bool} {n c : Nat} (h : s.MemOk) :
    (scalarLoad u d a b sx n c s).MemOk := by
  unfold scalarLoad
  split
  · next hr => exact (loadVirt_memOk h).of_stop hr
  · next hr => exact .issued ((loadVirt_memOk h).of_val hr).same

/-! ### Floating point (R128, R129) -/

theorem float2_memOk {s : State} {u : SUnit} {f : Fmt} {op : Fmt → RM → W64 → Nat → Nat → Nat × Cats} {d a b : BitVec 6}
    {bound c : Nat} (h : s.MemOk) : (float2 u f op d a b bound c s).MemOk :=
  .issued (exposeS_memOk (.ite h.same h))

theorem opSaFcvt_memOk {s : State} {u : SUnit} {d a : BitVec 6} {f t rn : BitVec 3} {c : Nat} (h : s.MemOk) : (opSaFcvt u d a f t rn c s).MemOk :=
  .issued (exposeS_memOk (.ite h.same h))

/-! ### System registers (R120-R122) -/

theorem opSaMfsr_memOk {s : State} {u : SUnit} {d : BitVec 6} {n : BitVec 12} {c : Nat} (h : s.MemOk) : (opSaMfsr u d n c s).MemOk :=
  .ite trivial (.issued h.same)

theorem opSaMtsr_memOk {s : State} {u : SUnit} {a : BitVec 6} {n : BitVec 12} {c : Nat} (h : s.MemOk) : (opSaMtsr u a n c s).MemOk :=
  .ite trivial (.ite (.issued h) (.ite (.issued h.same) (.issued h.same)))

theorem opSaTshape_memOk {s : State} {u : SUnit} {t : BitVec 4} {a : BitVec 6} {c : Nat} (h : s.MemOk) : (opSaTshape u t a c s).MemOk :=
  .ite trivial (.ite trivial (.issued h.same))

/-! ### The control engine BR -/

theorem jumpTo_memOk {s : State} {c target bubbles : Nat} (h : s.MemOk) : (jumpTo s c target bubbles).MemOk := .ite trivial (.issued h.same)

theorem opBrCall_memOk {s : State} {g : Guard} {o : BitVec 21} {c : Nat} (h : s.MemOk) : (opBrCall g o c s).MemOk := by
  have jumped : (jumpTo s c (branchTarget (s.ctx c).pc o.toInt) (branchBubbles s c g none)).MemOk := .ite trivial (.issued h.same)
  unfold opBrCall
  split
  · next hj => exact .issued (jumped.of_issued hj).same
  · exact jumped

theorem opBrLoop_memOk {s : State} {g : Guard} {l : BitVec 2} {o : BitVec 19} {c : Nat} (h : s.MemOk) : (opBrLoop g l o c s).MemOk := by
  have jumped : (jumpTo s c (branchTarget (s.ctx c).pc o.toInt) (branchBubbles s c g (some l.toNat))).MemOk := .ite trivial (.issued h.same)
  unfold opBrLoop
  refine .ite ?_ (.issued h.same)
  split
  · next hj => exact .issued (jumped.of_issued hj).same
  · exact jumped

theorem opBrWaita_memOk {s : State} {a b : BitVec 6} {cd : BitVec 3} {c : Nat} (h : s.MemOk) : (opBrWaita a b cd c s).MemOk := by
  unfold opBrWaita
  split
  · exact h
  · exact trivial
  · split
    · next hr => exact (loadVirt_memOk h).of_stop hr
    · next hr => exact .ite trivial (.testing ((loadVirt_memOk h).of_val hr).same)

theorem opBrTokw_memOk {s : State} {k : BitVec 5} {c : Nat} (h : s.MemOk) : (opBrTokw k c s).MemOk := .ite trivial (.issued (State.raise_memOk h))

theorem opBrBar_memOk {s : State} {a : BitVec 6} {c : Nat} (h : s.MemOk) : (opBrBar a c s).MemOk :=
  .ite trivial (.ite (.issued h.same) (.ite (.issued h) trivial))

theorem opBrPload_memOk {s : State} {a : BitVec 6} {c : Nat} (h : s.MemOk) : (opBrPload a c s).MemOk := by
  unfold opBrPload
  split
  · next hr => exact (loadVirt_memOk h).of_stop hr
  · next hr => exact .issued (.foldl (fun _ _ h => h.same) ((loadVirt_memOk h).of_val hr))

theorem opBrTret_memOk {s : State} {c : Nat} (h : s.MemOk) : (opBrTret c s).MemOk := .ite trivial (.ite trivial (.issued h.same))

theorem opBrCrgnOpen_memOk {s : State} {o : BitVec 21} {c : Nat} (h : s.MemOk) : (opBrCrgnOpen o c s).MemOk := .ite trivial (.issued h.same)

theorem opBrCrgnClose_memOk {s : State} {c : Nat} (h : s.MemOk) : (opBrCrgnClose c s).MemOk := .ite trivial (.issued h.same)

/-! ### The scratchpad engine LD -/

theorem laLoad_memOk {s : State} {addrs : List Nat} {m : BitVec 2} {c : Nat} {put : State → List W64 → State} (hp : ∀ t l, t.MemOk → (put t l).MemOk)
    (h : s.MemOk) : (laLoad addrs m c s put).MemOk := by
  unfold laLoad
  dsimp only
  refine .ite (.issued (hp _ _ h)) ?_
  split
  · exact trivial
  · split
    · exact trivial
    · exact .issued (hp _ _ h.same)

theorem laStore_memOk {s : State} {addrs : List Nat} {vals : List W64} {m : BitVec 2} {c : Nat} (h : s.MemOk) : (laStore addrs vals m c s).MemOk := by
  unfold laStore
  dsimp only
  refine .ite (.issued h) ?_
  split
  · exact trivial
  · exact .issued h.same

/-! ### The busy-bit scoreboard and the accumulator write port (R212-R216) -/

/-- The accumulator's write port does not let a slot issue. -/
theorem portCheck_memOk {g : Core} {kind : Nat} {cs : List Nat} {v : Verdict} (e : portCheck g kind cs = some v) : v.MemOk := by
  unfold portCheck at e
  split at e
  · exact Option.some.inj e ▸ trivial
  · split at e
    · exact Option.some.inj e ▸ trivial
    · exact nomatch e

/-! ### Tile commands (R161-R163) -/

theorem tileCmd_memOk {s : State} {load acc : Bool} {base : Nat} {places : List Nat} {res : List Res} {m : BitVec 2} {c : Nat} (h : s.MemOk) :
    (tileCmd load acc base places res m c s).MemOk := by
  unfold tileCmd
  refine .ite trivial (.ite trivial ?_)
  split
  · next hv =>
    split at hv
    · exact portCheck_memOk hv
    · exact nomatch hv
  · exact .issued h.same

/-! ### Tag set (R164) -/

theorem tagset_memOk {s : State} {full : Bool} {b n : BitVec 6} {c : Nat} (h : s.MemOk) : (tagset full b n c s).MemOk := by
  unfold tagset
  dsimp only
  split
  · exact trivial
  · exact .issued h.same

/-! ### The vector engine VX -/

theorem vArith_memOk {s : State} {fop : Fmt → RM → W64 → Nat → Nat → Nat × Cats} {iop : Int → Int → Int} {bound : Nat} {d a b : BitVec 6}
    {t : BitVec 3} {c : Nat} (h : s.MemOk) : (vArith fop iop bound d a b t c s).MemOk :=
  .issued (exposeV_memOk (.ite (readHeld2_memOk h) (.ite (readHeld2_memOk h).same (readHeld2_memOk h))))

theorem vFma_memOk {s : State} {f : Fmt} {d : BitVec 5} {a b : BitVec 6} {e : BitVec 4} {c : Nat} (h : s.MemOk) : (vFma f d a b e c s).MemOk :=
  .issued (exposeV_memOk (.ite (readHeld2_memOk h).same (readHeld2_memOk h)))

theorem opVxRedsum_memOk {s : State} {d a b : BitVec 6} {t : BitVec 3} {c : Nat} (h : s.MemOk) : (opVxRedsum d a b t c s).MemOk :=
  .issued (exposeV_memOk (.ite (readHeld_memOk h) (.ite (readHeld_memOk h).same (readHeld_memOk h))))

/-! ### Conversions and scales -/

theorem vCvt_memOk {s : State} {sat : Bool} {d a : BitVec 6} {f t : BitVec 4} {c : Nat} (h : s.MemOk) : (vCvt sat d a f t c s).MemOk :=
  .issued (exposeV_memOk (.ite (readHeld_memOk h).same (readHeld_memOk h)))

/-! ### Queues, draws, trellis steps -/

theorem opVxPush_memOk {s : State} {v : BitVec 6} {q : BitVec 3} {c : Nat} (h : s.MemOk) : (opVxPush v q c s).MemOk :=
  .ite trivial (.issued (readHeld_memOk h).same)

theorem opVxPop_memOk {s : State} {v : BitVec 6} {q : BitVec 3} {c : Nat} (h : s.MemOk) : (opVxPop v q c s).MemOk := by
  unfold opVxPop
  dsimp only
  split
  · exact trivial
  · exact .ite trivial (.issued h.same)

/-! ### The matrix engine MX -/

theorem opMxMma_memOk {s : State} {l : BitVec 2} {a : BitVec 4} {r : BitVec 6} {t : BitVec 3} {o : BitVec 2} {c : Nat} (h : s.MemOk) :
    (opMxMma l a r t o c s).MemOk := by
  unfold opMxMma
  refine .ite trivial (.ite trivial (.ite trivial (.ite trivial ?_)))
  split
  · next hv => exact portCheck_memOk hv
  · exact .issued h.same

theorem opMxLatq_memOk {s : State} {l : BitVec 2} {q : BitVec 3} {c : Nat} (h : s.MemOk) : (opMxLatq l q c s).MemOk :=
  .ite trivial (.ite trivial (.ite trivial (.issued h.same)))

theorem opMxLatt_memOk {s : State} {l : BitVec 2} {a : BitVec 4} {c : Nat} (h : s.MemOk) : (opMxLatt l a c s).MemOk :=
  .ite trivial (.ite trivial (.ite trivial (.issued h.same)))

theorem opMxTtr_memOk {s : State} {d a : BitVec 4} {c : Nat} (h : s.MemOk) : (opMxTtr d a c s).MemOk := .ite trivial (.ite trivial (.issued h.same))

theorem opMxAccz_memOk {s : State} {r n : BitVec 6} {c : Nat} (h : s.MemOk) : (opMxAccz r n c s).MemOk := by
  unfold opMxAccz
  refine .ite trivial (.ite trivial ?_)
  split
  · next hv => exact portCheck_memOk hv
  · exact .issued h.same

theorem opMxAccq_memOk {s : State} {r n : BitVec 6} {q : BitVec 3} {c : Nat} (h : s.MemOk) : (opMxAccq r n q c s).MemOk :=
  .ite trivial (.ite trivial (.ite (.issued h) (.issued h.same)))

/-! ### Cycle by cycle -/

theorem tickRows_memOk {s : State} {gn : Nat} (h : s.MemOk) : (tickRows s gn).MemOk :=
  .ite h (.foldl (fun _ _ h => State.recordAt_memOk h.same) h.same)

theorem latqStep_memOk {s : State} {gn : Nat} {o : LatqOp} (h : s.MemOk) : (latqStep s gn o).1.MemOk :=
  State.setCore_memOk (.foldl (fun _ _ h => State.recordAt_memOk h.same) h)

theorem tickLatqs_memOk {s : State} {gn : Nat} (h : s.MemOk) : (tickLatqs s gn).MemOk := by
  unfold tickLatqs
  refine .ite h (State.MemOk.same (s := (List.foldl _ (s, []) _).1) ?_)
  refine List.foldlRecOn _ _ (motive := fun p : State × List LatqOp => p.1.MemOk) h (fun p hp o _ => ?_)
  split
  · exact hp
  · split
    · next ht => exact (latqStep_memOk hp).of_fst ht
    · next ht => exact (latqStep_memOk hp).of_fst ht

/-! ### Mace -/

theorem maceEnqueue_memOk {s : State} {k c : Nat} {mk : List Nat → MaceCmd} (h : s.MemOk) : (maceEnqueue k c s mk).MemOk :=
  .ite trivial (.ite trivial (.issued h.same))

theorem opVxTval_memOk {s : State} {d a : BitVec 6} {t : BitVec 3} {c : Nat} (h : s.MemOk) : (opVxTval d a t c s).MemOk := by
  unfold opVxTval
  dsimp only
  split
  · exact .issued (readHeld_memOk h).same
  · exact .issued (readHeld_memOk h).same
  · split
    · exact trivial
    · exact .issued (readHeld_memOk h).same

theorem maceRetire_memOk {s : State} {gn : Nat} (h : s.MemOk) : (maceRetire s gn).MemOk := by
  unfold maceRetire
  dsimp only
  split
  · exact h
  · exact .ite (State.retireTok_memOk h.same) h

theorem maceStart_memOk {s : State} {gn : Nat} (h : s.MemOk) : (maceStart s gn).MemOk := by
  unfold maceStart
  split
  · exact h
  · exact .ite h.same h

theorem macePushStep_memOk {s : State} {gn p : Nat} (h : s.MemOk) : (macePushStep s gn p).MemOk := by
  unfold macePushStep
  dsimp only
  split
  · exact h
  · exact .ite h (.ite h.same h.same)

theorem tickMace_memOk {s : State} {gn : Nat} (h : s.MemOk) : (tickMace s gn).MemOk :=
  .ite h (State.modCore_memOk (macePushStep_memOk (maceRetire_memOk (maceStart_memOk (maceRetire_memOk h))).same))

theorem maceCancel_memOk {s : State} {gn tid : Nat} (h : s.MemOk) : (maceCancel s gn tid).MemOk :=
  .foldl (fun _ _ h => State.retireTok_memOk h) h.same

theorem queueEngines_memOk {s : State} {gn : Nat} (h : s.MemOk) : (queueEngines s gn).MemOk :=
  .ite h (State.modCore_memOk (tickMace_memOk (tickLatqs_memOk h).same))

/-! ### The DX cells of the copy engines -/

theorem opDxAqpop_memOk {s : State} {d : BitVec 6} {c : Nat} (h : s.MemOk) : (opDxAqpop d c s).MemOk := by
  unfold opDxAqpop
  split
  · exact trivial
  · exact .ite trivial (.issued h.same)

end Sys2Proof.Machine

/-! ## The canonical form of memory: the sequence units -/

namespace Sys2Proof.Machine

set_option Elab.async false

/-! ### `dx.cpost` (R241, R313) -/

theorem postImage_memOk {s : State} {c line pa : Nat} {why : QHead} {ws : List W64} {k : Nat} (h : s.MemOk) : (postImage s c line pa why ws k).MemOk := by
  unfold postImage
  extract_lets x gn amo
  split
  next t ht =>
  extract_lets img va u v w
  have claimed : t.MemOk := (State.rmwPhys_memOk h).of_snd (congrArg Prod.snd ht)
  have windowed : u.MemOk := by
    unfold u
    split
    · exact claimed
    · exact claimed.same
  have posted : w.MemOk := windowed.same
  clear_value w
  split
  · next ht => exact ((translate_memOk posted).of_ok ht).same
  · next ht => exact ((translate_memOk posted).of_absent ht).same
  · exact posted.same
  · next ht => exact ((translate_memOk posted).of_refused ht).same

theorem namedQueue_memOk {s : State} {c va : Nat} (h : s.MemOk) : ∀ x, namedQueue s c va = some x → x.2.2.2.MemOk := by
  intro x e
  unfold namedQueue at e
  split at e
  · exact nomatch e
  · split at e
    · next ht =>
      split at e
      · exact Option.some.inj e ▸ (translate_memOk h).of_ok ht
      · exact nomatch e
    · exact nomatch e

theorem claimSlot_memOk {s : State} {b : BitVec 6} {k : BitVec 5} {c va pa : Nat} {pte : W64} {why : QHead} (h : s.MemOk) :
    (claimSlot b k c va pa pte why s).MemOk := by
  unfold claimSlot
  dsimp only
  refine .ite trivial ?_
  refine .ite trivial ?_
  split
  · exact trivial
  · refine .ite trivial ?_
    refine .ite trivial ?_
    refine .ite trivial ?_
    split
    · split
      · exact trivial
      · exact .issued (postImage_memOk (flushN_memOk h))
    · exact .issued (postImage_memOk (flushN_memOk h))

theorem opDxCpost_memOk {s : State} {a b : BitVec 6} {k : BitVec 5} {c : Nat} (h : s.MemOk) : (opDxCpost a b k c s).MemOk := by
  unfold opDxCpost
  dsimp only
  split
  · next _ _ _ t1 ht =>
    exact claimSlot_memOk ((namedQueue_memOk h) _ ht)
  · refine .ite (.ite trivial trivial) ?_
    split
    · next _ t1 ht =>
      exact trivial
    · exact trivial
    · exact .ite trivial trivial

/-! ### What Anise -/

theorem putErr_keepsMem {w : Via} {va code : Nat} : (putErr w va code).KeepsMem := eRmw_keepsMem

/-- How a write of an error ends, its memory is in canonical form. -/
def Ended : Except (Halt × State) State → Prop
  | .ok s => s.MemOk
  | .error e => e.2.MemOk

theorem Ended.of_ok {r : Except (Halt × State) State} {s : State} (h : Ended r) (e : r = .ok s) : s.MemOk := by
  rw [e] at h
  exact h

theorem Ended.of_error {r : Except (Halt × State) State} {why : Halt} {s : State} (h : Ended r) (e : r = .error (why, s)) : s.MemOk := by
  rw [e] at h
  exact h

theorem writeErr_memOk {w : Via} {va code : Nat} {s : State} (h : s.MemOk) : Ended (writeErr w va code s) := by
  unfold writeErr
  split
  · exact h
  · split
    · next ht => exact putErr_keepsMem.on h ht
    · split
      all_goals exact State.after_memOk h

theorem tryErr_memOk {w : Via} {va code : Nat} {s : State} (h : s.MemOk) : (tryErr w va code s).MemOk := by
  have ended := writeErr_memOk (w := w) (va := va) (code := code) h
  unfold tryErr
  split
  · next ht => exact ended.of_ok ht
  · next ht => exact ended.of_error ht

/-! ### Sending a command from the SQ slot -/

theorem sendCmd_memOk {unit lim op x : Nat} {a b : BitVec 6} {k : BitVec 5} {held : State → Nat → Nat → Nat} {put : State → SqCmd → State} {c : Nat}
    {s : State} (hp : ∀ t q, t.MemOk → (put t q).MemOk) (h : s.MemOk) : (sendCmd unit lim op x a b k held put c s).MemOk := by
  unfold sendCmd
  refine .ite trivial (.ite trivial (.ite trivial (.issued (hp _ _ ?_))))
  have flushed : (flushStores s c).MemOk := flushN_memOk h
  exact flushed.same

theorem askCmd_memOk {s : State} {unit lim op x : Nat} {d a b : BitVec 6} {held : State → Nat → Nat → Nat} {c : Nat} (h : s.MemOk) :
    (askCmd unit lim op x d a b held c s).MemOk := by
  unfold askCmd
  dsimp only
  split
  · split
    · exact trivial
    · exact .issued (exposeS_memOk (State.raise_memOk h.same))
  · exact .ite trivial (.ite trivial trivial)

theorem giveReply_memOk {s : State} {a : Agent} {q : SqCmd} {v : W64} (h : s.MemOk) : (giveReply s a q v).MemOk :=
  .ite (State.modWho_memOk h).same (State.modWho_memOk h)

/-! ### Pools and blocks (R252-R255) -/

theorem State.modPool_memOk {s : State} {p : PoolRef} {f : Pool → Pool} (h : s.MemOk) : (s.modPool p f).MemOk := h.same

theorem freeFrom_keepsMem {w : Via} {p : Pool} {i n : Nat} : (freeFrom w p i n).KeepsMem := by
  induction n generalizing i with
  | zero => exact .pure
  | succ n ih => exact .bind eRead_keepsMem (fun _ => .ite .pure ih)

theorem allocate_keepsMem {r : PoolRef} {k : Bool} : (allocate r k).KeepsMem := by
  unfold allocate
  refine .bind ePool_keepsMem (fun _ => ?_)
  refine .bind echeck_keepsMem (fun _ => ?_)
  refine .bind freeFrom_keepsMem (fun _ => ?_)
  split
  · exact efail_keepsMem
  · exact .bind eWrite_keepsMem (fun _ => .step (fun _ h => h.same))

theorem quarantine_keepsMem {r : PoolRef} {a : Nat} : (quarantine r a).KeepsMem := .step (fun _ h => h.same)

theorem lookupIn_keepsMem {w : Via} {key : W64} {l : List Nat} : (lookupIn w key l).KeepsMem := by
  induction l with
  | nil => exact .pure
  | cons t r ih => exact .bind eRead_keepsMem (fun _ => .ite ih (.bind eRead_keepsMem (fun _ => .ite .pure ih)))

theorem lookup_keepsMem {r : PoolRef} {k : Bool} {key : W64} : (lookup r k key).KeepsMem := .bind ePool_keepsMem (fun _ => lookupIn_keepsMem)

theorem entryIn_keepsMem {w : Via} {key : W64} {a : Nat} {l : List Nat} : (entryIn w key a l).KeepsMem := by
  induction l with
  | nil => exact .pure
  | cons t r ih => exact .bind eRead_keepsMem (fun _ => .bind eRead_keepsMem (fun _ => .ite .pure ih))

theorem ownIn_keepsMem {w : Via} {key : W64} {a owner : Nat} {l : List Nat} : (ownIn w key a owner l).KeepsMem := by
  induction l with
  | nil => exact .pure
  | cons t r ih => exact .bind eRead_keepsMem (fun _ => .bind eRead_keepsMem (fun _ => .bind eRead_keepsMem (fun _ => .ite .pure ih)))

theorem emptyIn_keepsMem {w : Via} {l : List Nat} : (emptyIn w l).KeepsMem := by
  induction l with
  | nil => exact .pure
  | cons t r ih => exact .bind eRead_keepsMem (fun _ => .ite .pure ih)

theorem insertKey_keepsMem {r : PoolRef} {k : Bool} {key : W64} {a st owner : Nat} : (insertKey r k key a st owner).KeepsMem := by
  unfold insertKey
  refine .bind ePool_keepsMem (fun _ => ?_)
  refine .bind lookupIn_keepsMem (fun _ => ?_)
  split
  · exact .pure
  · refine .bind emptyIn_keepsMem (fun _ => ?_)
    split
    · exact .pure
    · exact .bind eWrites_keepsMem (fun _ => .pure)

theorem release_keepsMem {r : PoolRef} {k : Bool} {a : Nat} {key : W64} : (release r k a key).KeepsMem := by
  unfold release
  refine .bind ePool_keepsMem (fun _ => ?_)
  refine .ite .pure ?_
  refine .bind eRead_keepsMem (fun _ => ?_)
  refine .ite eWrite_keepsMem ?_
  refine .bind eWrite_keepsMem (fun _ => ?_)
  refine .bind entryIn_keepsMem (fun _ => ?_)
  split
  · exact quarantine_keepsMem
  · exact .bind eWrites_keepsMem (fun _ => quarantine_keepsMem)

theorem refOf_keepsMem {r : PoolRef} {k : Bool} {a : Nat} : (refOf r k a).KeepsMem :=
  .bind ePool_keepsMem (fun _ => .ite .pure (.bind eRead_keepsMem (fun _ => .pure)))

theorem addRef_keepsMem {r : PoolRef} {k : Bool} {a : Nat} : (addRef r k a).KeepsMem :=
  .bind ePool_keepsMem (fun _ => .ite .pure (.bind eRead_keepsMem (fun _ => eWrite_keepsMem)))

/-! ### Sequence records (R256-R259) -/

theorem readRec_keepsMem {die asid : Nat} {k : Bool} {a : W64} : (readRec die asid k a).KeepsMem :=
  .bind echeck_keepsMem (fun _ => .bind eReads_keepsMem (fun _ => .bind ePool_keepsMem (fun _ => .bind echeck_keepsMem (fun _ =>
    .bind echeck_keepsMem (fun _ => .pure)))))

theorem SeqRec.entry_keepsMem {r : SeqRec} {j : Nat} : (r.entry j).KeepsMem := .bind eRead_keepsMem (fun _ => .bind eRead_keepsMem (fun _ => .pure))

theorem SeqRec.setEntry_keepsMem {r : SeqRec} {j : Nat} {key x : W64} : (r.setEntry j key x).KeepsMem := eWrites_keepsMem

theorem SeqRec.setLens_keepsMem {r : SeqRec} {clen tlen : Nat} : (r.setLens clen tlen).KeepsMem := eWrite_keepsMem

theorem SeqRec.setNblk_keepsMem {r : SeqRec} {n : Nat} : (r.setNblk n).KeepsMem := eWrite_keepsMem

theorem SeqRec.toks_keepsMem {r : SeqRec} : (r.toks).KeepsMem := .bind eReads_keepsMem (fun _ => .pure)

theorem SeqRec.setToks_keepsMem {r : SeqRec} {l : List Nat} : (r.setToks l).KeepsMem := eWrites_keepsMem

theorem SeqRec.keyBefore_keepsMem {r : SeqRec} {j : Nat} : (r.keyBefore j).KeepsMem := by
  unfold SeqRec.keyBefore
  split
  · exact .pure
  · exact eRead_keepsMem

theorem SeqRec.copyBlock_keepsMem {r : SeqRec} {j p : Nat} {key x : W64} : (r.copyBlock j p key x).KeepsMem :=
  .bind allocate_keepsMem (fun _ => .bind eReads_keepsMem (fun _ => .bind eWrites_keepsMem (fun _ => .bind SeqRec.setEntry_keepsMem (fun _ =>
    .bind release_keepsMem (fun _ => .pure)))))

/-! ### The record commands -/

theorem kvApp_keepsMem {r : SeqRec} {t : Nat} : (kvApp r t).KeepsMem :=
  .bind echeck_keepsMem (fun _ => .ite (.bind echeck_keepsMem (fun _ => .bind allocate_keepsMem (fun _ => .bind SeqRec.setEntry_keepsMem
    (fun _ => .bind SeqRec.setNblk_keepsMem (fun _ => .bind SeqRec.toks_keepsMem (fun _ => .bind SeqRec.setToks_keepsMem (fun _ =>
    SeqRec.setLens_keepsMem))))))) (.bind SeqRec.entry_keepsMem (fun _ => .bind refOf_keepsMem (fun _ => .ite (.bind SeqRec.copyBlock_keepsMem
    (fun _ => .bind SeqRec.toks_keepsMem (fun _ => .bind SeqRec.setToks_keepsMem (fun _ => SeqRec.setLens_keepsMem)))) (.bind SeqRec.toks_keepsMem
    (fun _ => .bind SeqRec.setToks_keepsMem (fun _ => SeqRec.setLens_keepsMem)))))))

theorem readToks_keepsMem {w : Via} {a n : Nat} : (readToks w a n).KeepsMem := by
  induction n generalizing a with
  | zero => exact .pure
  | succ n ih => exact .bind eReadN_keepsMem (fun _ => .bind ih (fun _ => .pure))

theorem listBlocks_keepsMem {r : SeqRec} {n p : Nat} {ts : List Nat} {prev : W64} {tail : Option (W64 × W64)} :
    (listBlocks r n p ts prev tail).KeepsMem := by
  induction n generalizing p ts prev tail with
  | zero => exact .pure
  | succ n ih =>
    have rest {m : Eng Unit} (hm : m.KeepsMem) {q : Nat} {us : List Nat} {key : W64} {x : Option (W64 × W64)} :
        Eng.KeepsMem (do m; listBlocks r n q us key x) := .bind hm (fun _ => ih)
    unfold listBlocks
    refine .ite .pure ?_
    dsimp only
    split
    · exact .ite (.bind insertKey_keepsMem (fun _ => rest SeqRec.setEntry_keepsMem)) (.bind .pure (fun _ => rest SeqRec.setEntry_keepsMem))
    · refine .ite (.bind lookup_keepsMem (fun hit => ?_)) (.bind .pure (fun hit => ?_))
      all_goals
        split
        · exact .bind addRef_keepsMem (fun _ => rest SeqRec.setEntry_keepsMem)
        · exact .bind allocate_keepsMem (fun _ => .ite (.bind insertKey_keepsMem (fun _ => rest SeqRec.setEntry_keepsMem))
            (.bind .pure (fun _ => rest SeqRec.setEntry_keepsMem)))

theorem kvAppList_keepsMem {r : SeqRec} {d : W64} : (kvAppList r d).KeepsMem :=
  .bind echeck_keepsMem (fun _ => .bind echeck_keepsMem (fun _ => .bind echeck_keepsMem (fun _ => .ite (.bind SeqRec.entry_keepsMem (fun _ => .ite
    (.bind refOf_keepsMem (fun _ => .bind ePool_keepsMem (fun _ => .bind echeck_keepsMem (fun _ => .bind readToks_keepsMem (fun _ =>
    .bind SeqRec.keyBefore_keepsMem (fun _ => .ite (.bind SeqRec.copyBlock_keepsMem (fun _ => .bind listBlocks_keepsMem (fun _ =>
    .bind SeqRec.setLens_keepsMem (fun _ => SeqRec.setNblk_keepsMem)))) (.bind .pure (fun _ => .bind listBlocks_keepsMem (fun _ =>
    .bind SeqRec.setLens_keepsMem (fun _ => SeqRec.setNblk_keepsMem)))))))))) (.bind .pure (fun _ => .bind ePool_keepsMem (fun _ =>
    .bind echeck_keepsMem (fun _ => .bind readToks_keepsMem (fun _ => .bind SeqRec.keyBefore_keepsMem (fun _ => .ite
    (.bind SeqRec.copyBlock_keepsMem (fun _ => .bind listBlocks_keepsMem (fun _ => .bind SeqRec.setLens_keepsMem (fun _ =>
    SeqRec.setNblk_keepsMem)))) (.bind .pure (fun _ => .bind listBlocks_keepsMem (fun _ => .bind SeqRec.setLens_keepsMem (fun _ =>
    SeqRec.setNblk_keepsMem)))))))))))) (.bind .pure (fun _ => .ite (.bind refOf_keepsMem (fun _ => .bind ePool_keepsMem (fun _ =>
    .bind echeck_keepsMem (fun _ => .bind readToks_keepsMem (fun _ => .bind SeqRec.keyBefore_keepsMem (fun _ => .ite
    (.bind SeqRec.copyBlock_keepsMem (fun _ => .bind listBlocks_keepsMem (fun _ => .bind SeqRec.setLens_keepsMem (fun _ =>
    SeqRec.setNblk_keepsMem)))) (.bind .pure (fun _ => .bind listBlocks_keepsMem (fun _ => .bind SeqRec.setLens_keepsMem (fun _ =>
    SeqRec.setNblk_keepsMem)))))))))) (.bind .pure (fun _ => .bind ePool_keepsMem (fun _ => .bind echeck_keepsMem (fun _ => .bind readToks_keepsMem
    (fun _ => .bind SeqRec.keyBefore_keepsMem (fun _ => .ite (.bind SeqRec.copyBlock_keepsMem (fun _ => .bind listBlocks_keepsMem (fun _ =>
    .bind SeqRec.setLens_keepsMem (fun _ => SeqRec.setNblk_keepsMem)))) (.bind .pure (fun _ => .bind listBlocks_keepsMem (fun _ =>
    .bind SeqRec.setLens_keepsMem (fun _ => SeqRec.setNblk_keepsMem)))))))))))))))

theorem kvFork_keepsMem {r : SeqRec} {c : W64} : (kvFork r c).KeepsMem := by
  refine .bind eReads_keepsMem (fun _ => .bind echeck_keepsMem (fun _ => .bind ?_ (fun _ => .bind ?_ (fun _ => .bind echeck_keepsMem (fun _ =>
    .bind echeck_keepsMem (fun _ => .bind echeck_keepsMem (fun _ => .bind eRead_keepsMem (fun _ => .bind SeqRec.toks_keepsMem (fun _ =>
    .bind eWrites_keepsMem (fun _ => .bind eWrite_keepsMem (fun _ => .bind eWrite_keepsMem (fun _ => .bind eWrite_keepsMem (fun _ =>
    .bind eWrite_keepsMem (fun _ => .bind SeqRec.setToks_keepsMem (fun _ => .eFor (fun _ => ?_))))))))))))))))
  · exact .foldlM (fun _ _ => .bind SeqRec.entry_keepsMem (fun _ => .pure))
  · exact .foldlM (fun _ _ => .bind refOf_keepsMem (fun _ => .pure))
  · exact .bind SeqRec.setEntry_keepsMem (fun _ => .ite .pure addRef_keepsMem)

theorem kvRoll_keepsMem {r : SeqRec} : (kvRoll r).KeepsMem :=
  .bind (.eFor (fun _ => .bind SeqRec.entry_keepsMem (fun _ => .bind release_keepsMem (fun _ => SeqRec.setEntry_keepsMem)))) (fun _ =>
    .bind SeqRec.setLens_keepsMem (fun _ => .bind SeqRec.setNblk_keepsMem (fun _ => SeqRec.setToks_keepsMem)))

theorem kvCommit_keepsMem {r : SeqRec} {m : W64} : (kvCommit r m).KeepsMem := by
  unfold kvCommit
  refine .bind echeck_keepsMem (fun _ => ?_)
  refine .bind SeqRec.toks_keepsMem (fun _ => ?_)
  refine .bind (.eFor (fun _ => .bind SeqRec.entry_keepsMem (fun _ => .ite (.bind SeqRec.keyBefore_keepsMem (fun _ => .bind SeqRec.setEntry_keepsMem
    (fun _ => .ite (.bind insertKey_keepsMem (fun _ => .pure)) .pure))) (.bind .pure (fun _ => .bind SeqRec.setEntry_keepsMem (fun _ => .ite
    (.bind insertKey_keepsMem (fun _ => .pure)) .pure)))))) (fun _ => ?_)
  refine .bind SeqRec.setToks_keepsMem (fun _ => ?_)
  refine .bind SeqRec.setLens_keepsMem (fun _ => ?_)
  refine .bind ePool_keepsMem (fun _ => ?_)
  refine .eFor (fun _ => ?_)
  refine .bind SeqRec.entry_keepsMem (fun _ => ?_)
  refine .ite ?_ .pure
  refine .bind ownIn_keepsMem (fun _ => ?_)
  split
  · exact .bind eWrite_keepsMem (fun _ => SeqRec.setEntry_keepsMem)
  · exact SeqRec.setEntry_keepsMem

theorem kvWinSet_keepsMem {r : SeqRec} {v : W64} : (kvWinSet r v).KeepsMem :=
  .bind eWrite_keepsMem (fun _ => .bind (.eFor (fun _ => .bind SeqRec.entry_keepsMem (fun _ => .ite .pure (.bind release_keepsMem (fun _ =>
    SeqRec.setEntry_keepsMem))))) (fun _ => .pure))

theorem bFree_keepsMem {pr : Option PoolRef} {asid : Nat} {k acq : Bool} {a : Nat} : (bFree pr asid k acq a).KeepsMem := by
  unfold bFree
  refine .bind echeck_keepsMem (fun _ => ?_)
  split
  · exact efail_keepsMem
  · exact .bind ePool_keepsMem (fun _ => .bind echeck_keepsMem (fun _ => .bind eRead_keepsMem (fun _ => .bind echeck_keepsMem (fun _ =>
    .ite addRef_keepsMem release_keepsMem))))

theorem bAlloc_keepsMem {r : PoolRef} {asid : Nat} {k : Bool} : (bAlloc r asid k).KeepsMem :=
  .bind ePool_keepsMem (fun _ => .bind echeck_keepsMem (fun _ => .bind allocate_keepsMem (fun _ => .pure)))

/-! ### Turns (R261) -/

theorem aniseRun_keepsMem {s : State} {q : SqCmd} {die : Nat} : (aniseRun s q die).KeepsMem := by
  unfold aniseRun
  refine .bind echeck_keepsMem (fun _ => ?_)
  split
  · exact .bind bAlloc_keepsMem (fun _ => .pure)
  · exact .bind bFree_keepsMem (fun _ => .pure)
  · exact .bind echeck_keepsMem (fun _ => .bind readRec_keepsMem (fun _ => .bind kvFork_keepsMem (fun _ => .pure)))
  · refine .bind readRec_keepsMem (fun _ => ?_)
    split
    · exact .ite (.bind kvApp_keepsMem (fun _ => .pure)) (.bind kvAppList_keepsMem (fun _ => .pure))
    · exact .bind kvRoll_keepsMem (fun _ => .pure)
    · exact .bind kvCommit_keepsMem (fun _ => .pure)
    · exact .ite .pure (.bind kvWinSet_keepsMem (fun _ => .pure))

theorem aniseFail_memOk {s : State} {q : SqCmd} {die code : Nat} (h : s.MemOk) : Ended (aniseFail s q die code) := by
  unfold aniseFail
  dsimp only
  split
  · exact h.same
  · exact h.same
  · exact writeErr_memOk h

theorem aniseLeave_memOk {s : State} {q : SqCmd} {die code : Nat} (h : s.MemOk) : (aniseLeave s q die code).MemOk :=
  .ite (giveReply_memOk h.same) (State.retireTok_memOk h.same)

theorem aniseEnd_memOk {s : State} {q : SqCmd} {die code : Nat} (h : s.MemOk) : (aniseEnd s q die code).MemOk := by
  unfold aniseEnd
  split
  · next t1 ht =>
    exact aniseLeave_memOk ((aniseFail_memOk h).of_ok ht)
  · next _ _ _ _ t1 ht =>
    exact ((aniseFail_memOk h).of_error ht).same
  · next _ t1 ht =>
    exact ((aniseFail_memOk h).of_error ht)

theorem aniseQuit_memOk {s : State} {q : SqCmd} {die code : Nat} (h : s.MemOk) : (aniseQuit s q die code).MemOk := by
  unfold aniseQuit
  split
  · next t1 ht =>
    exact aniseLeave_memOk ((aniseFail_memOk h).of_ok ht)
  · next _ t1 ht =>
    exact aniseLeave_memOk ((aniseFail_memOk h).of_error ht)

theorem aniseHalt_memOk {s : State} {q : SqCmd} {die : Nat} {why : Halt} (h : s.MemOk) : (aniseHalt s q die why).MemOk := by
  unfold aniseHalt
  dsimp only
  split
  · exact aniseEnd_memOk h
  · exact .ite (State.beginKill_memOk (aniseEnd_memOk h)) (aniseEnd_memOk h)
  · exact h
  · exact h.same

theorem aniseTurn_memOk {s : State} {q : SqCmd} {die : Nat} (h : s.MemOk) : (aniseTurn s q die).MemOk := by
  unfold aniseTurn
  dsimp only
  split
  · next _ t1 ht =>
    split
    · exact giveReply_memOk (aniseRun_keepsMem.on h ht).same
    · exact State.retireTok_memOk (aniseRun_keepsMem.on h ht).same
  · exact aniseHalt_memOk (State.after_memOk h)

/-! ### Quarantine and registration (R253, R267) -/

theorem quarExit_memOk {s : State} {die k : Nat} (h : s.MemOk) : (quarExit s die k).MemOk := by
  unfold quarExit
  dsimp only
  split
  · exact h
  · refine .ite h ?_
    split
    · next _ t1 ht =>
      exact (eWrite_keepsMem.on h ht).same
    · split
      · exact (State.after_memOk h).same
      · exact State.after_memOk h
      · exact (State.after_memOk h).same

theorem presentAll_memOk {die asid : Nat} {l : List Nat} {s : State} (h : s.MemOk) : (presentAll die asid l s).2.MemOk := by
  induction l generalizing s with
  | nil => exact h
  | cons v r ih =>
    unfold presentAll
    split
    · next ht => exact ih ((translate_memOk h).of_ok ht)
    · exact h
    · next ht => exact (translate_memOk h).of_absent ht
    · next ht => exact (translate_memOk h).of_refused ht

theorem poolRegister_memOk {s : State} {r : PoolRef} (h : s.MemOk) : (poolRegister s r).MemOk := by
  unfold poolRegister
  dsimp only
  refine .ite h ?_
  split
  · refine State.modPool_memOk ?_
    split
    · exact presentAll_memOk h
    · exact h
  · refine State.modPool_memOk ?_
    split
    · exact presentAll_memOk h
    · exact h
  · split
    · exact presentAll_memOk h
    · exact h

theorem poolDeregister_memOk {s : State} {r : PoolRef} (h : s.MemOk) : (poolDeregister s r).MemOk := .ite h (.ite h.same h.same)

/-! ### The record's state (R275-R277) -/

theorem readGram_keepsMem {w : Via} {a : Nat} {img : Image} : (readGram w a img).KeepsMem :=
  .bind eReads_keepsMem (fun _ => .bind eRead_keepsMem (fun _ => .pure))

theorem Gram.entry_keepsMem {g : Gram} {i : Nat} : (g.entry i).KeepsMem := .bind eRead_keepsMem (fun _ => .bind eRead_keepsMem (fun _ => .pure))

theorem Gram.setEntry_keepsMem {g : Gram} {i : Nat} {e : Jent} : (g.setEntry i e).KeepsMem := eWrites_keepsMem

theorem Gram.kill_keepsMem {g : Gram} {i : Nat} : (g.kill i).KeepsMem := .bind eRead_keepsMem (fun _ => eWrite_keepsMem)

theorem Gram.liveEntry_keepsMem {g : Gram} {i : Nat} : (g.liveEntry i).KeepsMem :=
  .bind echeck_keepsMem (fun _ => .bind Gram.entry_keepsMem (fun _ => .bind echeck_keepsMem (fun _ => .pure)))

theorem Gram.setEnds_keepsMem {g : Gram} {head tail : Nat} : (g.setEnds head tail).KeepsMem := eWrite_keepsMem

theorem Gram.setCur_keepsMem {g : Gram} {i : Nat} : (g.setCur i).KeepsMem := eWrite_keepsMem

theorem Gram.setNodes_keepsMem {g : Gram} {blk idx : Nat} : (g.setNodes blk idx).KeepsMem := .bind eWrite_keepsMem (fun _ => eWrite_keepsMem)

/-! ### Nodes (R277, R278) -/

theorem Gram.pool_keepsMem {g : Gram} : (g.pool).KeepsMem := .bind ePool_keepsMem (fun _ => .bind echeck_keepsMem (fun _ => .pure))

theorem Gram.top_keepsMem {g : Gram} {node : Nat} : (g.top node).KeepsMem := .ite .pure (.bind eRead_keepsMem (fun _ => .pure))

theorem Gram.below_keepsMem {g : Gram} {node : Nat} : (g.below node).KeepsMem := .bind eRead_keepsMem (fun _ => .pure)

theorem Gram.ref_keepsMem {g : Gram} {node : Nat} : (g.ref node).KeepsMem := .ite .pure eRmw_keepsMem

theorem owing_keepsMem {α : Type} {r : PoolRef} {a : Nat} {m : Eng α} (hm : m.KeepsMem) : (owing r a m).KeepsMem := by
  intro s h x e
  have now : owing r a m s = .ok x := e
  unfold owing at now
  split at now
  · exact nomatch now
  · next ht =>
    cases now
    exact hm.on h ht

theorem Gram.putNode_keepsMem {g : Gram} {blk idx sym next : Nat} : (g.putNode blk idx sym next).KeepsMem :=
  .bind eRmw_keepsMem (fun _ => .bind eWrites_keepsMem (fun _ => .bind Gram.ref_keepsMem (fun _ => .bind Gram.setNodes_keepsMem (fun _ => .pure))))

theorem eTouch_keepsMem {w : Via} {va : Nat} {acc : Acc} : (eTouch w va acc).KeepsMem := .bind eTrans_keepsMem (fun _ => .pure)

theorem touchRelease_keepsMem {r : PoolRef} {k : Bool} {a : Nat} {key : W64} : (touchRelease r k a key).KeepsMem := by
  unfold touchRelease
  refine .bind ePool_keepsMem (fun _ => ?_)
  refine .ite .pure ?_
  refine .bind eTouch_keepsMem (fun _ => ?_)
  refine .bind eRead_keepsMem (fun _ => ?_)
  refine .ite .pure ?_
  refine .bind entryIn_keepsMem (fun _ => ?_)
  split
  · exact .pure
  · exact eTouch_keepsMem

theorem Gram.knownPages_keepsMem {g : Gram} {next : Nat} : (g.knownPages next).KeepsMem :=
  .bind eTouch_keepsMem (fun _ => .bind eTouch_keepsMem (fun _ => .bind eTouch_keepsMem (fun _ => .ite (.bind eTouch_keepsMem (fun _ =>
    .bind eRead_keepsMem (fun _ => .ite (.bind touchRelease_keepsMem (fun _ => .ite eTouch_keepsMem .pure)) (.ite eTouch_keepsMem .pure))))
    (.ite eTouch_keepsMem .pure))))

theorem Gram.newNode_keepsMem {g : Gram} {sym next : Nat} : (g.newNode sym next).KeepsMem := by
  refine .bind Gram.pool_keepsMem (fun _ => .ite Gram.putNode_keepsMem (.bind Gram.knownPages_keepsMem (fun _ => .bind allocate_keepsMem (fun a =>
    owing_keepsMem ?_))))
  have put : Eng.KeepsMem (do eWrite g.via (sx48 a) (BitVec.ofNat 64 (2 ^ 63)); g.putNode a 1 sym next) :=
    .bind eWrite_keepsMem (fun _ => Gram.putNode_keepsMem)
  exact .ite (.bind eRmw_keepsMem (fun _ => .bind eRead_keepsMem (fun _ => .ite (.bind release_keepsMem (fun _ => put)) put))) put

theorem Gram.poolOf_keepsMem {g : Gram} {n : Nat} : (g.poolOf n).KeepsMem := .step (fun _ h => h)

theorem Gram.unref_keepsMem {g : Gram} {f n : Nat} : (g.unref f n).KeepsMem := by
  induction f generalizing n with
  | zero => exact .pure
  | succ f ih =>
    refine .ite .pure (.bind Gram.poolOf_keepsMem (fun _ => .bind ePool_keepsMem (fun _ => .bind eRmw_keepsMem (fun _ => .bind eRead_keepsMem (fun _ =>
      .ite .pure (.bind eRmw_keepsMem (fun _ => .bind eRead_keepsMem (fun _ => .ite (.bind release_keepsMem (fun _ => ?_)) ?_))))))))
    all_goals exact .bind Gram.below_keepsMem (fun _ => ih)

/-! ### The cells (R282-R287) -/

theorem eSlot_keepsMem {gn slot : Nat} {v : List W64} : (eSlot gn slot v).KeepsMem := .step (fun _ h => h.same)

theorem boundRec_keepsMem {gn : Nat} {w : Via} {a : W64} : (boundRec gn w a).KeepsMem := by
  unfold boundRec
  refine .bind echeck_keepsMem (fun _ => ?_)
  refine .bind (.step (fun _ h => h)) (fun _ => ?_)
  split
  · exact efail_keepsMem
  · exact readGram_keepsMem

theorem gBind_keepsMem {gn : Nat} {w : Via} {reset : Bool} {a b : W64} : (gBind gn w reset a b).KeepsMem :=
  .bind echeck_keepsMem (fun _ => .bind readGram_keepsMem (fun _ => .bind echeck_keepsMem (fun _ => .bind eReads_keepsMem (fun _ =>
    .bind echeck_keepsMem (fun _ => .bind ePool_keepsMem (fun _ => .bind echeck_keepsMem (fun _ => .bind (.step (fun _ h => h)) (fun _ =>
    .bind echeck_keepsMem (fun _ => .ite (.bind echeck_keepsMem (fun _ => .bind eRead_keepsMem (fun _ => .bind Gram.setEntry_keepsMem (fun _ =>
    .bind Gram.setEnds_keepsMem (fun _ => .bind Gram.setCur_keepsMem (fun _ => eSlot_keepsMem)))))) eSlot_keepsMem)))))))))

theorem gDrop_keepsMem {gn : Nat} {w : Via} {a : W64} : (gDrop gn w a).KeepsMem := by
  unfold gDrop
  refine .bind boundRec_keepsMem (fun _ => ?_)
  refine .bind (.eFor (fun _ => .bind Gram.entry_keepsMem (fun _ => .ite (.bind Gram.unref_keepsMem (fun _ => Gram.kill_keepsMem)) .pure)))
    (fun _ => ?_)
  refine .bind Gram.setEnds_keepsMem (fun _ => ?_)
  refine .bind Gram.setCur_keepsMem (fun _ => ?_)
  refine .ite ?_ ?_
  · refine .bind eRmw_keepsMem (fun _ => ?_)
    refine .bind eRead_keepsMem (fun _ => ?_)
    refine .ite ?_ ?_
    · refine .bind release_keepsMem (fun _ => ?_)
      refine .bind Gram.setNodes_keepsMem (fun _ => ?_)
      refine .bind (.step (fun _ h => h)) (fun _ => ?_)
      split
      · exact eSlot_keepsMem
      · exact .pure
    · refine .bind Gram.setNodes_keepsMem (fun _ => ?_)
      refine .bind (.step (fun _ h => h)) (fun _ => ?_)
      split
      · exact eSlot_keepsMem
      · exact .pure
  · refine .bind Gram.setNodes_keepsMem (fun _ => ?_)
    refine .bind (.step (fun _ h => h)) (fun _ => ?_)
    split
    · exact eSlot_keepsMem
    · exact .pure

theorem Gram.stateWords_keepsMem {g : Gram} {st : Nat} : (g.stateWords st).KeepsMem :=
  .bind echeck_keepsMem (fun _ => .bind eRead_keepsMem (fun _ => .bind eRead_keepsMem (fun _ => .pure)))

theorem Gram.findTran_keepsMem {g : Gram} {cls top i n : Nat} : (g.findTran cls top i n).KeepsMem := by
  induction n generalizing i with
  | zero => exact .pure
  | succ n ih => exact .bind eRead_keepsMem (fun _ => .ite .pure ih)

theorem Gram.append_keepsMem {g : Gram} {e : Jent} : (g.append e).KeepsMem :=
  .bind Gram.setEntry_keepsMem (fun _ => .bind Gram.setCur_keepsMem (fun _ => Gram.setEnds_keepsMem))

theorem gStep_keepsMem {g : Gram} {b : W64} : (gStep g b).KeepsMem := by
  unfold gStep
  refine .bind Gram.liveEntry_keepsMem (fun _ => ?_)
  refine .bind echeck_keepsMem (fun _ => ?_)
  refine .bind echeck_keepsMem (fun _ => ?_)
  refine .bind Gram.stateWords_keepsMem (fun _ => ?_)
  refine .ite (.bind echeck_keepsMem (fun _ => Gram.append_keepsMem)) ?_
  refine .bind eReadN_keepsMem (fun _ => ?_)
  refine .bind Gram.top_keepsMem (fun _ => ?_)
  refine .bind echeck_keepsMem (fun _ => ?_)
  refine .bind echeck_keepsMem (fun _ => ?_)
  refine .bind Gram.findTran_keepsMem (fun _ => ?_)
  split
  · exact efail_keepsMem
  · refine .bind echeck_keepsMem (fun _ => ?_)
    split
    · exact .bind Gram.ref_keepsMem (fun _ => Gram.append_keepsMem)
    · exact .bind echeck_keepsMem (fun _ => .bind Gram.newNode_keepsMem (fun _ => Gram.append_keepsMem))
    · exact .bind echeck_keepsMem (fun _ => .bind Gram.below_keepsMem (fun _ => .bind Gram.ref_keepsMem (fun _ => Gram.append_keepsMem)))
    · exact .bind echeck_keepsMem (fun _ => .bind echeck_keepsMem (fun _ => .bind Gram.below_keepsMem (fun _ => .bind Gram.newNode_keepsMem
      (fun _ => Gram.append_keepsMem))))

theorem Gram.bitmap_keepsMem {g : Gram} {b : Nat} : (g.bitmap b).KeepsMem := .ite .pure (.bind echeck_keepsMem (fun _ => eReads_keepsMem))

theorem Gram.except_keepsMem {g : Gram} {y i n : Nat} {m : List W64} : (g.except y i n m).KeepsMem := by
  induction n generalizing i m with
  | zero => exact .pure
  | succ n ih => exact .bind eRead_keepsMem (fun _ => ih)

theorem gMask_keepsMem {g : Gram} {b : W64} : (gMask g b).KeepsMem :=
  .bind Gram.liveEntry_keepsMem (fun _ => .bind Gram.top_keepsMem (fun _ => .bind Gram.stateWords_keepsMem (fun _ => .bind echeck_keepsMem
    (fun _ => .bind eReadN_keepsMem (fun _ => .bind Gram.bitmap_keepsMem (fun _ => .bind Gram.bitmap_keepsMem (fun _ => .bind echeck_keepsMem
    (fun _ => .bind Gram.except_keepsMem (fun _ => .pure)))))))))

theorem gFork_keepsMem {c p : Gram} : (gFork c p).KeepsMem :=
  .bind Gram.liveEntry_keepsMem (fun _ => .bind echeck_keepsMem (fun _ => .ite (.bind eRead_keepsMem (fun _ => .bind echeck_keepsMem (fun _ =>
    .bind Gram.setEntry_keepsMem (fun _ => .bind Gram.ref_keepsMem (fun _ => .bind Gram.setEnds_keepsMem (fun _ => Gram.setCur_keepsMem))))))
    (.bind Gram.setEntry_keepsMem (fun _ => .bind Gram.ref_keepsMem (fun _ => .bind Gram.setEnds_keepsMem (fun _ => Gram.setCur_keepsMem))))))

theorem Gram.findPos_keepsMem {g : Gram} {p f i : Nat} : (g.findPos p f i).KeepsMem := by
  induction f generalizing i with
  | zero => exact efail_keepsMem
  | succ f ih =>
    refine .bind echeck_keepsMem (fun _ => .bind Gram.entry_keepsMem (fun _ => .ite .pure ?_))
    split
    · exact efail_keepsMem
    · exact ih

theorem Gram.chainTo_keepsMem {g : Gram} {e f i : Nat} {l : List Nat} : (g.chainTo e f i l).KeepsMem := by
  induction f generalizing i l with
  | zero => exact efail_keepsMem
  | succ f ih =>
    refine .ite .pure (.ite efail_keepsMem (.bind Gram.entry_keepsMem (fun _ => ?_)))
    split
    · exact efail_keepsMem
    · exact ih

theorem gCommit_keepsMem {g : Gram} {b : W64} : (gCommit g b).KeepsMem :=
  .bind Gram.liveEntry_keepsMem (fun _ => .bind Gram.chainTo_keepsMem (fun _ => .bind (.eFor (fun _ => .ite .pure (.bind Gram.entry_keepsMem
    (fun _ => .ite (.bind Gram.unref_keepsMem (fun _ => Gram.kill_keepsMem)) .pure)))) (fun _ => Gram.setEnds_keepsMem)))

theorem cloveRun_keepsMem {s : State} {q : SqCmd} {gn : Nat} : (cloveRun s q gn).KeepsMem := by
  unfold cloveRun
  refine .bind echeck_keepsMem (fun _ => ?_)
  split
  · exact .ite (.bind gDrop_keepsMem (fun _ => .pure)) (.bind gBind_keepsMem (fun _ => .pure))
  · exact .bind boundRec_keepsMem (fun _ => .bind boundRec_keepsMem (fun _ => .bind gFork_keepsMem (fun _ => .pure)))
  · refine .bind boundRec_keepsMem (fun _ => ?_)
    split
    · exact .bind gStep_keepsMem (fun _ => .pure)
    · exact gMask_keepsMem
    · exact .ite (.bind Gram.liveEntry_keepsMem (fun _ => .bind Gram.setCur_keepsMem (fun _ => .pure))) (.bind Gram.findPos_keepsMem (fun _ =>
      .bind Gram.setCur_keepsMem (fun _ => .pure)))
    · exact .bind gCommit_keepsMem (fun _ => .pure)

/-! ### The unit's order (R281, R288) -/

theorem giveBack_memOk {s : State} {q : SqCmd} {b : Option (Nat × Nat × Nat)} (h : s.MemOk) : (giveBack s q b).MemOk := by
  unfold giveBack
  dsimp only
  split
  · exact h
  · split
    · next _ t1 ht =>
      exact (Eng.KeepsMem.on (.bind eWrite_keepsMem (fun _ => quarantine_keepsMem)) h ht).same
    · exact State.after_memOk h

theorem cloveHalt_memOk {s : State} {gn : Nat} {q : SqCmd} {why : Halt} (h : s.MemOk) : (cloveHalt s gn q why).MemOk := by
  unfold cloveHalt
  dsimp only
  split
  · split
    · next t1 ht =>
      exact State.retireTok_memOk ((writeErr_memOk h).of_ok ht).same
    · next _ _ _ _ t1 ht =>
      exact ((writeErr_memOk h).of_error ht).same
    · next _ t1 ht =>
      exact ((writeErr_memOk h).of_error ht)
  · exact .ite (State.beginKill_memOk (State.retireTok_memOk (tryErr_memOk h).same)) (State.retireTok_memOk (tryErr_memOk h).same)
  · exact h
  · exact h.same

theorem cloveStart_memOk {s : State} {gn : Nat} {q : SqCmd} (h : s.MemOk) : (cloveStart s gn q).MemOk := by
  unfold cloveStart
  dsimp only
  split
  · next _ t1 ht =>
    exact .ite (cloveRun_keepsMem.on h ht).same (State.retireTok_memOk (cloveRun_keepsMem.on h ht).same)
  · exact cloveHalt_memOk (giveBack_memOk (State.after_memOk h))

theorem cloveTurn_memOk {s : State} {gn k : Nat} (h : s.MemOk) : (cloveTurn s gn k).MemOk := by
  unfold cloveTurn
  split
  · exact h
  · exact .ite (cloveStart_memOk (State.raise_memOk h)) h

theorem maskCycle_memOk {s : State} {gn : Nat} {q : SqCmd} (h : s.MemOk) : (maskCycle s gn q).MemOk := by
  unfold maskCycle
  dsimp only
  split
  · exact h.same
  · exact .ite h h.same
  · exact State.retireTok_memOk h.same

theorem tickClove_memOk {s : State} {gn : Nat} (h : s.MemOk) : (tickClove s gn).MemOk := by
  unfold tickClove
  dsimp only
  refine .ite h ?_
  refine State.modCore_memOk ?_
  split
  · exact maskCycle_memOk h
  · split
    · exact cloveTurn_memOk h
    · exact h

/-! ### The commands (R295-R299) -/

theorem sampComplete_memOk {s : State} {gn : Nat} (h : s.MemOk) : (sampComplete s gn).MemOk := by
  unfold sampComplete
  split
  · exact h
  · exact .ite (State.modCore_memOk (State.modWho_memOk h.same)) h

theorem tickSampler_memOk {s : State} {gn : Nat} (h : s.MemOk) : (tickSampler s gn).MemOk := by
  unfold tickSampler
  dsimp only
  split
  · exact h
  · refine State.modCore_memOk ?_
    split
    · split
      · refine State.modWho_memOk ?_
        split
        · dsimp only [State.MemOk]
          change State.MemOk _
          exact .ite h.same h
        · exact h.same
      · refine State.modCore_memOk ?_
        split
        · exact .ite h.same h
        · exact h
      · split
        · exact .ite h.same h
        · exact h
    · split
      · exact .ite h.same h
      · exact h

/-! ### The SQ cells -/

theorem sampSend_memOk {s : State} {op x : Nat} {v : Vec} {a b : W64} {masked : Bool} {c : Nat} (h : s.MemOk) :
    (sampSend op x v a b masked c s).MemOk :=
  .ite trivial (.ite trivial (.issued h.same))

theorem opSqRpop_memOk {s : State} {d : BitVec 6} {c : Nat} (h : s.MemOk) : (opSqRpop d c s).MemOk := by
  unfold opSqRpop
  split
  · exact trivial
  · exact .ite trivial (.issued h.same)

/-! ### The block and its geometry (R334-R336) -/

theorem readSched_keepsMem {w : Via} {a : Nat} : (readSched w a).KeepsMem :=
  .bind echeck_keepsMem (fun _ => .bind eReads_keepsMem (fun _ => .bind echeck_keepsMem (fun _ => .pure)))

theorem Sched.granule_keepsMem {b : Sched} {g : Nat} : (b.granule g).KeepsMem := .bind eRead_keepsMem (fun _ => .pure)

theorem Sched.setGranule_keepsMem {b : Sched} {g v : Nat} : (b.setGranule g v).KeepsMem := eRmw_keepsMem

theorem Sched.freeBits_keepsMem {b : Sched} {gm : Geom} {t : Nat} : (b.freeBits gm t).KeepsMem :=
  .foldlM (fun _ _ => .bind Sched.granule_keepsMem (fun _ => .pure))

theorem Sched.findTile_keepsMem {b : Sched} {gm : Geom} {ok : Nat → Bool} {t n : Nat} : (b.findTile gm ok t n).KeepsMem := by
  induction n generalizing t with
  | zero => exact .pure
  | succ n ih => exact .ite ih (.bind Sched.freeBits_keepsMem (fun _ => .ite ih .pure))

theorem Sched.setRun_keepsMem {b : Sched} {gen : Nat} {pend : Bool} {cur lim ndone : Nat} : (b.setRun gen pend cur lim ndone).KeepsMem :=
  eWrites_keepsMem

/-! ### The commands (R342-R346) -/

theorem Sched.switch_keepsMem {b : Sched} : (b.switch).KeepsMem :=
  .ite (.bind echeck_keepsMem (fun _ => .bind eWrites_keepsMem (fun _ => .bind eWrites_keepsMem (fun _ => .bind Sched.setRun_keepsMem (fun _ =>
    .pure))))) .pure

theorem itNext_keepsMem {aud : Bool} {w : Via} {a x : W64} : (itNext aud w a x).KeepsMem := by
  unfold itNext
  refine .bind readSched_keepsMem (fun _ => ?_)
  refine .bind echeck_keepsMem (fun _ => ?_)
  refine .bind echeck_keepsMem (fun _ => ?_)
  refine .bind echeck_keepsMem (fun _ => ?_)
  refine .bind Sched.switch_keepsMem (fun _ => ?_)
  refine .bind echeck_keepsMem (fun _ => ?_)
  refine .ite .pure ?_
  refine .bind Sched.findTile_keepsMem (fun _ => ?_)
  split
  · exact .pure
  · exact .bind (.eFor (fun _ => Sched.setGranule_keepsMem)) (fun _ => .bind eWrites_keepsMem (fun _ => .bind Sched.findTile_keepsMem (fun _ =>
    .bind Sched.setRun_keepsMem (fun _ => .pure))))

theorem schw_keepsMem {aud : Bool} {w : Via} {a x : W64} : (schw aud w a x).KeepsMem :=
  .bind readSched_keepsMem (fun _ => .bind echeck_keepsMem (fun _ => .bind echeck_keepsMem (fun _ => .bind echeck_keepsMem (fun _ =>
    .bind eReads_keepsMem (fun _ => .bind echeck_keepsMem (fun _ => .bind eWrites_keepsMem (fun _ => .bind eWrites_keepsMem (fun _ =>
    .ite .pure Sched.setRun_keepsMem))))))))

theorem itEnd_keepsMem {w : Via} {yield : Bool} {a x : W64} : (itEnd w yield a x).KeepsMem :=
  .bind readSched_keepsMem (fun _ => .bind echeck_keepsMem (fun _ => .bind eReads_keepsMem (fun _ => .bind echeck_keepsMem (fun _ =>
    .bind echeck_keepsMem (fun _ => .bind (.eFor (fun _ => .bind Sched.granule_keepsMem (fun _ => echeck_keepsMem))) (fun _ => .bind (.eFor
    (fun _ => Sched.setGranule_keepsMem)) (fun _ => .ite (.bind eWrites_keepsMem (fun _ => .ite .pure Sched.setRun_keepsMem)) (.bind eWrite_keepsMem
    (fun _ => .ite .pure Sched.setRun_keepsMem)))))))))

/-! ### Order (R350) -/

theorem walkRun_keepsMem {aud : Bool} {w : Via} {q : SqCmd} : (walkRun aud w q).KeepsMem := by
  unfold walkRun
  split
  · exact .bind itNext_keepsMem (fun _ => .pure)
  · exact .bind itEnd_keepsMem (fun _ => .pure)
  · exact .bind itEnd_keepsMem (fun _ => .pure)
  · exact .bind schw_keepsMem (fun _ => .pure)

theorem walkEnd_memOk {s : State} {cl : Nat} {q : SqCmd} {code : Nat} (h : s.MemOk) : (walkEnd s cl q code).MemOk :=
  .ite (giveReply_memOk (tryErr_memOk h).same) (State.retireTok_memOk (tryErr_memOk h).same)

theorem walkHalt_memOk {s : State} {cl : Nat} {q : SqCmd} {why : Halt} (h : s.MemOk) : (walkHalt s cl q why).MemOk := by
  unfold walkHalt
  dsimp only
  split
  · exact walkEnd_memOk h
  · exact .ite (State.beginKill_memOk (walkEnd_memOk h)) (walkEnd_memOk h)
  · exact h
  · exact h.same

theorem walkTurn_memOk {s : State} {q : SqCmd} (h : s.MemOk) : (walkTurn s q).MemOk := by
  unfold walkTurn
  extract_lets home first t
  have looked : t.MemOk := by
    refine State.MemOk.ite h ?_
    split
    · next ht => exact eRead_keepsMem.on (State.raise_memOk h) ht
    · exact State.after_memOk h
  clear_value home t
  cases home with
  | settle => exact walkHalt_memOk looked
  | walker cl =>
    have taken : (t.takeUp (.walker cl) q).MemOk := State.raise_memOk looked
    dsimp only
    split
    · exact walkHalt_memOk (State.after_memOk taken)
    · next ht =>
      split
      · exact giveReply_memOk (walkRun_keepsMem.on taken ht).same
      · exact State.retireTok_memOk (walkRun_keepsMem.on taken ht).same

end Sys2Proof.Machine

/-! ## The canonical form of memory: the copy engines -/

namespace Sys2Proof.Machine

set_option Elab.async false

/-! ### Engines -/

theorem State.modEngine_memOk {s : State} {die eng : Nat} {f : Engine → Engine} (h : s.MemOk) : (s.modEngine die eng f).MemOk := h.same

theorem giveReturn_memOk {s : State} {p : Packet} {v : W64} (h : s.MemOk) : (giveReturn s p v).MemOk := .ite (State.modWho_memOk h) h

theorem retirePacket_memOk {s : State} {die eng : Nat} {p : Packet} (h : s.MemOk) : (retirePacket s die eng p).MemOk := by
  unfold retirePacket
  dsimp only
  refine .ite ?_ (.ite h.same h.same)
  refine State.modWho_memOk ?_
  refine .ite ?_ (State.retireTok_memOk (.ite h.same h.same))
  refine .ite ?_ (.ite h.same h.same)
  dsimp only [State.MemOk]
  change State.MemOk _
  exact .ite h.same h.same

theorem packetHalt_memOk {s : State} {die eng : Nat} {p : Packet} {why : Halt} (h : s.MemOk) : (packetHalt s die eng p why).MemOk := by
  unfold packetHalt
  dsimp only
  split
  · exact h.same
  · exact h.same
  · exact .ite (State.beginKill_memOk h.same) h.same
  · exact h

/-! ### Accesses of a payload (R238, R239) -/

theorem cReadIn_keepsMem {w : Via} {va n : Nat} : (cReadIn w va n).KeepsMem := by
  intro s h x e
  have now : cReadIn w va n s = .ok x := e
  unfold cReadIn at now
  split at now
  · exact nomatch now
  · next pa pte t ht =>
    have read := State.loadPhys_memOk (a := w.agent) (pa := pa) (n := n) (bypass := true) (eTrans_keepsMem.on h ht)
    cases now
    exact read

theorem cWrite_keepsMem {w : Via} {va n v : Nat} {bad : Bool} : (cWrite w va n v bad).KeepsMem := by
  intro s h x e
  have now : cWrite w va n v bad s = .ok x := e
  unfold cWrite at now
  split at now
  · exact nomatch now
  · next pa pte t ht =>
    have wrote := State.storePhys_memOk (a := w.agent) (pa := pa) (n := n) (v := v) (eTrans_keepsMem.on h ht)
    cases now
    exact .ite wrote.same wrote

theorem cRmw_keepsMem {w : Via} {va n : Nat} {bad : Bool} {f : Nat → Nat} : (cRmw w va n bad f).KeepsMem := by
  intro s h x e
  have now : cRmw w va n bad f s = .ok x := e
  unfold cRmw at now
  split at now
  · exact nomatch now
  · next pa pte t ht =>
    have wrote := State.rmwPhys_memOk (a := w.agent) (pa := pa) (n := n) (f := f) (eTrans_keepsMem.on h ht)
    cases now
    exact .ite wrote.same wrote

/-! ### Frames in memory (14_dispatch.md R319, R328) -/

theorem setFrameWord_memOk {s : State} {tid rank j : Nat} {v : W64} {bad : Bool} (h : s.MemOk) : (setFrameWord s tid rank j v bad).MemOk :=
  .same (State.storePhys_memOk (State.storePhys_memOk h))

theorem setFrameTag_memOk {s : State} {tid rank o : Nat} (h : s.MemOk) : (setFrameTag s tid rank o).MemOk := setFrameWord_memOk h

theorem SpPlace.write_memOk {s : State} {v : W64} {bad tag : Bool} {p : SpPlace} (h : s.MemOk) : (SpPlace.write s v bad tag p).MemOk := by
  unfold SpPlace.write
  split
  · exact h.same
  · exact .ite (setFrameTag_memOk (setFrameWord_memOk h)) (setFrameWord_memOk h)

theorem spCombine_keepsMem {p : Packet} {core addr n : Nat} {bad rmw tag : Bool} {f : Nat → Nat} :
    (spCombine p core addr n bad rmw tag f).KeepsMem := by
  intro s h x e
  have now : spCombine p core addr n bad rmw tag f s = .ok x := e
  unfold spCombine at now
  dsimp only at now
  split at now
  · exact nomatch now
  · cases now
    exact .foldl (fun _ _ h => SpPlace.write_memOk h) h

theorem spSource_keepsMem {p : Packet} {core addr : Nat} : (spSource p core addr).KeepsMem := by
  intro s h x e
  have now : spSource p core addr s = .ok x := e
  unfold spSource at now
  dsimp only at now
  split at now
  · exact nomatch now
  · cases now
    exact h.same

theorem linePages_keepsMem {p : Packet} {w : Via} {lo hi f : Nat} : (linePages p w lo hi f).KeepsMem := by
  induction f generalizing lo with
  | zero => exact .pure
  | succ f ih =>
    have two {a b : Nat} {acc : Acc} {m : Eng Unit} (hm : m.KeepsMem) :
        Eng.KeepsMem (do let _ ← eTrans w a acc; let _ ← eTrans w b acc; m) := .bind eTrans_keepsMem (fun _ => .bind eTrans_keepsMem (fun _ => hm))
    have stored {a b : Nat} {acc : Acc} : Eng.KeepsMem (if p.dsp = 0 then (do
        let _ ← eTrans w a acc; let _ ← eTrans w b acc; linePages p w (lo + min (hi - lo) (p.len - lo % p.len)) hi f)
        else linePages p w (lo + min (hi - lo) (p.len - lo % p.len)) hi f) := .ite (two ih) ih
    unfold linePages
    exact .ite .pure (.ite (two stored) stored)

theorem payloadAhead_keepsMem {p : Packet} {w : Via} : (payloadAhead p w).KeepsMem := by
  unfold payloadAhead
  dsimp only
  split
  · exact .bind cReadIn_keepsMem (fun _ => .ite epoison_keepsMem .pure)
  · exact .bind linePages_keepsMem (fun _ => .pure)

theorem payloadRead_keepsMem {p : Packet} {w : Via} : (payloadRead p w).KeepsMem :=
  .ite efail_keepsMem (.ite (.bind spSource_keepsMem (fun _ => .pure)) (.bind cReadIn_keepsMem (fun _ => .pure)))

theorem payloadWrite_keepsMem {p : Packet} {w : Via} {n v : Nat} {b : Bool} : (payloadWrite p w n v b).KeepsMem := by
  unfold payloadWrite
  split
  · exact .pure
  · exact .ite (.step (fun _ h => h.same)) .pure
  · exact .bind spCombine_keepsMem (fun _ => .pure)
  · exact .ite (.bind cRmw_keepsMem (fun _ => .pure)) (.bind cWrite_keepsMem (fun _ => .pure))

theorem payloadMove_keepsMem {p : Packet} {w : Via} {n : Nat} : (payloadMove p w n).KeepsMem :=
  .ite payloadWrite_keepsMem (.ite payloadRead_keepsMem payloadWrite_keepsMem)

theorem payloadStep_keepsMem {p : Packet} {w : Via} : (payloadStep p w).KeepsMem := by
  intro s h x e
  have now : payloadStep p w s = .ok x := e
  unfold payloadStep at now
  dsimp only at now
  split at now
  · exact payloadMove_keepsMem.on h now
  · split at now
    · next ht =>
      split at now
      · exact payloadMove_keepsMem.on (payloadAhead_keepsMem.on h ht) now
      · cases now
        exact payloadAhead_keepsMem.on h ht
    · split at now
      · exact payloadMove_keepsMem.on (State.after_memOk h) now
      · exact nomatch now

theorem amoStep_keepsMem {p : Packet} {w : Via} : (amoStep p w).KeepsMem :=
  .ite (.bind (.bind spCombine_keepsMem (fun _ => .pure)) (fun _ => .ite epoison_keepsMem .pure)) (.bind cRmw_keepsMem (fun _ =>
    .ite epoison_keepsMem .pure))

theorem packetGo_memOk {s : State} {die eng : Nat} {p : Packet} (h : s.MemOk) : MaybeMemOk (packetGo s die eng p) := by
  unfold packetGo
  dsimp only
  split
  · next _ t1 ht =>
    exact .some (.ite (giveReturn_memOk (Eng.KeepsMem.on (.ite amoStep_keepsMem payloadStep_keepsMem) h ht).same) (Eng.KeepsMem.on
      (.ite amoStep_keepsMem payloadStep_keepsMem) h ht).same)
  · split
    · exact .none
    · exact .some (packetHalt_memOk (State.after_memOk h))

theorem packetWord_memOk {s : State} {die eng k : Nat} (h : s.MemOk) : (packetWord s die eng k).MemOk := by
  unfold packetWord
  split
  · exact h
  · exact .ite h (.ite h.same (.getD (packetGo_memOk h) h))

/-! ### Completion and error stamps (R236, R239) -/

theorem stampStep_memOk {s : State} {die eng : Nat} {p : Packet} {code : Nat} (h : s.MemOk) : (stampStep s die eng p code).MemOk := by
  unfold stampStep
  dsimp only
  refine .ite h ?_
  refine .ite (retirePacket_memOk (giveReturn_memOk (State.storePhys_memOk h))) ?_
  split
  · next _ t1 ht =>
    exact retirePacket_memOk (giveReturn_memOk (eWrite_keepsMem.on (State.storePhys_memOk h) ht))
  · split
    · exact .ite (retirePacket_memOk (giveReturn_memOk (State.after_memOk (State.storePhys_memOk h)))) (State.after_memOk
      (State.storePhys_memOk h)).same
    · exact State.after_memOk (State.storePhys_memOk h)
    · exact retirePacket_memOk (giveReturn_memOk (State.after_memOk (State.storePhys_memOk h)))

theorem tagAll_memOk {s : State} {p : Packet} (h : s.MemOk) : (tagAll p s).MemOk :=
  .foldl (fun _ _ h => .foldl (fun _ _ h => SpPlace.write_memOk h) h) h

theorem completeAction_keepsMem {p : Packet} {w : Via} : (completeAction p w).KeepsMem := by
  unfold completeAction
  split
  · exact eWrite_keepsMem
  · exact eRmw_keepsMem
  · refine .ite .pure ?_
    intro s h x e
    change (if p.dstWords.any (fun x => (p.places s (spaceCore p.dst) x).any (SpPlace.locked s p)) then ewait s else .ok ((), tagAll p s)) = .ok x at e
    split at e
    · exact nomatch e
    · cases e
      exact tagAll_memOk h
  · exact .pure

theorem packetComplete_memOk {s : State} {die eng k : Nat} (h : s.MemOk) : (packetComplete s die eng k).MemOk := by
  unfold packetComplete
  dsimp only
  split
  · exact h
  · refine .ite h ?_
    split
    · exact stampStep_memOk h
    · refine .ite (.ite (State.beginKill_memOk h.same) h.same) ?_
      refine .ite h.same ?_
      refine .ite h ?_
      refine .ite h.same ?_
      split
      · next _ t1 ht =>
        exact retirePacket_memOk (completeAction_keepsMem.on h ht)
      · exact packetHalt_memOk (State.after_memOk h)
    · exact h

/-! ### Start (R237) -/

theorem packetStart_memOk {s : State} {die eng k : Nat} (h : s.MemOk) : (packetStart s die eng k).MemOk := by
  unfold packetStart
  dsimp only
  split
  · exact h
  · exact .ite (.getD (packetGo_memOk (State.raise_memOk h).same) h) h

/-! ### Acceptance and registration (R229-R231) -/

theorem slotRead_keepsMem {die eng : Nat} {q : CopyQueue} {c : Nat} : (slotRead die eng q c).KeepsMem :=
  .bind eTrans_keepsMem (fun _ => .bind eReads_keepsMem (fun _ => .pure))

theorem readSlot_memOk {s : State} {die eng : Nat} {q : CopyQueue} {c : Nat} {cancel : Bool} (h : s.MemOk) :
    ∀ x, readSlot s die eng q c cancel = some x → x.1.MemOk := by
  intro x e
  unfold readSlot at e
  dsimp only at e
  split at e
  · exact nomatch e
  · next ht =>
    split at e
    · exact nomatch e
    · cases e
      exact (slotRead_keepsMem.on h ht).same

theorem slotLeft_memOk {s : State} {die eng : Nat} {q : CopyQueue} {c : Nat} (h : s.MemOk) : MaybeMemOk (slotLeft s die eng q c) := by
  unfold slotLeft
  split
  · exact .some (State.after_memOk h)
  · exact .none

theorem addPacket_memOk {s : State} {die eng : Nat} {q : CopyQueue} {p : Packet} (h : s.MemOk) : (addPacket s die eng q p).MemOk := h.same

theorem testUnread_memOk {s : State} {die eng : Nat} {u : Unread} (h : s.MemOk) : (testUnread s die eng u).MemOk := by
  unfold testUnread
  dsimp only
  split
  · exact h.same
  · split
    · exact h
    · next _ _ t1 ht =>
      exact .ite (slotRead_keepsMem.on h ht).same (slotRead_keepsMem.on h ht).same

theorem testAllUnread_memOk {s : State} {die eng : Nat} (h : s.MemOk) : (testAllUnread s die eng).MemOk := .foldl (fun _ _ h => testUnread_memOk h) h

theorem acceptNext_memOk {s : State} {die eng : Nat} {q : CopyQueue} (h : s.MemOk) : MaybeMemOk (acceptNext s die eng q) := by
  have read : (s.loadHome (.copy die eng) (64 * q.line) 1).MemOk := State.loadHome_memOk h
  unfold acceptNext
  dsimp only
  refine .ite .none ?_
  split
  · next hr => exact .some (addPacket_memOk (State.storePhys_memOk (readSlot_memOk read _ hr)))
  · exact slotLeft_memOk read

theorem packetAccept_memOk {s : State} {die eng k : Nat} (h : s.MemOk) : (packetAccept s die eng k).MemOk := by
  unfold packetAccept
  dsimp only
  split
  · exact testAllUnread_memOk h
  · exact .getD (acceptNext_memOk (testAllUnread_memOk h)) (testAllUnread_memOk h)

theorem cqRead_keepsMem {die eng asid va : Nat} : (cqRead die eng asid va).KeepsMem :=
  .bind eTrans_keepsMem (fun _ => .bind eReads_keepsMem (fun _ => .pure))

theorem cqAdd_memOk {s : State} {die eng asid : Nat} {v : W64} (h : s.MemOk) : (cqAdd s die eng asid v).MemOk := by
  unfold cqAdd
  dsimp only
  refine .ite h.same ?_
  split
  · exact .ite h (State.after_memOk h).same
  · next _ _ t1 ht =>
    exact .ite (cqRead_keepsMem.on h ht).same (cqRead_keepsMem.on h ht).same

theorem cancelSlots_memOk {s : State} {die eng : Nat} {q : CopyQueue} (h : s.MemOk) : (cancelSlots s die eng q).MemOk := by
  unfold cancelSlots
  dsimp only
  refine .foldl (fun _ _ h => ?_) h
  split
  · next t2 _ ht2 =>
    exact ((readSlot_memOk h) _ ht2).same
  · exact .getD (slotLeft_memOk h) h

theorem cqDel_memOk {s : State} {die eng asid : Nat} {v : W64} (h : s.MemOk) : (cqDel s die eng asid v).MemOk := by
  unfold cqDel
  dsimp only
  split
  · exact h
  · refine .ite h ?_
    dsimp only [State.MemOk]
    change State.MemOk _
    exact State.modEngine_memOk (cancelSlots_memOk (State.setPts_memOk h.same))

/-! ### Cancellation (R247, R248) -/

theorem taggedSlots_memOk {die eng : Nat} {q : CopyQueue} {asid seq a ts c n : Nat} {r : List (Nat × Nat × Nat × Nat) × State} (h : r.2.MemOk) :
    (taggedSlots die eng q asid seq a ts c n r).2.MemOk := by
  induction n generalizing c r with
  | zero => exact h
  | succ n ih =>
    unfold taggedSlots
    split
    · exact h
    · refine ih ?_
      split
      · exact (State.after_memOk h).same
      · next ht =>
        have read := (slotRead_keepsMem (die := die) (eng := eng) (q := q) (c := c)).on h ht
        dsimp only
        split
        · exact read.same
        · exact read

theorem squashPackets_memOk {s : State} {asid seq a ts : Nat} (h : s.MemOk) : (squashPackets s asid seq a ts).2.MemOk :=
  List.foldlRecOn _ _ (motive := fun r : List (Nat × Nat × Nat × Nat) × State => r.2.MemOk) h.same (fun _ hr _ _ => taggedSlots_memOk hr)

theorem engineAuto_memOk {s : State} {die eng : Nat} (h : s.MemOk) : (engineAuto s die eng).MemOk := by
  unfold engineAuto
  dsimp only
  refine .foldl (fun _ _ h => packetAccept_memOk h) ?_
  split
  · exact .foldl (fun _ _ h => packetStart_memOk h) h
  · split
    · exact packetWord_memOk (.foldl (fun _ _ h => packetStart_memOk h) h)
    · exact packetComplete_memOk (.foldl (fun _ _ h => packetStart_memOk h) h)

end Sys2Proof.Machine

/-! ## The canonical form of memory: tasks, faults and images -/

namespace Sys2Proof.Machine

set_option Elab.async false

/-! ### The event ring (R318) -/

theorem flushEvents_memOk {s : State} {die n : Nat} (h : s.MemOk) : (flushEvents s die n).MemOk := by
  induction n generalizing s with
  | zero => exact h
  | succ n ih =>
    unfold flushEvents
    dsimp only
    split
    · exact h
    · exact .ite (ih (State.modDie_memOk (State.storePhys_memOk (State.storePhys_memOk h)))) h

theorem postEvent_memOk {s : State} {die kind tid detail : Nat} {w1 : W64} (h : s.MemOk) : (postEvent s die kind tid detail w1).MemOk :=
  flushEvents_memOk h.same

/-! ### The fault ring (16_faults.md R363, R364) -/

theorem putRecord_memOk {s : State} {die : Nat} {f : FaultRec} {fid : Nat} (h : s.MemOk) : (putRecord s die f fid).MemOk :=
  State.modDie_memOk (.ite h (.foldl (fun _ _ h => State.storePhys_memOk h) h))

theorem putNotice_memOk {s : State} {die : Nat} {f : FaultRec} (h : s.MemOk) : (putNotice s die f).MemOk := .ite h (.ite (putRecord_memOk h) h.same)

/-! ### Queues (R308, R309) -/

theorem State.modRec_memOk {s : State} {die serial : Nat} {f : Launch → Launch} (h : s.MemOk) : (s.modRec die serial f).MemOk := h.same

theorem lqRead_keepsMem {die asid va : Nat} : (lqRead die asid va).KeepsMem := .bind eTrans_keepsMem (fun _ => .bind eReads_keepsMem (fun _ => .pure))

theorem lqAdd_memOk {s : State} {die asid : Nat} {v : W64} (h : s.MemOk) : (lqAdd s die asid v).MemOk := by
  unfold lqAdd
  dsimp only
  refine .ite h.same ?_
  split
  · exact .ite h (State.after_memOk h).same
  · next _ _ t1 ht =>
    exact .ite (lqRead_keepsMem.on h ht).same (lqRead_keepsMem.on h ht).same

theorem lqDel_memOk {s : State} {die asid : Nat} {v : W64} (h : s.MemOk) : (lqDel s die asid v).MemOk := by
  unfold lqDel
  dsimp only
  split
  · exact h
  · exact h.same

/-! ### Refusal (R312) -/

theorem recTokenDone_memOk {s : State} {r : Launch} (h : s.MemOk) : (recTokenDone s r).MemOk := .ite (State.retireTok_memOk h) h

theorem lastErr_memOk {s : State} {r : Launch} {st : W64} (h : s.MemOk) : (lastErr s r st).MemOk := .ite h (dispatchWrite_memOk h)

theorem auditEnd_memOk {s : State} {serial status : Nat} {rsig : W64} {rcore : Nat} (h : s.MemOk) : (auditEnd s serial status rsig rcore).MemOk := by
  unfold auditEnd
  dsimp only
  split
  · exact h
  · exact .ite h.same (State.storePhys_memOk (State.storePhys_memOk (State.storePhys_memOk h))).same

theorem refuseWrites_memOk {s : State} {r : Launch} {code tid : Nat} (h : s.MemOk) : (refuseWrites s r code tid).MemOk :=
  postEvent_memOk (recTokenDone_memOk (dispatchWrite_memOk (lastErr_memOk h)))

theorem refuseRec_memOk {s : State} {r : Launch} {code tid : Nat} (h : s.MemOk) : (refuseRec s r code tid).MemOk := by
  unfold refuseRec
  dsimp only
  split
  · exact auditEnd_memOk (refuseWrites_memOk h).same
  · exact (refuseWrites_memOk h).same

theorem refuseBound_memOk {s : State} {die serial tid code : Nat} (h : s.MemOk) : (refuseBound s die serial tid code).MemOk := by
  unfold refuseBound
  split
  · exact h
  · exact .ite h (refuseWrites_memOk h).same

/-! ### Acceptance (R310, R312) -/

theorem launchAccept_memOk {s : State} {die k peers : Nat} (h : s.MemOk) : (launchAccept s die k peers).MemOk := by
  unfold launchAccept
  split
  · exact h
  · extract_lets ag c va t take w stop
    have taken {u : State} {ws : List W64} {code : Option Nat} (hu : u.MemOk) : (take u ws code).MemOk := by
      unfold take
      extract_lets a r b claimed moved kept
      have stored : claimed.MemOk := State.storePhys_memOk hu.same
      have added : kept.MemOk := stored.same
      clear_value kept
      split
      · exact refuseRec_memOk added
      · split
        · exact refuseRec_memOk added
        · exact added
    clear_value take
    have stopped {u : State} {e : Stop} (hu : u.MemOk) : (stop u e).MemOk := by
      have left : (u.after ag e).MemOk := State.after_memOk hu
      unfold stop
      dsimp only
      split
      · exact dispatchFault_memOk left.same
      · exact taken left
      · exact taken left
      · exact left
    have read : t.MemOk := State.loadHome_memOk h
    clear_value t stop
    refine .ite h (.ite (taken read) ?_)
    split
    · exact stopped read
    · next ht =>
      have checked := Eng.KeepsMem.on (.bind eTrans_keepsMem (fun _ => .bind cReadIn_keepsMem (fun _ => .pure))) read ht
      refine .ite checked ?_
      split
      · exact stopped checked
      · next ht => exact taken (eReads_keepsMem.on checked ht)

/-! ### Eligibility (R316, R317) -/

theorem eligibleStep_memOk {s : State} {die k : Nat} (h : s.MemOk) : (eligibleStep s die k).MemOk := by
  unfold eligibleStep
  dsimp only
  split
  · exact h
  · refine .ite h ?_
    refine .ite (postEvent_memOk (State.raise_memOk h).same) ?_
    refine .ite (refuseRec_memOk (State.raise_memOk h)) ?_
    split
    · split
      · exact (State.after_memOk (State.raise_memOk h)).same
      · exact refuseRec_memOk (State.after_memOk (State.raise_memOk h))
      · exact refuseRec_memOk (State.after_memOk (State.raise_memOk h))
      · exact State.after_memOk (State.raise_memOk h)
    · next _ _ t1 ht =>
      exact .ite (postEvent_memOk (Eng.KeepsMem.on (.bind eTrans_keepsMem (fun _ => .bind eRead_keepsMem (fun _ => .pure)))
        (State.raise_memOk h) ht).same) (Eng.KeepsMem.on (.bind eTrans_keepsMem (fun _ => .bind eRead_keepsMem (fun _ => .pure)))
        (State.raise_memOk h) ht).same

theorem squashRecs_memOk {s : State} {asid seq a : Nat} {info : W64} (h : s.MemOk) : (squashRecs s asid seq a info).MemOk :=
  .foldl (fun _ _ h => .ite h.same (.ite (refuseRec_memOk h) h)) h

theorem cancelRec_memOk {s : State} {die arg : Nat} (h : s.MemOk) : (cancelRec s die arg).1.MemOk := by
  unfold cancelRec
  split
  · exact h
  · exact refuseRec_memOk h

/-! ### Bind records (R319) -/

theorem dropBindRecs_memOk {s : State} {tid : Nat} (h : s.MemOk) : (dropBindRecs s tid).MemOk := .foldl (fun _ _ h => h.same) h

/-! ### Installation (R314, R315) -/

theorem clearPage_keepsMem {w : Via} {va n : Nat} : (clearPage w va n).KeepsMem := by
  intro s h x e
  have now : clearPage w va n s = .ok x := e
  unfold clearPage at now
  split at now
  · exact nomatch now
  · next pa _ t ht =>
    have cleared : (t.zeroBytes pa n).MemOk := State.zeroBytes_memOk (eTrans_keepsMem.on h ht)
    cases now
    exact .foldl (fun _ _ h => State.MemOk.same (State.stampStore_memOk h)) cleared

theorem clearRange_keepsMem {w : Via} {va n : Nat} : (clearRange w va n).KeepsMem := .eFor (fun _ => clearPage_keepsMem)

theorem clearL1f_keepsMem {tid : Nat} {g : Segment} : (clearL1f tid g).KeepsMem := .step (fun _ h => State.zeroBytes_memOk h)

theorem installClear_keepsMem {tid : Nat} {w : Via} {ws : List W64} {segs : List Segment} {bs : List (Nat × BindRec)} :
    (installClear tid w ws segs bs).KeepsMem :=
  .bind (.eFor (fun _ => .ite clearL1f_keepsMem clearRange_keepsMem)) (fun _ => .step (fun _ h => .foldl (fun _ _ h => h.same) h))

theorem eBytes_keepsMem {w : Via} {va n : Nat} : (eBytes w va n).KeepsMem := by
  induction n generalizing va with
  | zero => exact .pure
  | succ n ih => exact .bind eReadN_keepsMem (fun _ => .bind ih (fun _ => .pure))

theorem ePutBytes_keepsMem {w : Via} {va : Nat} {l : List Nat} : (ePutBytes w va l).KeepsMem := by
  induction l generalizing va with
  | nil => exact .pure
  | cons x r ih => exact .bind cWrite_keepsMem (fun _ => ih)

theorem putL1f_keepsMem {tid : Nat} {g : Segment} {off : Nat} {data : List Nat} : (putL1f tid g off data).KeepsMem :=
  .step (fun _ h => .foldl (fun _ _ h => State.setByte_memOk h) h)

theorem installData_keepsMem {tid : Nat} {ws : List W64} {segs : List Segment} {bs : List (Nat × BindRec)} {w : Via} {level off : Nat}
    {data : List Nat} : (installData tid ws segs bs w level off data).KeepsMem :=
  .bind echeck_keepsMem (fun _ => .ite (.step (fun _ h => .foldl (fun _ _ h => h.same) h)) (.eFor (fun _ => .ite putL1f_keepsMem ePutBytes_keepsMem)))

theorem eCores_keepsMem {bs : List (Nat × BindRec)} {f : Core → Core} : (eCores bs f).KeepsMem := .step (fun _ h => .foldl (fun _ _ h => h.same) h)

theorem installEntry_keepsMem {tid : Nat} {ws : List W64} {segs : List Segment} {bs : List (Nat × BindRec)} {w : Via} {e v : W64} :
    (installEntry tid ws segs bs w e v).KeepsMem := by
  unfold installEntry
  refine .bind echeck_keepsMem (fun _ => ?_)
  split
  · exact .bind echeck_keepsMem (fun _ => .bind eBytes_keepsMem (fun _ => installData_keepsMem))
  · exact .bind echeck_keepsMem (fun _ => eCores_keepsMem)
  · exact .bind echeck_keepsMem (fun _ => eCores_keepsMem)
  · exact .bind echeck_keepsMem (fun _ => eCores_keepsMem)
  · exact .bind echeck_keepsMem (fun _ => eCores_keepsMem)
  · exact .bind echeck_keepsMem (fun _ => eCores_keepsMem)
  · exact .bind echeck_keepsMem (fun _ => .bind eBytes_keepsMem (fun _ => eCores_keepsMem))
  · exact echeck_keepsMem

theorem installEntries_keepsMem {tid : Nat} {ws : List W64} {segs : List Segment} {bs : List (Nat × BindRec)} {w : Via} {l : List W64} :
    (installEntries tid ws segs bs w l).KeepsMem := by
  induction l using List.twoStepInduction with
  | nil => exact .pure
  | singleton => exact .pure
  | cons_cons e v r ih _ => exact .bind installEntry_keepsMem (fun _ => ih)

theorem ckRegion_keepsMem {w : Via} {a n i : Nat} {acc : W64} : (ckRegion w a n i acc).KeepsMem := by
  induction n generalizing i acc with
  | zero => exact .pure
  | succ n ih => exact .bind eRead_keepsMem (fun _ => ih)

theorem inputCks_keepsMem {w : Via} {regs : List (Nat × Nat × Nat × Bool)} {l : List Nat} : (inputCks w regs l).KeepsMem := by
  induction l with
  | nil => exact .pure
  | cons n r ih =>
    unfold inputCks
    split
    · exact .bind ckRegion_keepsMem (fun _ => .bind ih (fun _ => .pure))
    · exact .bind .pure (fun _ => .bind ih (fun _ => .pure))

theorem readBlock_keepsMem {w : Via} {inst : Nat} : (readBlock w inst).KeepsMem :=
  .ite .pure (.bind eRead_keepsMem (fun _ => .bind echeck_keepsMem (fun _ => eReads_keepsMem)))

theorem takeCores_memOk {s : State} {tid : Nat} {xcl : Bool} {bs : List (Nat × BindRec)} (h : s.MemOk) : (takeCores s tid xcl bs).MemOk :=
  .foldl (fun _ _ h => .ite h.same h) (.ite (.foldl (fun _ _ h => h.same) h) h)

theorem State.fuse_memOk {s : State} {cls : List Nat} (h : s.MemOk) : (s.fuse cls).MemOk := h.same

theorem bindSteps_keepsMem {tid : Nat} {r : Launch} {q : LaunchQueue} {bs : List (Nat × BindRec)} : (bindSteps tid r q bs).KeepsMem :=
  .bind (.step (fun _ h => h)) (fun _ => .bind (.step (fun _ h => h)) (fun _ => .bind readBlock_keepsMem (fun _ => .bind echeck_keepsMem
    (fun _ => .bind installClear_keepsMem (fun _ => .bind (.step (fun _ h => takeCores_memOk h)) (fun _ => .bind installEntries_keepsMem
    (fun _ => .ite (.bind inputCks_keepsMem (fun _ => .step (fun _ h => State.modRec_memOk (State.modTask_memOk (.ite (State.fuse_memOk (.foldl
    (fun _ _ h => h.same) (.foldl (fun _ _ h => State.raise_memOk h) (.foldl (fun _ _ h => h.same) h)))) (.foldl (fun _ _ h => h.same) (.foldl
    (fun _ _ h => State.raise_memOk h) (.foldl (fun _ _ h => h.same) h)))))))) (.bind .pure (fun _ => .step (fun _ h => State.modRec_memOk
    (State.modTask_memOk (.ite (State.fuse_memOk (.foldl (fun _ _ h => h.same) (.foldl (fun _ _ h => State.raise_memOk h) (.foldl (fun _ _ h =>
    h.same) h)))) (.foldl (fun _ _ h => h.same) (.foldl (fun _ _ h => State.raise_memOk h) (.foldl (fun _ _ h => h.same) h)))))))))))))))

theorem bindGo_memOk {s : State} {tid : Nat} {r : Launch} (h : s.MemOk) : MaybeMemOk (bindGo s tid r) := by
  unfold bindGo
  dsimp only
  refine .ite .none ?_
  refine .ite (.some (refuseRec_memOk h)) ?_
  refine .ite (.some (refuseRec_memOk h)) ?_
  split
  · next _ t1 ht =>
    split
    · exact .ite (.some (bindSteps_keepsMem.on h ht)) (.some (auditEnd_memOk (State.after_memOk h).same))
    · exact .some (bindSteps_keepsMem.on h ht)
  · split
    · exact .some (State.after_memOk h).same
    · exact .some (refuseRec_memOk (State.after_memOk h))
    · exact .some (refuseRec_memOk (State.after_memOk h))
    · exact .none

theorem armedBind_memOk {s : State} {die k : Nat} (h : s.MemOk) : (armedBind s die k).MemOk := by
  unfold armedBind
  split
  · exact h
  · split
    · exact h
    · split
      · exact h
      · refine .ite h ?_
        split
        · exact h
        · next t1 ht =>
          exact .ite ((bindGo_memOk h) _ ht).same ((bindGo_memOk h) _ ht)

/-! ### Cancellation at an unwind (17_reliability.md R380) -/

theorem cancelCommands_memOk {s : State} {tid rank first : Nat} (h : s.MemOk) : (cancelCommands s tid rank first).MemOk :=
  .foldl (fun _ _ h => .foldl (fun _ _ h => State.retireTok_memOk (tryErr_memOk h).same) h) (.foldl (fun _ _ h => walkEnd_memOk h) (.foldl
    (fun _ _ h => aniseQuit_memOk h) h))

theorem cancelMace_memOk {s : State} {tid rank first : Nat} (h : s.MemOk) : (cancelMace s tid rank first).MemOk :=
  .foldl (fun _ _ h => .foldl (fun _ _ h => State.retireTok_memOk h) h.same) h

theorem stampCancelled_memOk {s : State} {tid rank : Nat} (h : s.MemOk) : (stampCancelled s tid rank).MemOk :=
  .foldl (fun _ _ h => .foldl (fun _ _ h => .foldl (fun _ _ h => stampStep_memOk h) h) h) h

theorem retireClaims_memOk {s : State} {tid rank first : Nat} (h : s.MemOk) : (retireClaims s tid rank first).MemOk :=
  .foldl (fun _ _ h => State.modWho_memOk (State.retireTok_memOk h)) h.same

theorem unwindCancel_memOk {s : State} {tid rank first : Nat} (h : s.MemOk) : (unwindCancel s tid rank first).MemOk :=
  cancelCommands_memOk (cancelMace_memOk (stampCancelled_memOk (retireClaims_memOk h).same))

theorem settleUnwinds_memOk {s : State} (h : s.MemOk) : (settleUnwinds s).MemOk := .foldl (fun _ _ h => unwindCancel_memOk h) h.same

/-! ### A kill under way (R330) -/

theorem releaseReply_memOk {s : State} {tid : Nat} {r : Ask} (h : s.MemOk) : (releaseReply s tid r).MemOk := by
  unfold releaseReply
  dsimp only
  split
  · refine .ite ?_ h
    split
    · next _ t1 ht =>
      exact (bFree_keepsMem.on h ht)
    · exact State.after_memOk h
  · exact h

theorem releaseReplies_memOk {s : State} {tid : Nat} (h : s.MemOk) : (releaseReplies s tid).MemOk :=
  .foldl (fun _ _ h => .foldl (fun _ _ h => releaseReply_memOk h) (State.modWho_memOk h)) h

theorem killWork_memOk {s : State} {tid : Nat} (h : s.MemOk) : (killWork s tid).MemOk := by
  unfold killWork
  dsimp only
  refine releaseReplies_memOk ?_
  dsimp only [State.MemOk]
  change State.MemOk _
  exact .foldl (fun _ _ h => h.same) (.foldl (fun _ _ h => h.same) (.foldl (fun _ _ h => maceCancel_memOk h) (.foldl (fun _ _ h => h.same) h)))

theorem settleWrites_memOk {s : State} (h : s.MemOk) : (settleWrites s).MemOk := by
  unfold settleWrites
  refine .foldl (fun _ _ h => ?_) h.same
  split
  · exact auditEnd_memOk h
  · exact putNotice_memOk h
  · exact resumeTrigger_memOk h
  · exact .ite (refuseBound_memOk h) (dispatchWrite_memOk h)

theorem settleKills_memOk {s : State} (h : s.MemOk) : (settleKills s).MemOk := .foldl (fun _ _ h => killWork_memOk h) h

theorem settleAll_memOk {s : State} (h : s.MemOk) : (settleAll s).MemOk :=
  settleKills_memOk (.ite (settleWrites_memOk (settleUnwinds_memOk h)).same (settleWrites_memOk (settleUnwinds_memOk h)))

/-! ### Save (R325-R328) -/

theorem writeFrame_memOk {s : State} {c : Nat} (h : s.MemOk) : (writeFrame s c).MemOk :=
  .ite h.same (.foldl (fun _ _ h => .ite h.same h) (.foldl (fun _ _ h => State.storePhys_memOk h) h.same))

theorem leaveCore_memOk {s : State} {g tid : Nat} (h : s.MemOk) : (leaveCore s g tid).MemOk := .ite h.same (.ite h.same h)

theorem saveStep_memOk {s : State} {tid : Nat} (h : s.MemOk) : (saveStep s tid).MemOk := by
  unfold saveStep
  extract_lets t cs flushed performed packets written left gone ended
  have first : flushed.MemOk := .foldl (fun _ _ h => flushN_memOk h) h
  have second : performed.MemOk := .foldl (fun _ _ h => h.same) first
  have third : packets.MemOk := second.same
  have fourth : written.MemOk := .foldl (fun _ _ h => writeFrame_memOk h) third
  have fifth : left.MemOk := .foldl (fun _ _ h => h.same) fourth
  have sixth : gone.MemOk := .foldl (fun _ _ h => leaveCore_memOk h) fifth
  have last : ended.MemOk := State.modTask_memOk (dropBindRecs_memOk sixth)
  exact .ite h (postEvent_memOk last)

/-! ### Restore (R329) -/

theorem restoreContext_memOk {s : State} {tid : Nat} {ws : List W64} {b : Nat × BindRec} (h : s.MemOk) : (restoreContext s tid ws b).MemOk := by
  unfold restoreContext
  dsimp only
  dsimp only [State.MemOk]
  change State.MemOk _
  refine State.modCore_memOk ?_
  split
  all_goals exact (State.readAll_memOk h).same

theorem restoreGo_memOk {s : State} {tid : Nat} (h : s.MemOk) : (restoreGo s tid).MemOk :=
  .ite (State.beginKill_memOk h) (.ite (State.beginKill_memOk h) (State.modTask_memOk (.ite (State.fuse_memOk (.foldl (fun _ _ h => h.same) (.foldl
    (fun _ _ h => restoreContext_memOk h) h))) (.foldl (fun _ _ h => h.same) (.foldl (fun _ _ h => restoreContext_memOk h) h)))))

/-! ### Auditing (R386-R388) -/

theorem signature_keepsMem {w : Via} {l : List (Nat × Nat × Nat × Bool)} : (signature w l).KeepsMem := by
  induction l with
  | nil => exact .pure
  | cons x r ih =>
    have rest {x : W64} : Eng.KeepsMem (do let y ← signature w r; pure (x + y)) := .bind ih (fun _ => .pure)
    exact .ite (.bind (.bind ckRegion_keepsMem (fun _ => .pure)) (fun _ => rest)) (.bind .pure (fun _ => rest))

theorem taskSignature_memOk {s : State} {tid : Nat} (h : s.MemOk) : ∀ x, taskSignature s tid = some x → x.2.MemOk := by
  intro x e
  unfold taskSignature at e
  split at e
  · next ht =>
    cases e
    exact signature_keepsMem.on h ht
  · split at e
    · exact nomatch e
    · cases e
      exact .same (State.after_memOk h)

theorem auditSampled_memOk {s : State} {tid : Nat} {sig : W64} (h : s.MemOk) : (auditSampled s tid sig).MemOk := by
  unfold auditSampled
  dsimp only
  refine .ite h.same ?_
  refine postEvent_memOk ?_
  dsimp only [State.MemOk]
  change State.MemOk _
  exact .foldl (fun _ _ h => State.storePhys_memOk h) h.same

theorem auditTask_memOk {s : State} {tid : Nat} (h : s.MemOk) : MaybeMemOk (auditTask s tid) := by
  unfold auditTask
  split
  · exact .none
  · next _ t1 ht =>
    exact .ite (.some (auditSampled_memOk ((taskSignature_memOk h) _ ht))) .none

theorem auditResult_memOk {s : State} {tid serial : Nat} {failed : Bool} (h : s.MemOk) : MaybeMemOk (auditResult s tid serial failed) := by
  unfold auditResult
  dsimp only
  split
  · exact .some h
  · refine .ite .none ?_
    refine .ite (.some (auditEnd_memOk h)) ?_
    split
    · exact .ite .none (.some (auditEnd_memOk (State.after_memOk h)))
    · next _ _ t1 ht =>
      exact .some (auditEnd_memOk (Eng.KeepsMem.on (.bind signature_keepsMem (fun _ => .bind inputCks_keepsMem (fun _ => .pure))) h ht))

/-! ### Completion (R29, R324, R330) -/

theorem releaseTask_memOk {s : State} {tid : Nat} (h : s.MemOk) : (releaseTask s tid).MemOk := by
  unfold releaseTask
  dsimp only
  dsimp only [State.MemOk]
  change State.MemOk _
  exact .foldl (fun _ _ h => (leaveCore_memOk h).same) (.foldl (fun _ _ h => h.same) (.foldl (fun _ _ h => maceCancel_memOk h) (.ite h.same h.same)))

theorem finishTask_memOk {s : State} {tid : Nat} (h : s.MemOk) : (finishTask s tid).MemOk := by
  unfold finishTask
  extract_lets t r told dropped left packets recd st erred fresh ended
  have first : told.MemOk := by
    unfold told
    clear_value r
    split
    · exact .ite h (recTokenDone_memOk h)
    · exact h
  have second : dropped.MemOk := dropBindRecs_memOk first
  have third : left.MemOk := .foldl (fun _ _ h => h.same) second
  have fourth : recd.MemOk := third.same
  have fifth : erred.MemOk := by
    unfold erred
    clear_value r
    split
    · exact lastErr_memOk fourth
    · exact fourth
  have sixth : ended.MemOk := fifth.same
  exact .ite (postEvent_memOk sixth) (postEvent_memOk sixth)

theorem retireTask_memOk {s : State} {tid : Nat} (h : s.MemOk) : MaybeMemOk (retireTask s tid) := by
  unfold retireTask
  extract_lets t u v a
  have flushed : u.MemOk := .foldl (fun _ _ h => flushN_memOk h) h
  have killed : v.MemOk := .ite (completeBars_memOk (triggerGone_memOk (releaseReplies_memOk flushed).same)) flushed
  have audited : MaybeMemOk a := .ite (auditTask_memOk killed) (.some killed)
  refine .ite (.some h) ?_
  clear_value a
  cases a with
  | none => exact .none
  | some w => exact .some (State.raise_memOk (State.modTask_memOk (releaseTask_memOk (audited w rfl))))

theorem settleTask_memOk {s : State} {tid : Nat} (h : s.MemOk) : (settleTask s tid).MemOk := by
  unfold settleTask
  extract_lets u t
  have counted : u.MemOk := h.same
  clear_value u
  split
  · exact finishTask_memOk counted
  · next n _ =>
    have result := auditResult_memOk (tid := tid) (serial := n) (failed := t.kill.isSome || t.refused) counted
    cases hr : auditResult u tid n (t.kill.isSome || t.refused) with
    | none => exact counted
    | some v => exact finishTask_memOk (result v hr)

theorem completeTask_memOk {s : State} {tid : Nat} (h : s.MemOk) : (completeTask s tid).MemOk := by
  unfold completeTask
  dsimp only
  refine .ite h ?_
  split
  · exact h
  · next t1 ht =>
    refine .ite (settleTask_memOk ((retireTask_memOk h) _ ht)) ?_
    split
    · next _ t2 ht2 =>
      exact settleTask_memOk (eRmw_keepsMem.on ((retireTask_memOk h) _ ht) ht2)
    · split
      · exact (State.after_memOk ((retireTask_memOk h) _ ht)).same
      · exact State.after_memOk ((retireTask_memOk h) _ ht)
      · exact settleTask_memOk (refuseBound_memOk (State.after_memOk ((retireTask_memOk h) _ ht)))
      · exact settleTask_memOk (refuseBound_memOk (State.after_memOk ((retireTask_memOk h) _ ht)))

/-! ### Squash -/

theorem squashRun_keepsMem {s : State} {q : SqCmd} {die : Nat} : (squashRun s q die).KeepsMem :=
  .bind echeck_keepsMem (fun _ => .bind echeck_keepsMem (fun _ => .bind eRead_keepsMem (fun _ => .bind ePool_keepsMem (fun _ =>
    .bind echeck_keepsMem (fun _ => .bind eRead_keepsMem (fun _ => eWrite_keepsMem))))))

theorem squashAppends_memOk {s : State} {q : SqCmd} (h : s.MemOk) : (squashAppends s q).MemOk := .foldl (fun _ _ h => aniseQuit_memOk h) h

theorem squashSteps_memOk {s : State} {q : SqCmd} (h : s.MemOk) : (squashSteps s q).MemOk :=
  .foldl (fun _ _ h => .foldl (fun _ _ h => State.retireTok_memOk (tryErr_memOk h)) h.same) (.foldl (fun _ _ h => .foldl (fun _ _ h =>
    State.retireTok_memOk (tryErr_memOk h).same) h) h)

theorem squashAll_memOk {s : State} {q : SqCmd} (h : s.MemOk) : (squashAll s q).MemOk := by
  unfold squashAll
  dsimp only
  dsimp only [State.MemOk]
  change State.MemOk _
  exact .foldl (fun _ _ h => State.modWho_memOk h) (squashRecs_memOk (squashSteps_memOk (squashAppends_memOk (squashPackets_memOk h))))

theorem squashTurn_memOk {s : State} {die k : Nat} (h : s.MemOk) : (squashTurn s die k).MemOk := by
  unfold squashTurn
  dsimp only
  split
  · exact h
  · refine .ite h ?_
    split
    · next _ t1 ht =>
      exact squashAll_memOk (squashRun_keepsMem.on (State.raise_memOk h) ht).same
    · exact aniseHalt_memOk (State.after_memOk (State.raise_memOk h))

theorem aniseCommandTurn_memOk {s : State} {die k : Nat} (h : s.MemOk) : (aniseCommandTurn s die k).MemOk := by
  unfold aniseCommandTurn
  split
  · exact h
  · exact .ite (squashTurn_memOk h) (.ite (aniseTurn_memOk (State.raise_memOk h)) h)

theorem walkerCommandStart_memOk {s : State} {cl k : Nat} (h : s.MemOk) : (walkerCommandStart s cl k).MemOk := by
  unfold walkerCommandStart
  split
  · exact h
  · exact .ite (walkTurn_memOk h) h

/-! ### The token (R306) -/

theorem squashTokenDone_memOk {s : State} {k : Nat} (h : s.MemOk) : (squashTokenDone s k).MemOk := by
  unfold squashTokenDone
  dsimp only
  split
  · exact h
  · exact .ite (State.retireTok_memOk (State.raise_memOk h.same)) h

/-! ### The dispatch commands -/

theorem endCmd_memOk {s : State} {die : Nat} {q : DCmd} {code : Nat} (h : s.MemOk) : (endCmd s die q code).MemOk := h.same

theorem doBind_memOk {s : State} {die : Nat} {q : DCmd} (h : s.MemOk) : (doBind s die q).MemOk := by
  unfold doBind
  dsimp only
  split
  · exact h.same
  · refine .ite h.same ?_
    split
    · exact h
    · next t1 ht =>
      exact .ite ((bindGo_memOk h) _ ht) ((bindGo_memOk h) _ ht).same

theorem doArm_memOk {s : State} {die : Nat} {q : DCmd} (h : s.MemOk) : (doArm s die q).MemOk := by
  unfold doArm
  dsimp only
  split
  · exact h.same
  · exact .ite h.same h.same

theorem doPreempt_memOk {s : State} {die : Nat} {q : DCmd} (h : s.MemOk) : (doPreempt s die q).MemOk := .ite (State.beginSave_memOk h).same h.same

theorem doRestore_memOk {s : State} {die : Nat} {q : DCmd} (h : s.MemOk) : (doRestore s die q).MemOk := .ite h.same (.ite h (restoreGo_memOk h).same)

theorem doKill_memOk {s : State} {die : Nat} {q : DCmd} (h : s.MemOk) : (doKill s die q).MemOk := .ite (State.beginKill_memOk h).same h.same

theorem perform_memOk {s : State} {die op : Nat} (h : s.MemOk) : (perform s die op).MemOk := by
  unfold perform
  split
  · exact h
  · refine .ite h ?_
    split
    · exact doBind_memOk h
    · exact doArm_memOk h
    · exact doPreempt_memOk h
    · exact doRestore_memOk h
    · exact doKill_memOk h
    · exact endCmd_memOk (.ite h.same h)
    · exact (cancelRec_memOk h).same

/-! ### Fault records (R363, R364) -/

theorem faultRecord_memOk {s : State} {die : Nat} (h : s.MemOk) : (faultRecord s die).MemOk := by
  unfold faultRecord
  dsimp only
  split
  · split
    · exact .ite (putRecord_memOk h).same h
    · exact h
  · exact h

/-! ### FRESUME (R365-R367, R371, R373) -/

theorem resumeCore_memOk {s : State} {f : FaultRec} {err : Bool} (h : s.MemOk) : (resumeCore s f err).MemOk := by
  unfold resumeCore
  extract_lets t refused u counted
  have first : refused.MemOk := .ite (State.modWho_memOk h) h
  have second : counted.MemOk := first.same
  exact .ite h (.ite (postEvent_memOk second) second)

theorem resumeCopy_memOk {s : State} {f : FaultRec} {err : Bool} (h : s.MemOk) : (resumeCopy s f err).MemOk := h.same

theorem resumeAnise_memOk {s : State} {die : Nat} {f : FaultRec} {err : Bool} (h : s.MemOk) : (resumeAnise s die f err).MemOk := by
  unfold resumeAnise
  split
  · exact .ite (aniseQuit_memOk h) h.same
  · exact h.same

theorem resumeClove_memOk {s : State} {f : FaultRec} {err : Bool} {t : Nat} (h : s.MemOk) : (resumeClove s f err t).MemOk := by
  unfold resumeClove
  dsimp only
  split
  · exact .ite (.foldl (fun _ _ h => State.retireTok_memOk (tryErr_memOk h).same) (State.raise_memOk h)) h.same
  · split
    · exact .ite (.foldl (fun _ _ h => State.retireTok_memOk (tryErr_memOk (State.raise_memOk h))) h.same) h.same
    · exact h

theorem resumeWalker_memOk {s : State} {f : FaultRec} {err : Bool} (h : s.MemOk) : (resumeWalker s f err).MemOk := by
  unfold resumeWalker
  split
  · exact .ite (walkEnd_memOk h) h.same
  · exact h

theorem resumeDispatch_memOk {s : State} {die : Nat} {f : FaultRec} {err : Bool} (h : s.MemOk) : (resumeDispatch s die f err).MemOk := by
  unfold resumeDispatch
  dsimp only
  split
  · exact .ite (dispatchWrite_memOk h.same) (.ite (refuseBound_memOk h.same) h.same)
  · exact .ite h.same (.ite (refuseBound_memOk h.same) h.same)

theorem fresume_memOk {s : State} {die fid : Nat} {err : Bool} (h : s.MemOk) : (fresume s die fid err).MemOk := by
  unfold fresume
  dsimp only
  split
  · exact h.same
  · split
    · exact resumeCore_memOk (State.raise_memOk h.same)
    · exact resumeCopy_memOk (State.raise_memOk h.same)
    · exact resumeAnise_memOk (State.raise_memOk h.same)
    · exact resumeClove_memOk (State.raise_memOk h.same)
    · exact resumeWalker_memOk (State.raise_memOk h.same)
    · exact resumeDispatch_memOk (State.raise_memOk h.same)

theorem fresumeWrite_memOk {s : State} {die : Nat} {v : W64} (h : s.MemOk) : (fresumeWrite s die v).MemOk := by
  unfold fresumeWrite
  split
  · exact fresume_memOk h
  · exact fresume_memOk h
  · exact h

/-! ### TLBI (R361) -/

theorem tlbiDone_memOk {s : State} {die : Nat} (h : s.MemOk) : (tlbiDone s die).MemOk := by
  unfold tlbiDone
  dsimp only
  split
  · exact h
  · refine .ite h ?_
    refine State.modDie_memOk ?_
    dsimp only [State.MemOk]
    change State.MemOk _
    exact .foldl (fun _ _ h => .ite h (flushN_memOk h)) h

theorem State.evictTlb_memOk {s : State} {k : Nat} (h : s.MemOk) : (s.evictTlb k).MemOk := by
  unfold State.evictTlb
  split
  · exact h
  · exact .ite h h.same

theorem walkStep_memOk {s : State} {die asid va : Nat} {wr k : Bool} (h : s.MemOk) : (walkStep s die asid va wr k).MemOk := by
  unfold walkStep
  split
  · next _ _ t1 ht =>
    exact ((translate_memOk h).of_ok ht)
  · next _ t1 ht =>
    exact ((translate_memOk h).of_absent ht)
  · next t1 ht =>
    exact ((translate_memOk h).of_refused ht)
  · exact h

/-! ### The sealing engine -/

theorem readCode_keepsMem {w : Via} {len a n i : Nat} : (readCode w len a n i).KeepsMem := by
  induction n generalizing i with
  | zero => exact .pure
  | succ n ih =>
    refine .bind eReads_keepsMem (fun _ => ?_)
    split
    · exact .pure
    · exact .bind ih (fun _ => .pure)

theorem sealReport_memOk {s : State} {w : Via} {rpt status slot kind bundle handle : Nat} (h : s.MemOk) :
    MaybeMemOk (sealReport s w rpt status slot kind bundle handle) := by
  unfold sealReport
  refine .ite (.some h) ?_
  split
  · next _ t1 ht =>
    exact .some (Eng.KeepsMem.on (.bind eWrite_keepsMem (fun _ => eWrite_keepsMem)) h ht)
  · exact .ite .none (.some (State.after_memOk h))

theorem sealSubmit_memOk {s : State} {die asid : Nat} {v : W64} (h : s.MemOk) : (sealSubmit s die asid v).MemOk := .ite h (.ite h.same h.same)

theorem sealWords_memOk {s : State} {w : Via} {ws : List W64} (h : s.MemOk) : MaybeMemOk (sealWords s w ws) := by
  unfold sealWords
  dsimp only
  split
  · exact sealReport_memOk h
  · refine .ite (sealReport_memOk h) ?_
    split
    · exact .ite .none (sealReport_memOk (State.after_memOk h))
    · next _ _ _ t1 ht =>
      exact sealReport_memOk (readCode_keepsMem.on h ht)
    · next _ t1 ht =>
      exact sealReport_memOk (readCode_keepsMem.on h ht).same

theorem sealTry_memOk {s : State} {die va asid : Nat} (h : s.MemOk) : MaybeMemOk (sealTry s die va asid) := by
  unfold sealTry
  dsimp only
  split
  · exact .ite .none (.some (State.after_memOk h))
  · next _ t1 ht =>
    split
    · exact .ite .none (.some (State.after_memOk (cReadIn_keepsMem.on h ht)))
    · next _ _ t2 ht2 =>
      exact .ite (.some (Eng.KeepsMem.on (.bind cReadIn_keepsMem (fun _ => .bind cReadIn_keepsMem (fun _ => .pure)))
        (cReadIn_keepsMem.on h ht) ht2)) (.ite (sealReport_memOk (Eng.KeepsMem.on (.bind cReadIn_keepsMem (fun _ => .bind cReadIn_keepsMem
        (fun _ => .pure))) (cReadIn_keepsMem.on h ht) ht2)) (sealWords_memOk (Eng.KeepsMem.on (.bind cReadIn_keepsMem (fun _ =>
        .bind cReadIn_keepsMem (fun _ => .pure))) (cReadIn_keepsMem.on h ht) ht2)))

theorem sealPerform_memOk {s : State} {die : Nat} (h : s.MemOk) : (sealPerform s die).MemOk := by
  unfold sealPerform
  split
  · exact h
  · exact .getD (sealTry_memOk h.same) h

end Sys2Proof.Machine

/-! ## The canonical form of memory: cycles, power, boot and registers -/

namespace Sys2Proof.Machine

set_option Elab.async false

/-! ### Who holds issue (R19, R21, R323) -/

theorem takeIssue_memOk {s : State} {g : Nat} (h : s.MemOk) : (takeIssue s g).MemOk := by
  unfold takeIssue
  dsimp only
  refine .ite h ?_
  split
  · exact h
  · exact h.same

theorem giveUpIssue_memOk {s : State} {g : Nat} (h : s.MemOk) : (giveUpIssue s g).MemOk := by
  unfold giveUpIssue
  dsimp only
  split
  · exact h.same
  · exact .ite h h.same

/-! ### Fetch (R36-R41) -/

theorem fetchFrom_memOk {c n : Nat} {s : State} (h : s.MemOk) : (fetchFrom c n s).2.MemOk := by
  induction n generalizing s with
  | zero => exact h
  | succ n ih =>
    have skipped : (skipBundle s c).MemOk := .ite h.same h.same
    unfold fetchFrom
    dsimp only
    split
    · exact h
    · split
      · exact h
      · split
        · split
          · exact ih skipped
          · exact skipped
        · exact h

theorem bundleSkip_memOk {s : State} {g : Nat} (h : s.MemOk) : (bundleSkip s g).MemOk := by
  unfold bundleSkip
  dsimp only
  split
  · exact h
  · split
    · exact h
    · exact .ite h (.ite (.ite (takeTrap_memOk h) h) (.ite (.ite (.ite h.same h.same) (State.modCtx_memOk (.ite h.same h.same))) h))

/-! ### Issue -/

theorem issueBundle_memOk {s : State} {g c : Nat} {ops : List SlotOp} (ho : ∀ o ∈ ops, o.KeepsMem) (h : s.MemOk) : (issueBundle s g c ops).MemOk := by
  unfold issueBundle
  dsimp only
  refine .ite (issueSlots_memOk ho h) (.ite (issueSlots_memOk ho h) (.ite (freezeCycle_memOk h.same) ?_))
  exact .ite (State.modCore_memOk (issueSlots_memOk ho h.same)) (issueSlots_memOk ho h.same)

theorem resolveStores_memOk {s : State} {c : Nat} (h : s.MemOk) : (resolveStores s c).1.MemOk := by
  unfold resolveStores
  dsimp only
  split
  · exact h
  · split
    · next _ _ t1 ht =>
      exact flushN_memOk ((translate_memOk h).of_ok ht).same
    · next _ t1 ht =>
      exact State.beginSave_memOk ((translate_memOk h).of_absent ht).same
    · exact h
    · next t1 ht =>
      split
      · exact ((translate_memOk h).of_refused ht).same
      · exact boundaryTrap_memOk ((translate_memOk h).of_refused ht).same

theorem boundaryEvents_memOk {s : State} {c : Nat} (h : s.MemOk) : (boundaryEvents s c).1.MemOk := by
  unfold boundaryEvents
  dsimp only
  split
  · exact boundaryTrap_memOk h.same
  · split
    · exact dataWait_memOk h.same
    · split
      · exact boundaryTrap_memOk h.same
      · exact resolveStores_memOk h

theorem boundary_memOk {s : State} {c : Nat} (h : s.MemOk) : (boundary s c).1.MemOk := by
  unfold boundary
  dsimp only
  split
  · split
    · exact enterPending_memOk h
    · exact h
  · split
    · split
      · exact boundaryTrap_memOk h.same
      · split
        · next t1 ht =>
          exact ((resolveStores_memOk h).of_fst ht)
        · next t1 ht =>
          exact exitContext_memOk ((resolveStores_memOk h).of_fst ht)
    · split
      · split
        · next t1 ht =>
          exact ((boundaryEvents_memOk h).of_fst ht)
        · next t1 ht =>
          exact ((boundaryEvents_memOk h).of_fst ht).same
      · split
        · exact h.same
        · exact h

/-! ### The end of a cycle -/

theorem countQuantum_memOk {s : State} {g : Nat} (h : s.MemOk) : (countQuantum s g).MemOk := by
  unfold countQuantum
  dsimp only
  split
  · exact h
  · exact .ite h (.ite (postEvent_memOk h.same) h.same)

theorem clearLogs_memOk {s : State} {g : Nat} (h : s.MemOk) : (clearLogs s g).MemOk := .foldl (fun _ _ h => .ite h.same h) h

theorem haltStops_memOk {s : State} {g : Nat} (h : s.MemOk) : (haltStops s g).MemOk := .foldl (fun _ _ h => .ite (.ite h.same h.same) h) h

theorem endCycle_memOk {s : State} {g : Nat} (h : s.MemOk) : (endCycle s g).MemOk := by
  unfold endCycle
  dsimp only
  refine .foldl (fun _ _ h => .ite (lateArrival_memOk h).same (lateArrival_memOk h)) ?_
  refine haltStops_memOk ?_
  refine State.modCore_memOk ?_
  refine State.modCore_memOk ?_
  refine countQuantum_memOk ?_
  refine .ite (.foldl (fun _ _ h => agePend_memOk h) (State.modCore_memOk (tickSampler_memOk (tickClove_memOk (State.modCore_memOk
    (State.modCore_memOk (tickRows_memOk (clearLogs_memOk (queueEngines_memOk h).same)))))))) ?_
  dsimp only [State.MemOk]
  change State.MemOk _
  exact .foldl (fun _ _ h => agePend_memOk h) (State.modCore_memOk (tickSampler_memOk (tickClove_memOk (State.modCore_memOk (State.modCore_memOk
    (tickRows_memOk (clearLogs_memOk (queueEngines_memOk h).same)))))))

/-! ### Errors -/

theorem countPoison_memOk {s : State} {die : Nat} {addr : W64} (h : s.MemOk) : (countPoison s die addr).MemOk := h.same

theorem poisonEntry_memOk {s : State} {die unit w : Nat} (h : s.MemOk) : (poisonEntry s die unit w).MemOk := by
  unfold poisonEntry
  dsimp only
  split
  · exact h
  · exact .ite h h.same

theorem poisonMem_memOk {s : State} {die pa va : Nat} (h : s.MemOk) : (poisonMem s die pa va).MemOk :=
  .ite h (countPoison_memOk (State.setBad_memOk (State.writeN_memOk h.same)))

theorem poisoning_memOk {s : State} {die space unit w : Nat} (h : s.MemOk) : (poisoning s die space unit w).MemOk := by
  unfold poisoning
  dsimp only
  refine .ite ?_ (.ite h (.ite (poisonEntry_memOk h) (.ite h h.same)))
  split
  · exact .ite (poisonMem_memOk h) h
  · exact .ite h (poisonMem_memOk h.same)

/-! ### Links (R389-R392, R397) -/

theorem laneFail_memOk {s : State} {n lane : Nat} (h : s.MemOk) : (laneFail s n lane).MemOk := .ite h (.ite (.ite h.same h.same) h.same)

theorem linkTrained_memOk {s : State} {n : Nat} (h : s.MemOk) : (linkTrained s n).MemOk :=
  .ite h (.ite (.ite h.same h.same) (.ite h.same (.ite h.same (.ite h.same h.same))))

theorem portEnable_memOk {s : State} {n : Nat} {was on : Bool} (h : s.MemOk) : (portEnable s n was on).MemOk := .ite h (.ite h.same h.same)

theorem gftWrite_memOk {s : State} {die v : Nat} (h : s.MemOk) : (gftWrite s die v).MemOk := .foldl (fun _ _ h => portEnable_memOk h) h.same

theorem gftPortEnable_memOk {s : State} {die port : Nat} {on : Bool} (h : s.MemOk) : (gftPortEnable s die port on).MemOk := .ite h (gftWrite_memOk h)

theorem storagePortEnable_memOk {s : State} {die : Nat} {on : Bool} (h : s.MemOk) : (storagePortEnable s die on).MemOk :=
  .ite h (portEnable_memOk h.same)

/-! ### Power (R402-R405) -/

theorem deepSleep_memOk {s : State} (h : s.MemOk) : (deepSleep s).MemOk := h.filter _

theorem powerEntry_memOk {s : State} (h : s.MemOk) : (powerEntry s).MemOk := .ite h (.ite (deepSleep_memOk h) h.same)

theorem startGft_memOk {s : State} (h : s.MemOk) : (startGft s).MemOk := .foldl (fun _ _ h => .ite h.same h) h

theorem wakeUp_memOk {s : State} (h : s.MemOk) : (wakeUp s).MemOk := by
  unfold wakeUp
  extract_lets t
  have linked : State.MemOk ((List.range 48).foldl (fun s n => s.modLink n (fun l => { l with state := l.trained })) { s with pstate := 0 }) :=
    .foldl (fun _ _ h => h.same) h.same
  have woken : t.MemOk := startGft_memOk linked
  clear_value t
  exact .ite h.same (.ite woken.same woken)

theorem powerWake_memOk {s : State} {ev : Nat} (h : s.MemOk) : (powerWake s ev).MemOk := .ite h (wakeUp_memOk h)

theorem ltrMessage_memOk {s : State} {die ns : Nat} (h : s.MemOk) : (ltrMessage s die ns).MemOk := .ite h (powerWake_memOk h.same)

/-! ### Requests from outside (R398-R401) -/

theorem memAccess_memOk {s : State} {a : Agent} {pa size : Nat} {op : MemOp} {v cmp : W64} (h : s.MemOk) :
    (memAccess s a pa size op v cmp).MemOk := by
  unfold memAccess
  dsimp only
  split
  · exact State.setPts_memOk h.same
  · exact State.storePhys_memOk h
  · have wrote := State.rmwPhys_memOk (a := a) (pa := pa) (n := size) (f := fun old => opResult op size old v.toNat cmp.toNat) h
    exact .ite wrote.same wrote

theorem portAccess_memOk {s : State} {a : Agent} {die code asid va size : Nat} {op : MemOp} {v cmp : W64} (h : s.MemOk) :
    (portAccess s a die code asid va size op v cmp).MemOk := by
  unfold portAccess
  refine .ite h ?_
  split
  · exact h
  · next t1 ht =>
    exact putNotice_memOk ((translate_memOk h).of_refused ht)
  · next _ t1 ht =>
    exact putNotice_memOk ((translate_memOk h).of_absent ht)
  · next _ _ t1 ht =>
    exact .ite (memAccess_memOk ((translate_memOk h).of_ok ht)) h

theorem hostAccess_memOk {s : State} {die : Nat} {i : HostAccess} {run : State → State} (hr : ∀ t, t.MemOk → (run t).MemOk) (h : s.MemOk) :
    (hostAccess s die i run).MemOk := by
  have awake : (powerWake s 0).MemOk := powerWake_memOk h
  exact .ite h (.ite awake.same (.ite awake (hr _ awake)))

theorem bar2Run_memOk {s : State} {die off : Nat} {op : MemOp} {size : Nat} {v cmp : W64} (h : s.MemOk) : (bar2Run s die off op size v cmp).MemOk :=
  .ite (portAccess_memOk h) (.ite (memAccess_memOk h) h)

theorem bar2Access_memOk {s : State} {die off : Nat} {op : MemOp} {size : Nat} {v cmp : W64} (h : s.MemOk) :
    (bar2Access s die off op size v cmp).MemOk := .ite h (hostAccess_memOk (fun _ h => bar2Run_memOk h) h)

theorem peerRequest_memOk {s : State} {die : Nat} {va : W64} {op : MemOp} {size : Nat} {v cmp : W64} (h : s.MemOk) :
    (peerRequest s die va op size v cmp).MemOk :=
  .ite h (portAccess_memOk (powerWake_memOk h))

theorem storageDma_memOk {s : State} {die : Nat} {va : W64} {op : MemOp} {size : Nat} {v : W64} (h : s.MemOk) :
    (storageDma s die va op size v).MemOk :=
  .ite h (portAccess_memOk h)

theorem driveInterrupt_memOk {s : State} {die : Nat} (h : s.MemOk) : (driveInterrupt s die).MemOk := .ite (powerWake_memOk h) (powerWake_memOk h).same

/-! ### Signed blocks (R406) -/

theorem takeBlock_memOk {s t : State} {die kind : Nat} {b : Signed} (h : s.MemOk) (e : takeBlock s die kind b = .ok t) : t.MemOk := by
  unfold takeBlock at e
  split at e
  · exact nomatch e
  · exact Except.ok.inj e ▸ h.same

/-! ### The stages of boot (R407) -/

theorem trainLinks_memOk {s : State} (h : s.MemOk) : (trainLinks s).MemOk := .foldl (fun _ _ h => h.same) h

theorem bootStage1_memOk {s : State} {die : Nat} (h : s.MemOk) : (bootStage1 s die).MemOk := by
  unfold bootStage1
  split
  · exact h.same
  · next t ht =>
    have taken := takeBlock_memOk h ht
    split
    · exact taken.same
    · next u hu =>
      have trained : (trainLinks u).MemOk := trainLinks_memOk (takeBlock_memOk taken hu)
      exact .ite (State.modDie_memOk trained) (State.modDie_memOk trained)

theorem bootStage2_memOk {s : State} {die : Nat} (h : s.MemOk) : (bootStage2 s die).MemOk := by
  have started {u : State} (hu : u.MemOk) {x : Hart} : (bootDone (u.setHart (9 * die + 8) x) die 2).MemOk := hu.same
  unfold bootStage2
  dsimp only
  split
  · exact h.same
  · next t ht => exact started (State.putBytes_memOk (takeBlock_memOk h ht))

theorem bootStage3_memOk {s : State} {die : Nat} (h : s.MemOk) : (bootStage3 s die).MemOk := by
  unfold bootStage3
  dsimp only
  refine .ite h.same ?_
  dsimp only [bootDone, State.modDie, State.setDie, State.MemOk]
  exact h.filter _

theorem startHarts_memOk {s : State} {die : Nat} (h : s.MemOk) : (startHarts s die).MemOk := .foldl (fun _ _ h => h.same) h

theorem bootKernel_memOk {s : State} {die : Nat} (h : s.MemOk) : (bootKernel s die).MemOk := by
  unfold bootKernel
  split
  · exact h.same
  · next t ht =>
    have started : (startHarts t die).MemOk := startHarts_memOk (takeBlock_memOk h ht)
    exact started.same

theorem bootStage5_memOk {s : State} {die : Nat} (h : s.MemOk) : (bootStage5 s die).MemOk :=
  .ite (.ite (bootKernel_memOk h) h) (.ite h.same (bootKernel_memOk (State.putBytes_memOk h)))

theorem bootStep_memOk {s : State} {die : Nat} (h : s.MemOk) : (bootStep s die).MemOk := by
  unfold bootStep
  dsimp only
  refine .ite h ?_
  refine .ite h.same ?_
  split
  · exact bootStage1_memOk h
  · exact bootStage2_memOk h
  · exact bootStage3_memOk h
  · exact h.same
  · exact bootStage5_memOk h

/-! ### Identity and attestation (R409, R410) -/

theorem attFinish_memOk {s : State} {die : Nat} (h : s.MemOk) : (attFinish s die).MemOk := by
  unfold attFinish
  dsimp only
  split
  · exact h
  · exact h.same

/-! ### Writes -/

theorem sealWrite_memOk {s : State} {die asid w : Nat} {v : W64} (h : s.MemOk) : (sealWrite s die asid w v).MemOk := by
  unfold sealWrite
  split
  · exact sealSubmit_memOk h
  · exact h.same
  · exact .ite h.same h
  · exact h

theorem copyWrite_memOk {s : State} {die eng asid w : Nat} {v : W64} (h : s.MemOk) : (copyWrite s die eng asid w v).MemOk := by
  unfold copyWrite
  split
  · exact cqAdd_memOk h
  · exact cqDel_memOk h
  · exact .ite h.same h
  · exact h

theorem poolWrite_memOk {s : State} {r : PoolRef} {w : Nat} {v : W64} (h : s.MemOk) : (poolWrite s r w v).MemOk := by
  unfold poolWrite
  dsimp only
  refine .ite h.same ?_
  refine .ite (.ite (poolDeregister_memOk h) h) ?_
  split
  · exact .ite (poolRegister_memOk h.same) h.same
  · exact h.same
  · exact h.same
  · exact h.same
  · exact h.same
  · exact h

theorem translationWrite_memOk {s : State} {die w : Nat} {v : W64} (h : s.MemOk) : (translationWrite s die w v).MemOk := by
  unfold translationWrite
  split
  · exact h.same
  · exact .ite h h.same
  · exact h.same
  · exact h.same
  · exact fresumeWrite_memOk h
  · exact .ite h.same h
  · exact h

theorem reliabilityWrite_memOk {s : State} {die w : Nat} {v : W64} (h : s.MemOk) : (reliabilityWrite s die w v).MemOk := by
  unfold reliabilityWrite
  refine .ite h.same ?_
  split
  · exact h.same
  · exact h.same
  · exact h.same
  · exact .ite h.same h
  · exact .ite h.same h
  · exact .ite h.same h
  · exact .ite h.same h
  · exact h

theorem dispatchWindow_memOk {s : State} {die : Nat} {who : Writer} {asid off : Nat} {v : W64} (h : s.MemOk) :
    (dispatchWindow s die who asid off v).MemOk := by
  unfold dispatchWindow
  dsimp only
  refine .ite (.ite h.same h) ?_
  refine .ite ?_ ?_
  · refine .ite h ?_
    split
    · exact h.same
    · exact h.same
    · exact h.same
    · exact h
  · split
    · exact lqAdd_memOk h
    · exact lqDel_memOk h
    · exact .ite h.same h
    · exact .ite (.ite h h.same) h
    · exact .ite h.same h
    · exact h

theorem hostWrite_memOk {s : State} {die : Nat} {v2 : Bool} {w : Nat} {v : W64} (h : s.MemOk) : (hostWrite s die v2 w v).MemOk := by
  unfold hostWrite
  split
  · exact h.same
  · exact .ite h.same h
  · exact h

theorem portsWrite_memOk {s : State} {die w : Nat} {v : W64} (h : s.MemOk) : (portsWrite s die w v).MemOk := by
  unfold portsWrite
  split
  · exact h.same
  · exact portEnable_memOk h.same
  · exact gftWrite_memOk h
  · exact h

theorem powerWrite_memOk {s : State} {who : Writer} {w : Nat} {v : W64} (h : s.MemOk) : (powerWrite s who w v).MemOk := by
  unfold powerWrite
  dsimp only
  split
  · exact (powerWake_memOk h).same
  · exact .ite h.same h
  · exact h

theorem bootWrite_memOk {s : State} {die : Nat} {who : Writer} {w : Nat} {v : W64} (h : s.MemOk) : (bootWrite s die who w v).MemOk := by
  unfold bootWrite
  dsimp only
  refine .ite (.ite (.ite h h.same) h) ?_
  refine .ite (.ite h.same h) ?_
  refine .ite ?_ h
  refine .ite h ?_
  refine .ite ?_ (.ite h.same h)
  refine .ite (.ite h.same h) ?_
  dsimp only [State.MemOk]
  change State.MemOk _
  exact .ite h.same h

theorem windowWrite_memOk {s : State} {die : Nat} {who : Writer} {asid off : Nat} {v : W64} (h : s.MemOk) :
    (windowWrite s die who asid off v).MemOk :=
  .ite h (.ite h (.ite (.ite (sealWrite_memOk h) h) (.ite (.ite (copyWrite_memOk h) h) (.ite (.ite (poolWrite_memOk h) h) (.ite (.ite
    (translationWrite_memOk h) h) (.ite (.ite (reliabilityWrite_memOk h) h) (.ite (.ite (dispatchWindow_memOk h) h) (.ite (hostWrite_memOk h) (.ite
    (hostWrite_memOk h) (.ite (.ite (portsWrite_memOk h) h) (.ite (powerWrite_memOk h) (.ite (bootWrite_memOk h) h))))))))))))

theorem registerWrite_memOk {s : State} {die : Nat} {who : Writer} {off : Nat} {v : W64} (h : s.MemOk) : (registerWrite s die who off v).MemOk := by
  unfold registerWrite
  refine .ite h ?_
  split
  · exact hostAccess_memOk (fun _ h => windowWrite_memOk h) h
  · exact .ite h (windowWrite_memOk h)
  · exact windowWrite_memOk h

theorem performHeld_memOk {s : State} {die : Nat} {i : HostAccess} (h : s.MemOk) : (performHeld die s i).MemOk := by
  unfold performHeld
  split
  · exact bar2Access_memOk h
  · exact registerWrite_memOk h

theorem releaseHeld_memOk {s : State} {die : Nat} (h : s.MemOk) : (releaseHeld s die).MemOk :=
  .ite h (.foldl (fun _ _ h => performHeld_memOk h) h.same)

end Sys2Proof.Machine

/-! ## The canonical form of memory: the system cores and the step -/

namespace Sys2Proof.Machine

set_option Elab.async false

/-! ### The RISC-V harts of a die -/

/-- The state that an instruction of a hart stops with has its memory in canonical form. -/
def RvStop.MemOk : RvStop → Prop
  | .trap _ _ s => s.MemOk
  | .wait s => s.MemOk

/-- What an instruction of a hart comes to, complete or not, its memory is in canonical form. -/
def RvMemOk {α : Type} (st : α → State) : Except RvStop α → Prop
  | .ok x => (st x).MemOk
  | .error e => e.MemOk

namespace RvMemOk

variable {α β : Type} {st : α → State} {su : β → State} {m : Except RvStop α}

theorem ite {p : Prop} [Decidable p] {r q : Except RvStop α} (hr : RvMemOk st r) (hq : RvMemOk st q) : RvMemOk st (if p then r else q) := by
  split
  · exact hr
  · exact hq

theorem bind {f : α → Except RvStop β} (hm : RvMemOk st m) (hf : ∀ x, (st x).MemOk → RvMemOk su (f x)) : RvMemOk su (m >>= f) := by
  cases m with
  | error e => exact hm
  | ok x => exact hf x hm

theorem of_ok {x : α} (h : RvMemOk st m) (e : m = .ok x) : (st x).MemOk := by
  rw [e] at h
  exact h

theorem of_error {w : RvStop} (h : RvMemOk st m) (e : m = .error w) : w.MemOk := by
  rw [e] at h
  exact h

end RvMemOk

theorem State.modHart_memOk {s : State} {die n : Nat} {f : Hart → Hart} (h : s.MemOk) : (s.modHart die n f).MemOk := h.same

/-! ### Control registers -/

theorem csrWrite_memOk {s : State} {die n c : Nat} {v : W64} (h : s.MemOk) : (csrWrite s die n c v).MemOk := by
  unfold csrWrite
  dsimp only
  split
  case h_12 => exact .ite h h.same
  case h_13 => exact .ite h h.same
  case h_21 => exact .ite h.same h
  all_goals exact h.same

/-! ### Translation by Sv48 (R33, R353, R359) -/

theorem rvTranslate_memOk {s : State} {die n : Nat} {va : W64} {a : RvAcc} (h : s.MemOk) : RvMemOk Prod.snd (rvTranslate s die n va a) := by
  have read {l : List Nat} : (s.readAll (.hart die n) l).MemOk := State.readAll_memOk h
  unfold rvTranslate
  refine .ite h (.ite h ?_)
  dsimp only
  split
  · exact h
  · refine .ite h ?_
    split
    · refine .ite read ?_
      dsimp only [RvMemOk, State.MemOk]
      change State.MemOk _
      exact .ite read (State.storePhys_memOk read)
    · exact read

/-! ### Memory -/

theorem rvFetch16_memOk {s : State} {die n : Nat} {va : W64} (h : s.MemOk) : RvMemOk Prod.snd (rvFetch16 s die n va) := by
  refine .bind (rvTranslate_memOk h) (fun x h => .ite h (.ite h (.ite (State.loadHome_memOk h) ?_)))
  have read := State.loadPhys_memOk (a := .hart die n) (pa := x.1) (n := 2) (bypass := true) h
  exact read

theorem rvLoad_memOk {s : State} {die n : Nat} {va : W64} {size : Nat} (h : s.MemOk) : RvMemOk (fun x => x.2.2) (rvLoad s die n va size) := by
  refine .ite h (.bind (rvTranslate_memOk h) (fun x h => ?_))
  dsimp only
  split
  · exact State.MemOk.ite (State.raise_memOk h) h
  · have read := State.loadPhys_memOk (a := .hart die n) (pa := x.1) (n := size) (bypass := true) h
    exact .ite h (.ite h (.ite (State.loadHome_memOk h) read))

theorem rvAmoPlace_memOk {s : State} {die n : Nat} {va : W64} {size : Nat} (h : s.MemOk) : RvMemOk Prod.snd (rvAmoPlace s die n va size) :=
  .ite h (.bind (rvTranslate_memOk h) (fun _ h => .ite h (.ite h (.ite h h))))

theorem rvStore_memOk {s : State} {die n : Nat} {va : W64} {size v : Nat} (h : s.MemOk) : RvMemOk id (rvStore s die n va size v) := by
  refine .ite h (.bind (rvTranslate_memOk h) (fun x h => ?_))
  dsimp only
  split
  · exact .ite h (.ite h (.ite h (windowWrite_memOk h)))
  · exact .ite h (.ite h (State.storePhys_memOk h))

/-! ### Execution -/

theorem rvIllegal_memOk {s : State} {w : Nat} (h : s.MemOk) : RvMemOk id (rvIllegal s w) := h

theorem rvDone_memOk {s : State} {die n len rd : Nat} {v : W64} (h : s.MemOk) : RvMemOk id (rvDone s die n len rd v) := h.same

theorem rvDoneF_memOk {s : State} {die n len rd flags : Nat} {v : W64} (h : s.MemOk) : RvMemOk id (rvDoneF s die n len rd flags v) := h.same

theorem rvDoneX_memOk {s : State} {die n len rd flags : Nat} {v : W64} (h : s.MemOk) : RvMemOk id (rvDoneX s die n len rd flags v) := h.same

theorem rvCsr_memOk {s : State} {die n len w : Nat} (h : s.MemOk) : RvMemOk id (rvCsr s die n len w) :=
  .ite h (rvDone_memOk (.ite (csrWrite_memOk h) h))

theorem rvSystem_memOk {s : State} {die n len w : Nat} (h : s.MemOk) : RvMemOk id (rvSystem s die n len w) := by
  unfold rvSystem
  refine .ite (.ite h (rvDone_memOk h.same)) ?_
  split
  · exact h
  · exact h
  · exact .ite h.same h
  · exact .ite h h.same
  · exact .ite h (rvDone_memOk h)
  · exact h

theorem rvAtomic_memOk {s : State} {die n len w : Nat} (h : s.MemOk) : RvMemOk id (rvAtomic s die n len w) := by
  unfold rvAtomic
  dsimp only
  refine .ite h (.ite (.ite h (.bind (rvLoad_memOk h) (fun _ h => .ite h (rvDone_memOk h.same)))) (.ite (.ite h (.bind (rvTranslate_memOk h) (fun _ h =>
    .ite h (.ite h (.ite (.ite h (rvDone_memOk (State.modHart_memOk (State.storePhys_memOk h)))) (rvDone_memOk h.same)))))) ?_))
  split
  · exact h
  · exact .bind (rvAmoPlace_memOk h) (fun _ h => rvDone_memOk (State.storePhys_memOk h))

theorem rvFused_memOk {s : State} {die n len w : Nat} (h : s.MemOk) : RvMemOk id (rvFused s die n len w) := by
  unfold rvFused
  dsimp only
  split
  · exact h
  · exact .ite h (rvDoneF_memOk h)

theorem rvFloat_memOk {s : State} {die n len w : Nat} (h : s.MemOk) : RvMemOk id (rvFloat s die n len w) := by
  have illegal : RvMemOk id (rvIllegal s w) := h
  have done {rd flags : Nat} {v : W64} : RvMemOk id (rvDoneF s die n len rd flags v) := h.same
  have doneX {rd flags : Nat} {v : W64} : RvMemOk id (rvDoneX s die n len rd flags v) := h.same
  unfold rvFloat
  dsimp only
  refine .ite illegal ?_
  split
  · exact .ite illegal done
  · exact .ite illegal done
  · exact .ite illegal done
  · exact .ite illegal done
  · exact .ite (.ite illegal done) illegal
  · exact .ite illegal done
  · exact .ite illegal done
  · exact .ite (.ite illegal done) (.ite (.ite illegal done) illegal)
  · exact .ite illegal doneX
  · exact .ite illegal doneX
  · exact .ite illegal (.ite illegal done)
  · exact .ite illegal (.ite doneX doneX)
  · exact .ite illegal done
  · exact illegal

theorem rvExec_memOk {s : State} {die n len w : Nat} (h : s.MemOk) : RvMemOk id (rvExec s die n len w) := by
  have illegal : RvMemOk id (rvIllegal s w) := h
  have done {rd : Nat} {v : W64} : RvMemOk id (rvDone s die n len rd v) := h.same
  unfold rvExec
  dsimp only
  split
  · exact done
  · exact done
  · exact h.same
  · exact .ite h.same illegal
  · split
    · exact illegal
    · exact h.same
  · exact .ite illegal (.bind (rvLoad_memOk h) (fun _ h => rvDone_memOk h))
  · exact .ite illegal (.bind (rvStore_memOk h) (fun _ h => rvDone_memOk h))
  · exact .ite illegal (.ite illegal done)
  · refine .ite illegal ?_
    split
    · exact illegal
    · exact done
  · exact .ite done (.ite done illegal)
  · split
    · exact illegal
    · exact done
  · exact .ite done illegal
  · exact .ite (rvSystem_memOk h) (.ite illegal (rvCsr_memOk h))
  · exact rvAtomic_memOk h
  · exact .ite illegal (.ite illegal (.bind (rvLoad_memOk h) (fun _ h => rvDoneF_memOk h)))
  · exact .ite illegal (.ite illegal (.bind (rvStore_memOk h) (fun _ h => rvDone_memOk h)))
  · exact .ite illegal (rvFused_memOk h)
  · exact .ite illegal (rvFused_memOk h)
  · exact .ite illegal (rvFused_memOk h)
  · exact .ite illegal (rvFused_memOk h)
  · exact .ite illegal (rvFloat_memOk h)
  · exact illegal

theorem rvFetch_memOk {s : State} {die n : Nat} (h : s.MemOk) : RvMemOk (fun x => x.2.2.2) (rvFetch s die n) := by
  refine .bind (rvFetch16_memOk h) (fun x h => .ite (.bind (rvFetch16_memOk h) (fun _ h => h)) ?_)
  split
  · exact h
  · exact h

theorem rvRun_memOk {s : State} {die n : Nat} (h : s.MemOk) : RvMemOk id (rvRun s die n) := by
  refine .bind (rvFetch_memOk h) (fun x h => ?_)
  have ran := rvExec_memOk (die := die) (n := n) (len := x.1) (w := x.2.2.1) h
  dsimp only
  split
  · next ht => exact ran.of_error ht
  · exact ran

theorem endExternal_memOk {s : State} {die n : Nat} (h : s.MemOk) : (endExternal s die n).MemOk := by
  unfold endExternal
  dsimp only
  refine .ite ?_ (.ite h.same h)
  dsimp only [State.MemOk]
  change State.MemOk _
  exact .ite h.same h

theorem hartStep_memOk {s : State} {die n : Nat} (h : s.MemOk) : (hartStep s die n).MemOk := by
  have ran := rvRun_memOk (die := die) (n := n) h
  unfold hartStep
  dsimp only
  refine .ite h ?_
  split
  · exact .ite (endExternal_memOk h.same) h.same
  · split
    · next ht => exact (ran.of_ok ht).same
    · next ht => exact ran.of_error ht
    · next ht => exact State.modHart_memOk (ran.of_error ht)

/-! ### Device steps of a compute core as steps of their own -/

theorem landNow_memOk {s : State} {c k : Nat} (h : s.MemOk) : (landNow s c k).MemOk := .ite h (landAt_memOk h)

theorem dataWaitDue_memOk {s : State} {c : Nat} (h : s.MemOk) : (dataWaitDue s c).MemOk := .ite (freezeCycle_memOk h) h

theorem trapDue_memOk {s : State} {c : Nat} (h : s.MemOk) : (trapDue s c).MemOk := .ite (enterPending_memOk h) h

theorem ptsTick_memOk {s : State} {g : Nat} (h : s.MemOk) : (ptsTick s g).MemOk := .ite h.same (.ite h.same h)

theorem unwindNow_memOk {s : State} {c : Nat} {addr : W64} (h : s.MemOk) : (unwindNow s c addr).MemOk := .ite (beginUnwind_memOk h) h

/-! ### Mace, the matrix engine and windows -/

theorem macePushOne_memOk {s : State} {g : Nat} (h : s.MemOk) : (macePushOne s g).MemOk := by
  unfold macePushOne
  dsimp only
  split
  · exact h
  · exact .ite (.ite h (macePushStep_memOk h).same) h

theorem maceCancelDue_memOk {s : State} {g tid : Nat} (h : s.MemOk) : (maceCancelDue s g tid).MemOk := .ite (maceCancel_memOk h) h

theorem latqDue_memOk {s : State} {g k : Nat} (h : s.MemOk) : (latqDue s g k).MemOk := by
  unfold latqDue
  dsimp only
  split
  · exact h
  · refine .ite h ?_
    split
    · next t1 _ ht =>
      exact ((latqStep_memOk h).of_fst ht).same
    · next t1 ht =>
      exact ((latqStep_memOk h).of_fst ht).same

theorem accqDue_memOk {s : State} {g k : Nat} (h : s.MemOk) : (accqDue s g k).MemOk := by
  unfold accqDue
  dsimp only
  split
  · exact h
  · refine .ite h ?_
    split
    all_goals exact h.same

theorem windowDue_memOk {s : State} {g k : Nat} (h : s.MemOk) : (windowDue s g k).MemOk := by
  unfold windowDue
  dsimp only
  split
  · exact h
  · exact .ite h h.same

theorem expiryDue_memOk {s : State} {c : Nat} (h : s.MemOk) : (expiryDue s c).MemOk := .ite (countQuantum_memOk h) h

/-! ### Clove, samplers, speculation, walkers -/

theorem squashDue_memOk {s : State} {c : Nat} (h : s.MemOk) : (squashDue s c).MemOk := .ite (boundaryTrap_memOk h.same) h

/-! ### What the rest of the package does beside a core's cycle when no move is given -/

theorem advanceStores_memOk {s : State} (h : s.MemOk) : (advanceStores s).MemOk := .foldl (fun _ _ h => .ite h (performStore_memOk h)) h

theorem advanceAnise_memOk {s : State} {die : Nat} (h : s.MemOk) : (advanceAnise s die).MemOk := by
  unfold advanceAnise
  split
  · exact aniseCommandTurn_memOk h
  · exact h

theorem advanceWalks_memOk {s : State} (h : s.MemOk) : (advanceWalks s).MemOk := by
  unfold advanceWalks
  split
  · split
    · exact walkerCommandStart_memOk h
    · exact h
  · exact h

theorem advanceDispatch_memOk {s : State} {die : Nat} (h : s.MemOk) : (advanceDispatch s die).MemOk := by
  unfold advanceDispatch
  dsimp only
  refine .foldl (fun _ _ h => armedBind_memOk h) ?_
  split
  · exact perform_memOk (.foldl (fun _ _ h => eligibleStep_memOk h) (.foldl (fun _ _ h => launchAccept_memOk h) (flushEvents_memOk h)))
  · exact .foldl (fun _ _ h => eligibleStep_memOk h) (.foldl (fun _ _ h => launchAccept_memOk h) (flushEvents_memOk h))

theorem advanceService_memOk {s : State} {die : Nat} (h : s.MemOk) : (advanceService s die).MemOk := by
  have served : (tlbiDone (sealPerform (faultRecord s die) die) die).MemOk := tlbiDone_memOk (sealPerform_memOk (faultRecord_memOk h))
  exact .ite served (quarExit_memOk served)

theorem advanceDie_memOk {s : State} {die : Nat} (h : s.MemOk) : (advanceDie s die).MemOk := by
  unfold advanceDie
  extract_lets t
  have worked : t.MemOk := .foldl (fun _ _ h => engineAuto_memOk h) h
  clear_value t
  exact advanceService_memOk (advanceDispatch_memOk (advanceAnise_memOk worked))

theorem advanceTasks_memOk {s : State} (h : s.MemOk) : (advanceTasks s).MemOk := .foldl (fun _ _ h => completeTask_memOk (saveStep_memOk h)) h

theorem advanceHarts_memOk {s : State} (h : s.MemOk) : (advanceHarts s).MemOk := .foldl (fun _ _ h => hartStep_memOk h) h

theorem advance_memOk {s : State} (h : s.MemOk) : (advance s).MemOk := by
  unfold advance
  dsimp only
  dsimp only [State.MemOk]
  change State.MemOk _
  exact settleAll_memOk (advanceHarts_memOk (advanceTasks_memOk (.ite (advanceWalks_memOk (.foldl (fun _ _ h => advanceDie_memOk h)
    (advanceStores_memOk (.ite h.same h)))) (squashTokenDone_memOk (advanceWalks_memOk (.foldl (fun _ _ h => advanceDie_memOk h)
    (advanceStores_memOk (.ite h.same h))))))))

end Sys2Proof.Machine

/-! ## The canonical form of memory: one step of the machine -/

namespace Sys2Proof.Machine

set_option Elab.async false

/-! ### Every slot -/

/-- A row write that lands. -/
theorem rowLand_memOk {s : State} {gn k : Nat} (h : s.MemOk) : (rowLand s gn k).MemOk := by
  unfold rowLand
  split
  · exact h
  · refine .ite ?_ h
    unfold landRow
    exact State.recordAt_memOk h.same

theorem opStAcc_memOk {r b : BitVec 6} {m : BitVec 2} {n : BitVec 7} {c : Nat} {s : State} (h : s.MemOk) : (opStAcc r b m n c s).MemOk := by
  unfold opStAcc
  exact tileCmd_memOk h

theorem opDxMdec_memOk {b : BitVec 6} {t q : BitVec 3} {k : BitVec 5} {c : Nat} {s : State} (h : s.MemOk) : (opDxMdec b t q k c s).MemOk := by
  unfold opDxMdec
  exact maceEnqueue_memOk h

theorem opDxTload_memOk {a b : BitVec 6} {k : BitVec 5} {c : Nat} {s : State} (h : s.MemOk) : (opDxTload a b k c s).MemOk := by
  unfold opDxTload
  exact maceEnqueue_memOk h

theorem sendAnise_memOk {op x : Nat} {a b : BitVec 6} {k : BitVec 5} {c : Nat} {s : State} (h : s.MemOk) : (sendAnise op x a b k c s).MemOk := by
  unfold sendAnise
  exact sendCmd_memOk (fun _ _ h => h.same) h

theorem sendClove_memOk {op x : Nat} {a b : BitVec 6} {k : BitVec 5} {c : Nat} {s : State} (h : s.MemOk) : (sendClove op x a b k c s).MemOk := by
  unfold sendClove
  exact sendCmd_memOk (fun _ _ h => h.same) h

theorem sendWalk_memOk {op : Nat} {a b : BitVec 6} {k : BitVec 5} {c : Nat} {s : State} (h : s.MemOk) : (sendWalk op a b k c s).MemOk := by
  unfold sendWalk
  exact sendCmd_memOk (fun _ _ h => h.same) h

theorem SlotOp.KeepsMem.of {n : Nat} {g : Guard} {m : Nat → State → Option (Nat × Acc)} {run : Nat → State → Verdict}
    (hr : ∀ c s, s.MemOk → (run c s).MemOk) : SlotOp.KeepsMem ⟨n, g, m, run⟩ := hr

/-- Every instruction of a slot keeps memory in canonical form. -/
theorem slotOp_keepsMem {i : Instr} {o : SlotOp} (hi : slotOp i = some o) : o.KeepsMem := by
  cases i
  case brNop | saNop | sbNop | ldNop | vxNop | mxNop | dxNop | sqNop => cases hi; exact .of (fun _ _ h => .issued h)
  case brJmp | brJmpr | brRet => cases hi; exact .of (fun _ _ h => jumpTo_memOk h)
  case brCall => cases hi; exact .of (fun _ _ h => opBrCall_memOk h)
  case brLoop => cases hi; exact .of (fun _ _ h => opBrLoop_memOk h)
  case brLset | brDelay | brExit | brSys | brBrk | brFevclr | saAdd | saSub | saMul | saMulh | saDiv | saRem | saAnd | saOr | saXor | saShl | saShr
    | saSra | saMin | saMax | saCmp | saPand | saPor | saPxor | saMovi | saMovh | saAddi | saFcmpF64 | saFcmpF32 | vxBcast | vxMovi | vxRand
    | dxKdep | dxTdefWa | dxTdefWb | dxTdefRa | dxTdefRb => cases hi; exact .of (fun _ _ h => .issued h.same)
  case brWaita => cases hi; exact .of (fun _ _ h => opBrWaita_memOk h)
  case brTokw => cases hi; exact .of (fun _ _ h => opBrTokw_memOk h)
  case brPload => cases hi; exact .of (fun _ _ h => opBrPload_memOk h)
  case brEarly => cases hi; exact .of (fun _ _ h => .issued (earlyTrigger_memOk h))
  case brTret => cases hi; exact .of (fun _ _ h => opBrTret_memOk h)
  case brCrgnOpen => cases hi; exact .of (fun _ _ h => opBrCrgnOpen_memOk h)
  case brCrgnClose => cases hi; exact .of (fun _ _ h => opBrCrgnClose_memOk h)
  case brBar => cases hi; exact .of (fun _ _ h => opBrBar_memOk h)
  case saLdB64 | saLdB32 | saLdB16 | saLdB8 => cases hi; exact .of (fun _ _ h => scalarLoad_memOk h)
  case saStB64 | saStB32 | saStB16 | saStB8 => cases hi; exact .of (fun _ _ h => storeVirt_memOk h)
  case saFaddF64 | saFsubF64 | saFmulF64 | saFdivF64 | saFaddF32 | saFsubF32 | saFmulF32
    | saFdivF32 => cases hi; exact .of (fun _ _ h => float2_memOk h)
  case saFcvt => cases hi; exact .of (fun _ _ h => opSaFcvt_memOk h)
  case saMfsr => cases hi; exact .of (fun _ _ h => opSaMfsr_memOk h)
  case saMtsr => cases hi; exact .of (fun _ _ h => opSaMtsr_memOk h)
  case saTshape => cases hi; exact .of (fun _ _ h => opSaTshape_memOk h)
  case ldW | ldRow | ldCol => cases hi; exact .of (fun _ _ h => laLoad_memOk (fun _ _ h => h.same) h)
  case stW | stRow | stCol => cases hi; exact .of (fun _ _ h => laStore_memOk h)
  case ldTile | stTile | ldAcc => cases hi; exact .of (fun _ _ h => tileCmd_memOk h)
  case stAcc => cases hi; exact .of (fun _ _ h => opStAcc_memOk h)
  case ldTagsetFull | ldTagsetEmpty => cases hi; exact .of (fun _ _ h => tagset_memOk h)
  case vxAdd | vxSub | vxMul => cases hi; exact .of (fun _ _ h => vArith_memOk h)
  case vxMin | vxMax | vxAnd | vxOr | vxXor | vxShl | vxShr | vxCmp | vxSel | vxPerm | vxAmax | vxScale
    | vxAcs => cases hi; exact .of (fun _ _ h => .issued (readHeld2_memOk h).same)
  case vxFmaF32 | vxFmaF64 | vxFmaF16 | vxFmaBf16 => cases hi; exact .of (fun _ _ h => vFma_memOk h)
  case vxAbs | vxRedmax | vxExp | vxRcp | vxRsqrt | vxMov | vxExt => cases hi; exact .of (fun _ _ h => .issued (readHeld_memOk h).same)
  case vxRedsum => cases hi; exact .of (fun _ _ h => opVxRedsum_memOk h)
  case vxCvt | vxCvts => cases hi; exact .of (fun _ _ h => vCvt_memOk h)
  case vxPush => cases hi; exact .of (fun _ _ h => opVxPush_memOk h)
  case vxPop => cases hi; exact .of (fun _ _ h => opVxPop_memOk h)
  case vxTval => cases hi; exact .of (fun _ _ h => opVxTval_memOk h)
  case mxMma => cases hi; exact .of (fun _ _ h => opMxMma_memOk h)
  case mxLatq => cases hi; exact .of (fun _ _ h => opMxLatq_memOk h)
  case mxLatt => cases hi; exact .of (fun _ _ h => opMxLatt_memOk h)
  case mxTtr => cases hi; exact .of (fun _ _ h => opMxTtr_memOk h)
  case mxAccz => cases hi; exact .of (fun _ _ h => opMxAccz_memOk h)
  case mxAccq => cases hi; exact .of (fun _ _ h => opMxAccq_memOk h)
  case dxCpost => cases hi; exact .of (fun _ _ h => opDxCpost_memOk h)
  case dxAqpop => cases hi; exact .of (fun _ _ h => opDxAqpop_memOk h)
  case dxQcfgCfg | dxQcfgCal | dxQcfgKey | dxQcfgCtr | dxQstep | dxQstepWsat | dxQstepFlush | dxQrdCfg | dxQrdCal | dxQrdAmax
    | dxQrdSat => cases hi; exact .of (fun _ _ h => .issued (queueEngines_memOk h).same)
  case dxMdec => cases hi; exact .of (fun _ _ h => opDxMdec_memOk h)
  case dxTload => cases hi; exact .of (fun _ _ h => opDxTload_memOk h)
  case sqSmerge | sqSclr | sqStemp | sqStopk | sqStopp | sqSdraw | sqSdrawLin | sqSgetVal | sqSgetIdx | sqSgetProb | sqSgetTprob
    | sqSgetSum => cases hi; exact .of (fun _ _ h => sampSend_memOk h)
  case sqBalloc | sqKvwinGet | sqKvwinSet | sqItnext => cases hi; exact .of (fun _ _ h => askCmd_memOk h)
  case sqBfree | sqBfreeAcq | sqKvapp | sqKvappList | sqKvfork | sqKvroll | sqKvcommit
    | sqSquash => cases hi; exact .of (fun _ _ h => sendAnise_memOk h)
  case sqGbind | sqGbindReset | sqGbindDrop | sqGstep | sqGmask | sqGfork | sqGrollEnt | sqGrollPos
    | sqGcommit => cases hi; exact .of (fun _ _ h => sendClove_memOk h)
  case sqItdone | sqItyield | sqSchw => cases hi; exact .of (fun _ _ h => sendWalk_memOk h)
  case sqRpop => cases hi; exact .of (fun _ _ h => opSqRpop_memOk h)
  all_goals exact nomatch hi

theorem bundleOps_keepsMem {is : List Instr} {o : SlotOp} (ho : o ∈ bundleOps is) : o.KeepsMem := by
  obtain ⟨i, _, hi⟩ := List.mem_filterMap.mp ho
  exact slotOp_keepsMem hi

/-! ### The cycle of a core -/

theorem settleIssue_memOk {s : State} (h : s.MemOk) : (settleIssue s).MemOk := settleKills_memOk (settleUnwinds_memOk h)

theorem fetchFrom_keepsMem {c n : Nat} {s t : State} {ops : List SlotOp} (e : fetchFrom c n s = (.slots ops, t)) : ∀ o ∈ ops, o.KeepsMem := by
  induction n generalizing s with
  | zero => exact nomatch e
  | succ n ih =>
    unfold fetchFrom at e
    dsimp only at e
    split at e
    · exact nomatch e
    · split at e
      · exact nomatch e
      · split at e
        · split at e
          · exact ih e
          · exact nomatch e
        · cases e
          exact fun _ => bundleOps_keepsMem

theorem issuePhase_memOk {s t : State} {g c : Nat} (e : issuePhase s g c = .ok t) (h : s.MemOk) : t.MemOk := by
  unfold issuePhase at e
  split at e
  · next hb =>
    cases e
    exact (boundary_memOk h).of_fst hb
  · next u hb =>
    have fetched := fetchFrom_memOk (c := c) (n := (u.seal (u.ctx c).handle).code.length + 1) ((boundary_memOk h).of_fst hb)
    split at e
    · exact nomatch e
    · next hf =>
      cases e
      exact fetched.of_snd hf
    · next v hf =>
      have events := boundaryEvents_memOk (c := c) (fetched.of_snd hf)
      split at e
      · next ht =>
        cases e
        split at ht
        · exact events.of_fst ht
        · exact nomatch ht
      · next ht =>
        cases e
        refine takeTrap_memOk ?_
        split at ht
        · exact events.of_fst ht
        · cases ht
          exact fetched.of_snd hf
    · next v hf =>
      have slots := fetchFrom_keepsMem hf
      split at e
      · cases e
        exact issueBundle_memOk slots (fetched.of_snd hf)
      · split at e
        · next ht =>
          cases e
          exact (boundaryEvents_memOk (fetched.of_snd hf)).of_fst ht
        · next ht =>
          cases e
          exact issueBundle_memOk slots ((boundaryEvents_memOk (fetched.of_snd hf)).of_fst ht)

theorem coreCycle_memOk {s t : State} {g : Nat} (e : coreCycle s g = .next t) (h : s.MemOk) : t.MemOk := by
  have kept : (keepTags s g).MemOk := .ite h h.same
  have taken : (takeIssue (giveUpIssue (keepTags s g) g) g).MemOk := takeIssue_memOk (giveUpIssue_memOk kept)
  unfold coreCycle at e
  split at e
  · exact nomatch e
  · dsimp only at e
    generalize takeIssue (giveUpIssue (keepTags s g) g) g = u at taken e
    split at e
    · exact Host.Outcome.next.inj e ▸ settleAll_memOk (endCycle_memOk taken)
    · split at e
      · exact nomatch e
      · next hi => exact Host.Outcome.next.inj e ▸ settleAll_memOk (endCycle_memOk (settleIssue_memOk (issuePhase_memOk hi taken)))

/-! ### Every instruction -/

theorem issueOne_memOk {o : SlotOp} {s t : State} (ho : o.KeepsMem) (e : issueOne o s = .next t) (h : s.MemOk) : t.MemOk := by
  unfold issueOne at e
  split at e
  · cases e
    exact h
  · cases e
    exact settleIssue_memOk (issueSlots_memOk (fun _ hm => List.mem_singleton.mp hm ▸ ho) h)

theorem stepDone_memOk {s t : State} (e : stepDone s = .next t) (h : s.MemOk) : t.MemOk := by
  cases e
  exact settleAll_memOk h

/-- A device step keeps memory in canonical form. -/
theorem exec_device_memOk {i : Instr} {s t : State} (hi : slotOp i = none) (e : exec i s = .next t) (h : s.MemOk) : t.MemOk := by
  cases i
  case bundleSkip => exact stepDone_memOk e (bundleSkip_memOk h)
  case takeIssue => exact stepDone_memOk e (takeIssue_memOk h)
  case exposedResultLand | latchEntryLand => exact stepDone_memOk e (landNow_memOk h)
  case dataWaitEvent => exact stepDone_memOk e (dataWaitDue_memOk h)
  case trapEntry => exact stepDone_memOk e (trapDue_memOk h)
  case storePerformed => exact stepDone_memOk e (performStore_memOk h)
  case ptsTick => exact stepDone_memOk e (ptsTick_memOk h)
  case watchWake => exact stepDone_memOk e (.ite h.same h)
  case scratchpadWritePerformed | tileCommandDone | sealrel | tilePathDone => exact stepDone_memOk e h.same
  case containmentUnwind => exact stepDone_memOk e (unwindNow_memOk h)
  case sealsub => exact stepDone_memOk e (.ite (sealSubmit_memOk h) h)
  case sealRequest => exact stepDone_memOk e (sealPerform_memOk h)
  case maceCommandStart => exact stepDone_memOk e (maceStart_memOk h)
  case maceEntryPush => exact stepDone_memOk e (macePushOne_memOk h)
  case maceCommandRetire => exact stepDone_memOk e (maceRetire_memOk h)
  case maceCancel => exact stepDone_memOk e (maceCancelDue_memOk h)
  case mmaRowLand | acczRowWrite => exact stepDone_memOk e (rowLand_memOk h)
  case latqPop => exact stepDone_memOk e (latqDue_memOk h)
  case accqPush => exact stepDone_memOk e (accqDue_memOk h)
  case windowCycleAdd => exact stepDone_memOk e (windowDue_memOk h)
  case cqadd => exact stepDone_memOk e (.ite (cqAdd_memOk h) h)
  case cqdel => exact stepDone_memOk e (.ite (cqDel_memOk h) h)
  case packetAccept => exact stepDone_memOk e (packetAccept_memOk h)
  case packetStart => exact stepDone_memOk e (packetStart_memOk h)
  case packetWord => exact stepDone_memOk e (packetWord_memOk h)
  case packetComplete => exact stepDone_memOk e (packetComplete_memOk h)
  case poolRegister => exact stepDone_memOk e (.ite (poolRegister_memOk h) h)
  case poolDeregister => exact stepDone_memOk e (.ite (poolDeregister_memOk h) h)
  case aniseCommandTurn => exact stepDone_memOk e (aniseCommandTurn_memOk h)
  case quarantineExit => exact stepDone_memOk e (quarExit_memOk h)
  case cloveCommandStart => exact stepDone_memOk e (cloveTurn_memOk h)
  case samplerCommandComplete => exact stepDone_memOk e (sampComplete_memOk h)
  case squashTurn => exact stepDone_memOk e (squashTurn_memOk h)
  case squashEvent => exact stepDone_memOk e (squashDue_memOk h)
  case squashTokenDone => exact stepDone_memOk e (squashTokenDone_memOk h)
  case walkerCommandStart => exact stepDone_memOk e (walkerCommandStart_memOk h)
  case lqadd => exact stepDone_memOk e (.ite (lqAdd_memOk h) h)
  case lqdel => exact stepDone_memOk e (.ite (lqDel_memOk h) h)
  case launchAccept => exact stepDone_memOk e (launchAccept_memOk h)
  case eligible => exact stepDone_memOk e (eligibleStep_memOk h)
  case bind | arm | preempt | restore | kill | yield | cancel => exact stepDone_memOk e (perform_memOk h)
  case armedBind => exact stepDone_memOk e (armedBind_memOk h)
  case save => exact stepDone_memOk e (saveStep_memOk h)
  case giveUpIssue => exact stepDone_memOk e (giveUpIssue_memOk h)
  case expiry => exact stepDone_memOk e (expiryDue_memOk h)
  case taskCompletion => exact stepDone_memOk e (completeTask_memOk h)
  case tlbi => exact stepDone_memOk e (.ite (.ite h h.same) h)
  case tlbiComplete => exact stepDone_memOk e (tlbiDone_memOk h)
  case pageWalk => exact stepDone_memOk e (.ite (walkStep_memOk h) h)
  case faultRecordWrite => exact stepDone_memOk e (faultRecord_memOk h)
  case fresumeFilled | fresumeError => exact stepDone_memOk e (.ite (fresume_memOk h) h)
  case errorCorrected | flitReplay | routeAdvertisement | perstDeassert | trainingRetry | attestationRequest => exact stepDone_memOk e (.ite h h.same)
  case poisoning => exact stepDone_memOk e (poisoning_memOk h)
  case parityErrorKill => exact stepDone_memOk e (State.beginKill_memOk h)
  case laneFail => exact stepDone_memOk e (laneFail_memOk h)
  case linkTrained => exact stepDone_memOk e (linkTrained_memOk h)
  case storagePortEnable => exact stepDone_memOk e (storagePortEnable_memOk h)
  case gftPortEnable => exact stepDone_memOk e (gftPortEnable_memOk h)
  case bar2Access => exact stepDone_memOk e (bar2Access_memOk h)
  case peerRequest => exact stepDone_memOk e (peerRequest_memOk h)
  case storageDma => exact stepDone_memOk e (storageDma_memOk h)
  case driveMsix => exact stepDone_memOk e (driveInterrupt_memOk h)
  case ltrMessage => exact stepDone_memOk e (ltrMessage_memOk h)
  case powerStateEntry => exact stepDone_memOk e (powerEntry_memOk h)
  case powerWake => exact stepDone_memOk e (powerWake_memOk h)
  case boot => exact stepDone_memOk e (releaseHeld_memOk (bootStep_memOk h))
  case kloadGo | registerWrite => exact stepDone_memOk e (registerWrite_memOk h)
  case attestationDone => exact stepDone_memOk e (attFinish_memOk h)
  case systemCoreInstruction => exact stepDone_memOk e (hartStep_memOk h)
  all_goals exact nomatch hi

theorem exec_memOk {i : Instr} {s t : State} (e : exec i s = .next t) (h : s.MemOk) : t.MemOk := by
  cases hi : slotOp i with
  | none => exact exec_device_memOk hi e h
  | some o => exact issueOne_memOk (slotOp_keepsMem hi) ((exec_of_slotOp hi s).1.symm.trans e) h

/-! ### The step -/

theorem performMove_memOk {m : Move} {s t : State} (e : performMove m s = .next t) (h : s.MemOk) : t.MemOk := by
  cases m with
  | core g =>
    unfold performMove at e
    dsimp only at e
    split at e
    · exact coreCycle_memOk e h
    · cases e
      exact h
  | event i => exact exec_memOk e h
  | evictL1 =>
    cases e
    exact h.same
  | evictTlb =>
    cases e
    exact State.evictTlb_memOk h

theorem step_memOk {s t : State} (e : step s = .next t) (h : s.MemOk) : t.MemOk := by
  unfold step at e
  split at e
  · exact performMove_memOk e h.same
  · split at e
    · exact Host.Outcome.next.inj e ▸ advance_memOk h
    · split at e
      · next hc => exact Host.Outcome.next.inj e ▸ advance_memOk (coreCycle_memOk hc h)
      · exact nomatch e
      · exact nomatch e

/-- Settles O60: every write to memory goes through `State.setByte` or leaves places out, and each definition that a step calls is carried through
along its own branches. -/
theorem everyStepKeepsMemoryCanonical : Obligations.EveryStepKeepsMemoryCanonical := by
  unfold Obligations.EveryStepKeepsMemoryCanonical
  intro s t h e
  exact step_memOk e h

end Sys2Proof.Machine

/-! ## Sequence engines: the steps of a command, one after another -/

namespace Sys2Proof.Machine

set_option Elab.async false

/-! ### The steps of a command -/

/-- Where the first part of a command goes through, the rest follows from where it ended. -/
theorem Eng.on_bind_ok {α β : Type} {m : Eng α} {s t : State} {a : α} (h : m.on s = .ok (a, t)) (f : α → Eng β) :
    (m >>= f).on s = (f a).on t := by
  rw [Eng.on_bind, h]

/-- A check that is met changes nothing. -/
theorem Eng.on_echeck_bind {β : Type} {b : Bool} (h : b = true) (code : Nat) (f : Unit → Eng β) (s : State) :
    (echeck b code >>= f).on s = (f ()).on s :=
  Eng.on_bind_ok (by rw [Eng.on_echeck, if_pos h]) f

/-- A check that is not met is the end of a command. -/
theorem Eng.on_echeck_fails {β : Type} {b : Bool} (h : b = false) (code : Nat) (f : Unit → Eng β) (s : State) :
    (echeck b code >>= f).on s = .error ⟨.fail code, none, s⟩ := by
  rw [Eng.on_bind, Eng.on_echeck, h]
  rfl

theorem Eng.on_ePool_bind {β : Type} (r : PoolRef) (f : Pool → Eng β) (s : State) : (ePool r >>= f).on s = (f (s.poolAt r)).on s :=
  Eng.on_bind_ok (Eng.on_ePool r s) f

/-- A command that goes through has gone through its first part. -/
theorem Eng.on_bind_inv {α β : Type} {m : Eng α} {f : α → Eng β} {s : State} {x : β × State} (h : (m >>= f).on s = .ok x) :
    ∃ a t, m.on s = .ok (a, t) ∧ (f a).on t = .ok x := by
  rw [Eng.on_bind] at h
  cases hm : m.on s with
  | error e => rw [hm] at h; exact nomatch h
  | ok y => rw [hm] at h; exact ⟨y.1, y.2, rfl, h⟩

/-- Words that are read: the first, then those after it. -/
theorem eReads_inv {v : Via} {va n : Nat} {s t : State} {ws : List W64} (h : (eReads v va (n + 1)).on s = .ok (ws, t)) :
    ∃ x s1 r, (eRead v va).on s = .ok (x, s1) ∧ (eReads v (va + 8) n).on s1 = .ok (r, t) ∧ ws = x :: r := by
  rw [eReads] at h
  obtain ⟨x, s1, first, h⟩ := Eng.on_bind_inv h
  obtain ⟨r, s2, rest, h⟩ := Eng.on_bind_inv h
  obtain ⟨rfl, rfl⟩ : x :: r = ws ∧ s2 = t := by simpa [Eng.on_pure] using h
  exact ⟨x, s1, r, first, rest, rfl⟩

/-! ### Blocks (R255, R268) -/

/-- The search for a free block ends at the first one. -/
theorem freeFrom_first {w : Via} {p : Pool} : ∀ {i n b : Nat} {s t : State} {ms : List W64}, i < n →
    (eReads w (sx48 p.pmeta + 8 * b) (i + 1)).on s = .ok (ms, t) → (∀ j, j < i → fieldOf (wordAt ms j) 63 62 ≠ 0) → fieldOf (wordAt ms i) 63 62 = 0 →
    (freeFrom w p b n).on s = .ok (some (p.base + (b + i) * 2 ^ p.bsz), t) := by
  intro i
  induction i with
  | zero =>
    intro n b s t ms hn read _ free
    obtain ⟨n, rfl⟩ := Nat.exists_eq_add_of_lt hn
    obtain ⟨x, s1, r, first, rest, rfl⟩ := eReads_inv read
    obtain ⟨rfl, rfl⟩ : [] = r ∧ s1 = t := by simpa [eReads, Eng.on_pure] using rest
    rw [Nat.zero_add, freeFrom, Eng.on_bind_ok first, if_pos (show fieldOf x 63 62 = 0 from free)]
    rfl
  | succ i ih =>
    intro n b s t ms hn read used free
    obtain ⟨n, rfl⟩ : ∃ m, n = m + 1 := ⟨n - 1, by omega⟩
    obtain ⟨x, s1, r, first, rest, rfl⟩ := eReads_inv read
    rw [freeFrom, Eng.on_bind_ok first, if_neg (show ¬ fieldOf x 63 62 = 0 from used 0 (Nat.succ_pos i)), ih (n := n) (b := b + 1) (by omega) rest
      (fun j hj => used (j + 1) (Nat.succ_lt_succ hj)) free, Nat.add_right_comm, Nat.add_assoc]

/-- The metadata word of the i-th block. -/
theorem Pool.metaAt_block (p : Pool) (i : Nat) : p.metaAt (p.base + i * 2 ^ p.bsz) = sx48 p.pmeta + 8 * i := by
  rw [Pool.metaAt, Nat.add_sub_cancel_left, Nat.mul_div_cancel _ (Nat.two_pow_pos _)]

/-- The first free block is allocated. -/
theorem allocate_first {u t t1 : State} {r : PoolRef} {k : Bool} {i : Nat} {ms : List W64} (room : (u.poolAt r).free ≠ 0) (hi : i < (u.poolAt r).nblk)
    (read : (eReads (poolVia r (u.poolAt r) k) (sx48 (u.poolAt r).pmeta) (i + 1)).on u = .ok (ms, t))
    (used : ∀ j, j < i → fieldOf (wordAt ms j) 63 62 ≠ 0) (free : fieldOf (wordAt ms i) 63 62 = 0)
    (write : (eWrite (poolVia r (u.poolAt r) k) (sx48 (u.poolAt r).pmeta + 8 * i) 0x4000000000000001).on t = .ok ((), t1)) :
    (allocate r k).on u = .ok ((u.poolAt r).base + i * 2 ^ (u.poolAt r).bsz, t1.modPool r (fun p => { p with free := p.free - 1 })) := by
  have search := freeFrom_first (b := 0) hi read used free
  rw [Nat.zero_add] at search
  rw [allocate, Eng.on_ePool_bind, Eng.on_echeck_bind (bne_iff_ne.2 room)]
  dsimp only
  rw [Eng.on_bind_ok search]
  dsimp only
  rw [Pool.metaAt_block, Eng.on_bind_ok (show (eWrite _ _ (BitVec.ofNat 64 (2 ^ 62 + 1))).on t = _ from write)]
  rfl

theorem allocate_full {u : State} {r : PoolRef} {k : Bool} (full : (u.poolAt r).free = 0) :
    ∃ e, (allocate r k).on u = .error e ∧ e.halt = .fail 3 :=
  ⟨_, by rw [allocate, Eng.on_ePool_bind, Eng.on_echeck_fails (by rw [full]; rfl)], rfl⟩

/-- An address that no block of the pool holds is left alone. -/
theorem release_elsewhere {u : State} {r : PoolRef} {k : Bool} {a : Nat} {key : W64} (h : (u.poolAt r).holds a = false) :
    (release r k a key).on u = .ok ((), u) := by
  rw [release, Eng.on_ePool_bind, if_pos (by rw [h]; rfl)]
  rfl

theorem addRef_elsewhere {u : State} {r : PoolRef} {k : Bool} {a : Nat} (h : (u.poolAt r).holds a = false) :
    (addRef r k a).on u = .ok ((), u) := by
  rw [addRef, Eng.on_ePool_bind, if_pos (by rw [h]; rfl)]
  rfl

section
variable {u t : State} {r : PoolRef} {k : Bool} {a : Nat} {m : W64} (held : (u.poolAt r).holds a = true)
  (read : (eRead (poolVia r (u.poolAt r) k) ((u.poolAt r).metaAt a)).on u = .ok (m, t))
include held read

theorem addRef_held {t1 : State} (write : (eWrite (poolVia r (u.poolAt r) k) ((u.poolAt r).metaAt a) (setField m 31 0 (m.toNat + 1))).on t = .ok ((), t1)) :
    (addRef r k a).on u = .ok ((), t1) := by
  rw [addRef, Eng.on_ePool_bind, if_neg (by rw [held]; decide)]
  dsimp only
  rw [Eng.on_bind_ok read, write]

theorem release_shared {key : W64} {t1 : State} (refs : 2 ≤ m.toNat % 2 ^ 32)
    (write : (eWrite (poolVia r (u.poolAt r) k) ((u.poolAt r).metaAt a) (setField m 31 0 (m.toNat % 2 ^ 32 - 1))).on t = .ok ((), t1)) :
    (release r k a key).on u = .ok ((), t1) := by
  have less : (m.toNat + 2 ^ 32 - 1) % 2 ^ 32 = m.toNat % 2 ^ 32 - 1 := by omega
  rw [release, Eng.on_ePool_bind, if_neg (by rw [held]; decide)]
  dsimp only
  rw [Eng.on_bind_ok read, less, if_pos (by omega), write]

/-- The last reference ends: the block is quarantined, the table slot of its key emptied first where one names it. -/
theorem release_last {key : W64} {t1 t2 : State} {o : Option Nat} (refs : m.toNat % 2 ^ 32 = 1)
    (write : (eWrite (poolVia r (u.poolAt r) k) ((u.poolAt r).metaAt a) 0x8000000000000000).on t = .ok ((), t1))
    (search : (entryIn (poolVia r (u.poolAt r) k) key a ((u.poolAt r).slots key)).on t1 = .ok (o, t2)) :
    (release r k a key).on u = match (generalizing := false) o with
      | none => (quarantine r a).on t2
      | some x => (eWrites (poolVia r (u.poolAt r) k) x [0, 0, 0, 0] >>= fun _ => quarantine r a).on t2 := by
  have none : (m.toNat + 2 ^ 32 - 1) % 2 ^ 32 = 0 := by omega
  rw [release, Eng.on_ePool_bind, if_neg (by rw [held]; decide)]
  dsimp only
  rw [Eng.on_bind_ok read, none, if_neg (fun h => h rfl),
    Eng.on_bind_ok (show (eWrite _ _ (BitVec.ofNat 64 (2 ^ 63))).on t = _ from write), Eng.on_bind_ok search]
  cases o <;> rfl

end

/-- The first slot that a lookup of a key examines. -/
theorem Pool.slots_cons {p : Pool} (key : W64) (h : p.htLog ≠ 0) : ∃ l, p.slots key = (sx48 p.ht + 32 * (key.toNat % 2 ^ p.htLog)) :: l := by
  refine ⟨(List.range 7).map (fun i => sx48 p.ht + 32 * ((key.toNat % 2 ^ p.htLog + (i + 1)) % 2 ^ p.htLog)), ?_⟩
  rw [Pool.slots, if_neg h, show (8 : Nat) = 7 + 1 from rfl, List.range_succ_eq_map, List.map_cons, List.map_map, Nat.add_zero, Nat.mod_mod]
  rfl

theorem Pool.slots_nil {p : Pool} (key : W64) (h : p.htLog = 0) : p.slots key = [] := if_pos h

theorem entryIn_first {v : Via} {key x w : W64} {a slot : Nat} {l : List Nat} {s s1 s2 : State} (hw : (eRead v (slot + 8)).on s = .ok (w, s1))
    (hx : (eRead v slot).on s1 = .ok (x, s2)) (live : fieldOf w 63 62 ≠ 0) (same : x = key) (names : w.toNat % 2 ^ 48 = a % 2 ^ 48) :
    (entryIn v key a (slot :: l)).on s = .ok (some slot, s2) := by
  rw [entryIn, Eng.on_bind_ok hw, Eng.on_bind_ok hx, if_pos (by simp only [bne_iff_ne.2 live, beq_iff_eq.2 same, beq_iff_eq.2 names, Bool.and_self])]
  rfl

theorem insertKey_found {r : PoolRef} {k : Bool} {key : W64} {a w owner : Nat} {u t : State} {x : Nat × Nat × Nat}
    (h : (lookup r k key).on u = .ok (some x, t)) : (insertKey r k key a w owner).on u = .ok (false, t) := by
  rw [lookup, Eng.on_ePool_bind] at h
  rw [insertKey, Eng.on_ePool_bind]
  dsimp only
  rw [Eng.on_bind_ok h]
  rfl

theorem insertKey_noTable {r : PoolRef} {k : Bool} {key : W64} {a w owner : Nat} {u : State} (h : (u.poolAt r).htLog = 0) :
    (insertKey r k key a w owner).on u = .ok (false, u) := by
  rw [insertKey, Eng.on_ePool_bind]
  dsimp only
  rw [Pool.slots_nil key h]
  rfl

theorem insertKey_first {r : PoolRef} {k : Bool} {key x : W64} {a w owner : Nat} {u t t1 t2 : State} (absent : (lookup r k key).on u = .ok (none, t))
    (table : (u.poolAt r).htLog ≠ 0)
    (read : (eRead (poolVia r (u.poolAt r) k) (sx48 (u.poolAt r).ht + 32 * (key.toNat % 2 ^ (u.poolAt r).htLog) + 8)).on t = .ok (x, t1))
    (empty : fieldOf x 63 62 = 0)
    (write : (eWrites (poolVia r (u.poolAt r) k) (sx48 (u.poolAt r).ht + 32 * (key.toNat % 2 ^ (u.poolAt r).htLog))
      [key, BitVec.ofNat 64 (w * 2 ^ 62 + a % 2 ^ 48), BitVec.ofNat 64 owner, 0]).on t1 = .ok ((), t2)) :
    (insertKey r k key a w owner).on u = .ok (true, t2) := by
  obtain ⟨l, slots⟩ := Pool.slots_cons key table
  rw [lookup, Eng.on_ePool_bind] at absent
  have first : (emptyIn (poolVia r (u.poolAt r) k) ((u.poolAt r).slots key)).on t =
      .ok (some (sx48 (u.poolAt r).ht + 32 * (key.toNat % 2 ^ (u.poolAt r).htLog)), t1) := by
    rw [slots, emptyIn, Eng.on_bind_ok read, if_pos empty]
    rfl
  rw [insertKey, Eng.on_ePool_bind]
  dsimp only
  rw [Eng.on_bind_ok absent]
  dsimp only
  rw [Eng.on_bind_ok first]
  dsimp only
  rw [Eng.on_bind_ok write]
  rfl

theorem SeqRec.copyBlock_ok {u t t1 t2 t3 t4 : State} {r : SeqRec} {j p a : Nat} {key x : W64} {ws : List W64}
    (got : (allocate r.pr r.via.k).on u = .ok (a, t))
    (read : (eReads r.via (sx48 (x.toNat % 2 ^ 48)) (p % r.per * (2 ^ r.bsz / r.per) / 8)).on t = .ok (ws, t1))
    (write : (eWrites r.via a ws).on t1 = .ok ((), t2))
    (entry : (eWrites r.via (r.btab + 16 * j) [key, setField x 47 0 a]).on t2 = .ok ((), t3))
    (left : (release r.pr r.via.k (x.toNat % 2 ^ 48) 0).on t3 = .ok ((), t4)) :
    (r.copyBlock j p key x).on u = .ok (setField x 47 0 a, t4) := by
  rw [SeqRec.copyBlock, Eng.on_bind_ok got, entAddr, Eng.on_bind_ok read, Eng.on_bind_ok write]
  dsimp only
  rw [SeqRec.setEntry, Eng.on_bind_ok entry, Eng.on_bind_ok left]
  rfl

theorem quarantine_enters (u : State) (r : PoolRef) (a : Nat) :
    ∃ z, (quarantine r a).on u = .ok ((), z) ∧ z.poolAt r = { u.poolAt r with quar := (u.poolAt r).quar + 1 } ∧
      (z.die r.die).quars = (u.die r.die).quars ++
        [⟨u.serial + 1, r.num, a, (u.modPool r (fun p => { p with quar := p.quar + 1 })).acceptedPackets, false, false⟩] := by
  refine ⟨_, rfl, ?_, ?_⟩
  · simp [State.poolAt, State.modPool, Die.setPool, Die.pool, State.modDie, State.setDie, State.die]
  · simp [State.modPool, Die.setPool, State.modDie, State.setDie, State.die]

/-- R255, R260, R268: the operations on blocks do what the statement gives. -/
theorem blockOps : BlockOps := by
  unfold BlockOps
  refine ⟨fun u r k => ⟨?first, allocate_full, fun a key h => ⟨release_elsewhere h, addRef_elsewhere h⟩, ?held, fun _ _ _ _ => insertKey_noTable,
    fun _ _ _ _ _ _ => insertKey_found, fun _ _ _ _ _ _ _ _ absent table read empty write => insertKey_first absent table read empty write,
    quarantine_enters u r⟩, fun _ _ _ _ _ _ _ _ _ _ _ _ _ => SeqRec.copyBlock_ok⟩
  case first => exact fun i ms t t1 room hi read used free write => allocate_first room hi read used free write
  case held =>
    intro a key m t t1 held read
    refine ⟨fun _ write => addRef_held held read write, fun refs write => release_shared held read refs write, fun refs write => ⟨?_, ?_⟩⟩
    · intro table
      exact release_last held read refs write (o := none) (t2 := t1) (by rw [Pool.slots_nil key table]; rfl)
    · intro w t2 t3 t4 table hw hx live names empty
      obtain ⟨l, slots⟩ := Pool.slots_cons key table
      rw [release_last held read refs write (o := some _) (by rw [slots]; exact entryIn_first hw hx live rfl names)]
      exact Eng.on_bind_ok empty _

end Sys2Proof.Machine

/-! ## Anise: what its commands read, write and reply (11_kvblocks.md R258, R263 to R266, R269, R270) -/

namespace Sys2Proof.Machine

set_option Elab.async false

/-! ### Records and their entries -/

section
variable {u t : State} {q : SqCmd} {die : Nat} {a : W64} {r : SeqRec} (h : ReadsRecord u q die a r t)
include h

theorem readRec_ok : (readRec die q.asid q.k a).on u = .ok (r, t) := by
  obtain ⟨ws, read, canon, aligned, hr, en, asid, kv, per, bsz, len, toks, nblk, cap, win, tab⟩ := h
  obtain ⟨at_, clen, tlen, sel, wstart, btab, nblk', btcap, kseed, via, pr, per', bsz'⟩ := r
  simp only [SeqRec.mk.injEq, and_true] at hr
  obtain ⟨rfl, rfl, rfl, rfl, rfl, rfl, rfl, rfl, rfl, rfl, rfl⟩ := hr
  dsimp only at en asid kv per bsz len toks nblk cap win tab
  rw [readRec, Eng.on_echeck_bind (by rw [canon, aligned]; rfl), Eng.on_bind_ok read]
  dsimp only
  rw [Eng.on_ePool_bind, selPool, Eng.on_echeck_bind (by rw [Pool.isKv, en, asid]; simpa using kv), Pool.positions, ← per, ← bsz,
    Eng.on_echeck_bind (by rw [ceilDiv, ← nblk]; simp [len, toks, cap, win, tab])]
  rfl

theorem readsRecord_via : r.via = ⟨.anise die, die, q.asid, q.k⟩ := by
  obtain ⟨ws, -, -, -, hr, -⟩ := h
  exact congrArg SeqRec.via hr

theorem readsRecord_per_pos : 0 < r.per := by
  obtain ⟨ws, -, -, -, -, -, -, -, per, -⟩ := h
  rw [per]
  positivity

end

theorem SeqRec.entry_ok {u t : State} {r : SeqRec} {j : Nat} {key x : W64} (h : ReadsEntry u r j key x t) : (r.entry j).on u = .ok ((key, x), t) := by
  obtain ⟨s, h1, h2⟩ := h
  rw [SeqRec.entry, Eng.on_bind_ok h1, Eng.on_bind_ok h2]
  rfl

theorem SeqRec.toks_ok {u t : State} {r : SeqRec} {ws : List W64} (h : (eReads r.via (r.at_ + 128) 8).on u = .ok (ws, t)) :
    r.toks.on u = .ok (ws.flatMap (fun w => [w.toNat % 2 ^ 32, w.toNat / 2 ^ 32]), t) := by
  rw [SeqRec.toks, Eng.on_bind_ok h]
  rfl

/-- The chain value before a block: the seed of the record, or the entry before. -/
theorem SeqRec.keyBefore_ok {u t : State} {r : SeqRec} {b : Nat} {key : W64}
    (h : if b = 0 then key = r.kseed ∧ t = u else (eRead r.via (r.btab + 16 * (b - 1))).on u = .ok (key, t)) : (r.keyBefore b).on u = .ok (key, t) := by
  cases b with
  | zero =>
    obtain ⟨rfl, rfl⟩ := h
    rfl
  | succ b => exact h

/-! ### Entries of a block table -/

theorem entWord_plain (n a : Nat) : entWord n false false a = BitVec.ofNat 64 (n * 2 ^ 56 + a % 2 ^ 48) := by
  simp [entWord]

theorem entWord_shared (n a : Nat) : entWord n true false a = BitVec.ofNat 64 (n * 2 ^ 56 + (2 ^ 55 + a % 2 ^ 48)) := by
  simp [entWord, Nat.add_assoc]

theorem entWord_waits (n a : Nat) (ins : Bool) : entWord n false ins a = BitVec.ofNat 64 (n * 2 ^ 56 + (ins.toNat * 2 ^ 54 + a % 2 ^ 48)) := by
  simp [entWord, Nat.add_assoc]

/-! ### The record commands -/

/-- One token is appended (R265): in a new block, in the last one, or in a copy of that. -/
theorem kvApp_ok {r : SeqRec} {t t3 t4 t5 t6 : State} {tok : Nat} {ws : List W64} (room : r.tlen - r.clen ≠ 16)
    (place : if r.tlen % r.per = 0 then r.tlen / r.per ≠ r.btcap ∧ ∃ a t1 t2, (allocate r.pr r.via.k).on t = .ok (a, t1) ∧
        (eWrites r.via (r.btab + 16 * (r.tlen / r.per)) [0, BitVec.ofNat 64 (a % 2 ^ 48)]).on t1 = .ok ((), t2) ∧
        (eWrite r.via (r.at_ + 24) (BitVec.ofNat 64 ((r.tlen / r.per + 1) * 2 ^ 32 + r.btcap))).on t2 = .ok ((), t3)
      else ∃ key x t1 n t2, ReadsEntry t r (r.tlen / r.per) key x t1 ∧ (refOf r.pr r.via.k (x.toNat % 2 ^ 48)).on t1 = .ok (n, t2) ∧
        (if n ≤ 1 then t3 = t2 else ∃ x', (r.copyBlock (r.tlen / r.per) r.tlen key x).on t2 = .ok (x', t3)))
    (read : (eReads r.via (r.at_ + 128) 8).on t3 = .ok (ws, t4))
    (put : (r.setToks ((ws.flatMap (fun w => [w.toNat % 2 ^ 32, w.toNat / 2 ^ 32])).set (r.tlen - r.clen) tok)).on t4 = .ok ((), t5))
    (len : (r.setLens r.clen (r.tlen + 1)).on t5 = .ok ((), t6)) : (kvApp r tok).on t = .ok ((), t6) := by
  unfold kvApp
  dsimp only
  rw [Eng.on_echeck_bind (bne_iff_ne.2 room)]
  split at place
  · next boundary =>
    obtain ⟨cap, a, t1, t2, got, entry, count⟩ := place
    rw [if_pos boundary, Eng.on_echeck_bind (bne_iff_ne.2 cap), Eng.on_bind_ok got, entWord_plain, SeqRec.setEntry, Nat.zero_mul, Nat.zero_add,
      Eng.on_bind_ok entry, SeqRec.setNblk, Eng.on_bind_ok count, Eng.on_bind_ok (SeqRec.toks_ok read), Eng.on_bind_ok put, len]
  · next within =>
    obtain ⟨key, x, t1, n, t2, entry, refs, own⟩ := place
    rw [if_neg within, Eng.on_bind_ok (SeqRec.entry_ok entry)]
    dsimp only
    rw [entAddr, Eng.on_bind_ok refs]
    split at own
    · next alone =>
      obtain rfl := own
      rw [if_neg (Nat.not_lt.2 alone), Eng.on_bind_ok (SeqRec.toks_ok read), Eng.on_bind_ok put, len]
    · next shared =>
      obtain ⟨x', copied⟩ := own
      rw [if_pos (Nat.not_le.1 shared), Eng.on_bind_ok copied, Eng.on_bind_ok (SeqRec.toks_ok read), Eng.on_bind_ok put, len]

theorem kvApp_full {r : SeqRec} {t : State} {tok : Nat} (full : r.tlen = r.clen + 16) : ∃ e, (kvApp r tok).on t = .error e ∧ e.halt = .fail 5 := by
  have h : (r.tlen - r.clen != 16) = false := by rw [full, Nat.add_sub_cancel_left]; rfl
  exact ⟨_, by unfold kvApp; dsimp only; rw [Eng.on_echeck_fails h], rfl⟩

section
variable {r : SeqRec} {f p : Nat} {ts : List Nat} {prev : W64} {s : State} (some_ : ts ≠ []) (boundary : p % r.per = 0)
include some_ boundary

/-- A list that fills no block begins one (R265). -/
theorem listBlocks_begins {z t : State} {d : Nat} (part : ts.length < r.per) (got : (allocate r.pr r.via.k).on s = .ok (d, z))
    (entry : (eWrites r.via (r.btab + 16 * (p / r.per)) [ts.foldl fold prev, BitVec.ofNat 64 (ts.length * 2 ^ 56 + d % 2 ^ 48)]).on z = .ok ((), t)) :
    (listBlocks r (f + 2) p ts prev none).on s = .ok ((), t) := by
  unfold listBlocks
  rw [if_neg (by simpa using some_)]
  dsimp only
  rw [boundary, Nat.sub_zero, Nat.zero_add, List.take_of_length_le (by omega), List.drop_eq_nil_of_le (by omega), beq_false_of_ne (by omega)]
  simp only [Bool.false_eq_true, if_false]
  rw [Eng.on_bind_ok (Eng.on_pure ..)]
  dsimp only
  rw [Eng.on_bind_ok got, Eng.on_bind_ok (Eng.on_pure ..), entWord_plain, SeqRec.setEntry, Eng.on_bind_ok entry]
  rfl

section
variable (whole : ts.length = r.per)
include whole

/-- A list that completes a block takes the committed one that the table has under its key (R265). -/
theorem listBlocks_shares {z y t : State} {sl d : Nat} (hit : (lookup r.pr r.via.k (ts.foldl fold prev)).on s = .ok (some (sl, 2, d), z))
    (ref : (addRef r.pr r.via.k d).on z = .ok ((), y))
    (entry : (eWrites r.via (r.btab + 16 * (p / r.per)) [ts.foldl fold prev,
      BitVec.ofNat 64 (ts.length * 2 ^ 56 + (2 ^ 55 + d % 2 ^ 48))]).on y = .ok ((), t)) :
    (listBlocks r (f + 2) p ts prev none).on s = .ok ((), t) := by
  unfold listBlocks
  rw [if_neg (by simpa using some_)]
  dsimp only
  rw [boundary, Nat.sub_zero, Nat.zero_add, List.take_of_length_le (by omega), List.drop_eq_nil_of_le (by omega), beq_iff_eq.2 whole]
  simp only [if_true]
  rw [Eng.on_bind_ok hit]
  refine (Eng.on_bind_ok ref _).trans ?_
  have word : entWord r.per true false d = BitVec.ofNat 64 (ts.length * 2 ^ 56 + (2 ^ 55 + d % 2 ^ 48)) := by rw [entWord_shared, whole]
  rw [word, SeqRec.setEntry, Eng.on_bind_ok entry]
  rfl

/-- A list that completes a block that the table does not have, committed, under its key takes a new block and is inserted where it can be (R265). -/
theorem listBlocks_inserts {z y y' t : State} {hit : Option (Nat × Nat × Nat)} {d : Nat} {ins : Bool}
    (found : (lookup r.pr r.via.k (ts.foldl fold prev)).on s = .ok (hit, z)) (none_ : ∀ sl d, hit ≠ some (sl, 2, d))
    (got : (allocate r.pr r.via.k).on z = .ok (d, y)) (put : (insertKey r.pr r.via.k (ts.foldl fold prev) d 1 r.at_).on y = .ok (ins, y'))
    (entry : (eWrites r.via (r.btab + 16 * (p / r.per))
      [ts.foldl fold prev, BitVec.ofNat 64 (ts.length * 2 ^ 56 + (ins.toNat * 2 ^ 54 + d % 2 ^ 48))]).on y' = .ok ((), t)) :
    (listBlocks r (f + 2) p ts prev none).on s = .ok ((), t) := by
  unfold listBlocks
  rw [if_neg (by simpa using some_)]
  dsimp only
  rw [boundary, Nat.sub_zero, Nat.zero_add, List.take_of_length_le (by omega), List.drop_eq_nil_of_le (by omega), beq_iff_eq.2 whole]
  simp only [if_true]
  rw [Eng.on_bind_ok found]
  split
  · next sl d => exact absurd rfl (none_ sl d)
  · rw [Eng.on_bind_ok got, Eng.on_bind_ok put, entWord_waits, SeqRec.setEntry, Eng.on_bind_ok entry]
    rfl

end
end

/-- A list is appended at a block boundary (R265): its checks, its tokens, the chain value before, its block, the lengths. -/
theorem kvAppList_ok {r : SeqRec} {t t1 t2 t3 t4 t5 : State} {d prev : W64} {ts : List Nat} (aligned : sx48 (d.toNat % 2 ^ 48) % 4 = 0)
    (some_ : fieldOf d 63 48 ≠ 0) (settled : r.tlen = r.clen) (boundary : r.clen % r.per = 0) (fits : fieldOf d 63 48 ≤ r.per)
    (cap : r.clen / r.per < r.btcap) (free : 1 ≤ (t.poolAt r.pr).free) (count : r.nblk = r.clen / r.per)
    (read : (readToks r.via (sx48 (d.toNat % 2 ^ 48)) (fieldOf d 63 48)).on t = .ok (ts, t1)) (before : (r.keyBefore (r.clen / r.per)).on t1 = .ok (prev, t2))
    (blocks : (listBlocks r (fieldOf d 63 48 + 1) r.clen ts prev none).on t2 = .ok ((), t3))
    (lens : (r.setLens (r.clen + fieldOf d 63 48) (r.clen + fieldOf d 63 48)).on t3 = .ok ((), t4))
    (nblk : (r.setNblk (r.clen / r.per + 1)).on t4 = .ok ((), t5)) : (kvAppList r d).on t = .ok ((), t5) := by
  generalize hn : fieldOf d 63 48 = n at *
  have one : ceilDiv (r.clen + n) r.per = r.clen / r.per + 1 := by
    have clen : r.clen = r.per * (r.clen / r.per) := by rw [Nat.mul_div_cancel' (Nat.dvd_of_mod_eq_zero boundary)]
    have : 0 < r.per := by omega
    rw [ceilDiv, show r.clen + n + r.per - 1 = r.per * (r.clen / r.per + 1) + (n - 1) by rw [Nat.mul_add, ← clen]; omega,
      Nat.mul_add_div this, Nat.div_eq_of_lt (show n - 1 < r.per by omega), Nat.add_zero]
  have mid : (r.clen % r.per != 0) = false := by rw [boundary]; rfl
  unfold kvAppList
  dsimp only
  rw [hn, one, Eng.on_echeck_bind (beq_iff_eq.2 aligned), Eng.on_echeck_bind (by rw [bne_iff_ne.2 some_, beq_iff_eq.2 settled]; rfl),
    Eng.on_echeck_bind (decide_eq_true (by omega)), mid]
  simp only [Bool.false_eq_true, if_false]
  rw [Eng.on_bind_ok (Eng.on_pure ..)]
  dsimp only
  rw [Eng.on_bind_ok (Eng.on_pure ..), Eng.on_ePool_bind, if_neg (Nat.lt_irrefl 1), Eng.on_echeck_bind (decide_eq_true (by omega)), Eng.on_bind_ok read,
    Eng.on_bind_ok before, if_neg (Nat.lt_irrefl 1), Eng.on_bind_ok (Eng.on_pure ..), Eng.on_bind_ok blocks, Eng.on_bind_ok lens, nblk]

/-- A roll back (R269): the blocks after the committed positions are released and their entries cleared, then the record is. -/
theorem kvRoll_ok {r : SeqRec} {t t1 t2 t3 : State} {st : Nat → State} (start : st 0 = t)
    (turn : ∀ i, i < r.nblk - ceilDiv r.clen r.per → ∃ key x z y, ReadsEntry (st i) r (ceilDiv r.clen r.per + i) key x z ∧
      (release r.pr r.via.k (x.toNat % 2 ^ 48) key).on z = .ok ((), y) ∧
      (eWrites r.via (r.btab + 16 * (ceilDiv r.clen r.per + i)) [0, 0]).on y = .ok ((), st (i + 1)))
    (lens : (r.setLens r.clen r.clen).on (st (r.nblk - ceilDiv r.clen r.per)) = .ok ((), t1))
    (nblk : (r.setNblk (ceilDiv r.clen r.per)).on t1 = .ok ((), t2)) (toks : (r.setToks []).on t2 = .ok ((), t3)) :
    (kvRoll r).on t = .ok ((), t3) := by
  have loop := Eng.on_eFor (fun i => do
      let (key, x) ← r.entry (ceilDiv r.clen r.per + i)
      release r.pr r.via.k (entAddr x) key
      r.setEntry (ceilDiv r.clen r.per + i) 0 0) (List.range (r.nblk - ceilDiv r.clen r.per)) st (fun n hn => by
    rw [List.length_range] at hn
    obtain ⟨key, x, z, y, entry, rel, put⟩ := turn n hn
    rw [List.getElem_range, Eng.on_bind_ok (SeqRec.entry_ok entry)]
    dsimp only
    rw [entAddr, Eng.on_bind_ok rel]
    exact put)
  rw [List.length_range, start] at loop
  unfold kvRoll
  dsimp only
  rw [Eng.on_bind_ok loop, Eng.on_bind_ok lens, Eng.on_bind_ok nblk, toks]

/-- A commit (R269): the keys of the committed tokens, the tokens and lengths that remain, then the entries that waited. -/
theorem kvCommit_ok {r : SeqRec} {m : W64} {t t1 t2 t3 : State} {ws : List W64} {st su : Nat → State} (some_ : m.toNat ≤ r.tlen - r.clen)
    (read : (eReads r.via (r.at_ + 128) 8).on t = .ok (ws, t1)) (start : st 0 = t1)
    (turn : ∀ i, i < m.toNat → ∃ key x k0 z y y', ReadsEntry (st i) r ((r.clen + i) / r.per) key x z ∧
      (if entFill x ≠ 0 then k0 = key ∧ y = z else (r.keyBefore ((r.clen + i) / r.per)).on z = .ok (k0, y)) ∧
      (eWrites r.via (r.btab + 16 * ((r.clen + i) / r.per)) [fold k0 ((ws.flatMap (fun w => [w.toNat % 2 ^ 32, w.toNat / 2 ^ 32])).getD i 0),
        setField x 63 56 (entFill x + 1)]).on y = .ok ((), y') ∧
      (if entFill x + 1 = r.per then ∃ o, (insertKey r.pr r.via.k (fold k0 ((ws.flatMap (fun w => [w.toNat % 2 ^ 32, w.toNat / 2 ^ 32])).getD i 0))
        (x.toNat % 2 ^ 48) 2 r.at_).on y' = .ok (o, st (i + 1)) else st (i + 1) = y'))
    (toks : (r.setToks ((ws.flatMap (fun w => [w.toNat % 2 ^ 32, w.toNat / 2 ^ 32])).drop m.toNat)).on (st m.toNat) = .ok ((), t2))
    (lens : (r.setLens (r.clen + m.toNat) r.tlen).on t2 = .ok ((), t3)) (again : su 0 = t3)
    (shown : ∀ b, b < r.nblk → ∃ key x z, ReadsEntry (su b) r b key x z ∧
      (if x.getLsbD 54 then ∃ o y y',
        (ownIn (poolVia r.pr (t3.poolAt r.pr) r.via.k) key (x.toNat % 2 ^ 48) r.at_ ((t3.poolAt r.pr).slots key)).on z = .ok (o, y) ∧
        (match o with
          | some (sl, w) => (eWrite (poolVia r.pr (t3.poolAt r.pr) r.via.k) (sl + 8) (setField w 63 62 2)).on y = .ok ((), y')
          | none => y' = y) ∧
        (eWrites r.via (r.btab + 16 * b) [key, setField x 54 54 0]).on y' = .ok ((), su (b + 1))
       else su (b + 1) = z)) :
    (kvCommit r m).on t = .ok ((), su r.nblk) := by
  unfold kvCommit
  dsimp only
  rw [Eng.on_echeck_bind (decide_eq_true some_), Eng.on_bind_ok (SeqRec.toks_ok read)]
  rw [Eng.on_bind_ok (t := st m.toNat) (a := ()), Eng.on_bind_ok toks, Eng.on_bind_ok lens, Eng.on_ePool_bind]
  · have loop := Eng.on_eFor (fun j => do
        let (key, x) ← r.entry j
        if x.getLsbD 54 then
          match ← ownIn (poolVia r.pr (t3.poolAt r.pr) r.via.k) key (entAddr x) r.at_ ((t3.poolAt r.pr).slots key) with
          | some (t, st) => eWrite (poolVia r.pr (t3.poolAt r.pr) r.via.k) (t + 8) (setField st 63 62 2)
          | none => pure ()
          r.setEntry j key (setField x 54 54 0)
        else pure ()) (List.range r.nblk) su (fun b hb => by
      rw [List.length_range] at hb
      obtain ⟨key, x, z, entry, shown⟩ := shown b hb
      rw [List.getElem_range, Eng.on_bind_ok (SeqRec.entry_ok entry)]
      dsimp only
      split at shown
      · next waits =>
        obtain ⟨o, y, y', own, mark, put⟩ := shown
        rw [if_pos waits, entAddr, Eng.on_bind_ok own]
        cases o with
        | none =>
          obtain rfl : y' = y := mark
          exact put
        | some p => exact (Eng.on_bind_ok mark _).trans put
      · next plain =>
        rw [if_neg plain, shown]
        rfl)
    rw [List.length_range, again] at loop
    exact loop
  · rw [← start]
    refine (Eng.on_eFor _ (List.range m.toNat) st (fun i hi => ?_)).trans (by rw [List.length_range])
    rw [List.length_range] at hi
    obtain ⟨key, x, k0, z, y, y', entry, prev, put, ins⟩ := turn i hi
    rw [List.getElem_range, Eng.on_bind_ok (SeqRec.entry_ok entry)]
    dsimp only
    have rest : (do
        r.setEntry ((r.clen + i) / r.per) (fold k0 ((ws.flatMap (fun w => [w.toNat % 2 ^ 32, w.toNat / 2 ^ 32])).getD i 0)) (setField x 63 56 (entFill x + 1))
        if entFill x + 1 = r.per then do
          let _ ← insertKey r.pr r.via.k (fold k0 ((ws.flatMap (fun w => [w.toNat % 2 ^ 32, w.toNat / 2 ^ 32])).getD i 0)) (entAddr x) 2 r.at_
          pure ()
        else pure () : Eng Unit).on y = .ok ((), st (i + 1)) := by
      rw [SeqRec.setEntry, Eng.on_bind_ok put]
      split at ins
      · next full =>
        obtain ⟨o, ins⟩ := ins
        rw [if_pos full, entAddr, Eng.on_bind_ok ins]
        rfl
      · next part =>
        rw [if_neg part, ins]
        rfl
    split at prev
    · next used =>
      obtain ⟨rfl, rfl⟩ := prev
      rw [if_neg used, Eng.on_bind_ok (Eng.on_pure ..)]
      exact rest
    · next empty =>
      rw [if_pos (not_not.1 empty), Eng.on_bind_ok prev]
      exact rest

/-- The window moves (R270): the blocks before it are released. -/
theorem kvWinSet_ok {r : SeqRec} {v : W64} {w : Nat} {t : State} {st : Nat → State} (hw : w = min (max (v.toNat % 2 ^ 32) r.wstart) r.clen)
    (set : (eWrite r.via (r.at_ + 8) (BitVec.ofNat 64 (r.sel * 2 ^ 32 + w))).on t = .ok ((), st 0))
    (turn : ∀ i, i < min r.nblk (w / r.per) → ∃ key x z, ReadsEntry (st i) r i key x z ∧
      (if x.toNat % 2 ^ 48 = 0 then st (i + 1) = z else ∃ y, (release r.pr r.via.k (x.toNat % 2 ^ 48) key).on z = .ok ((), y) ∧
        (eWrites r.via (r.btab + 16 * i) [key, setField x 47 0 0]).on y = .ok ((), st (i + 1)))) :
    (kvWinSet r v).on t = .ok (BitVec.ofNat 64 w, st (min r.nblk (w / r.per))) := by
  unfold kvWinSet
  dsimp only
  rw [← hw, Eng.on_bind_ok set, Eng.on_bind_ok (t := st (min r.nblk (w / r.per))) (a := ())]
  · rfl
  · refine (Eng.on_eFor _ (List.range (min r.nblk (w / r.per))) st (fun i hi => ?_)).trans (by rw [List.length_range])
    rw [List.length_range] at hi
    obtain ⟨key, x, z, entry, rel⟩ := turn i hi
    rw [List.getElem_range, Eng.on_bind_ok (SeqRec.entry_ok entry)]
    dsimp only
    rw [entAddr]
    split at rel
    · next none =>
      rw [if_pos none, rel]
      rfl
    · next some =>
      obtain ⟨y, rel, put⟩ := rel
      rw [if_neg some, Eng.on_bind_ok rel]
      exact put

end Sys2Proof.Machine

/-! ## Anise: its commands at their turn (11_kvblocks.md R263 to R270) -/

namespace Sys2Proof.Machine

set_option Elab.async false

/-! ### The fork (R266) -/

/-- What a list gathered from the numbers below `n` has at each of its places. -/
theorem getElem_map_range {α : Type} (f : Nat → α) {n i : Nat} (h : i < ((List.range n).map f).length) : ((List.range n).map f)[i] = f i := by
  rw [List.getElem_map, List.getElem_range]

section
variable {r : SeqRec} {c : W64} {t t1 t2 t3 t4 t5 t6 t7 t8 : State} {cs ws : List W64} {ents : Nat → W64 × W64} {refs : Nat → Nat}
  {st su sv : Nat → State} {pw : W64}

/-- The entries of the parent are read, then the references of their blocks. -/
theorem kvFork_reads (entry : ∀ b, b < r.nblk → ReadsEntry (st b) r b (ents b).1 (ents b).2 (st (b + 1))) (again : su 0 = st r.nblk)
    (ref : ∀ b, b < r.nblk → (refOf r.pr r.via.k ((ents b).2.toNat % 2 ^ 48)).on (su b) = .ok (refs b, su (b + 1))) :
    ((List.range r.nblk).foldlM (fun l j => do let e ← r.entry j; pure (l ++ [e])) [] : Eng (List (W64 × W64))).on (st 0) =
        .ok ((List.range r.nblk).map ents, su 0) ∧
      (((List.range r.nblk).map ents).foldlM (fun l e => do let n ← refOf r.pr r.via.k (entAddr e.2); pure (l ++ [n])) [] : Eng (List Nat)).on (su 0) =
        .ok ((List.range r.nblk).map refs, su r.nblk) := by
  constructor
  · have loop := Eng.on_gather (fun j => r.entry j) ents (List.range r.nblk) [] st (fun n hn => by
      rw [List.length_range] at hn
      rw [List.getElem_range]
      exact SeqRec.entry_ok (entry n hn))
    rw [List.length_range, List.nil_append, ← again] at loop
    exact loop
  · have loop := Eng.on_gather (fun e : W64 × W64 => refOf r.pr r.via.k (entAddr e.2)) refs ((List.range r.nblk).map ents) [] su (fun n hn => by
      rw [List.length_map, List.length_range] at hn
      rw [getElem_map_range]
      exact ref n hn)
    rw [List.length_map, List.length_range, List.nil_append] at loop
    exact loop

/-- The child's entries are written, each with a reference to its block. -/
theorem kvFork_writes {child : SeqRec} (hv : child.via = r.via) (entry : ∀ b, b < r.nblk → ∃ y,
      (eWrites r.via (child.btab + 16 * b) [(ents b).1, setField (ents b).2 54 54 0]).on (sv b) = .ok ((), y) ∧
      (if (ents b).2.toNat % 2 ^ 48 = 0 then sv (b + 1) = y else (addRef r.pr r.via.k ((ents b).2.toNat % 2 ^ 48)).on y = .ok ((), sv (b + 1)))) :
    (eFor ((List.range r.nblk).map ents).zipIdx (fun e => do
      child.setEntry e.2 e.1.1 (setField e.1.2 54 54 0)
      if entAddr e.1.2 = 0 then pure () else addRef r.pr r.via.k (entAddr e.1.2))).on (sv 0) = .ok ((), sv r.nblk) := by
  refine (Eng.on_eFor _ _ sv (fun b hb => ?_)).trans (by rw [List.length_zipIdx, List.length_map, List.length_range])
  rw [List.length_zipIdx, List.length_map, List.length_range] at hb
  obtain ⟨y, put, ref⟩ := entry b hb
  rw [List.getElem_zipIdx, getElem_map_range, Nat.zero_add]
  dsimp only
  rw [SeqRec.setEntry, hv, Eng.on_bind_ok put, entAddr]
  split at ref
  · next none =>
    rw [if_pos none, ref]
    rfl
  · next some =>
    rw [if_neg some]
    exact ref

theorem kvFork_ok (other : c.toNat ≠ r.at_) (read : (eReads r.via c.toNat 7).on t = .ok (cs, st 0)) (unused : fieldOf (wordAt cs 0) 63 32 = 0)
    (empty : fieldOf (wordAt cs 3) 63 32 = 0) (entry : ∀ b, b < r.nblk → ReadsEntry (st b) r b (ents b).1 (ents b).2 (st (b + 1)))
    (again : su 0 = st r.nblk)
    (ref : ∀ b, b < r.nblk → (refOf r.pr r.via.k ((ents b).2.toNat % 2 ^ 48)).on (su b) = .ok (refs b, su (b + 1)) ∧ refs b ≠ 2 ^ 32 - 1)
    (cap : r.nblk ≤ fieldOf (wordAt cs 3) 31 0) (aligned : sx48 (fieldOf (wordAt cs 2) 47 0) % 64 = 0)
    (word : (eRead r.via (r.at_ + 48)).on (su r.nblk) = .ok (pw, t1)) (toks : (eReads r.via (r.at_ + 128) 8).on t1 = .ok (ws, t2))
    (w0 : (eWrites r.via c.toNat [BitVec.ofNat 64 (r.tlen * 2 ^ 32 + r.clen), BitVec.ofNat 64 (r.sel * 2 ^ 32 + r.wstart)]).on t2 = .ok ((), t3))
    (w3 : (eWrite r.via (c.toNat + 24) (setField (wordAt cs 3) 63 32 r.nblk)).on t3 = .ok ((), t4))
    (w4 : (eWrite r.via (c.toNat + 32) r.kseed).on t4 = .ok ((), t5))
    (w5 : (eWrite r.via (c.toNat + 40) (BitVec.ofNat 64 (r.at_ % 2 ^ 48))).on t5 = .ok ((), t6))
    (w6 : (eWrite r.via (c.toNat + 48) (setField (wordAt cs 6) 7 0 pw.toNat)).on t6 = .ok ((), t7))
    (put : (SeqRec.setToks { r with at_ := c.toNat, btab := sx48 (fieldOf (wordAt cs 2) 47 0) }
      (ws.flatMap (fun w => [w.toNat % 2 ^ 32, w.toNat / 2 ^ 32]))).on t7 = .ok ((), t8)) (start : sv 0 = t8)
    (child : ∀ b, b < r.nblk → ∃ y,
      (eWrites r.via (sx48 (fieldOf (wordAt cs 2) 47 0) + 16 * b) [(ents b).1, setField (ents b).2 54 54 0]).on (sv b) = .ok ((), y) ∧
      (if (ents b).2.toNat % 2 ^ 48 = 0 then sv (b + 1) = y else (addRef r.pr r.via.k ((ents b).2.toNat % 2 ^ 48)).on y = .ok ((), sv (b + 1)))) :
    (kvFork r c).on t = .ok ((), sv r.nblk) := by
  obtain ⟨entries, counts⟩ := kvFork_reads entry again (fun b hb => (ref b hb).1)
  have writes := kvFork_writes (child := { r with at_ := c.toNat, btab := sx48 (fieldOf (wordAt cs 2) 47 0) }) rfl child
  unfold kvFork
  dsimp only
  rw [Eng.on_bind_ok read, Eng.on_echeck_bind (by rw [bne_iff_ne.2 other, unused, empty]; rfl), Eng.on_bind_ok entries, Eng.on_bind_ok counts,
    Eng.on_echeck_bind (by
      rw [List.all_map, List.all_eq_true]
      exact fun b hb => bne_iff_ne.2 (ref b (List.mem_range.1 hb)).2),
    Eng.on_echeck_bind (decide_eq_true cap), Eng.on_echeck_bind (beq_iff_eq.2 aligned), Eng.on_bind_ok word, Eng.on_bind_ok (SeqRec.toks_ok toks),
    Eng.on_bind_ok w0, Eng.on_bind_ok w3, Eng.on_bind_ok w4, Eng.on_bind_ok w5, Eng.on_bind_ok w6, Eng.on_bind_ok put, ← start, writes]

end

/-! ### What a command does -/

section
variable {u : State} {q : SqCmd} {die : Nat} (live : u.inReplay q.tid = false)
include live

theorem aniseRun_balloc (op : q.op = 8) :
    (aniseRun u q die).on u = (bAlloc (selPool q.a.toNat) q.asid q.k >>= fun v => pure (some v)).on u := by
  unfold aniseRun
  rw [Eng.on_echeck_bind (by rw [live]; rfl), op]
  rfl

theorem aniseRun_bfree (op : q.op = 9) : (aniseRun u q die).on u =
    (bFree (u.poolHolding q.asid q.a.toNat) q.asid q.k (q.x == 1) q.a.toNat >>= fun _ => pure none).on u := by
  unfold aniseRun
  rw [Eng.on_echeck_bind (by rw [live]; rfl), op]
  rfl

theorem aniseRun_kvfork {r : SeqRec} {t : State} (op : q.op = 11) (canon : canonical q.a.toNat = true) (aligned : q.a.toNat % 256 = 0)
    (h : ReadsRecord u q die q.b r t) : (aniseRun u q die).on u = (kvFork r q.a >>= fun _ => pure none).on t := by
  unfold aniseRun
  rw [Eng.on_echeck_bind (by rw [live]; rfl), op]
  refine (Eng.on_echeck_bind (by rw [canon, aligned]; rfl) _ _ _).trans ?_
  exact Eng.on_bind_ok (readRec_ok h) _

/-- A command on one record reads it, then does its part. -/
theorem aniseRun_record {r : SeqRec} {t : State} (h : ReadsRecord u q die q.a r t) :
    (q.op = 10 → q.x = 0 → (aniseRun u q die).on u = (kvApp r (q.b.toNat % 2 ^ 32) >>= fun _ => pure none).on t) ∧
    (q.op = 10 → q.x ≠ 0 → (aniseRun u q die).on u = (kvAppList r q.b >>= fun _ => pure none).on t) ∧
    (q.op = 12 → (aniseRun u q die).on u = (kvRoll r >>= fun _ => pure none).on t) ∧
    (q.op = 13 → (aniseRun u q die).on u = (kvCommit r q.b >>= fun _ => pure none).on t) ∧
    (q.op = 14 → q.x = 0 → (aniseRun u q die).on u = .ok (some (BitVec.ofNat 64 r.wstart), t)) ∧
    (q.op = 14 → q.x ≠ 0 → (aniseRun u q die).on u = (kvWinSet r q.b >>= fun v => pure (some v)).on t) := by
  unfold aniseRun
  rw [Eng.on_echeck_bind (by rw [live]; rfl)]
  refine ⟨fun op x => ?_, fun op x => ?_, fun op => ?_, fun op => ?_, fun op x => ?_, fun op x => ?_⟩
  all_goals
    rw [op]
    refine (Eng.on_bind_ok (readRec_ok h) _).trans ?_
  · exact congrArg (Eng.on · t) (if_pos x)
  · exact congrArg (Eng.on · t) (if_neg x)
  · rfl
  · rfl
  · exact congrArg (Eng.on · t) (if_pos x)
  · exact congrArg (Eng.on · t) (if_neg x)

end

/-! ### The statement on Anise -/

theorem bAlloc_ok {u t : State} {r : PoolRef} {asid a : Nat} {k : Bool} (en : (u.poolAt r).en = true) (own : (u.poolAt r).asid = asid)
    (got : (allocate r k).on u = .ok (a, t)) : (bAlloc r asid k).on u = .ok (BitVec.ofNat 64 a, t) := by
  rw [bAlloc, Eng.on_ePool_bind, Eng.on_echeck_bind (by rw [en, beq_iff_eq.2 own]; rfl), Eng.on_bind_ok got]
  rfl

/-- A block that is allocated is released, or takes a reference (R264). -/
theorem bFree_ok {u t : State} {r : PoolRef} {asid a : Nat} {k acq : Bool} {m : W64} (canon : canonical a = true) (own : (u.poolAt r).asid = asid)
    (start : (u.poolAt r).blockOf a = a) (read : (eRead (poolVia r (u.poolAt r) k) ((u.poolAt r).metaAt a)).on u = .ok (m, t))
    (used : fieldOf m 63 62 = 1) (more : acq = true → m.toNat % 2 ^ 32 ≠ 2 ^ 32 - 1) :
    (bFree (some r) asid k acq a).on u = (if acq then addRef r k a else release r k a 0).on t := by
  rw [bFree, Eng.on_echeck_bind canon]
  rw [Eng.on_ePool_bind, Eng.on_echeck_bind (by rw [beq_iff_eq.2 own, beq_iff_eq.2 start]; rfl), Eng.on_bind_ok read, Eng.on_echeck_bind]
  rw [beq_iff_eq.2 used]
  cases acq with
  | false => rfl
  | true => rw [beq_false_of_ne (more rfl)]; rfl

/-- R263 to R266, R269, R270: the commands of Anise do what the statement gives. -/
theorem aniseWrites : AniseWrites := by
  unfold AniseWrites
  intro u q die live v runs
  refine ⟨?balloc, ?bfree, fun r t rec_ => ?record, ?fork⟩
  case balloc =>
    intro a t op r en own got
    exact (aniseRun_balloc live op).trans (Eng.on_bind_ok (bAlloc_ok en own got) _)
  case bfree =>
    intro r m t t1 op canon holds p own start read used
    have held := aniseRun_bfree (die := die) live op
    rw [holds] at held
    refine ⟨fun x done => ?_, fun x more done => ?_⟩
    · refine held.trans ?_
      rw [beq_false_of_ne x]
      exact Eng.on_bind_ok ((bFree_ok canon own start read used (acq := false) nofun).trans done) _
    · refine held.trans ?_
      rw [beq_iff_eq.2 x]
      exact Eng.on_bind_ok ((bFree_ok canon own start read used (acq := true) (fun _ => more)).trans done) _
  case fork =>
    intro r t cs ents refs st su sv pw t1 ws t2 t3 t4 t5 t6 t7 t8 op canon aligned rec_ other read unused empty entry again ref cap bt room atab word
      toks' toks w0 w3 w4 w5 w6 put start child
    obtain ⟨at_, clen, tlen, sel, wstart, btab, nblk, btcap, kseed, via, pr, per, bsz⟩ := r
    obtain rfl : via = v := readsRecord_via rec_
    exact (aniseRun_kvfork live op canon aligned rec_).trans (Eng.on_bind_ok (kvFork_ok other read unused empty entry again ref room atab word toks' w0 w3
      w4 w5 w6 put start child) _)
  case record =>
    obtain ⟨app, appList, roll, commit, winGet, winSet⟩ := aniseRun_record (die := die) live rec_
    have pos := readsRecord_per_pos rec_
    obtain ⟨at_, clen, tlen, sel, wstart, btab, nblk, btcap, kseed, via, pr, per, bsz⟩ := r
    obtain rfl : via = v := readsRecord_via rec_
    intro tokWords tokens j
    refine ⟨?full, ?app, ?appList, ?roll, ?commit, ?winGet, ?winSet⟩
    case full =>
      intro op x full
      obtain ⟨e, h, code⟩ := kvApp_full (tok := q.b.toNat % 2 ^ 32) (t := t) full
      exact ⟨e, by rw [app op x, Eng.on_bind, h], code⟩
    case app =>
      intro t3 ws t4 t5 t6 op x room place read put len
      exact (app op x).trans (Eng.on_bind_ok (kvApp_ok room place read put len) _)
    case appList =>
      intro ts t1 prev t2 t3 t4 t5 op x n a b aligned some_ settled boundary fits cap free count read length before key entry blocks lens nblk
      refine (appList op x).trans (Eng.on_bind_ok (kvAppList_ok aligned some_ settled boundary fits cap free count read (SeqRec.keyBefore_ok before) ?_
        lens nblk) _)
      obtain ⟨f, hf⟩ : ∃ f, n + 1 = f + 2 := ⟨n - 1, by omega⟩
      have ne : ts ≠ [] := fun e => some_ (by rw [← length, e]; rfl)
      rw [show fieldOf q.b 63 48 + 1 = f + 2 from hf]
      change n ≤ per at fits
      split at blocks
      · next part =>
        obtain ⟨d, z, got, put⟩ := blocks
        exact listBlocks_begins ne boundary (by rw [length]; exact part) got (by rw [length]; exact put)
      · next whole =>
        have full : ts.length = per := length.trans (Nat.le_antisymm fits (Nat.not_lt.1 whole))
        obtain ⟨hit, z, found, ⟨sl, d, y, rfl, ref, put⟩ | ⟨none_, d, y, ins, y', got, insert_, put⟩⟩ := blocks
        · exact listBlocks_shares ne boundary full found ref (by rw [length]; exact put)
        · exact listBlocks_inserts ne boundary full found none_ got insert_ (by rw [length]; exact put)
    case roll =>
      intro st t1 t2 t3 op first start turn lens nblk toks
      exact (roll op).trans (Eng.on_bind_ok (kvRoll_ok start turn lens nblk toks) _)
    case commit =>
      intro ws t1 st su t2 op n some_ read start turn toks lens p pv shown
      refine (commit op).trans (Eng.on_bind_ok (kvCommit_ok some_ read start (fun i hi => ?_) toks lens rfl shown) _)
      obtain ⟨key, x, k0, z, y, y', entry, before, put, ins⟩ := turn i hi
      refine ⟨key, x, k0, z, y, y', entry, ?_, put, ins⟩
      split at before
      · next used => rw [if_pos used]; exact before
      · next empty => rw [if_neg empty]; exact SeqRec.keyBefore_ok before
    case winGet => exact winGet
    case winSet =>
      intro st op x w set turn
      exact (winSet op x).trans (Eng.on_bind_ok (kvWinSet_ok rfl set turn) _)

end Sys2Proof.Machine

/-! ## Clove: the journal, the stack and the image of a record (12_grammar.md R273 to R278, R283, R284) -/

namespace Sys2Proof.Machine

set_option Elab.async false

/-! ### The journal and the record -/

section
variable {g : Gram} {u t : State}

theorem Gram.entry_ok {i : Nat} {e : Jent} (h : ReadsJournal u g i e t) : (g.entry i).on u = .ok (e, t) := by
  obtain ⟨a, b, s, h1, h2, rfl⟩ := h
  rw [Gram.entry, Gram.place, Eng.on_bind_ok h1, Eng.on_bind_ok h2]
  rfl

theorem Gram.liveEntry_ok {i : Nat} {e : Jent} (has : g.has i = true) (h : ReadsJournal u g i e t) (live : e.live = true) :
    (g.liveEntry i).on u = .ok (e, t) := by
  rw [Gram.liveEntry, Eng.on_echeck_bind has, Eng.on_bind_ok (Gram.entry_ok h), Eng.on_echeck_bind live]
  rfl

theorem Gram.setEntry_ok {i state node pos parent : Nat} {done : Bool} (h : WritesJournal u g i state node pos done parent t) :
    (g.setEntry i ⟨state, node, pos, true, done, parent⟩).on u = .ok ((), t) := by
  unfold Gram.setEntry
  dsimp only
  rw [Bool.toNat_true, Nat.one_mul]
  exact h

theorem Gram.setEnds_ok {head tail : Nat} (h : WritesEnds u g head tail t) : (g.setEnds head tail).on u = .ok ((), t) := h

theorem Gram.setCur_ok {i : Nat} (h : WritesCur u g i t) : (g.setCur i).on u = .ok ((), t) := h

theorem Gram.setNodes_ok {blk idx : Nat} (h : WritesNodes u g blk idx t) : (g.setNodes blk idx).on u = .ok ((), t) := by
  obtain ⟨s, h1, h2⟩ := h
  rw [Gram.setNodes, Eng.on_bind_ok h1, h2]

/-- An entry is added: it is written, CUR names it, and TAIL rises. -/
theorem Gram.append_ok {state node pos parent : Nat} {done : Bool} {y z : State} (entry : WritesJournal u g g.tail state node pos done parent y)
    (cur : WritesCur y g g.tail z) (ends : WritesEnds z g g.head (g.tail + 1) t) :
    (g.append ⟨state, node, pos, true, done, parent⟩).on u = .ok ((), t) := by
  rw [Gram.append, Eng.on_bind_ok (Gram.setEntry_ok entry), Eng.on_bind_ok (Gram.setCur_ok cur), Gram.setEnds_ok ends]

theorem Gram.kill_iff {i : Nat} : (g.kill i).on u = .ok ((), t) ↔ ∃ b s, (eRead g.via (g.jrnl + 16 * (i % 2 ^ g.jlog) + 8)).on u = .ok (b, s) ∧
    (eWrite g.via (g.jrnl + 16 * (i % 2 ^ g.jlog) + 8) (setField b 31 31 0)).on s = .ok ((), t) := by
  rw [Gram.kill, Gram.place]
  constructor
  · exact Eng.on_bind_inv
  · rintro ⟨b, s, read, write⟩
    rw [Eng.on_bind_ok read, write]

/-! ### Nodes (R277, R278) -/

section
variable {n : Nat} (some_ : n ≠ 0)
include some_

theorem Gram.top_ok {x : W64} (read : (eRead g.via (sx48 n + 8)).on u = .ok (x, t)) : (g.top n).on u = .ok (fieldOf x 13 0, t) := by
  rw [Gram.top, if_neg some_, Eng.on_bind_ok read]
  rfl

theorem Gram.ref_ok (rmw : (eRmw g.via (sx48 n + 8) (fun v => setField v 63 32 (fieldOf v 63 32 + 1))).on u = .ok ((), t)) :
    (g.ref n).on u = .ok ((), t) := by
  rw [Gram.ref, if_neg some_, rmw]

end

theorem Gram.below_ok {n : Nat} {x : W64} (read : (eRead g.via (sx48 n)).on u = .ok (x, t)) : (g.below n).on u = .ok (fieldOf x 47 0, t) := by
  rw [Gram.below, Eng.on_bind_ok read]
  rfl

theorem Gram.pool_ok (plain : (u.poolAt (selPool g.npool)).isPlain g.via.asid = true) : g.pool.on u = .ok (u.poolAt (selPool g.npool), u) := by
  rw [Gram.pool, Eng.on_ePool_bind, Eng.on_echeck_bind plain]
  rfl

theorem Gram.putNode_ok {blk idx sym next : Nat} {t1 t2 t3 : State}
    (count : (eRmw g.via (sx48 blk) (fun v => setField v 31 0 (fieldOf v 31 0 + 1))).on u = .ok ((), t1))
    (node : (eWrites g.via (sx48 (blk + 16 * idx)) [BitVec.ofNat 64 (next % 2 ^ 48), BitVec.ofNat 64 (2 ^ 32 + sym)]).on t1 = .ok ((), t2))
    (ref : (g.ref next).on t2 = .ok ((), t3)) (ends : WritesNodes t3 g blk (idx + 1) t) :
    (g.putNode blk idx sym next).on u = .ok (blk + 16 * idx, t) := by
  rw [Gram.putNode, Eng.on_bind_ok count, Eng.on_bind_ok node, Eng.on_bind_ok ref, Eng.on_bind_ok (Gram.setNodes_ok ends)]
  rfl

/-- A node in the block from which the record allocates. -/
theorem Gram.newNode_inBlock {sym next : Nat} {t1 t2 t3 : State} (plain : (u.poolAt (selPool g.npool)).isPlain g.via.asid = true) (blk : g.nblka ≠ 0)
    (room : g.nidx ≠ 2 ^ ((u.poolAt (selPool g.npool)).bsz - 4))
    (count : (eRmw g.via (sx48 g.nblka) (fun v => setField v 31 0 (fieldOf v 31 0 + 1))).on u = .ok ((), t1))
    (node : (eWrites g.via (sx48 (g.nblka + 16 * g.nidx)) [BitVec.ofNat 64 (next % 2 ^ 48), BitVec.ofNat 64 (2 ^ 32 + sym)]).on t1 = .ok ((), t2))
    (ref : (g.ref next).on t2 = .ok ((), t3)) (ends : WritesNodes t3 g g.nblka (g.nidx + 1) t) :
    (g.newNode sym next).on u = .ok (g.nblka + 16 * g.nidx, t) := by
  rw [Gram.newNode, Eng.on_bind_ok (Gram.pool_ok plain)]
  dsimp only
  rw [if_pos ⟨blk, room⟩, Gram.putNode_ok count node ref ends]

theorem owing_ok {α : Type} {r : PoolRef} {a : Nat} {m : Eng α} {x : α × State} (h : m.on u = .ok x) : (owing r a m).on u = .ok x := by
  unfold owing Eng.on
  have run : m u = .ok x := h
  simp only [run]

/-- A node in a new block, where the record has none. -/
theorem Gram.newNode_newBlock {sym next a : Nat} {t0 t1 t2 t3 t4 t5 : State} (plain : (u.poolAt (selPool g.npool)).isPlain g.via.asid = true)
    (blk : g.nblka = 0) (pages : (g.knownPages next).on u = .ok ((), t0)) (got : (allocate (selPool g.npool) g.via.k).on t0 = .ok (a, t1))
    (head : (eWrite g.via (sx48 a) 0x8000000000000000).on t1 = .ok ((), t2))
    (count : (eRmw g.via (sx48 a) (fun v => setField v 31 0 (fieldOf v 31 0 + 1))).on t2 = .ok ((), t3))
    (node : (eWrites g.via (sx48 (a + 16)) [BitVec.ofNat 64 (next % 2 ^ 48), BitVec.ofNat 64 (2 ^ 32 + sym)]).on t3 = .ok ((), t4))
    (ref : (g.ref next).on t4 = .ok ((), t5)) (ends : WritesNodes t5 g a 2 t) : (g.newNode sym next).on u = .ok (a + 16, t) := by
  have put : (g.putNode a 1 sym next).on t2 = .ok (a + 16, t) := Gram.putNode_ok count node ref ends
  rw [Gram.newNode, Eng.on_bind_ok (Gram.pool_ok plain)]
  dsimp only
  rw [if_neg (fun h => h.1 blk), Eng.on_bind_ok pages, Eng.on_bind_ok got, owing_ok]
  rw [if_neg (fun h => h blk), Eng.on_bind_ok (show (eWrite _ _ (BitVec.ofNat 64 (2 ^ 63))).on t1 = _ from head), put]

theorem Gram.on_poolOf {β : Type} (n : Nat) (f : PoolRef → Eng β) :
    (g.poolOf n >>= f).on u = (f ((u.poolHolding g.via.asid n).getD (selPool g.npool))).on u := Eng.on_bind_ok rfl f

section
variable {f n : Nat} {x : W64} {t1 : State} (some_ : n ≠ 0)
  (rmw : (eRmw g.via (sx48 n + 8) (fun v => setField v 63 32 (fieldOf v 63 32 + 2 ^ 32 - 1))).on u = .ok ((), t))
  (read : (eRead g.via (sx48 n + 8)).on t = .ok (x, t1))
include some_ rmw read

/-- A node that is still referred to stays. -/
theorem Gram.unref_shared (refs : fieldOf x 63 32 ≠ 0) : (g.unref (f + 1) n).on u = .ok ((), t1) := by
  rw [Gram.unref, if_neg some_, Gram.on_poolOf, Eng.on_ePool_bind, Eng.on_bind_ok rmw, Eng.on_bind_ok read, if_pos refs]
  rfl

/-- A node that none refers to leaves its block, which is released once it holds none and is not allocated from; then its next one is given up. -/
theorem Gram.unref_last {t2 t3 t4 t5 : State} {h y : W64} (refs : fieldOf x 63 32 = 0) {pr : PoolRef} {b : Nat}
    (hp : (u.poolHolding g.via.asid n).getD (selPool g.npool) = pr) (hb : (u.poolAt pr).blockOf n = b)
    (count : (eRmw g.via (sx48 b) (fun v => setField v 31 0 (fieldOf v 31 0 + 2 ^ 32 - 1))).on t1 = .ok ((), t2))
    (head : (eRead g.via (sx48 b)).on t2 = .ok (h, t3))
    (rel : if fieldOf h 31 0 = 0 ∧ h.getLsbD 63 = false then (release pr g.via.k b 0).on t3 = .ok ((), t4) else t4 = t3)
    (next : (eRead g.via (sx48 n)).on t4 = .ok (y, t5)) : (g.unref (f + 1) n).on u = (g.unref f (fieldOf y 47 0)).on t5 := by
  rw [Gram.unref, if_neg some_, Gram.on_poolOf, hp, Eng.on_ePool_bind, Eng.on_bind_ok rmw, Eng.on_bind_ok read, if_neg (fun n => n refs)]
  dsimp only
  rw [hb, Eng.on_bind_ok count, Eng.on_bind_ok head]
  split at rel
  · next empty => rw [if_pos empty, Eng.on_bind_ok rel, Eng.on_bind_ok (Gram.below_ok next)]
  · next used =>
    obtain rfl := rel
    rw [if_neg used, Eng.on_bind_ok (Gram.below_ok next)]

end

/-! ### The image (R273, R274, R283, R284) -/

theorem Gram.findTran_succ {cls y i n : Nat} {tr : W64} (read : (eRead g.via (g.img.tran + 8 * i)).on u = .ok (tr, t)) :
    (g.findTran cls y i (n + 1)).on u = if fieldOf tr 63 48 = cls ∧ (fieldOf tr 47 32 = y ∨ fieldOf tr 47 32 = 0xFFFF) then .ok (some tr, t)
      else (g.findTran cls y (i + 1) n).on t := by
  rw [Gram.findTran, Eng.on_bind_ok read, Eng.on_ite]
  rfl

theorem Gram.bitmap_words {b : Nat} {ws : List W64} (one : b ≠ 0xFFFF) (some_ : b < g.img.nbmap)
    (read : (eReads g.via (g.img.bmap + 8 * ((g.img.voc + 63) / 64) * b) ((g.img.voc + 63) / 64)).on u = .ok (ws, t)) :
    (g.bitmap b).on u = .ok (ws, t) := by
  rw [Gram.bitmap, if_neg one, Eng.on_echeck_bind (decide_eq_true some_)]
  exact read

theorem Gram.except_succ {y i n : Nat} {m : List W64} {x : W64} (read : (eRead g.via (g.img.exc + 8 * i)).on u = .ok (x, t)) :
    (g.except y i (n + 1) m).on u = (g.except y (i + 1) n
      (if (fieldOf x 47 32 = y ∨ fieldOf x 47 32 = 0xFFFF) ∧ fieldOf x 31 0 < g.img.voc then setBit m (fieldOf x 31 0) (x.getLsbD 48) else m)).on t := by
  rw [Gram.except, Eng.on_bind_ok read]
  dsimp only
  congr 2
  by_cases h : (fieldOf x 47 32 = y ∨ fieldOf x 47 32 = 0xFFFF) ∧ fieldOf x 31 0 < g.img.voc
  · rw [if_pos h, if_pos (by simpa using h)]
  · rw [if_neg h, if_neg (by simpa using h)]

end

/-- R273, R274, R278, R283: the nodes of a stack and the parts of an image are as the statement gives. -/
theorem stackOps : StackOps := by
  unfold StackOps
  intro u g
  refine ⟨fun n x t t1 some_ => ⟨Gram.top_ok some_, Gram.below_ok, Gram.ref_ok some_⟩, rfl, rfl, fun _ _ _ _ _ _ => Gram.findTran_succ, fun _ _ _ => rfl, ?ones,
    fun _ _ _ => Gram.bitmap_words, fun _ _ _ _ _ _ => Gram.except_succ, fun _ _ _ => rfl, ?inBlock, ?newBlock, fun _ => rfl, ?unref⟩
  case ones => rfl
  case inBlock =>
    intro sym next t t1 t2 t3 plain blk room n count node ref ends
    exact Gram.newNode_inBlock plain blk room count node ref ends
  case newBlock =>
    intro sym next t a t1 t2 t3 t4 t5 t6 plain blk pages got head count node ref ends
    exact Gram.newNode_newBlock plain blk pages got head count node ref ends
  case unref =>
    intro f n t x t1 some_ rmw read
    refine ⟨Gram.unref_shared some_ rmw read, ?_⟩
    intro t2 h t3 t4 y t5 refs pr b count head rel next
    exact Gram.unref_last some_ rmw read refs rfl rfl count head rel next

end Sys2Proof.Machine

/-! ## Clove: its commands (12_grammar.md R280, R282 to R287) -/

namespace Sys2Proof.Machine

set_option Elab.async false

/-! ### Binding (R282) -/

theorem boundRec_ok {u t t1 : State} {gn n : Nat} {w : Via} {a j : W64} {hd ws : List W64} (canon : canonical a.toNat = true) (aligned : a.toNat % 256 = 0)
    (slot : (u.core gn).slotOf a.toNat = some (n, hd)) (read : (eReads w (a.toNat + 64) 5).on u = .ok (ws, t))
    (jrnl : (eRead w (a.toNat + 56)).on t = .ok (j, t1)) :
    (boundRec gn w a).on u = .ok (⟨a.toNat, Image.ofWords (hd.drop 1), fieldOf (wordAt ws 0) 47 0, fieldOf (wordAt ws 0) 52 48,
      fieldOf (wordAt ws 1) 31 0, fieldOf (wordAt ws 1) 63 32, fieldOf (wordAt ws 2) 36 32, fieldOf (wordAt ws 2) 31 0, fieldOf (wordAt ws 3) 47 0,
      fieldOf (wordAt ws 4) 31 0, sx48 (fieldOf j 47 0), w⟩, t1) := by
  rw [boundRec, Eng.on_echeck_bind (by rw [canon, aligned]; rfl), Eng.on_bind_ok (a := some (n, hd)) (t := u) (by rw [← slot]; rfl)]
  dsimp only
  rw [readGram, Eng.on_bind_ok read, Eng.on_bind_ok jrnl]
  rfl

theorem boundRec_unbound {u : State} {gn : Nat} {w : Via} {a : W64} (canon : canonical a.toNat = true) (aligned : a.toNat % 256 = 0)
    (slot : (u.core gn).slotOf a.toNat = none) : ∃ e, (boundRec gn w a).on u = .error e ∧ e.halt = .fail 13 := by
  refine ⟨⟨.fail 13, none, u⟩, ?_, rfl⟩
  rw [boundRec, Eng.on_echeck_bind (by rw [canon, aligned]; rfl), Eng.on_bind_ok (a := none) (t := u) (by rw [← slot]; rfl)]
  rfl

/-- A unit's slot takes a record and the header of its image. -/
def State.bindSlot (s : State) (gn n : Nat) (l : List W64) : State := s.modCore gn (fun y => { y with gslots := SMap.set [] y.gslots n l })

section
variable {u t t1 : State} {gn : Nat} {w : Via} {a b : W64} {g : Gram} {hs : List W64} (canon : canonical a.toNat = true) (aligned : a.toNat % 256 = 0)
  (read : (readGram w a.toNat (Image.ofWords [])).on u = .ok (g, t)) (imgAligned : sx48 g.gimg % 8 = 0)
  (head : (eReads w (sx48 g.gimg) 8).on t = .ok (hs, t1)) (ok : (Image.ofWords hs).ok = true) (jmin : 4 ≤ g.jlog) (jmax : g.jlog ≤ 20)
  (plain : (t1.poolAt (selPool g.npool)).isPlain w.asid = true) (slot : ∀ o, (t1.core gn).slotOf a.toNat = some o → o.1 = b.toNat % 8)
include canon aligned read imgAligned head ok jmin jmax plain slot

/-- A bind that passes its checks, up to the reset. -/
theorem gBind_checked (reset : Bool) : (gBind gn w reset a b).on u =
    (if reset then do
        echeck (g.head == g.tail) 6
        let c ← eRead w a.toNat
        Gram.setEntry { g with img := Image.ofWords hs } g.tail ⟨(Image.ofWords hs).start, 0, fieldOf c 31 0, true, false, noParent⟩
        Gram.setEnds { g with img := Image.ofWords hs } g.tail (g.tail + 1)
        Gram.setCur { g with img := Image.ofWords hs } g.tail
        eSlot gn (b.toNat % 8) (a :: hs)
      else eSlot gn (b.toNat % 8) (a :: hs)).on t1 := by
  rw [gBind, Eng.on_echeck_bind (by rw [canon, aligned]; rfl), Eng.on_bind_ok read, Eng.on_echeck_bind (beq_iff_eq.2 imgAligned), Eng.on_bind_ok head]
  dsimp only
  rw [Eng.on_echeck_bind ok, Eng.on_ePool_bind, Eng.on_echeck_bind (by rw [decide_eq_true jmin, decide_eq_true jmax, plain]; rfl),
    Eng.on_bind_ok (a := (t1.core gn).slotOf a.toNat) (t := t1) rfl, Eng.on_echeck_bind]
  cases ho : (t1.core gn).slotOf a.toNat with
  | none => rfl
  | some o => exact beq_iff_eq.2 (slot o ho)

theorem gBind_plain : (gBind gn w false a b).on u = .ok ((), t1.bindSlot gn (b.toNat % 8) (a :: hs)) := by
  rw [gBind_checked canon aligned read imgAligned head ok jmin jmax plain slot, if_neg Bool.false_ne_true]
  rfl

theorem gBind_reset {c : W64} {t2 t3 t4 t5 : State} (empty : g.head = g.tail) (len : (eRead w a.toNat).on t1 = .ok (c, t2))
    (entry : WritesJournal t2 g g.tail (Image.ofWords hs).start 0 (fieldOf c 31 0) false 0xFFFFFF t3) (ends : WritesEnds t3 g g.tail (g.tail + 1) t4)
    (cur : WritesCur t4 g g.tail t5) : (gBind gn w true a b).on u = .ok ((), t5.bindSlot gn (b.toNat % 8) (a :: hs)) := by
  rw [gBind_checked canon aligned read imgAligned head ok jmin jmax plain slot, if_pos rfl, Eng.on_echeck_bind (beq_iff_eq.2 empty), Eng.on_bind_ok len,
    Eng.on_bind_ok (Gram.setEntry_ok (g := { g with img := Image.ofWords hs }) (parent := noParent) entry),
      Eng.on_bind_ok (Gram.setEnds_ok (g := { g with img := Image.ofWords hs }) ends),
    Eng.on_bind_ok (Gram.setCur_ok (g := { g with img := Image.ofWords hs }) cur)]
  rfl

end

/-! ### Dropping and committing entries (R282, R287) -/

/-- What a turn over the journal leaves: a live entry gives up its node and is no longer live. -/
def EntryDropped (g : Gram) (s : State) (i : Nat) (t : State) : Prop :=
  ∃ e z, ReadsJournal s g i e z ∧ (if e.live then ∃ y, (g.unref stackFuel e.node).on z = .ok ((), y) ∧ (g.kill i).on y = .ok ((), t) else t = z)

theorem dropEntry_ok {g : Gram} {s t : State} {i : Nat} (h : EntryDropped g s i t) :
    (do let e ← g.entry i
        if e.live then
          g.unref stackFuel e.node
          g.kill i
        else pure () : Eng Unit).on s = .ok ((), t) := by
  obtain ⟨e, z, read, h⟩ := h
  rw [Eng.on_bind_ok (Gram.entry_ok read)]
  split at h
  · next live =>
    obtain ⟨y, unref, kill⟩ := h
    rw [if_pos live, Eng.on_bind_ok unref, kill]
  · next dead =>
    rw [if_neg dead, h]
    rfl

theorem Gram.getElem_indices {g : Gram} {i : Nat} (h : i < g.indices.length) : g.indices[i] = (g.head + i) % 2 ^ 32 := by
  simp only [Gram.indices, List.getElem_map, List.getElem_range]

theorem Gram.length_indices (g : Gram) : g.indices.length = min ((g.tail + 2 ^ 32 - g.head % 2 ^ 32) % 2 ^ 32) (2 ^ g.jlog) := by
  unfold Gram.indices
  rw [List.length_map, List.length_range]
  rfl

/-- A record is dropped (R282): its entries, its ends, its block, its slot. -/
theorem gDrop_ok {u : State} {gn n : Nat} {w : Via} {a : W64} {g : Gram} {st : Nat → State} {t1 t2 t3 t4 t5 t6 : State} {h : W64} {hd : List W64}
    (bound : (boundRec gn w a).on u = .ok (g, st 0))
    (turn : ∀ i, i < min ((g.tail + 2 ^ 32 - g.head % 2 ^ 32) % 2 ^ 32) (2 ^ g.jlog) → EntryDropped g (st i) ((g.head + i) % 2 ^ 32) (st (i + 1)))
    (ends : WritesEnds (st (min ((g.tail + 2 ^ 32 - g.head % 2 ^ 32) % 2 ^ 32) (2 ^ g.jlog))) g g.tail g.tail t1) (cur : WritesCur t1 g g.tail t2)
    (block : if g.nblka = 0 then t5 = t2 else (eRmw w (sx48 g.nblka) (fun v => setField v 63 63 0)).on t2 = .ok ((), t3) ∧
      (eRead w (sx48 g.nblka)).on t3 = .ok (h, t4) ∧
      (if fieldOf h 31 0 = 0 then (release (selPool g.npool) w.k g.nblka 0).on t4 = .ok ((), t5) else t5 = t4))
    (nodes : WritesNodes t5 g 0 0 t6) (slot : (t6.core gn).slotOf a.toNat = some (n, hd)) : (gDrop gn w a).on u = .ok ((), t6.bindSlot gn n []) := by
  have loop := Eng.on_eFor (fun i => do
      let e ← g.entry i
      if e.live then
        g.unref stackFuel e.node
        g.kill i
      else pure ()) g.indices st (fun i hi => by
    rw [Gram.getElem_indices]
    rw [Gram.length_indices] at hi
    exact dropEntry_ok (turn i hi))
  rw [Gram.length_indices] at loop
  have rest : (do
      g.setNodes 0 0
      let slot : Option (Nat × List W64) ← (fun s => .ok ((s.core gn).slotOf a.toNat, s))
      match slot with
      | some (n, _) => eSlot gn n []
      | none => pure () : Eng Unit).on t5 = .ok ((), t6.bindSlot gn n []) := by
    rw [Eng.on_bind_ok (Gram.setNodes_ok nodes), Eng.on_bind_ok (a := some (n, hd)) (t := t6) (by rw [← slot]; rfl)]
    rfl
  rw [gDrop, Eng.on_bind_ok bound, Eng.on_bind_ok loop, Eng.on_bind_ok (Gram.setEnds_ok ends), Eng.on_bind_ok (Gram.setCur_ok cur)]
  dsimp only
  split at block
  · next none =>
    obtain rfl := block
    rw [if_neg (fun h => h none)]
    exact rest
  · next some =>
    obtain ⟨leave, head, rel⟩ := block
    rw [if_pos some, Eng.on_bind_ok leave, Eng.on_bind_ok head]
    split at rel
    · next empty =>
      rw [if_pos empty, Eng.on_bind_ok rel]
      exact rest
    · next used =>
      obtain rfl := rel
      rw [if_neg used]
      exact rest

/-- A commit (R287): the entries that are not on the chain are dropped, and HEAD moves. -/
theorem gCommit_ok {g : Gram} {b : W64} {t t1 t2 : State} {e : Jent} {keep : List Nat} {st : Nat → State} {ei : Nat} (hei : g.named (b.toNat % 2 ^ 32) = ei)
    (has : g.has ei = true) (read : ReadsJournal t g ei e t1) (live : e.live = true)
    (chain : (g.chainTo ei (2 ^ g.jlog + 1) g.cur []).on t1 = .ok (keep, st 0))
    (turn : ∀ i, i < min ((g.tail + 2 ^ 32 - g.head % 2 ^ 32) % 2 ^ 32) (2 ^ g.jlog) →
      if (g.head + i) % 2 ^ 32 ∈ keep then st (i + 1) = st i else EntryDropped g (st i) ((g.head + i) % 2 ^ 32) (st (i + 1)))
    (ends : WritesEnds (st (min ((g.tail + 2 ^ 32 - g.head % 2 ^ 32) % 2 ^ 32) (2 ^ g.jlog))) g ei g.tail t2) : (gCommit g b).on t = .ok ((), t2) := by
  have loop := Eng.on_eFor (fun i => if keep.contains i then pure () else do
      let x ← g.entry i
      if x.live then
        g.unref stackFuel x.node
        g.kill i
      else pure ()) g.indices st (fun i hi => by
    rw [Gram.getElem_indices]
    rw [Gram.length_indices] at hi
    have turn := turn i hi
    split at turn
    · next kept =>
      rw [if_pos (List.contains_iff_mem.2 kept), turn]
      rfl
    · next gone =>
      rw [if_neg (fun h => gone (List.contains_iff_mem.1 h))]
      exact dropEntry_ok turn)
  rw [Gram.length_indices] at loop
  unfold gCommit
  dsimp only
  rw [hei, Eng.on_bind_ok (Gram.liveEntry_ok has read live), Eng.on_bind_ok chain, Eng.on_bind_ok loop, Gram.setEnds_ok ends]

theorem Gram.findPos_succ {g : Gram} {p f i : Nat} {e : Jent} {y z : State} (has : g.has i = true) (read : ReadsJournal y g i e z) :
    (g.findPos p (f + 1) i).on y = if e.pos = p then .ok (i, z) else match g.parentOf e with
      | some j => (g.findPos p f j).on z
      | none => .error ⟨.fail 15, none, z⟩ := by
  rw [Gram.findPos, Eng.on_echeck_bind has, Eng.on_bind_ok (Gram.entry_ok read), Eng.on_ite]
  split
  · rfl
  · cases g.parentOf e <;> rfl

theorem Gram.chainTo_end {g : Gram} {ei f : Nat} {l : List Nat} {y : State} : (g.chainTo ei (f + 1) ei l).on y = .ok (l ++ [ei], y) := by
  rw [Gram.chainTo, if_pos rfl]
  rfl

theorem Gram.chainTo_parent {g : Gram} {ei f i j : Nat} {l : List Nat} {x : Jent} {y z : State} (ne : i ≠ ei) (has : g.has i = true)
    (read : ReadsJournal y g i x z) (parent : g.parentOf x = some j) : (g.chainTo ei (f + 1) i l).on y = (g.chainTo ei f j (l ++ [i])).on z := by
  rw [Gram.chainTo, if_neg ne, if_neg (by rw [has]; decide), Eng.on_bind_ok (Gram.entry_ok read), parent]

/-! ### Steps (R283) -/

theorem Gram.stateWords_ok {g : Gram} {st : Nat} {t t1 t2 : State} {s0 s1 : W64} (some_ : st < g.img.nstate)
    (h0 : (eRead g.via (g.img.stab + 16 * st)).on t = .ok (s0, t1)) (h1 : (eRead g.via (g.img.stab + 16 * st + 8)).on t1 = .ok (s1, t2)) :
    (g.stateWords st).on t = .ok ((s0, s1), t2) := by
  rw [Gram.stateWords, Eng.on_echeck_bind (decide_eq_true some_), Eng.on_bind_ok h0, Eng.on_bind_ok h1]
  rfl

section
variable {g : Gram} {b : W64} {tk pi : Nat} {t t1 t2 t3 : State} {e : Jent} {s0 s1 : W64} (htk : b.toNat % 2 ^ 32 = tk) (hpi : g.named (b.toNat / 2 ^ 32) = pi)
  (has : g.has pi = true) (read : ReadsJournal t g pi e t1) (live : e.live = true)
  (room : (g.tail + 2 ^ 32 - g.head % 2 ^ 32) % 2 ^ 32 ≠ 2 ^ g.jlog) (open_ : e.done = false) (known : tk < g.img.voc) (state : e.state < g.img.nstate)
  (word0 : (eRead g.via (g.img.stab + 16 * e.state)).on t1 = .ok (s0, t2))
  (word1 : (eRead g.via (g.img.stab + 16 * e.state + 8)).on t2 = .ok (s1, t3))
include htk hpi has read live room open_ known state word0 word1

/-- The end of a sequence: a final state with an empty stack is done. -/
theorem gStep_eos (eos : tk = g.img.eos) (final : s1.getLsbD 0 = true) (bottom : e.node = 0) :
    (gStep g b).on t = (g.append ⟨e.state, 0, e.pos + 1, true, true, pi % 2 ^ 24⟩).on t3 := by
  unfold gStep
  dsimp only
  rw [htk, hpi, Eng.on_bind_ok (Gram.liveEntry_ok has read live), Eng.on_echeck_bind (bne_iff_ne.2 (show g.held ≠ 2 ^ g.jlog from room)),
    Eng.on_echeck_bind (by rw [open_, decide_eq_true known]; rfl), Eng.on_bind_ok (Gram.stateWords_ok state word0 word1)]
  dsimp only
  rw [if_pos eos, Eng.on_echeck_bind (by rw [final, bottom]; rfl), bottom]

/-- A token goes by the first transition that its class and the top have: its stack action, then the entry. -/
theorem gStep_token {cls y : Nat} {t4 t5 t6 : State} {tr : W64} (other : tk ≠ g.img.eos)
    (class_ : (eReadN g.via (g.img.tcls + 2 * tk) 2).on t3 = .ok (cls, t4)) (top : (g.top e.node).on t4 = .ok (y, t5)) (some_ : cls ≠ 0xFFFF)
    (fits : fieldOf s0 63 32 + fieldOf s0 31 16 ≤ 2 ^ 32)
    (found : (g.findTran cls y (fieldOf s0 63 32) (fieldOf s0 31 16)).on t5 = .ok (some tr, t6)) (next : fieldOf tr 31 16 < g.img.nstate) :
    (fieldOf tr 15 14 = 0 → (gStep g b).on t =
      (g.ref e.node >>= fun _ => g.append ⟨fieldOf tr 31 16, e.node, e.pos + 1, true, false, pi % 2 ^ 24⟩).on t6) ∧
    (fieldOf tr 15 14 = 1 → fieldOf tr 13 0 < g.img.nsym → (gStep g b).on t =
      (g.newNode (fieldOf tr 13 0) e.node >>= fun n => g.append ⟨fieldOf tr 31 16, n, e.pos + 1, true, false, pi % 2 ^ 24⟩).on t6) ∧
    (fieldOf tr 15 14 = 2 → e.node ≠ 0 → (gStep g b).on t =
      (g.below e.node >>= fun n => g.ref n >>= fun _ => g.append ⟨fieldOf tr 31 16, n, e.pos + 1, true, false, pi % 2 ^ 24⟩).on t6) ∧
    (fieldOf tr 15 14 = 3 → e.node ≠ 0 → fieldOf tr 13 0 < g.img.nsym → (gStep g b).on t =
      (g.below e.node >>= fun o => g.newNode (fieldOf tr 13 0) o >>= fun n =>
        g.append ⟨fieldOf tr 31 16, n, e.pos + 1, true, false, pi % 2 ^ 24⟩).on t6) := by
  unfold gStep
  dsimp only
  rw [htk, hpi, Eng.on_bind_ok (Gram.liveEntry_ok has read live), Eng.on_echeck_bind (bne_iff_ne.2 (show g.held ≠ 2 ^ g.jlog from room)),
    Eng.on_echeck_bind (by rw [open_, decide_eq_true known]; rfl), Eng.on_bind_ok (Gram.stateWords_ok state word0 word1)]
  dsimp only
  rw [if_neg other, Eng.on_bind_ok class_, Eng.on_bind_ok top, Eng.on_echeck_bind (bne_iff_ne.2 some_), Eng.on_echeck_bind (decide_eq_true fits),
    Eng.on_bind_ok found]
  dsimp only
  rw [Eng.on_echeck_bind (decide_eq_true next)]
  refine ⟨fun k => ?_, fun k sym => ?_, fun k node => ?_, fun k node sym => ?_⟩
  all_goals rw [k]
  · rfl
  · exact Eng.on_echeck_bind (decide_eq_true sym) _ _ _
  · exact Eng.on_echeck_bind (bne_iff_ne.2 node) _ _ _
  · exact (Eng.on_echeck_bind (bne_iff_ne.2 node) _ _ _).trans (Eng.on_echeck_bind (decide_eq_true sym) _ _ _)

end

/-! ### Forks (R285) -/

theorem gFork_ok {c p : Gram} {t1 t2 t3 t4 t5 t6 t7 : State} {e : Jent} (has : p.has p.cur = true) (read : ReadsJournal t1 p p.cur e t2) (live : e.live = true)
    (other : c.at_ ≠ p.at_) (empty : c.head = c.tail) (same : c.gimg = p.gimg)
    (refs : if e.node = 0 then t3 = t2 else ∃ x, (eRead p.via (sx48 e.node + 8)).on t2 = .ok (x, t3) ∧ fieldOf x 63 32 ≠ 2 ^ 32 - 1)
    (entry : WritesJournal t3 c c.tail e.state e.node e.pos e.done 0xFFFFFF t4) (ref : (p.ref e.node).on t4 = .ok ((), t5))
    (ends : WritesEnds t5 c c.tail (c.tail + 1) t6) (cur : WritesCur t6 c c.tail t7) : (gFork c p).on t1 = .ok ((), t7) := by
  have rest : (do
      c.setEntry c.tail ⟨e.state, e.node, e.pos, true, e.done, noParent⟩
      p.ref e.node
      c.setEnds c.tail (c.tail + 1)
      c.setCur c.tail : Eng Unit).on t3 = .ok ((), t7) := by
    rw [Eng.on_bind_ok (Gram.setEntry_ok (parent := noParent) entry), Eng.on_bind_ok ref, Eng.on_bind_ok (Gram.setEnds_ok ends),
      Gram.setCur_ok cur]
  unfold gFork
  rw [Eng.on_bind_ok (Gram.liveEntry_ok has read live), Eng.on_echeck_bind (by rw [bne_iff_ne.2 other, beq_iff_eq.2 empty, beq_iff_eq.2 same]; rfl)]
  dsimp only
  split at refs
  · next bottom =>
    obtain rfl := refs
    rw [if_neg (fun h => h bottom)]
    exact rest
  · next node =>
    obtain ⟨x, read, count⟩ := refs
    rw [if_pos node, Eng.on_bind_ok read, Eng.on_echeck_bind (bne_iff_ne.2 count)]
    exact rest

end Sys2Proof.Machine

/-! ## Clove: the mask of an entry (12_grammar.md R284), and its commands at their turn -/

namespace Sys2Proof.Machine

set_option Elab.async false

/-! ### Bits of a mask -/

/-- A bit of a word that has had one bit set or cleared. -/
theorem getLsbD_putBit (w : W64) {j i : Nat} (b : Bool) (hi : i < 64) :
    (if b then w ||| (1#64 <<< j) else w &&& ~~~(1#64 <<< j)).getLsbD i = if i = j then b else w.getLsbD i := by
  cases b <;> by_cases h : i = j <;> simp [h, hi, BitVec.getLsbD_shiftLeft] <;> omega

/-- A bit of a mask in which one bit has been set or cleared. -/
theorem getElem?_setBit {m : List W64} {e k : Nat} {b : Bool} {v : W64} (h : m[k / 64]? = some v) :
    ∃ v', (setBit m e b)[k / 64]? = some v' ∧ v'.getLsbD (k % 64) = if k = e then b else v.getLsbD (k % 64) := by
  have hk := Nat.mod_lt k (show 0 < 64 by decide)
  rw [setBit, List.getElem?_modify, h]
  by_cases word : e / 64 = k / 64
  · refine ⟨_, by simp only [if_pos word]; rfl, ?_⟩
    rw [getLsbD_putBit v b hk]
    by_cases bit : k = e
    · rw [if_pos bit, if_pos (by rw [bit])]
    · rw [if_neg bit, if_neg (by omega)]
  · refine ⟨v, by simp only [if_neg word]; rfl, ?_⟩
    rw [if_neg (fun bit => word (by rw [bit]))]

/-- What becomes of a mask after the exceptions: the end of a sequence, a branch that is done, and the bits beyond the vocabulary. -/
def finishMask (m : List W64) (img : Image) (final done : Bool) : List W64 :=
  let m := if img.eos = noEos then m else setBit m img.eos final
  let m := if done then m.map (fun _ => 0) else m
  m.zipIdx.map (fun p => if p.2 + 1 = img.mw ∧ img.voc % 64 ≠ 0 then p.1 &&& BitVec.ofNat 64 (2 ^ (img.voc % 64) - 1) else p.1)

theorem length_finishMask (m : List W64) (img : Image) (final done : Bool) : (finishMask m img final done).length = m.length := by
  unfold finishMask
  cases done <;> by_cases h : img.eos = noEos <;> simp [h, setBit]

theorem getElem?_eos {m : List W64} {eos k : Nat} {final : Bool} {v : W64} (h : m[k / 64]? = some v) :
    ∃ v', (if eos = noEos then m else setBit m eos final)[k / 64]? = some v' ∧
      v'.getLsbD (k % 64) = if k = eos ∧ eos ≠ noEos then final else v.getLsbD (k % 64) := by
  by_cases none : eos = noEos
  · exact ⟨v, by rw [if_pos none, h], by rw [if_neg (fun x => x.2 none)]⟩
  · obtain ⟨v', hv, bit⟩ := getElem?_setBit (e := eos) (b := final) h
    exact ⟨v', by rw [if_neg none, hv], by rw [bit]; simp only [none, ne_eq, not_false_eq_true, and_true]⟩

theorem getLsbD_below (v : W64) {n i : Nat} (hi : i < 64) : (v &&& BitVec.ofNat 64 (2 ^ n - 1)).getLsbD i = (v.getLsbD i && decide (i < n)) := by
  rw [BitVec.getLsbD_and, BitVec.getLsbD_ofNat, Nat.testBit_two_pow_sub_one, decide_eq_true hi, Bool.true_and]

/-- A bit of a finished mask. -/
theorem getElem?_finishMask {m : List W64} {img : Image} {final done : Bool} {k : Nat} {v : W64} (h : m[k / 64]? = some v) :
    ∃ v', (finishMask m img final done)[k / 64]? = some v' ∧ v'.getLsbD (k % 64) =
      (!done && !(decide (k / 64 + 1 = (img.voc + 63) / 64) && decide (img.voc % 64 ≠ 0) && decide (img.voc % 64 ≤ k % 64)) &&
        (if k = img.eos ∧ img.eos ≠ noEos then final else v.getLsbD (k % 64))) := by
  have hk := Nat.mod_lt k (show 0 < 64 by decide)
  obtain ⟨v1, h1, bit1⟩ := getElem?_eos (eos := img.eos) (final := final) h
  have h2 : ∃ v2, (if done then (if img.eos = noEos then m else setBit m img.eos final).map (fun _ => (0 : W64)) else
      (if img.eos = noEos then m else setBit m img.eos final))[k / 64]? = some v2 ∧ v2.getLsbD (k % 64) = (!done && v1.getLsbD (k % 64)) := by
    cases done with
    | false => exact ⟨v1, h1, (Bool.true_and _).symm⟩
    | true => exact ⟨0, by rw [if_pos rfl, List.getElem?_map, h1]; rfl, by simp⟩
  obtain ⟨v2, h2, bit2⟩ := h2
  rw [← bit1]
  unfold finishMask
  dsimp only
  rw [List.getElem?_map, List.getElem?_zipIdx, h2]
  refine ⟨_, rfl, ?_⟩
  dsimp only
  rw [Nat.zero_add]
  have words : img.mw = (img.voc + 63) / 64 := rfl
  by_cases last : k / 64 + 1 = img.mw ∧ img.voc % 64 ≠ 0
  · rw [if_pos last, getLsbD_below v2 hk, bit2, ← words, decide_eq_true last.1, decide_eq_true last.2, Bool.true_and, Bool.true_and, ← decide_not,
      Bool.and_right_comm]
    simp only [Nat.not_le]
  · rw [if_neg last, bit2, ← words]
    have none : (decide (k / 64 + 1 = img.mw) && decide (img.voc % 64 ≠ 0)) = false := by simpa using last
    rw [none, Bool.false_and, Bool.not_false, Bool.and_true]

/-- The mask of an entry (R284): the state's bitmap and the top's, the exceptions, and what is left of them. -/
theorem gMask_ok {g : Gram} {b : W64} {t t1 t2 t3 t4 t5 t6 t7 t8 : State} {e : Jent} {y yb : Nat} {s0 s1 : W64} {ms my m : List W64}
    (has : g.has (g.named (b.toNat / 2 ^ 32)) = true) (read : ReadsJournal t g (g.named (b.toNat / 2 ^ 32)) e t1) (live : e.live = true)
    (top : (g.top e.node).on t1 = .ok (y, t2)) (state : e.state < g.img.nstate) (word0 : (eRead g.via (g.img.stab + 16 * e.state)).on t2 = .ok (s0, t3))
    (word1 : (eRead g.via (g.img.stab + 16 * e.state + 8)).on t3 = .ok (s1, t4)) (sym : y < g.img.nsym)
    (index : (eReadN g.via (g.img.symt + 2 * y) 2).on t4 = .ok (yb, t5)) (map0 : (g.bitmap (fieldOf s0 15 0)).on t5 = .ok (ms, t6))
    (map1 : (g.bitmap yb).on t6 = .ok (my, t7)) (fits : fieldOf s1 63 32 + fieldOf s1 31 16 ≤ 2 ^ 32)
    (exc : (g.except y (fieldOf s1 63 32) (fieldOf s1 31 16) (List.zipWith (fun a b => a &&& b) ms my)).on t7 = .ok (m, t8)) :
    (gMask g b).on t = .ok (finishMask m g.img (s1.getLsbD 0 && e.node == 0) e.done, t8) := by
  unfold gMask
  rw [Eng.on_bind_ok (Gram.liveEntry_ok has read live), Eng.on_bind_ok top, Eng.on_bind_ok (Gram.stateWords_ok state word0 word1)]
  dsimp only
  rw [Eng.on_echeck_bind (decide_eq_true sym), Eng.on_bind_ok index, Eng.on_bind_ok map0, Eng.on_bind_ok map1, Eng.on_echeck_bind (decide_eq_true fits),
    List.zip, List.map_zipWith, Eng.on_bind_ok exc]
  rfl

/-! ### What a command does -/

section
variable {u : State} {q : SqCmd} {gn : Nat} (live : u.inReplay q.tid = false)
include live

theorem cloveRun_gbind (op : q.op = 16) : (cloveRun u q gn).on u =
    (if q.x = 2 then (gDrop gn ⟨.clove gn, dieOf gn, q.asid, q.k⟩ q.a >>= fun _ => pure [])
      else (gBind gn ⟨.clove gn, dieOf gn, q.asid, q.k⟩ (q.x == 1) q.a q.b >>= fun _ => pure [])).on u := by
  unfold cloveRun
  rw [Eng.on_echeck_bind (by rw [live]; rfl), op]
  rfl

theorem cloveRun_gfork {c p : Gram} {t t1 : State} (op : q.op = 19) (child : (boundRec gn ⟨.clove gn, dieOf gn, q.asid, q.k⟩ q.a).on u = .ok (c, t))
    (parent : (boundRec gn ⟨.clove gn, dieOf gn, q.asid, q.k⟩ q.b).on t = .ok (p, t1)) :
    (cloveRun u q gn).on u = (gFork c p >>= fun _ => pure []).on t1 := by
  unfold cloveRun
  rw [Eng.on_echeck_bind (by rw [live]; rfl), op]
  exact (Eng.on_bind_ok child _).trans (Eng.on_bind_ok parent _)

/-- A command on one bound record reads it, then does its part. -/
theorem cloveRun_record {g : Gram} {t : State} (bound : (boundRec gn ⟨.clove gn, dieOf gn, q.asid, q.k⟩ q.a).on u = .ok (g, t)) :
    (q.op = 17 → (cloveRun u q gn).on u = (gStep g q.b >>= fun _ => pure []).on t) ∧
    (q.op = 18 → (cloveRun u q gn).on u = (gMask g q.b).on t) ∧
    (q.op = 20 → q.x = 0 → (cloveRun u q gn).on u =
      (g.liveEntry (q.b.toNat % 2 ^ 32) >>= fun _ => g.setCur (q.b.toNat % 2 ^ 32) >>= fun _ => pure []).on t) ∧
    (q.op = 20 → q.x ≠ 0 → (cloveRun u q gn).on u =
      (g.findPos (q.b.toNat % 2 ^ 32) (2 ^ g.jlog + 1) g.cur >>= fun i => g.setCur i >>= fun _ => pure []).on t) ∧
    (q.op = 21 → (cloveRun u q gn).on u = (gCommit g q.b >>= fun _ => pure []).on t) := by
  unfold cloveRun
  rw [Eng.on_echeck_bind (by rw [live]; rfl)]
  refine ⟨fun op => ?_, fun op => ?_, fun op x => ?_, fun op x => ?_, fun op => ?_⟩
  all_goals
    rw [op]
    refine (Eng.on_bind_ok bound _).trans ?_
  · rfl
  · rfl
  · exact congrArg (Eng.on · t) (if_pos x)
  · exact congrArg (Eng.on · t) (if_neg x)
  · rfl

end

/-! ### The statement on Clove -/

/-- R280, R282 to R287: the commands of Clove do what the statement gives. -/
theorem cloveWrites : CloveWrites := by
  unfold CloveWrites
  intro u q gn live w runs named
  refine ⟨fun a n hd ws t j t1 => boundRec_ok, fun a => boundRec_unbound, ?bind_, ?drop, fun g t bound => ?record, ?fork⟩
  case bind_ =>
    intro g t hs t1 op x canon aligned read via imgAligned head m slot held ok jmin jmax plain free
    have run := cloveRun_gbind (gn := gn) live op
    refine ⟨fun x => ?_, fun c t2 t3 t4 t5 x empty len entry ends cur => ?_⟩
    · rw [if_neg (by omega), show (q.x == 1) = false by rw [x]; rfl] at run
      exact run.trans (Eng.on_bind_ok (gBind_plain canon aligned read imgAligned head ok jmin jmax plain free) _)
    · rw [if_neg (by omega), show (q.x == 1) = true by rw [x]; rfl] at run
      exact run.trans (Eng.on_bind_ok (gBind_reset canon aligned read imgAligned head ok jmin jmax plain free empty len entry ends cur) _)
  case drop =>
    intro g st t1 t2 t3 h t4 t5 t6 op x bound via size turn ends cur block nodes n hd slot
    have run := cloveRun_gbind (gn := gn) live op
    rw [if_pos x] at run
    exact run.trans (Eng.on_bind_ok (gDrop_ok bound turn ends cur block nodes slot) _)
  case fork =>
    intro c t p t1 e t2 t3 t4 t5 t6 t7 op child parent has read live' other empty same refs entry ref ends cur
    exact (cloveRun_gfork live op child parent).trans (Eng.on_bind_ok (gFork_ok has read live' other empty same refs entry ref ends cur) _)
  case record =>
    obtain ⟨step, mask, roll, rollPos, commit⟩ := cloveRun_record live bound
    refine ⟨fun i y z => Gram.kill_iff, ?step, ?mask, ?roll, ?rollPos, fun p f i e y z => Gram.findPos_succ, ?commit,
      fun ei f i l y => ⟨Gram.chainTo_end, fun x z j => Gram.chainTo_parent⟩⟩
    case step =>
      intro e t1 s0 t2 s1 t3 op tk pi has read live' room open_ known state word0 word1 adds
      have eos := gStep_eos (htk := rfl) (hpi := rfl) has read live' room open_ known state word0 word1
      have token {cls y t4 t5 t6 tr} := gStep_token (htk := rfl) (hpi := rfl) has read live' room open_ known state word0 word1 (cls := cls) (y := y) (t4 := t4)
        (t5 := t5) (t6 := t6) (tr := tr)
      refine ⟨fun h final bottom y y' y'' entry cur ends => ?_, ?_⟩
      · exact (step op).trans (Eng.on_bind_ok ((eos h final bottom).trans (Gram.append_ok entry cur ends)) _)
      · intro cls t4 y t5 tr t6 other class_ top some_ fits found nx sym next
        obtain ⟨keep, push, pop, swap⟩ := token other class_ top some_ fits found next
        refine ⟨?_, ?_, ?_, ?_⟩
        · intro z k ref y y' y'' entry cur ends
          exact (step op).trans (Eng.on_bind_ok ((keep k).trans ((Eng.on_bind_ok ref _).trans (Gram.append_ok entry cur ends))) _)
        · intro n z k hs new y y' y'' entry cur ends
          exact (step op).trans (Eng.on_bind_ok ((push k hs).trans ((Eng.on_bind_ok new _).trans (Gram.append_ok entry cur ends))) _)
        · intro n z z' k node below ref y y' y'' entry cur ends
          exact (step op).trans (Eng.on_bind_ok ((pop k node).trans ((Eng.on_bind_ok below _).trans ((Eng.on_bind_ok ref _).trans
            (Gram.append_ok entry cur ends)))) _)
        · intro o z n z' k node hs below new y y' y'' entry cur ends
          exact (step op).trans (Eng.on_bind_ok ((swap k node hs).trans ((Eng.on_bind_ok below _).trans ((Eng.on_bind_ok new _).trans
            (Gram.append_ok entry cur ends)))) _)
    case mask =>
      intro e t1 y t2 s0 t3 s1 t4 yb t5 ms t6 my t7 m t8 op has read live' top state word0 word1 sym index map0 map1 fits exc
      refine ⟨_, (mask op).trans (gMask_ok has read live' top state word0 word1 sym index map0 map1 fits exc), length_finishMask .., fun k v _ hv => ?_⟩
      exact getElem?_finishMask hv
    case roll =>
      intro e t1 t2 op x has read live' cur
      exact (roll op x).trans ((Eng.on_bind_ok (Gram.liveEntry_ok has read live') _).trans (Eng.on_bind_ok (Gram.setCur_ok cur) _))
    case rollPos =>
      intro i t1 t2 op x found cur
      exact (rollPos op x).trans ((Eng.on_bind_ok found _).trans (Eng.on_bind_ok (Gram.setCur_ok cur) _))
    case commit =>
      intro e t1 keep st t2 op ei size has read live' chain turn ends
      exact (commit op).trans (Eng.on_bind_ok (gCommit_ok rfl has read live' chain turn ends) _)

end Sys2Proof.Machine

/-! ## Schedule walkers: what their commands read, write and reply (15_schedule.md R337, R341, R342, R344, R346) -/

namespace Sys2Proof.Machine

set_option Elab.async false

/-! ### The block and its granules -/

theorem readSched_ok {u t : State} {v : Via} {a : Nat} {b : Sched} (h : ReadsSched u v a b t) : (readSched v a).on u = .ok (b, t) := by
  obtain ⟨ws, read, canon, aligned, rfl, map, mapAligned⟩ := h
  rw [readSched, Eng.on_echeck_bind (by rw [canon, aligned]; rfl), Eng.on_bind_ok read]
  dsimp only
  rw [Eng.on_echeck_bind]
  · rfl
  · rw [beq_iff_eq.2 mapAligned, Bool.and_true]
    exact map

section
variable {b : Sched} {u t : State}

theorem Sched.granule_ok {g : Nat} {w : W64} (read : (eRead b.via ((b.at_ + sx48 (fieldOf b.mapw 47 0)) % 2 ^ 64 + 8 * (g / 32))).on u = .ok (w, t)) :
    (b.granule g).on u = .ok (w.toNat / 2 ^ (2 * (g % 32)) % 4, t) := by
  rw [Sched.granule, Sched.mapAt, Eng.on_bind_ok read]
  rfl

theorem Sched.setRun_ok {gen cur lim ndone : Nat} {pend : Bool} (h : WritesRun u b gen pend cur lim ndone t) :
    (b.setRun gen pend cur lim ndone).on u = .ok ((), t) := h

end

theorem Geom.placed_iff (g : Geom) (t w : Nat) : g.placed t w = true ↔
    (g.place = 0 ∧ t % g.nw = w) ∨ (g.place = 1 ∧ t / ((g.tiles + g.nw - 1) / g.nw) = w) ∨ (g.place = 2 ∧ g.tab.getD (t % 32) 255 = w ∧ w < g.nw) ∨
      3 ≤ g.place := by
  unfold Geom.placed
  split
  · next h => simp [h]
  · next h => simp [h, ceilDiv]
  · next h => simp [h]
  · next h0 h1 h2 =>
    have n0 : g.place ≠ 0 := h0
    have n1 : g.place ≠ 1 := h1
    have n2 : g.place ≠ 2 := h2
    have : 3 ≤ g.place := by omega
    simp [this, n0, n1, n2]

/-! ### The search for a tile (R341, R342) -/

/-- A loop that keeps the numbers whose value is 0. -/
theorem Eng.on_keepZero (f : Nat → Eng Nat) (gs : Nat → Nat) : ∀ (l m : List Nat) (st : Nat → State),
    (∀ n (h : n < l.length), (f l[n]).on (st n) = .ok (gs l[n], st (n + 1))) →
      (l.foldlM (fun (m : List Nat) i => do let v ← f i; pure (if v = 0 then m ++ [i] else m)) m : Eng (List Nat)).on (st 0) =
        .ok (m ++ l.filter (fun i => gs i = 0), st l.length) := by
  intro l
  induction l with
  | nil =>
    intro m st _
    rw [List.foldlM_nil, List.filter_nil, List.append_nil]
    rfl
  | cons x r ih =>
    intro m st h
    have first : (f x).on (st 0) = .ok (gs x, st 1) := h 0 (Nat.succ_pos _)
    have rest := fun m' => ih m' (fun n => st (n + 1)) (fun n hn => h (n + 1) (Nat.succ_lt_succ hn))
    rw [List.foldlM_cons, Eng.on_bind, Eng.on_bind_ok first, Eng.on_pure]
    refine (rest _).trans ?_
    by_cases zero : gs x = 0 <;> simp [zero]

section
variable {b : Sched} {gm : Geom} {ok : Nat → Bool} {t n : Nat} {u : State}

theorem Sched.findTile_skips (other : ok t = false) : (b.findTile gm ok t (n + 1)).on u = (b.findTile gm ok (t + 1) n).on u := by
  rw [Sched.findTile, if_pos (by rw [other]; rfl)]

/-- A tile that is allowed: its free granules, or the search goes on where it has none. -/
theorem Sched.findTile_tile {gs : Nat → Nat} {st : Nat → State} (allowed : ok t = true)
    (read : ∀ i, i < prod ((gm.box t).map Prod.snd) → (b.granule (gm.mapIndex (boxCoords i (gm.box t)))).on (st i) = .ok (gs i, st (i + 1))) :
    (b.findTile gm ok t (n + 1)).on (st 0) =
      if (List.range (prod ((gm.box t).map Prod.snd))).filter (fun i => gs i = 0) = []
        then (b.findTile gm ok (t + 1) n).on (st (prod ((gm.box t).map Prod.snd)))
        else .ok (some (t, (List.range (prod ((gm.box t).map Prod.snd))).filter (fun i => gs i = 0)), st (prod ((gm.box t).map Prod.snd))) := by
  have free := Eng.on_keepZero (fun i => b.granule (gm.mapIndex (boxCoords i (gm.box t)))) gs (List.range (prod ((gm.box t).map Prod.snd))) [] st
    (fun i hi => by
      rw [List.length_range] at hi
      rw [List.getElem_range]
      exact read i hi)
  rw [List.length_range, List.nil_append] at free
  rw [Sched.findTile, if_neg (by rw [allowed]; decide), Eng.on_bind_ok (show (b.freeBits gm t).on (st 0) = _ from free), Eng.on_ite]
  simp only [List.isEmpty_iff]
  rfl

end

/-! ### A hand-out (R342, R343) -/

theorem Sched.switch_stays {b : Sched} {t : State} (h : b.run.getLsbD 47 = false ∨ fieldOf b.run 31 0 < fieldOf b.prog 63 32) :
    b.switch.on t = .ok (b, t) := by
  rw [Sched.switch, if_neg]
  · rfl
  · rintro both
    obtain ⟨pend, reached⟩ := Bool.and_eq_true_iff.1 both
    rcases h with none | more
    · exact absurd (pend.symm.trans none) nofun
    · exact absurd (of_decide_eq_true reached) (Nat.not_le.2 more)

/-- The block with its pending geometry. -/
def Sched.pending (b : Sched) : Sched := { b with geo := b.pgeo, dims := mixDims b.ndim b.dims b.pdims, tab := b.ptab }

/-- The block after a switch of generation. -/
def Sched.switched (b : Sched) : Sched :=
  { b.pending with run := BitVec.ofNat 64 ((b.gen + 1) % 2 ^ 16 * 2 ^ 48), prog := setField b.prog 63 32 0xFFFFFFFF }

section
variable {b : Sched} {t : State} (pend : b.pend = true) (reached : b.lim ≤ b.cur)
include pend reached

theorem Sched.switch_invalid (bad : b.pending.geom.valid b.ndim b.clus = false) : b.switch.on t = .error ⟨.fail 17, none, t⟩ := by
  rw [Sched.switch, if_pos (by rw [pend, decide_eq_true reached]; rfl)]
  exact Eng.on_echeck_fails bad _ _ _

theorem Sched.switch_ok {t1 t2 t3 : State} (ok : b.pending.geom.valid b.ndim b.clus = true)
    (geo : (eWrites b.via (b.at_ + 32) (b.pgeo :: mixDims b.ndim b.dims b.pdims)).on t = .ok ((), t1))
    (tab : (eWrites b.via (b.at_ + 144) b.ptab).on t1 = .ok ((), t2)) (run : WritesRun t2 b (b.gen + 1) false 0 0xFFFFFFFF b.ndone t3) :
    b.switch.on t = .ok (b.switched, t3) := by
  rw [Sched.switch, if_pos (by rw [pend, decide_eq_true reached]; rfl)]
  refine (Eng.on_echeck_bind ok _ _ _).trans ?_
  rw [Eng.on_bind_ok geo, Eng.on_bind_ok tab, Eng.on_bind_ok (Sched.setRun_ok run)]
  rfl

end

theorem Sched.geom_switched (b : Sched) : b.switched.geom = b.pending.geom := by
  simp only [Sched.geom, Sched.ndim, Sched.switched]

/-- A switch leaves NDONE. -/
theorem Sched.ndone_switched (b : Sched) : b.switched.ndone = b.ndone := by
  unfold Sched.ndone Sched.switched
  dsimp only
  simp only [fieldOf, setField, BitVec.toNat_ofNat]
  omega

section
variable {u t t0 : State} {aud : Bool} {w : Via} {a x : W64} {b c : Sched} (read : ReadsSched u w a.toNat b t) (aligned : sx48 (x.toNat % 2 ^ 48) % 128 = 0)
  (valid : b.geom.valid b.ndim b.clus = true) (place : (aud && b.geom.place == 3) = false) (worker : fieldOf x 63 58 < b.geom.nw)
include read aligned valid place worker

theorem itNext_badSwitch {e : Stop} (switch : b.switch.on t = .error e) : (itNext aud w a x).on u = .error e := by
  unfold itNext
  rw [Eng.on_bind_ok (readSched_ok read)]
  dsimp only
  rw [Eng.on_echeck_bind (beq_iff_eq.2 aligned), Eng.on_echeck_bind (by rw [valid, place]; rfl),
    Eng.on_echeck_bind (decide_eq_true worker), Eng.on_bind, switch]

section
variable (switch : b.switch.on t = .ok (c, t0)) (place' : (aud && c.geom.place == 3) = false)
include switch place'

theorem itNext_done (done : c.ndone = c.geom.total) : (itNext aud w a x).on u = .ok (0x8000000000000002, t0) := by
  unfold itNext
  rw [Eng.on_bind_ok (readSched_ok read)]
  dsimp only
  rw [Eng.on_echeck_bind (beq_iff_eq.2 aligned), Eng.on_echeck_bind (by rw [valid, place]; rfl), Eng.on_echeck_bind (decide_eq_true worker),
    Eng.on_bind_ok switch, Eng.on_echeck_bind (by rw [place']; rfl), if_pos done]
  rfl

/-- While granules are left, the search among the worker's tiles decides. -/
theorem itNext_search (more : c.ndone ≠ c.geom.total) {o : Option (Nat × List Nat)} {z : State}
    (search : (c.findTile c.geom (fun t => c.geom.placed t (fieldOf x 63 58)) c.cur ((if c.pend then min c.lim c.geom.tiles else c.geom.tiles) - c.cur)).on t0 =
      .ok (o, z)) :
    (o = none → (itNext aud w a x).on u = .ok (0x8000000000000001, z)) ∧
    (∀ ti bits, o = some (ti, bits) → (itNext aud w a x).on u = (do
      eFor bits (fun i => c.setGranule (c.geom.mapIndex (boxCoords i (c.geom.box ti))) 1)
      eWrites w (sx48 (x.toNat % 2 ^ 48)) (tileRecord c.geom c.gen ti bits)
      let nxt ← c.findTile c.geom (fun _ => true) c.cur (c.geom.tiles - c.cur)
      c.setRun c.gen c.pend (match nxt with | some (u, _) => u | none => c.geom.tiles) c.lim c.ndone
      pure (BitVec.ofNat 64 (c.gen * 2 ^ 32 + ti)) : Eng W64).on z) := by
  unfold itNext
  rw [Eng.on_bind_ok (readSched_ok read)]
  dsimp only
  rw [Eng.on_echeck_bind (beq_iff_eq.2 aligned), Eng.on_echeck_bind (by rw [valid, place]; rfl), Eng.on_echeck_bind (decide_eq_true worker),
    Eng.on_bind_ok switch, Eng.on_echeck_bind (by rw [place']; rfl), if_neg more, Eng.on_bind_ok search]
  constructor
  · rintro rfl
    rfl
  · rintro ti bits rfl
    rfl

end

end

/-! ### A pending geometry (R344) -/

section
variable {u t : State} {aud : Bool} {w : Via} {a x : W64} {b : Sched} (read : ReadsSched u w a.toNat b t) (canon : canonical x.toNat = true)
  (aligned : x.toNat % 8 = 0)
include read canon aligned

theorem schw_fixed (fixed : b.ctrl.getLsbD 63 = true) : (schw aud w a x).on u = .error ⟨.fail 6, none, t⟩ := by
  unfold schw
  rw [Eng.on_bind_ok (readSched_ok read), Eng.on_echeck_bind (by rw [canon, aligned]; rfl), Eng.on_echeck_fails (by rw [fixed]; rfl)]

theorem schw_ok {ws : List W64} {t1 t2 t3 t4 : State} (free : b.ctrl.getLsbD 63 = false) (plain : aud = false) (valid : b.geom.valid b.ndim b.clus = true)
    (words : (eReads w x.toNat 11).on t = .ok (ws, t1))
    (valid' : (geomOf b.ndim (wordAt ws 0) (mixDims b.ndim b.dims ((ws.drop 1).take 6)) ((ws.drop 7).take 4)).valid b.ndim b.clus = true)
    (geo : (eWrites w (b.at_ + 88) (wordAt ws 0 :: (ws.drop 1).take 6)).on t1 = .ok ((), t2))
    (tab : (eWrites w (b.at_ + 176) ((ws.drop 7).take 4)).on t2 = .ok ((), t3))
    (run : if b.pend then t4 = t3 else WritesRun t3 b b.gen true b.cur
      (if b.cur = b.geom.tiles then b.geom.tiles else (b.cur / (b.geom.tiles / b.geom.top) + 1) * (b.geom.tiles / b.geom.top)) b.ndone t4) :
    (schw aud w a x).on u = .ok ((), t4) := by
  unfold schw
  rw [Eng.on_bind_ok (readSched_ok read), Eng.on_echeck_bind (by rw [canon, aligned]; rfl), Eng.on_echeck_bind (by rw [free, plain]; rfl),
    Eng.on_echeck_bind valid, Eng.on_bind_ok words]
  dsimp only
  rw [Eng.on_echeck_bind valid', Eng.on_bind_ok geo, Eng.on_bind_ok tab]
  split at run
  · next pend =>
    rw [if_pos pend, run]
    rfl
  · next none =>
    rw [if_neg none]
    exact Sched.setRun_ok run

end

/-! ### Completion and yield (R346) -/

/-- The end of a tile's granules (R346): each is handed out, and becomes complete or free; the record and the block follow. -/
theorem itEnd_ok {u t t1 t2 : State} {w : Via} {yield : Bool} {a x : W64} {b : Sched} {ws : List W64} {st su : Nat → State} {n : Nat}
    {box : List (Nat × Nat)} {set : W64} {bits : List Nat} {cs : List (List Nat)} (read : ReadsSched u w a.toNat b t)
    (aligned : sx48 (x.toNat % 2 ^ 48) % 128 = 0) (words : (eReads w (sx48 (x.toNat % 2 ^ 48)) 9).on t = .ok (ws, st 0)) (hbox : recBox b.geom ws = box)
    (hn : prod (box.map Prod.snd) = n) (hset : (if yield then wordAt ws 0 &&& wordAt ws 1 else wordAt ws 0) = set)
    (hbits : (List.range 64).filter (fun i => set.getLsbD i) = bits)
    (hcs : bits.map (fun i => boxCoords i ((b.geom.dims.zip box).map (fun p => (p.2.1 / p.1.gran, p.2.2)))) = cs)
    (low : 64 ≤ n ∨ ((wordAt ws 0).toNat < 2 ^ n ∧ (yield = true → (wordAt ws 1).toNat < 2 ^ n)))
    (fits : bits = [] ∨ ∀ p ∈ b.geom.dims.zip box, p.2.1 % p.1.gran = 0 ∧ p.2.1 / p.1.gran + p.2.2 ≤ (p.1.ext + p.1.gran - 1) / p.1.gran)
    (held : ∀ i (h : i < cs.length), (b.granule (b.geom.mapIndex cs[i])).on (st i) = .ok (1, st (i + 1))) (again : su 0 = st cs.length)
    (set_ : ∀ i (h : i < cs.length), (b.setGranule (b.geom.mapIndex cs[i]) (if yield then 0 else 2)).on (su i) = .ok ((), su (i + 1)))
    (rec_ : if yield then (eWrites w (sx48 (x.toNat % 2 ^ 48)) [wordAt ws 0 &&& ~~~wordAt ws 1, 0]).on (su cs.length) = .ok ((), t1)
      else (eWrite w (sx48 (x.toNat % 2 ^ 48)) 0).on (su cs.length) = .ok ((), t1))
    (run : if bits = [] then t2 = t1 else if yield then WritesRun t1 b b.gen b.pend (cs.foldl (fun m c => min m (b.geom.tileOf c)) b.cur) b.lim b.ndone t2
      else WritesRun t1 b b.gen b.pend b.cur b.lim (b.ndone + bits.length) t2) : (itEnd w yield a x).on u = .ok ((), t2) := by
  have checks := Eng.on_eFor (fun c => do
      let v ← b.granule (b.geom.mapIndex c)
      echeck (v == 1) 18) cs st (fun i hi => by rw [Eng.on_bind_ok (held i hi)]; rfl)
  have sets := Eng.on_eFor (fun c => b.setGranule (b.geom.mapIndex c) (if yield then 0 else 2)) cs su set_
  rw [again] at sets
  have last (cur ndone : Nat) (h : if bits = [] then t2 = t1 else WritesRun t1 b b.gen b.pend cur b.lim ndone t2) :
      (if bits.isEmpty then pure () else b.setRun b.gen b.pend cur b.lim ndone : Eng Unit).on t1 = .ok ((), t2) := by
    simp only [List.isEmpty_iff]
    split at h
    · next none =>
      rw [if_pos none, h]
      rfl
    · next some =>
      rw [if_neg some]
      exact Sched.setRun_ok h
  unfold itEnd
  rw [Eng.on_bind_ok (readSched_ok read)]
  dsimp only
  rw [Eng.on_echeck_bind (beq_iff_eq.2 aligned), Eng.on_bind_ok words, hbox, hn, Eng.on_echeck_bind, hset, hbits, hcs, Eng.on_echeck_bind,
    Eng.on_bind_ok checks, Eng.on_bind_ok sets]
  · cases yield with
    | true =>
      rw [if_pos rfl] at rec_
      rw [if_pos rfl, Eng.on_bind_ok rec_]
      exact last _ _ (by simpa using run)
    | false =>
      rw [if_neg Bool.false_ne_true] at rec_
      rw [if_neg Bool.false_ne_true, Eng.on_bind_ok rec_]
      exact last _ _ (by simpa using run)
  · rcases fits with none | fits
    · rw [none]
      rfl
    · rw [Bool.or_eq_true, List.all_eq_true]
      refine .inr (fun p hp => ?_)
      obtain ⟨start, end_⟩ := fits p hp
      rw [beq_iff_eq.2 start, Bool.true_and]
      exact decide_eq_true end_
  · rcases low with all | ⟨mask, ym⟩
    · rw [decide_eq_true all]
      cases yield <;> rfl
    · rw [decide_eq_true mask, Bool.or_true, Bool.true_and]
      cases yield with
      | true => rw [decide_eq_true (ym rfl), Bool.or_true, Bool.or_true]
      | false => rfl

end Sys2Proof.Machine

/-! ## Schedule walkers: their commands at their turn -/

namespace Sys2Proof.Machine

set_option Elab.async false

section
variable {aud : Bool} {v : Via} {q : SqCmd} {u : State}

theorem walkRun_itnext (op : q.op = 22) : (walkRun aud v q).on u = (itNext aud v q.a q.b >>= fun x => pure (some x)).on u := by
  unfold walkRun
  rw [op]
  rfl

theorem walkRun_itend (op : q.op = 23 ∨ q.op = 24) : (walkRun aud v q).on u = (itEnd v (q.op == 24) q.a q.b >>= fun _ => pure none).on u := by
  unfold walkRun
  rcases op with op | op <;> rw [op] <;> rfl

theorem walkRun_schw (op : q.op = 25) : (walkRun aud v q).on u = (schw aud v q.a q.b >>= fun _ => pure none).on u := by
  unfold walkRun
  rw [op]
  rfl

end

/-- R337, R341, R342, R344 and R346: the commands of a walker do what the statement gives. -/
theorem walkerWrites : WalkerWrites := by
  unfold WalkerWrites
  refine ⟨fun b u g v w t => ⟨Sched.granule_ok, id⟩, Geom.placed_iff, fun b gm ok t n u => ⟨rfl, Sched.findTile_skips, ?find⟩, fun u aud v q b t read => ?run⟩
  case find =>
    intro gs st allowed start size granules free
    subst start
    exact Sched.findTile_tile allowed granules
  case run =>
    have via : b.via = v := by
      obtain ⟨ws, -, -, -, rfl, -⟩ := read
      rfl
    intro runs rec_ ndim clus gen pend cur lim ndone
    refine ⟨fun op aligned valid place worker => ⟨fun stay => ?stays, ?switches⟩, ?pending, ?fixed, ?end_⟩
    case stays =>
      have run := walkRun_itnext (aud := aud) (v := v) (u := u) op
      have switch : b.switch.on t = .ok (b, t) := Sched.switch_stays stay
      intro gm e
      refine ⟨fun done => ?_, fun z more search => ?_, ?_⟩
      · exact run.trans (Eng.on_bind_ok (itNext_done read aligned valid place worker switch place done) _)
      · exact run.trans (Eng.on_bind_ok ((itNext_search read aligned valid place worker switch place more search).1 rfl) _)
      · intro ti bits st t1 nxt t2 t3 more search set dims record next write
        have hands := (itNext_search read aligned valid place worker switch place more search).2 ti bits rfl
        refine run.trans (Eng.on_bind_ok (hands.trans ?_) _)
        rw [Eng.on_bind_ok (Eng.on_eFor _ bits st set)]
        refine (Eng.on_bind_ok record _).trans ((Eng.on_bind_ok next _).trans ?_)
        exact Eng.on_bind_ok (Sched.setRun_ok write) _
    case switches =>
      have run := walkRun_itnext (aud := aud) (v := v) (u := u) op
      intro t1 t2 t3 due reached dims b'
      refine ⟨fun bad => ⟨⟨.fail 17, none, t⟩, ?_, rfl⟩, fun ok geo tab write => ?_⟩
      · rw [run, Eng.on_bind, itNext_badSwitch read aligned valid place worker (Sched.switch_invalid due reached bad)]
      · subst via
        have switch : b.switch.on t = .ok (b.switched, t3) := Sched.switch_ok due reached ok geo tab write
        refine ⟨switch, fun place' done => ?_⟩
        have all : b.switched.ndone = b.switched.geom.total := by
          rw [b.geom_switched, b.ndone_switched]
          exact done
        have free : (aud && b.switched.geom.place == 3) = false := by
          rw [b.geom_switched]
          exact place'
        exact run.trans (Eng.on_bind_ok (itNext_done read aligned valid place worker switch free all) _)
    case pending =>
      intro ws t1 t2 t3 t4 op canon aligned free plain valid words valid' geo tab inner write
      exact (walkRun_schw op).trans (Eng.on_bind_ok (schw_ok read canon aligned free plain valid words valid' geo tab write) _)
    case fixed =>
      intro fixed op canon aligned
      exact ⟨_, by rw [walkRun_schw op, Eng.on_bind, schw_fixed read canon aligned fixed], rfl⟩
    case end_ =>
      intro ws st su t1 t2 op aligned words gm mask ym box n set bits cs low fits held again sets record write
      have yield : ((q.op == 24) = true) = (q.op = 24) := propext beq_iff_eq
      refine (walkRun_itend op).trans (Eng.on_bind_ok
        (itEnd_ok (box := box) (n := n) (set := set) (bits := bits) (cs := cs) (t1 := t1) read aligned words rfl rfl ?_
        rfl rfl ?_ fits held again ?_ ?_ ?_) _)
      all_goals simp only [yield]
      · rfl
      · exact low
      · exact sets
      · exact record
      · exact write

end Sys2Proof.Machine

/-! ## Sequence engines: pools, turns, samplers, squashes and walkers (11_kvblocks.md R253, R261, R267 and their kin) -/

namespace Sys2Proof.Machine

set_option Elab.async false

/-! ### Pools (R253) -/

theorem poolRegister_present {s t : State} {r : PoolRef} (off : (s.poolAt r).en = false) (fits : poolOk s r = true)
    (present : presentAll r.die (s.poolAt r).asid (s.poolAt r).pages s = (some true, t)) :
    poolRegister s r = t.modPool r (fun p => { p with en := true, free := p.nblk, quar := 0 }) := by
  rw [poolRegister, if_neg (by rw [off]; decide), if_pos fits, present]

theorem poolRegister_absent {s t : State} {r : PoolRef} (off : (s.poolAt r).en = false) (fits : poolOk s r = true)
    (absent : presentAll r.die (s.poolAt r).asid (s.poolAt r).pages s = (some false, t)) :
    poolRegister s r = t.modPool r (fun p => { p with code := 9, eaddr := 0 }) := by
  rw [poolRegister, if_neg (by rw [off]; decide), if_pos fits, absent]

theorem poolRegister_refused {s : State} {r : PoolRef} (off : (s.poolAt r).en = false) (bad : poolOk s r = false) :
    poolRegister s r = s.modPool r (fun p => { p with code := 9, eaddr := 0 }) := by
  rw [poolRegister, if_neg (by rw [off]; decide), if_neg (by rw [bad]; decide)]

theorem poolDeregister_eq {s : State} {r : PoolRef} (on : (s.poolAt r).en = true) : poolDeregister s r =
    if (s.poolAt r).free = (s.poolAt r).nblk then s.modPool r (fun p => { p with en := false })
      else s.modPool r (fun p => { p with code := 9, eaddr := 0 }) := by
  unfold poolDeregister
  dsimp only
  rw [if_neg (by rw [on]; decide)]

/-! ### Turns (R261, R302) -/

theorem aniseCommandTurn_squash {s : State} {die k : Nat} {q : SqCmd} (at_ : s.anise[k]? = some q) (op : q.op = 15) :
    aniseCommandTurn s die k = squashTurn s die k := by
  unfold aniseCommandTurn
  rw [at_]
  dsimp only
  rw [if_pos op]

section
variable {s : State} {die k : Nat} {q : SqCmd} (at_ : s.anise[k]? = some q)
  (may : mayTurn s s.anise k (fun o => aniseDie s o == die) (aniseConflict s) = true)
include at_ may

theorem aniseCommandTurn_eq (op : q.op ≠ 15) : aniseCommandTurn s die k = aniseTurn (s.takeUp (.anise die) q) q die := by
  unfold aniseCommandTurn
  rw [at_]
  dsimp only
  rw [if_neg op, if_pos may]

theorem squashTurn_ok {w : State} (op : q.op = 15) (run : (squashRun (s.takeUp (.anise die) q) q die).on (s.takeUp (.anise die) q) = .ok ((), w)) :
    squashTurn s die k = squashAll (w.dropAnise q) q := by
  unfold squashTurn
  rw [at_]
  dsimp only
  rw [if_neg (by rw [op, may]; decide), run]

end

theorem aniseTurn_replies {u w : State} {q : SqCmd} {die : Nat} {v : W64} (run : (aniseRun u q die).on u = .ok (some v, w)) :
    aniseTurn u q die = giveReply (w.dropAnise q) (.anise die) q v := by
  rw [aniseTurn, run]

theorem aniseTurn_retires {u w : State} {q : SqCmd} {die : Nat} (run : (aniseRun u q die).on u = .ok (none, w)) :
    aniseTurn u q die = retireCmd (w.dropAnise q) (.anise die) q := by
  rw [aniseTurn, run]

theorem aniseTurn_fails {u : State} {q : SqCmd} {die code : Nat} {e : Stop} (run : (aniseRun u q die).on u = .error e) (fail : e.halt = .fail code) :
    aniseTurn u q die = aniseEnd (u.after (.anise die) e) q die code := by
  rw [aniseTurn, run]
  dsimp only
  rw [fail]
  rfl

/-- A block whose packets have retired becomes free (R267). -/
theorem quarExit_ok {s u : State} {die k : Nat} {z : Quar} (at_ : (s.die die).quars[k]? = some z) (fault : z.fault = false) (stuck : z.stuck = false)
    (retired : ∀ w ∈ z.waits, w ∉ s.acceptedPackets)
    (write : (eWrite (poolVia ⟨die, z.pool⟩ (s.poolAt ⟨die, z.pool⟩) true) ((s.poolAt ⟨die, z.pool⟩).metaAt z.addr) 0).on s = .ok ((), u)) :
    quarExit s die k = (u.modPool ⟨die, z.pool⟩ (fun p => { p with free := p.free + 1, quar := p.quar - 1 })).modDie die
      (fun d => { d with quars := d.quars.eraseIdx k }) := by
  have none : z.waits.any (fun w => s.acceptedPackets.contains w) = false := by
    rw [List.any_eq_false]
    exact fun w hw h => retired w hw (List.contains_iff_mem.1 h)
  unfold quarExit
  rw [at_]
  dsimp only
  rw [if_neg (by rw [fault, stuck, none]; decide), write]

/-! ### Clove and the samplers (R281, R284, R293) -/

theorem cloveTurn_eq {s : State} {g k : Nat} {q : SqCmd} (at_ : (s.core g).clove[k]? = some q) (may : cloveMay s g k = true) :
    cloveTurn s g k = cloveStart (s.takeUp (.clove g) q) g q := by
  unfold cloveTurn
  rw [at_]
  dsimp only
  rw [if_pos may]

theorem cloveStart_retires {u w : State} {g : Nat} {q : SqCmd} {l : List W64} (op : q.op ≠ 18) (run : (cloveRun u q g).on u = .ok (l, w)) :
    cloveStart u g q = retireCmd (w.dropClove g q) (.clove g) q := by
  rw [cloveStart, run]
  dsimp only
  rw [if_neg op]

theorem cloveStart_masks {u w : State} {g : Nat} {q : SqCmd} {l : List W64} (op : q.op = 18) (run : (cloveRun u q g).on u = .ok (l, w)) :
    cloveStart u g q = w.modCore g (fun y => { y with clove := y.clove.map (fun x =>
      if x.serial = q.serial then { x with out := maskWords q.b.toNat l, phase := 1, place := ((maskWords q.b.toNat l).length, 0) } else x) }) := by
  rw [cloveStart, run]
  dsimp only
  rw [if_pos op]

theorem State.modWho_bound {s : State} {tid rank c : Nat} {f : Context → Context} (h : s.whereIs tid rank = some c) :
    s.modWho tid rank f = s.modCtx c f := by
  rw [State.modWho, h]

/-- The head command of a sampler completes in its last busy cycle. -/
theorem sampComplete_eq {s : State} {g c : Nat} {q : SampCmd} {r : List SampCmd} (head : (s.core g).samp = q :: r) (last : q.left = some 1)
    (bound : s.whereIs q.tid q.rank = some c) : sampComplete s g = ((s.modCore g (fun y => { y with samp := y.samp.drop 1 })).modCtx c (fun x =>
      { x with
        cand := q.effect x.cand
        rq := match q.value x.cand with
          | some v => x.rq.map (fun e => if e.seq = q.serial then { e with arrived := true, val := v } else e)
          | none => x.rq })).modCore g (fun y => { y with samp := y.samp.map (fun q => { q with fresh := true }) }) := by
  unfold sampComplete
  rw [head]
  dsimp only
  rw [if_pos last, sampDone, State.modWho_bound ((State.whereIs_modCore ..).trans bound)] <;> rfl

/-! ### Squashes and walkers (R306, R350) -/

theorem squashTokenDone_ok {s : State} {k : Nat} {q : Squash} (at_ : s.squashes[k]? = some q) (none : q.waits = []) (done : cancelsDone s q = true) :
    squashTokenDone s k = retireCmd (({ s with squashes := s.squashes.eraseIdx k } : State).raise (.anise (aniseDie s q.cmd)) 0)
      (.anise (aniseDie s q.cmd)) q.cmd := by
  unfold squashTokenDone
  rw [at_]
  dsimp only
  rw [none, done]
  exact if_pos rfl

/-- A command whose home walker is known is performed there, after the issuing cluster's walker has read CTRL. -/
theorem walkTurn_home {s t : State} {q : SqCmd} {cl : Nat} {x : W64} (home : walkHome s q = .walker cl)
    (read : (eRead (walkVia (clusterOf q.core) q) q.a.toNat).on (s.takeUp (.walker (clusterOf q.core)) q) = .ok (x, t)) :
    (∀ w, (walkRun ((t.takeUp (.walker cl) q).audited q.tid) (walkVia cl q) q).on (t.takeUp (.walker cl) q) = .ok (none, w) →
      walkTurn s q = retireCmd (w.dropWalk q) (.walker cl) q) ∧
    (∀ v w, (walkRun ((t.takeUp (.walker cl) q).audited q.tid) (walkVia cl q) q).on (t.takeUp (.walker cl) q) = .ok (some v, w) →
      walkTurn s q = giveReply (w.dropWalk q) (.walker cl) q v) := by
  have reached : ¬ (!canonical q.a.toNat || q.a.toNat % 256 != 0) = true := by
    intro bad
    rw [walkHome, if_pos bad] at home
    exact nomatch home
  unfold walkTurn
  rw [home]
  dsimp only
  rw [if_neg reached, read]
  constructor
  · intro w run
    dsimp only
    rw [run]
  · intro v w run
    dsimp only
    rw [run]

theorem walkerCommandStart_eq {s : State} {cl k : Nat} {q : SqCmd} (at_ : s.walks[k]? = some q)
    (may : mayTurn s s.walks k (fun o => walkCluster s o == cl) walkConflict = true) : walkerCommandStart s cl k = walkTurn s q := by
  unfold walkerCommandStart
  rw [at_]
  dsimp only
  rw [if_pos may]

/-- Settles O51: what the commands of the block engine, the grammar engine and the walkers do goes step by step through their accesses (`blockOps`,
`aniseWrites`, `stackOps`, `cloveWrites`, `walkerWrites`); a turn, a pool's registration and a retirement are one case of their definitions each. -/
theorem sequenceEngineSteps : Obligations.SequenceEngineSteps := by
  unfold Obligations.SequenceEngineSteps
  refine ⟨blockOps, aniseWrites, stackOps, cloveWrites, walkerWrites, fun s die k hdie => ⟨fun n hn => ?pool,
    fun q at_ may => ?anise, ?quar, fun g q at_ may => ?clove,
    ?samp, ?squash, fun q cl at_ may home => ?walk⟩⟩
  case pool =>
    intro r p config
    have register : exec (.poolRegister die n) s = stepDone (poolRegister s r) := congrArg stepDone (if_pos ⟨hdie, hn⟩)
    have deregister : exec (.poolDeregister die n) s = stepDone (poolDeregister s r) := congrArg stepDone (if_pos ⟨hdie, hn⟩)
    rw [register, deregister]
    refine ⟨fun off fits t present => congrArg stepDone (poolRegister_present off fits present), fun off fits t absent =>
      congrArg stepDone (poolRegister_absent off fits absent), fun off bad => congrArg stepDone (poolRegister_refused off bad),
        fun on all => ?_, fun on some_ => ?_⟩
    · exact congrArg stepDone ((poolDeregister_eq on).trans (if_pos all))
    · exact congrArg stepDone ((poolDeregister_eq on).trans (if_neg some_))
  case anise =>
    intro u
    refine ⟨fun op => ⟨fun v w run => ?_, fun w run => ?_, fun code e run fail => ?_⟩, fun op w run => ⟨?_, ?_⟩⟩
    · exact congrArg stepDone ((aniseCommandTurn_eq at_ may op).trans (aniseTurn_replies run))
    · exact congrArg stepDone ((aniseCommandTurn_eq at_ may op).trans (aniseTurn_retires run))
    · exact congrArg stepDone ((aniseCommandTurn_eq at_ may op).trans (aniseTurn_fails run fail))
    · exact congrArg stepDone (squashTurn_ok at_ may op run)
    · exact congrArg stepDone (aniseCommandTurn_squash at_ op)
  case quar => exact fun z u at_ fault stuck retired write => congrArg stepDone (quarExit_ok at_ fault stuck retired write)
  case clove =>
    intro u
    refine ⟨fun l w op run => ?_, fun l w op run => ?_⟩
    · exact congrArg stepDone ((cloveTurn_eq at_ may).trans (cloveStart_retires op run))
    · exact congrArg stepDone ((cloveTurn_eq at_ may).trans (cloveStart_masks op run))
  case samp =>
    intro g q r c head last bound
    refine ⟨_, congrArg stepDone (sampComplete_eq head last bound), ?_, ?_, fun v value y hy seq => ?_⟩
    · simp [head]
    · simp
    · simp only [State.parts_modCore, State.ctx_modCtx_same, value, List.mem_map] at hy
      obtain ⟨e, -, rfl⟩ := hy
      split at seq
      · next h => simp [h]
      · next h => exact absurd seq h
  case squash =>
    intro q at_ none done ag u
    refine ⟨congrArg stepDone (squashTokenDone_ok at_ none done), fun c bound => ?_⟩
    have same : (({ s with squashes := s.squashes.eraseIdx k } : State).raise ag 0) = { s with squashes := s.squashes.eraseIdx k } := if_pos (Nat.zero_le _)
    exact State.retireTok_tok (by rw [same]; exact bound) _ _
  case walk =>
    intro first x t read u
    obtain ⟨retires, replies⟩ := walkTurn_home home read
    exact ⟨fun w run => congrArg stepDone ((walkerCommandStart_eq at_ may).trans (retires w run)),
      fun v w run => congrArg stepDone ((walkerCommandStart_eq at_ may).trans (replies v w run))⟩

end Sys2Proof.Machine

/-! ## Work that leaves the contexts in their places (17_reliability.md R380, 14_dispatch.md R330)

What a step has begun is settled after it: unwinds, kills, writes of the dispatch hardware. Most of that is accesses to memory and notes in the dies; such
work leaves the tasks and the frames as they are, and every entry of the context table where it is, whether the table is in canonical form or not. -/

namespace Sys2Proof.Machine

set_option Elab.async false

/-- Where an entry of the context table stands: its number, whether a task is bound to it, which, and the refused address that it is to take (R369). -/
def holderOf (p : Nat × Context) : Nat × Bool × Nat × Option Nat := (p.1, p.2.st != .unbound, p.2.tid, p.2.refused)

/-- The core table still lists core 0 with its reset values, as only a table that no write has reached can (a write leaves no entry at its default). -/
def State.ListsReset (s : State) : Prop := (0, Core.init) ∈ s.cores

/-- Work that leaves the tasks, the frames and the holders of the context table as they are. -/
structure State.Quiet (s t : State) : Prop where
  holders : t.ctxs.map holderOf = s.ctxs.map holderOf
  frames : t.frames = s.frames
  tasks : t.tasks = s.tasks
  cores : t.ListsReset → s.ListsReset

namespace State.Quiet

theorem refl (s : State) : s.Quiet s := ⟨rfl, rfl, rfl, id⟩

variable {s₀ s : State} (h : s₀.Quiet s)
include h

theorem trans {t : State} (k : s.Quiet t) : s₀.Quiet t :=
  ⟨k.holders.trans h.holders, k.frames.trans h.frames, k.tasks.trans h.tasks, h.cores ∘ k.cores⟩

/-- A state with the contexts, frames, tasks and cores of the one reached. -/
theorem same {t : State} (hc : t.ctxs = s.ctxs := by rfl) (hf : t.frames = s.frames := by rfl) (ht : t.tasks = s.tasks := by rfl)
    (hg : t.cores = s.cores := by rfl) : s₀.Quiet t :=
  h.trans ⟨by rw [hc], hf, ht, by rw [ListsReset, hg]; exact id⟩

omit h in
theorem ite {p : Prop} [Decidable p] {t u : State} (ht : s₀.Quiet t) (hu : s₀.Quiet u) : s₀.Quiet (if p then t else u) := by
  split
  · exact ht
  · exact hu

theorem foldl {α : Type} {f : State → α → State} {l : List α} (hf : ∀ (t : State) (x : α), s₀.Quiet t → s₀.Quiet (f t x)) :
    s₀.Quiet (l.foldl f s) := by
  induction l generalizing s with
  | nil => exact h
  | cons x r ih => exact ih (hf s x h)

theorem foldr {α : Type} {f : α → State → State} {l : List α} (hf : ∀ (x : α) (t : State), s₀.Quiet t → s₀.Quiet (f x t)) :
    s₀.Quiet (l.foldr f s) := by
  induction l with
  | nil => exact h
  | cons x r ih => exact hf x _ ih

end State.Quiet

/-! ### Accesses to memory -/

/-- A write of the core table adds no entry at its reset values. -/
theorem State.ListsReset.of_setCore {s : State} {g : Nat} {x : Core} (h : (s.setCore g x).ListsReset) : s.ListsReset := by
  unfold ListsReset setCore SMap.set at h
  dsimp only at h
  split at h
  · exact SMap.mem_del h
  · next changed =>
    rcases SMap.mem_put h with e | e
    · exact absurd (congrArg Prod.snd e).symm changed
    · exact SMap.mem_del e

section
variable {s₀ s : State} (h : s₀.Quiet s)
include h

theorem State.modCore_quiet {g : Nat} {f : Core → Core} : s₀.Quiet (s.modCore g f) := h.trans ⟨rfl, rfl, rfl, State.ListsReset.of_setCore⟩

theorem State.setPts_quiet {a : Agent} {t : Nat} : s₀.Quiet (s.setPts a t) := by
  cases a with
  | core | clove => exact State.modCore_quiet h (f := fun x => { x with pts := tick64 t })
  | _ => exact h.same

theorem State.raise_quiet {a : Agent} {t : Nat} : s₀.Quiet (s.raise a t) := .ite h (State.setPts_quiet h)

theorem State.writeN_quiet {pa n v : Nat} : s₀.Quiet (s.writeN pa n v) := by
  induction n generalizing s pa v with
  | zero => exact h
  | succ n ih => exact ih h.same

theorem State.clearBad_quiet {pa n : Nat} : s₀.Quiet (s.clearBad pa n) := h.foldl (fun _ _ h => .ite h.same h)

theorem State.refreshL1_quiet {a : Agent} {line : Nat} : s₀.Quiet (s.refreshL1 a line) := by
  cases a with
  | core g => exact .ite (State.modCore_quiet h) h
  | _ => exact h

/-- A store that meets a watch leaves its context bound as it was. -/
theorem State.wake_quiet {line : Nat} : s₀.Quiet (s.wake line) := by
  refine h.trans ⟨?_, rfl, rfl, id⟩
  simp only [State.wake, List.map_map]
  refine List.map_congr_left fun p _ => ?_
  simp only [Function.comp_apply, holderOf]
  split
  · split
    · next blocked => rw [blocked]; rfl
    · rfl
  · rfl

theorem State.storePhys_quiet {a : Agent} {pa n v : Nat} : s₀.Quiet (s.storePhys a pa n v) :=
  State.wake_quiet (State.refreshL1_quiet (State.setPts_quiet (State.clearBad_quiet (State.writeN_quiet h)).same))

theorem State.loadHome_quiet {a : Agent} {pa lease : Nat} : s₀.Quiet (s.loadHome a pa lease) := State.setPts_quiet h.same

/-- A read that bypasses the L1, as the engines read. -/
theorem State.loadPhys_quiet {a : Agent} {pa n : Nat} : s₀.Quiet (s.loadPhys a pa n true).2.2 := by
  have home : (s.loadPhys a pa n true).2.2 = s.loadHome a pa 1 := by cases a <;> rfl
  rw [home]
  exact State.loadHome_quiet h

theorem State.readAll_quiet {a : Agent} {l : List Nat} : s₀.Quiet (s.readAll a l) := h.foldl (fun _ _ h => State.loadHome_quiet h)

/-! ### Translation -/

theorem walkTr_quiet {d : Nat} {a : Agent} {asid va : Nat} {acc : Acc} {k : Bool} : s₀.Quiet ((walkTr s d a asid va acc k).state s) := by
  have read {l : List Nat} : s₀.Quiet (s.readAll a l) := State.readAll_quiet h
  unfold walkTr
  dsimp only
  split
  · exact h
  split
  · exact h
  split
  · exact read
  split
  · exact read
  · exact read
  · split
    · exact read
    · exact State.Quiet.same (.ite read (State.storePhys_quiet read))

theorem translate_quiet {d : Nat} {a : Agent} {asid va : Nat} {acc : Acc} {k : Bool} : s₀.Quiet ((translate s d a asid va acc k).state s) := by
  unfold translate
  split
  · exact h
  split
  · split
    · exact h
    · exact walkTr_quiet h
  · exact walkTr_quiet h

end

end Sys2Proof.Machine

/-! ## Work that leaves the contexts in their places: the steps of an engine and of the dispatch hardware -/

namespace Sys2Proof.Machine

set_option Elab.async false

/-! ### The steps of a command -/

/-- A step of a command that goes through leaves the contexts in their places. -/
def Eng.IsQuiet {α : Type} (m : Eng α) : Prop := ∀ s x, m.on s = .ok x → s.Quiet x.2

namespace Eng.IsQuiet

variable {α β : Type} {m : Eng α}

theorem on {s₀ s : State} {x : α × State} (hm : m.IsQuiet) (h : s₀.Quiet s) (e : m.on s = .ok x) : s₀.Quiet x.2 := h.trans (hm s x e)

theorem pure {a : α} : (pure a : Eng α).IsQuiet := fun s _ e => Except.ok.inj e ▸ .refl s

theorem bind {f : α → Eng β} (hm : m.IsQuiet) (hf : ∀ a, (f a).IsQuiet) : (m >>= f).IsQuiet := by
  intro s x e
  rw [Eng.on_bind] at e
  cases hr : m.on s with
  | error _ => exact absurd (hr ▸ e) nofun
  | ok y => exact (hm s y hr).trans (hf y.1 y.2 x (by simpa only [hr] using e))

theorem ite {p : Prop} [Decidable p] {k : Eng α} (hm : m.IsQuiet) (hk : k.IsQuiet) : (if p then m else k).IsQuiet := by
  split
  · exact hm
  · exact hk

/-- A step that always goes through. -/
theorem step {f : State → α} {g : State → State} (hg : ∀ s : State, s.Quiet (g s)) : Eng.IsQuiet (fun s => .ok (f s, g s)) :=
  fun s _ e => Except.ok.inj e ▸ hg s

/-- A step that never does. -/
theorem error {f : State → Stop} : Eng.IsQuiet (α := α) (fun s => .error (f s)) := fun _ _ e => nomatch e

end Eng.IsQuiet

theorem eTrans_isQuiet {w : Via} {va : Nat} {acc : Acc} : (eTrans w va acc).IsQuiet := by
  intro s x e
  have reached := translate_quiet (.refl s) (d := w.die) (a := w.agent) (asid := w.asid) (va := va) (acc := acc) (k := w.k)
  have now : eTrans w va acc s = .ok x := e
  unfold eTrans at now
  split at now
  · exact nomatch now
  · exact nomatch now
  · exact nomatch now
  · next ht =>
    rw [ht] at reached
    split at now
    · cases now
      exact reached
    · exact nomatch now

theorem echeck_isQuiet {b : Bool} {code : Nat} : (echeck b code).IsQuiet := by
  intro s x e
  have now : echeck b code s = .ok x := e
  unfold echeck at now
  split at now
  · cases now
    exact .refl s
  · exact nomatch now

theorem ePool_isQuiet {r : PoolRef} : (ePool r).IsQuiet := .step (fun s => .refl s)

theorem eRead_isQuiet {w : Via} {va : Nat} : (eRead w va).IsQuiet := by
  intro s x e
  have now : eRead w va s = .ok x := e
  unfold eRead eReadN at now
  cases ht : eTrans w va .read s with
  | error _ => rw [ht] at now; exact nomatch now
  | ok y =>
    have read := State.loadPhys_quiet (eTrans_isQuiet s y ht) (a := w.agent) (pa := y.1.1) (n := 8)
    rw [ht] at now
    dsimp only at now
    split at now
    · exact nomatch now
    · next hr =>
      split at hr
      · exact nomatch hr
      · cases hr
        cases now
        exact read

theorem eWrite_isQuiet {w : Via} {va : Nat} {v : W64} : (eWrite w va v).IsQuiet := by
  intro s x e
  have now : eWrite w va v s = .ok x := e
  unfold eWrite at now
  split at now
  · exact nomatch now
  · next ht =>
    cases now
    exact State.storePhys_quiet (eTrans_isQuiet s _ ht)

theorem eRmw_isQuiet {w : Via} {va : Nat} {f : W64 → W64} : (eRmw w va f).IsQuiet := by
  intro s x e
  have now : eRmw w va f s = .ok x := e
  unfold eRmw at now
  split at now
  · exact nomatch now
  · next ht =>
    dsimp only at now
    split at now
    · exact nomatch now
    · cases now
      exact State.storePhys_quiet (eTrans_isQuiet s _ ht)

theorem eWrites_isQuiet {w : Via} {va : Nat} {l : List W64} : (eWrites w va l).IsQuiet := by
  induction l generalizing va with
  | nil => exact .pure
  | cons x r ih => exact .bind eWrite_isQuiet (fun _ => ih)

/-- A command that has halted leaves what its walks have set in the tables. -/
theorem State.after_quiet {s₀ s : State} {a : Agent} {e : Stop} (h : s₀.Quiet s) : s₀.Quiet (s.after a e) := by
  have raised : s₀.Quiet ((s.keepLeases e.seen).raise a (e.seen.ptsOf a)) := State.raise_quiet h.same
  refine raised.foldr (fun t s h => ?_)
  have held (u : State) (l : List Tlb) (k : s₀.Quiet u) : s₀.Quiet { u with tlbs := l } := k.same
  exact .ite h (held _ _ (.ite h (State.storePhys_quiet h)))

/-! ### A block that is given back (11_kvblocks.md R263), and an error that is written -/

theorem quarantine_isQuiet {r : PoolRef} {a : Nat} : (quarantine r a).IsQuiet := .step (fun s => (State.Quiet.refl s).same)

theorem entryIn_isQuiet {w : Via} {key : W64} {a : Nat} {l : List Nat} : (entryIn w key a l).IsQuiet := by
  induction l with
  | nil => exact .pure
  | cons t r ih => exact .bind eRead_isQuiet (fun _ => .bind eRead_isQuiet (fun _ => .ite .pure ih))

theorem release_isQuiet {r : PoolRef} {k : Bool} {a : Nat} {key : W64} : (release r k a key).IsQuiet := by
  unfold release
  refine .bind ePool_isQuiet (fun _ => .ite .pure (.bind eRead_isQuiet (fun _ => .ite eWrite_isQuiet ?_)))
  refine .bind eWrite_isQuiet (fun _ => .bind entryIn_isQuiet (fun _ => ?_))
  split
  · exact quarantine_isQuiet
  · exact .bind eWrites_isQuiet (fun _ => quarantine_isQuiet)

theorem addRef_isQuiet {r : PoolRef} {k : Bool} {a : Nat} : (addRef r k a).IsQuiet :=
  .bind ePool_isQuiet (fun _ => .ite .pure (.bind eRead_isQuiet (fun _ => eWrite_isQuiet)))

theorem bFree_isQuiet {pr : Option PoolRef} {asid : Nat} {k acq : Bool} {a : Nat} : (bFree pr asid k acq a).IsQuiet := by
  unfold bFree
  refine .bind echeck_isQuiet (fun _ => ?_)
  split
  · exact .error
  · exact .bind ePool_isQuiet (fun _ => .bind echeck_isQuiet (fun _ => .bind eRead_isQuiet (fun _ => .bind echeck_isQuiet (fun _ =>
      .ite addRef_isQuiet release_isQuiet))))

theorem releaseReply_quiet {s₀ s : State} {tid : Nat} {r : Ask} (h : s₀.Quiet s) : s₀.Quiet (releaseReply s tid r) := by
  unfold releaseReply
  dsimp only
  split
  · split
    · split
      · next freed => exact bFree_isQuiet.on h freed
      · exact State.after_quiet h
    · exact h
  · exact h

/-- Whether a code is written or its write halts, the contexts stay in their places. -/
theorem writeErr_quiet {s₀ s : State} {w : Via} {va code : Nat} (h : s₀.Quiet s) :
    (∀ t, writeErr w va code s = .ok t → s₀.Quiet t) ∧ ∀ x, writeErr w va code s = .error x → s₀.Quiet x.2 := by
  unfold writeErr
  split
  · exact ⟨fun _ e => Except.ok.inj e ▸ h, nofun⟩
  split
  · next put => exact ⟨fun _ e => Except.ok.inj e ▸ eRmw_isQuiet.on h put, nofun⟩
  · split
    · exact ⟨nofun, fun _ e => Except.error.inj e ▸ State.after_quiet h⟩
    · exact ⟨nofun, fun _ e => Except.error.inj e ▸ State.after_quiet h⟩
    · exact ⟨fun _ e => Except.ok.inj e ▸ State.after_quiet h, nofun⟩

theorem tryErr_quiet {s₀ s : State} {w : Via} {va code : Nat} (h : s₀.Quiet s) : s₀.Quiet (tryErr w va code s) := by
  obtain ⟨ok, error⟩ := writeErr_quiet (w := w) (va := va) (code := code) h
  unfold tryErr
  split
  · next e => exact ok _ e
  · next e => exact error _ e

/-! ### Writes of the dispatch hardware (14_dispatch.md R312, 16_faults.md R362) -/

section
variable {s₀ s : State} (h : s₀.Quiet s)
include h

theorem dispatchWrite_quiet {w : DWrite} : s₀.Quiet (dispatchWrite s w) := by
  have walked := translate_quiet h (d := w.die) (a := .dispatch w.die) (asid := w.asid) (va := sx48 w.va) (acc := w.acc) (k := false)
  unfold dispatchWrite
  refine .ite h (.ite (.ite (State.storePhys_quiet h) h.same) ?_)
  split
  · next ht =>
    rw [ht] at walked
    refine .ite h.same ?_
    split
    · exact State.storePhys_quiet walked
    · exact State.storePhys_quiet walked
  · next ht =>
    rw [ht] at walked
    exact walked.same
  · next ht =>
    rw [ht] at walked
    exact .ite walked.same walked
  · exact h.same

theorem auditEnd_quiet {serial status rcore : Nat} {rsig : W64} : s₀.Quiet (auditEnd s serial status rsig rcore) := by
  unfold auditEnd
  split
  · exact h
  · exact .ite h.same (State.Quiet.same (State.storePhys_quiet (State.storePhys_quiet (State.storePhys_quiet h))))

theorem putNotice_quiet {die : Nat} {f : FaultRec} : s₀.Quiet (putNotice s die f) := by
  have put : s₀.Quiet (putRecord s die f 0xFFF) :=
    State.Quiet.same (.ite h (h.foldl (fun _ _ h => State.storePhys_quiet h)))
  exact .ite h (.ite put h.same)

theorem triggerAll_quiet {tid : Nat} : s₀.Quiet (triggerAll s tid) := .ite h.same (dispatchWrite_quiet (State.raise_quiet h.same))

end

end Sys2Proof.Machine

/-! ## Translation and faults (16_faults.md R365, R367): what settling keeps -/

namespace Sys2Proof.Machine

set_option Elab.async false

/-! ### Tables and loops -/

theorem SMap.mem_del_ne {α : Type} {m : SMap α} {k : Nat} {p : Nat × α} (h : p ∈ m) (hk : p.1 ≠ k) : p ∈ SMap.del m k := by
  induction m with
  | nil => exact h
  | cons q r ih =>
    rw [SMap.del]
    split
    · next here =>
      rcases List.mem_cons.1 h with rfl | h
      · exact absurd here hk
      · exact ih h
    · exact (List.mem_cons.1 h).elim (fun e => e ▸ List.mem_cons_self) (fun h => List.mem_cons_of_mem _ (ih h))

theorem SMap.mem_put_of_mem {α : Type} {m : SMap α} {k : Nat} {v : α} {p : Nat × α} (h : p ∈ m) : p ∈ SMap.put m k v := by
  induction m with
  | nil => exact absurd h List.not_mem_nil
  | cons q r ih =>
    rw [SMap.put]
    split
    · exact List.mem_cons_of_mem _ h
    · exact (List.mem_cons.1 h).elim (fun e => e ▸ List.mem_cons_self) (fun h => List.mem_cons_of_mem _ (ih h))

/-- A write of a table leaves the entries of the other keys. -/
theorem SMap.mem_set_ne {α : Type} [DecidableEq α] {d : α} {m : SMap α} {k : Nat} {v : α} {p : Nat × α} (h : p ∈ m) (hk : p.1 ≠ k) :
    p ∈ SMap.set d m k v := by
  rw [SMap.set]
  split
  · exact SMap.mem_del_ne h hk
  · exact SMap.mem_put_of_mem (SMap.mem_del_ne h hk)

theorem foldl_invariant {α : Type} {P : State → Prop} {f : State → α → State} (hf : ∀ s x, P s → P (f s x)) {l : List α} {s : State} (h : P s) :
    P (l.foldl f s) := by
  induction l generalizing s with
  | nil => exact h
  | cons x r ih => exact ih (hf s x h)

/-- What one element of a loop brings about, and no other undoes, holds at its end. -/
theorem foldl_establishes {α : Type} {P : State → Prop} {f : State → α → State} (hf : ∀ s x, P s → P (f s x)) {l : List α} {x : α} (hx : x ∈ l)
    (done : ∀ s, P (f s x)) {s : State} : P (l.foldl f s) := by
  induction l generalizing s with
  | nil => exact absurd hx List.not_mem_nil
  | cons y r ih =>
    rcases List.mem_cons.1 hx with rfl | hx
    · exact foldl_invariant (l := r) hf (done s)
    · exact ih (s := f s y) hx

/-! ### Core 0 is written -/

/-- The core table does not list core 0 with its reset values, as no table does in which core 0 has been written. -/
structure State.CoreWritten (s : State) : Prop where
  absent : ¬ s.ListsReset

theorem State.modCore_written (s : State) (f : Core → Core) : (s.modCore 0 f).CoreWritten := by
  refine ⟨fun listed => ?_⟩
  unfold ListsReset modCore setCore SMap.set at listed
  dsimp only at listed
  split at listed
  · exact SMap.del_ne _ _ _ listed rfl
  · next changed =>
    rcases SMap.mem_put listed with e | e
    · exact changed (congrArg Prod.snd e).symm
    · exact SMap.del_ne _ _ _ e rfl

namespace State.CoreWritten

variable {s : State} (h : s.CoreWritten)
include h

theorem quiet {t : State} (q : s.Quiet t) : t.CoreWritten := ⟨h.absent ∘ q.cores⟩

theorem same {t : State} (e : t.cores = s.cores := by rfl) : t.CoreWritten :=
  ⟨by rw [ListsReset, e]; exact h.absent⟩

theorem foldl {α : Type} {f : State → α → State} {l : List α} (hf : ∀ (t : State) (x : α), t.CoreWritten → (f t x).CoreWritten) :
    (l.foldl f s).CoreWritten := foldl_invariant hf h

omit h in
theorem ite {p : Prop} [Decidable p] {t u : State} (ht : t.CoreWritten) (hu : u.CoreWritten) : (if p then t else u).CoreWritten := by
  split
  · exact ht
  · exact hu

theorem modCore {g : Nat} {f : Core → Core} : (s.modCore g f).CoreWritten := h.quiet (State.modCore_quiet (.refl s))

theorem modWho {tid rank : Nat} {f : Context → Context} : (s.modWho tid rank f).CoreWritten := by
  unfold State.modWho
  split
  · exact h.same
  · exact .ite h.same h.same

theorem noteTs {tid t : Nat} : (s.noteTs tid t).CoreWritten := .ite h.same h

theorem retireTok {tid rank k t : Nat} : (s.retireTok tid rank k t).CoreWritten := h.modWho.noteTs

end State.CoreWritten

/-! ### Unwinds (17_reliability.md R380) write every core that the table lists -/

section
variable {s : State} (h : s.CoreWritten)
include h

theorem retirePacket_written {die eng : Nat} {p : Packet} : (retirePacket s die eng p).CoreWritten := by
  have gone : (if p.dsp = 2 then (s.modEngine die eng (fun e => { e with packets := e.packets.filter (fun x => x.serial != p.serial) })).modCore
      (spaceCore p.dst) (fun g => { g with doneWins := g.doneWins.filter (fun w => !(w.desc == p.line && w.seq == p.seq)) })
      else s.modEngine die eng (fun e => { e with packets := e.packets.filter (fun x => x.serial != p.serial) })).CoreWritten :=
    .ite (State.CoreWritten.same h).modCore h.same
  exact .ite (State.CoreWritten.ite gone.noteTs gone.retireTok).modWho gone

theorem stampStep_written {die eng : Nat} {p : Packet} {code : Nat} : (stampStep s die eng p code).CoreWritten := by
  have fin {t : State} (h : t.CoreWritten) (v : W64) : (retirePacket (giveReturn t p v) die eng p).CoreWritten :=
    retirePacket_written (.ite h.modWho h)
  have stored : (s.storePhys (.copy die eng) (64 * p.line + 32) 8 (p.stamp code).toNat).CoreWritten := h.quiet (State.storePhys_quiet (.refl s))
  unfold stampStep
  dsimp only
  refine .ite h (.ite (fin stored _) ?_)
  split
  · next write => exact fin (stored.quiet (eWrite_isQuiet _ _ write)) _
  · next e _ =>
    have halted := stored.quiet (State.after_quiet (.refl _) (a := .copy die eng) (e := e))
    split
    · exact .ite (fin halted _) halted.same
    · exact halted
    · exact fin halted _

theorem retireClaims_written {tid rank first : Nat} : (retireClaims s tid rank first).CoreWritten :=
  State.CoreWritten.foldl h.same (fun _ _ h => h.retireTok.modWho)

theorem stampCancelled_written {tid rank : Nat} : (stampCancelled s tid rank).CoreWritten :=
  h.foldl (fun _ _ h => h.foldl (fun _ _ h => h.foldl (fun _ _ h => stampStep_written h)))

theorem aniseQuit_written {q : SqCmd} {die code : Nat} : (aniseQuit s q die code).CoreWritten := by
  have failed : (∀ t, aniseFail s q die code = .ok t → t.CoreWritten) ∧ ∀ x, aniseFail s q die code = .error x → x.2.CoreWritten := by
    unfold aniseFail
    dsimp only
    split
    · exact ⟨fun _ e => Except.ok.inj e ▸ h.same, nofun⟩
    · exact ⟨fun _ e => Except.ok.inj e ▸ h.same, nofun⟩
    · obtain ⟨ok, error⟩ := writeErr_quiet (.refl s) (w := ⟨.anise die, die, q.asid, q.k⟩) (va := q.a.toNat + 48) (code := code)
      exact ⟨fun t e => h.quiet (ok t e), fun x e => h.quiet (error x e)⟩
  have leave {t : State} (h : t.CoreWritten) : (aniseLeave t q die code).CoreWritten := by
    have dropped : (t.dropAnise q).CoreWritten := h.same
    exact .ite dropped.modWho.noteTs dropped.retireTok
  unfold aniseQuit
  split
  · next e => exact leave (failed.1 _ e)
  · next e => exact leave (failed.2 _ e)

theorem walkEnd_written {cl : Nat} {q : SqCmd} {code : Nat} : (walkEnd s cl q code).CoreWritten := by
  have dropped : ((tryErr (walkVia cl q) (q.a.toNat + 24) code s).dropWalk q).CoreWritten := (h.quiet (tryErr_quiet (.refl s))).same
  exact .ite dropped.modWho.noteTs dropped.retireTok

theorem cloveEnd_written {g : Nat} {q : SqCmd} {code : Nat} : (cloveEnd s g q code).CoreWritten :=
  (h.quiet (tryErr_quiet (.refl s))).modCore.retireTok

theorem cancelCommands_written {tid rank first : Nat} : (cancelCommands s tid rank first).CoreWritten :=
  ((h.foldl (fun _ _ h => aniseQuit_written h)).foldl (fun _ _ h => walkEnd_written h)).foldl (fun _ _ h => h.foldl (fun _ _ h => cloveEnd_written h))

theorem cancelMace_keeps_written {tid rank first : Nat} : (cancelMace s tid rank first).CoreWritten :=
  h.foldl (fun _ _ h => h.modCore.foldl (fun _ _ h => h.retireTok))

theorem unwindCancel_keeps_written {tid rank first : Nat} : (unwindCancel s tid rank first).CoreWritten :=
  cancelCommands_written (cancelMace_keeps_written (stampCancelled_written (State.CoreWritten.same (retireClaims_written h))))

end

theorem cancelMace_written (s : State) (tid rank first : Nat) : (cancelMace s tid rank first).CoreWritten := by
  by_cases listed : s.ListsReset
  · refine foldl_establishes (P := State.CoreWritten) (fun _ _ h => h.modCore.foldl (fun _ _ h => h.retireTok)) listed (fun s => ?_)
    exact (s.modCore_written _).foldl (fun _ _ h => h.retireTok)
  · exact cancelMace_keeps_written ⟨listed⟩

theorem settleUnwinds_written {s : State} (h : s.unwinds ≠ []) : (settleUnwinds s).CoreWritten := by
  obtain ⟨u, hu⟩ := List.exists_mem_of_ne_nil _ h
  exact foldl_establishes (P := State.CoreWritten) (fun _ _ h => unwindCancel_keeps_written h) hu (fun s => cancelCommands_written (cancelMace_written ..))

end Sys2Proof.Machine

/-! ## Translation and faults (16_faults.md R365, R367): a context table that lists the faulting context twice

A refused address that a context is to take leaves a trace in the state, whatever the tables look like: the context's entry, its frame, or what must have
been written to remove it. Settling never removes every such trace, so that the state after an answer shows whether the context has taken it. -/

namespace Sys2Proof.Machine

set_option Elab.async false

/-! ### The trace of a refused address -/

/-- A trace of a refused address: the address itself in a context other than 0; a frame; a context bound under number 0; or what removes an entry of
number 0 and stays: core 0 has been written, or the additions of a task have been refused. -/
inductive State.Traced (s : State) : Prop where
  | core (h : s.CoreWritten)
  | task (tid : Nat) (h : (s.task tid).refused = true)
  | frame (h : s.frames ≠ [])
  | refused (c : Nat) (hc : c ≠ 0) (h : (s.ctx c).refused ≠ none)
  | bound (x : Context) (h : (0, x) ∈ s.bound)

/-- No context bound to a task runs on core 0. -/
def State.Away (s : State) (tid : Nat) : Prop := ∀ c x, (c, x) ∈ s.bound → x.tid = tid → coreOf c ≠ 0

theorem State.mem_bound {s : State} {c : Nat} {x : Context} : (c, x) ∈ s.bound ↔ (c, x) ∈ s.ctxs ∧ (x.st != .unbound) = true := List.mem_filter

/-- Tables with the same holders name the same refused addresses. -/
theorem refused_of_holders (c : Nat) : ∀ m n : SMap Context, n.map holderOf = m.map holderOf →
    (SMap.get Context.init n c).refused = (SMap.get Context.init m c).refused
  | [], [], _ => rfl
  | [], _ :: _, h => nomatch h
  | _ :: _, [], h => nomatch h
  | (j, x) :: m, (i, y) :: n, h => by
    obtain ⟨head, tail⟩ := List.cons.inj h
    obtain ⟨hj, -, -, hr⟩ : i = j ∧ (y.st != .unbound) = (x.st != .unbound) ∧ y.tid = x.tid ∧ y.refused = x.refused := by
      simpa only [holderOf, Prod.mk.injEq] using head
    subst hj
    rw [SMap.get, SMap.get]
    split
    · exact hr
    · exact refused_of_holders c m n tail

/-- Tables with the same holders bind the same contexts to the same tasks. -/
theorem bound_of_holders {s t : State} (h : t.ctxs.map holderOf = s.ctxs.map holderOf) {c : Nat} {x : Context} (hx : (c, x) ∈ s.bound) :
    ∃ y, (c, y) ∈ t.bound ∧ y.tid = x.tid := by
  obtain ⟨listed, bound⟩ := State.mem_bound.1 hx
  obtain ⟨⟨i, y⟩, hy, same⟩ := List.mem_map.1 (h ▸ List.mem_map_of_mem (f := holderOf) listed)
  obtain ⟨hi, hb, ht, -⟩ : i = c ∧ (y.st != .unbound) = (x.st != .unbound) ∧ y.tid = x.tid ∧ y.refused = x.refused := by
    simpa only [holderOf, Prod.mk.injEq] using same
  exact ⟨y, State.mem_bound.2 ⟨hi ▸ hy, hb.trans bound⟩, ht⟩

theorem State.Away.quiet {s t : State} {tid : Nat} (h : s.Away tid) (q : s.Quiet t) : t.Away tid := by
  intro c x hx ht
  obtain ⟨y, hy, same⟩ := bound_of_holders q.holders.symm hx
  exact h c y hy (same.trans ht)

namespace State.Traced

variable {s : State} (h : s.Traced)
include h

theorem quiet {t : State} (q : s.Quiet t) : t.Traced := by
  cases h with
  | core h => exact .core (h.quiet q)
  | task tid h => exact .task tid (by rw [State.task, q.tasks]; exact h)
  | frame h => exact .frame (by rw [q.frames]; exact h)
  | refused c hc h => exact .refused c hc (by rw [State.ctx, refused_of_holders c _ _ q.holders]; exact h)
  | bound x h =>
    obtain ⟨y, hy, -⟩ := bound_of_holders q.holders h
    exact .bound y hy

/-- A change of the task table that refuses no less. -/
theorem tasks {t : State} (hr : ∀ n, (s.task n).refused = true → (t.task n).refused = true) (hc : t.ctxs = s.ctxs := by rfl)
    (hf : t.frames = s.frames := by rfl) (hg : t.cores = s.cores := by rfl) : t.Traced := by
  cases h with
  | core h => exact .core (h.same hg)
  | task tid h => exact .task tid (hr tid h)
  | frame h => exact .frame (hf ▸ h)
  | refused c h0 h => exact .refused c h0 (by rw [State.ctx, hc]; exact h)
  | bound x h => exact .bound x (by rw [State.bound, hc]; exact h)

/-- A change of the frames' contents. -/
theorem frames {t : State} (hf : t.frames = [] → s.frames = []) (hc : t.ctxs = s.ctxs := by rfl) (ht : t.tasks = s.tasks := by rfl)
    (hg : t.cores = s.cores := by rfl) : t.Traced := by
  cases h with
  | core h => exact .core (h.same hg)
  | task tid h => exact .task tid (by rw [State.task, ht]; exact h)
  | frame h => exact .frame (h ∘ hf)
  | refused c h0 h => exact .refused c h0 (by rw [State.ctx, hc]; exact h)
  | bound x h => exact .bound x (by rw [State.bound, hc]; exact h)

/-- A change of a context other than 0 that takes no refused address back. -/
theorem modCtx {c : Nat} {f : Context → Context} (hc : c ≠ 0) (hf : ∀ x, (f x).refused = x.refused) : (s.modCtx c f).Traced := by
  cases h with
  | core h => exact .core h.same
  | task tid h => exact .task tid h
  | frame h => exact .frame h
  | refused e h0 h =>
    refine .refused e h0 ?_
    by_cases he : e = c
    · rw [he, State.ctx_modCtx_same, hf]
      exact he ▸ h
    · rw [State.ctx_modCtx_ne _ _ he]
      exact h
  | bound x h =>
    obtain ⟨listed, bound⟩ := State.mem_bound.1 h
    exact .bound x (State.mem_bound.2 ⟨SMap.mem_set_ne listed hc.symm, bound⟩)

theorem noteTs {tid t : Nat} : (s.noteTs tid t).Traced := by
  unfold State.noteTs
  split
  · refine h.tasks fun n refused => ?_
    by_cases hn : n = tid
    · rw [hn, State.task_modTask_same]
      exact hn ▸ refused
    · rw [State.task_modTask_ne _ _ hn]
      exact refused
  · exact h

end State.Traced

/-! ### Writes of the dispatch hardware -/

/-- A store of core 0 writes that core's clock. -/
theorem State.storePhys_written (s : State) (pa n v : Nat) : (s.storePhys (.core 0) pa n v).CoreWritten := by
  have stamped : (((s.writeN pa n v).clearBad pa n).stampStore (.core 0) (pa / 64)).CoreWritten :=
    State.modCore_written _ (fun x => { x with pts := tick64 _ })
  exact stamped.quiet (State.wake_quiet (State.refreshL1_quiet (.refl _)))

theorem performStore_traced {s : State} (h : s.Traced) (c : Nat) : (performStore s c).Traced := by
  unfold performStore
  split
  · exact h
  · split
    · split
      · exact h
      · next r _ _ _ _ _ =>
        by_cases hc : c = 0
        · rw [hc]
          exact .core (State.storePhys_written ..)
        · exact (h.modCtx (f := fun x => { x with stores := r }) hc (fun _ => rfl)).quiet (State.storePhys_quiet (.refl _))
    · exact h

theorem flushN_traced {s : State} (h : s.Traced) (c n : Nat) : (flushN s c n).Traced := by
  induction n generalizing s with
  | zero => exact h
  | succ n ih => exact ih (performStore_traced h c)

theorem resumeTrigger_traced {s : State} (h : s.Traced) (w : DWrite) : (resumeTrigger s w).Traced := by
  unfold resumeTrigger
  split
  · exact h
  · exact (foldl_invariant (P := State.Traced) (fun _ p h => flushN_traced h p.1 _) h).quiet (triggerAll_quiet (.refl _))

theorem refuseBound_traced {s : State} (h : s.Traced) (die serial tid code : Nat) : (refuseBound s die serial tid code).Traced := by
  unfold refuseBound
  split
  · exact h
  · split
    · exact h
    · exact .task tid (by rw [State.task_modTask_same])

theorem settleWrites_traced {s : State} (h : s.Traced) : (settleWrites s).Traced := by
  refine foldl_invariant (P := State.Traced) (fun t w h => ?_) (h.quiet (State.Quiet.same (.refl s)))
  split
  · exact h.quiet (auditEnd_quiet (.refl t))
  · exact h.quiet (putNotice_quiet (.refl t))
  · exact resumeTrigger_traced h w
  · split
    · exact refuseBound_traced h ..
    · exact h.quiet (dispatchWrite_quiet (.refl t))

/-! ### Kills -/

/-- A trace of a refused address while no context of a task that is killed runs on core 0. -/
structure State.TracedAway (s : State) (tid : Nat) : Prop where
  traced : s.Traced
  away : s.Away tid

namespace State.TracedAway

variable {s : State} {tid : Nat} (h : s.TracedAway tid)
include h

theorem quiet {t : State} (q : s.Quiet t) : t.TracedAway tid := ⟨h.traced.quiet q, h.away.quiet q⟩

/-- A change of a context of the task, wherever it is, that takes no refused address back. -/
theorem modWho {rank : Nat} {f : Context → Context} (hf : ∀ x, (f x).refused = x.refused) : (s.modWho tid rank f).TracedAway tid := by
  unfold State.modWho
  split
  · next c at_ =>
    have there : coreOf c ≠ 0 := by
      unfold State.whereIs at at_
      split at at_
      · next e x found =>
        obtain rfl : e = c := Option.some.inj at_
        have mine := List.find?_some found
        simp only [Bool.and_eq_true, beq_iff_eq] at mine
        exact h.away e x (List.mem_of_find?_eq_some found) mine.1
      · exact nomatch at_
    have hc : c ≠ 0 := fun e => there (by rw [e, coreOf])
    refine ⟨h.traced.modCtx hc hf, fun e x hx ht => ?_⟩
    obtain ⟨listed, bound⟩ := State.mem_bound.1 hx
    rcases SMap.mem_set listed with new | old
    · obtain ⟨rfl, -⟩ := Prod.mk.inj new
      exact there
    · exact h.away e x (State.mem_bound.2 ⟨old, bound⟩) ht
  · split
    · exact ⟨h.traced.frames (fun none => List.map_eq_nil_iff.1 none), h.away⟩
    · exact ⟨h.traced.frames id, h.away⟩

theorem noteTs {t : Nat} : (s.noteTs tid t).TracedAway tid := by
  refine ⟨h.traced.noteTs, ?_⟩
  unfold State.noteTs
  split <;> exact h.away

theorem retireTok {rank k t : Nat} : (s.retireTok tid rank k t).TracedAway tid := (h.modWho (f := fun x => x.tokDone k t) (fun _ => rfl)).noteTs

theorem foldl {α : Type} {f : State → α → State} {l : List α} (hf : ∀ (t : State), ∀ x ∈ l, t.TracedAway tid → (f t x).TracedAway tid) :
    (l.foldl f s).TracedAway tid := by
  induction l generalizing s with
  | nil => exact h
  | cons x r ih => exact ih (hf s x List.mem_cons_self h) (fun t y hy => hf t y (List.mem_cons_of_mem _ hy))

theorem maceCancel {g : Nat} : (maceCancel s g tid).TracedAway tid := by
  refine State.TracedAway.foldl (h.quiet (State.modCore_quiet (.refl s))) fun t m hm h => ?_
  have mine : m.tid = tid := beq_iff_eq.1 (List.mem_filter.1 hm).2
  rw [mine]
  exact h.retireTok

theorem mapFrames {f : Nat × Frame → Nat × Frame} : ({ s with frames := s.frames.map f } : State).TracedAway tid :=
  ⟨h.traced.frames (fun none => List.map_eq_nil_iff.1 none), h.away⟩

theorem releaseReplies : (releaseReplies s tid).TracedAway tid := by
  refine h.foldl fun t r _ h => ?_
  have kept := h.modWho (rank := r) (f := fun x => { x with asks := x.asks.filter (fun a => a.reply.isNone) }) (fun x => rfl)
  exact kept.foldl (fun t a _ h => h.quiet (releaseReply_quiet (.refl t)))

end State.TracedAway

theorem killPosted_quiet {s₀ s : State} {tid rank : Nat} (h : s₀.Quiet s) : s₀.Quiet (killPosted s tid rank) := h.same

theorem stopQueueOps_quiet {s₀ s : State} {c : Nat} (h : s₀.Quiet s) : s₀.Quiet (stopQueueOps s c) := State.modCore_quiet h

theorem maceCancel_keeps_written {s : State} {g tid : Nat} (h : s.CoreWritten) : (maceCancel s g tid).CoreWritten :=
  h.modCore.foldl (fun _ _ h => h.retireTok)

theorem maceCancel_written (s : State) (tid : Nat) : (maceCancel s 0 tid).CoreWritten := (s.modCore_written _).foldl (fun _ _ h => h.retireTok)

theorem releaseReplies_written {s : State} {tid : Nat} (h : s.CoreWritten) : (releaseReplies s tid).CoreWritten :=
  h.foldl (fun _ _ h => h.modWho.foldl (fun t _ h => h.quiet (releaseReply_quiet (.refl t))))

/-- A kill of a task that runs on core 0 writes that core; any other reaches no entry of number 0. -/
theorem killWork_traced {s : State} (h : s.Traced) (tid : Nat) : (killWork s tid).Traced := by
  have posted : s.Quiet ((s.ranks tid).foldl (fun s r => killPosted s tid r) s) := (State.Quiet.refl s).foldl (fun _ _ h => killPosted_quiet h)
  unfold killWork
  dsimp only
  generalize (s.ranks tid).foldl (fun s r => killPosted s tid r) s = u at posted ⊢
  by_cases away : u.Away tid
  case pos =>
    refine (State.TracedAway.releaseReplies (State.TracedAway.mapFrames ?_)).traced
    refine State.TracedAway.foldl ?_ (fun t p _ h => h.quiet (stopQueueOps_quiet (.refl t)))
    refine State.TracedAway.foldl ?_ (fun t g _ h => h.quiet (State.modCore_quiet (.refl t)))
    exact (State.TracedAway.mk (h.quiet posted) away).foldl (fun t g _ h => h.maceCancel)
  case neg =>
    obtain ⟨c, x, hx, ht, hc⟩ : ∃ c x, (c, x) ∈ u.bound ∧ x.tid = tid ∧ coreOf c = 0 := by
      simpa only [State.Away, not_forall, not_not, exists_prop] using away
    have core : 0 ∈ ((u.bound.filter (fun p => p.2.tid == tid)).map (fun p => coreOf p.1)).eraseDups :=
      List.mem_eraseDups.2 (List.mem_map.2 ⟨(c, x), List.mem_filter.2 ⟨hx, beq_iff_eq.2 ht⟩, hc⟩)
    have cancelled := foldl_establishes (P := State.CoreWritten)
      (f := fun s g => maceCancel s g tid) (fun _ _ h => maceCancel_keeps_written h) core (fun s => maceCancel_written s tid)
      (s := u)
    have framed (t : State) (l : SMap Frame) (h : t.CoreWritten) : ({ t with frames := l } : State).CoreWritten := h.same
    refine .core (releaseReplies_written (framed _ _ ?_))
    exact (cancelled.foldl (fun _ _ h => h.modCore)).foldl (fun t _ h => h.quiet (stopQueueOps_quiet (.refl t)))

theorem settleKills_traced {s : State} (h : s.Traced) : (settleKills s).Traced := by
  unfold settleKills
  generalize s.tasks.filter (fun t => t.2.state == 5) = l
  induction l generalizing s with
  | nil => exact h
  | cons p r ih =>
    rw [List.foldl_cons]
    exact ih (killWork_traced h p.1)

/-- Settling leaves a trace of a refused address: an unwind writes every core that is listed, and the rest keeps it. -/
theorem settleAll_traced {s : State} (h : s.Traced) : (settleAll s).Traced := by
  have unwound : (settleUnwinds s).Traced := by
    by_cases none : s.unwinds = []
    · rw [settleUnwinds, none]
      exact h.quiet (State.Quiet.same (.refl s))
    · exact .core (settleUnwinds_written none)
  have freed (t : State) (h : t.Traced) : (freeSeals t).Traced := h.quiet (State.Quiet.same (.refl t))
  unfold settleAll
  refine settleKills_traced ?_
  split
  · exact freed _ (settleWrites_traced unwound)
  · exact settleWrites_traced unwound

/-! ### The counterexample -/

/-- A context that is to take a refused address leaves a trace. -/
theorem traced_of_who {s : State} {tid rank : Nat} (ht : tid < 4096) (h : (s.who tid rank).refused ≠ none) : s.Traced := by
  unfold State.who at h
  split at h
  · next c at_ =>
    by_cases hc : c = 0
    · unfold State.whereIs at at_
      split at at_
      · next e x found =>
        obtain rfl : e = c := Option.some.inj at_
        exact .bound x (hc ▸ List.mem_of_find?_eq_some found)
      · exact nomatch at_
    · exact .refused c hc h
  · rw [if_pos ht] at h
    refine .frame fun none => h ?_
    rw [State.frame, none]
    rfl

/-- The fault of context 0, rank 0 of task 0, for which die 0 has the identifier 5. -/
def wFault : FaultRec := ⟨some 5, 1, 4096, 0, 0, false, 0, 0, 0, 0, 0, false⟩

/-- Task 0 runs with two faults outstanding; its only context is listed under number 0, where an unbound one is listed before it, which is what a read of
number 0 finds. -/
def faultTwice : State :=
  { State.reset with
    ctxs := [(0, Context.init), (0, { Context.init with st := .ready })]
    cores := [(0, Core.init)]
    dies := [(0, { Die.init with faults := [wFault] })]
    tasks := [(0, { Task.init with state := 2, faults := 2 })] }

/-- After the answer ERROR the unbound context is the only one listed, with the address; nothing of the answer is left for task 0's. -/
theorem settleAll_fresume_faultTwice : ¬ (settleAll (fresume faultTwice 0 5 true)).Traced := by
  have cores : (settleAll (fresume faultTwice 0 5 true)).cores = [(0, Core.init)] := by decide +kernel
  have tasks : (settleAll (fresume faultTwice 0 5 true)).tasks = [(0, { Task.init with state := 2, faults := 1, errors := 1 })] := by decide +kernel
  have frames : (settleAll (fresume faultTwice 0 5 true)).frames = [] := by decide +kernel
  have ctxs : (settleAll (fresume faultTwice 0 5 true)).ctxs = [(0, { Context.init with refused := some 4096 })] := by decide +kernel
  rintro (core | ⟨tid, refused⟩ | frame | ⟨c, hc, refused⟩ | ⟨x, bound⟩)
  · exact core.absent (by rw [State.ListsReset, cores]; exact List.mem_singleton.2 rfl)
  · rw [State.task, tasks, SMap.get] at refused
    split at refused <;> exact absurd refused Bool.false_ne_true
  · exact frame frames
  · rw [State.ctx, ctxs, SMap.get, if_neg hc.symm] at refused
    exact refused rfl
  · rw [State.bound, ctxs] at bound
    exact absurd bound List.not_mem_nil

/-- Refutes O54: an answer ERROR of a core's fault makes the context take ACCESS. In a table that lists the faulting context's number twice the answer
finds the context's place, and leaves the address in the entry that a read of that number gives, which is not the context's; and no state settles to
this one in which the context has the address. -/
theorem not_translationAndFaults : ¬ Obligations.TranslationAndFaults := by
  unfold Obligations.TranslationAndFaults
  intro h
  obtain ⟨-, -, -, -, -, -, -, answers⟩ := h faultTwice 0 (by decide)
  obtain ⟨t, u, -, error, -, -, -, -, -, -, -, taken⟩ := answers 5 wFault (by decide +kernel) rfl (by decide) (by decide +kernel) (by decide +kernel)
    (by decide +kernel) (.inl (by decide +kernel))
  have settled : settleAll (fresume faultTwice 0 5 true) = settleAll u := by
    simpa only [exec, execFresumeError, stepDone, Host.Outcome.next.injEq, Nat.zero_lt_two, if_true] using error
  refine settleAll_fresume_faultTwice (settled ▸ settleAll_traced (traced_of_who (tid := wFault.tid) (rank := wFault.rank) (by decide) ?_))
  rw [taken]
  exact nofun

end Sys2Proof.Machine
